-- ==== Sys2Proof/Word.lean ====
section
/-!
DEFINITION. Sys2Proof/Word.lean: the bit-vector words of the engine's interface and the kinds of thing they spell.
R8: bits are numbered from 0, the least significant; multi-byte fields are little-endian.
-/
namespace Sys2Proof

/-- One byte of storage, of a packet or of a bundle (R8). -/
abbrev Byte := BitVec 8

/-- A 32-bit register or field (R10). -/
abbrev Word := BitVec 32

/-- A 64-bit register or field (R10). -/
abbrev DWord := BitVec 64

/-- One 64 B line of local memory (R35); bits [8i+7:8i] are byte i of the line. -/
abbrev Line := BitVec 512

/-- A place address: block [19:12], cube [11:6], chip [5:0] (R33). -/
abbrev Place := BitVec 20

end Sys2Proof
end

