-- ==== Sys2Proof/Syntax.lean ====
section
/-!
DEFINITION. Sys2Proof/Syntax.lean: the commands the engine takes at its interfaces (R19) and at its own timers, one
constructor for each row of spec/opcode_table.json, and the shapes of their operands. A command's operands are what the
other party puts on the interface (an address, a register value, a packet as it stands on the wire) or what a physical
measurement reads (lanes locked, lines found in error).
-/
namespace Sys2Proof

/-- The source that the memory controller presents with each tap pair (R75). -/
inductive WrSource where
  | engine | tier | fabric | storage | other
  deriving DecidableEq, Repr

/-- What the bark decoder finds in a line as it is read (R322). -/
inductive Bark where
  | clean | corrected | uncorrectable
  deriving DecidableEq, Repr

/-- A line that a read of local memory does not return CLEAN: its address, the bark outcome, and the 64 B the decoder
passes on (R322, R323). -/
structure LineRead where
  line : BitVec 34
  bark : Bark
  data : Line
  deriving DecidableEq, Repr

/-- What a descriptor carries beside its opcode and operands (R498), and the queue that holds it. -/
structure CmdHdr where
  queue   : Fin 4
  flags   : Byte
  mailbox : BitVec 16
  seq     : Word
  timeout : Word
  deriving DecidableEq, Repr

/-- A SAP packet as it stands on the wire (R107, R108), less its TYPE, which the command's own row names: the header in
clear, the session COUNTER of its envelope (R302), the hop count of its envelope, the encrypted payload and the tag. -/
structure SapPkt where
  flags   : Byte
  gen     : Byte
  planes  : Byte
  region  : BitVec 16
  sector  : Byte
  pos     : Byte
  row     : Word
  stamp   : Word
  seq     : Word
  release : Word
  lineMap : DWord
  counter : DWord
  hops    : Byte
  body    : List Byte
  tag     : BitVec 128
  deriving DecidableEq, Repr

/-- The key under which an owner keeps a data-bearing packet until it is acknowledged (R111, R112). -/
structure PktKey where
  ring   : Bool
  region : BitVec 12
  row    : BitVec 20
  stamp  : Word
  seq    : Word
  deriving DecidableEq, Repr

/-- What the xSPI read of one configuration image answers (R437). -/
inductive FlashRead where
  | error
  | bytes (b : List Byte)
  deriving DecidableEq, Repr

/-- What power-on finds in the engine's stores: the rows and columns of SRAM repaired from spares, and a bank that remains faulty
(R337); the units whose wear record in NVM fails its check, as 128 × kind + unit (R425). -/
structure StoreTest where
  soft   : Nat
  faulty : Option (Fin 112)
  nvmBad : List Nat
  deriving DecidableEq, Repr

/-- What the SRAM patrol finds in a bank: a corrected word, or an uncorrectable one by the kind of content that lies
there, in the order of R338's table; `other` is content that the table does not list. -/
inductive SramFinding where
  | corrected
  | context (leaf : BitVec 20)
  | journalIndex
  | program (slot : Fin 16)
  | applyCursor
  | capture (region : BitVec 12) (row : BitVec 20) (sector : Byte) (ring : Word)
  | delta (k : PktKey)
  | accSlot (slot : Nat)
  | hwCache (sector : BitVec 28)
  | bitmapLine (index : Nat)
  | command (mailbox : BitVec 8)
  | ledger (n : BitVec 12)
  | other
  deriving DecidableEq, Repr

/-- The demands that start the fast clocks (R438, R485). -/
inductive Demand where
  | doorbell | coreRegister | cryptoRegister | tapPair | intake | aperture | packet
  | interrupt (source : Fin 512)
  deriving DecidableEq, Repr

/-- What starts a port's wake from LOW (R308, R310). -/
inductive WakeSource where
  | queuedPacket | farEnd | powerLoop | fastClocks
  deriving DecidableEq, Repr

/-- The instruments of the IEEE 1687 network (R547). -/
inductive Instrument where
  | sramBist (bank : Fin 112)
  | laneTest (lane : Fin 64)
  | eyeMonitor (lane : Fin 64)
  | temperature (quadrant : Fin 4)
  | fuseRead (word : Fin 64)
  deriving DecidableEq, Repr

/-- The commands of the engine: one constructor for each row of spec/opcode_table.json, in the table's order. -/
inductive Instr where
  /-- REGISTER_WRITE (R11). -/
  | registerWrite (off : Nat) (wide : Bool) (v : DWord)
  /-- BAD_REGISTER_ACCESS (R10). -/
  | badRegisterAccess (wr : Bool) (off : Nat) (bytes : Nat) (v : DWord)
  /-- DESCRIPTOR_WRITE (R70). -/
  | descriptorWrite (off : Nat) (wide : Bool) (v : DWord)
  /-- DESCRIPTOR_VALID (R69). -/
  | descriptorValid (n : BitVec 12)
  /-- PROGRAM_STORE_WRITE (R201). -/
  | programStoreWrite (off : Nat) (wide : Bool) (v : DWord)
  /-- PROGRAM_SLOT_VALID (R202). -/
  | programSlotValid (slot : Fin 16) (v : Word)
  /-- START_LOCK (R448). -/
  | startLock (v : Word)
  /-- ROLL_CALL_RECORD (R446). -/
  | rollCallRecord (key : Word) (requester : Place) (pos : Fin 16) (rec : List Byte)
  /-- ROLL_CALL_RESEND (R446). -/
  | rollCallResend (completed : List (Fin 16))
  /-- ROLL_CALL_TIMEOUT (R447). -/
  | rollCallTimeout
  /-- MAP_ARM (R442). -/
  | mapArm (v : Word)
  /-- MAP_WRITE (R442). -/
  | mapWrite (key : Word) (requester : Place) (off : Nat) (data : List Byte)
  /-- MAP_CHILD_TIMEOUT (R442). -/
  | mapChildTimeout (child : Nat)
  /-- MAP_WAIT_EXPIRY (R443). -/
  | mapWaitExpiry
  /-- MAP_FETCH_COMPLETE (R443). -/
  | mapFetchComplete (data : Option (List Byte))
  /-- CORE_RESET (R451). -/
  | coreReset (v : Word)
  /-- CORE_RESUMED (R451). -/
  | coreResumed (shadowOk : Bool) (micros : Nat)
  /-- CRYPTO_RESET (R454). -/
  | cryptoReset (v : Word) (failing : Option (Fin 12))
  /-- WATCHDOG_EXPIRY (R457). -/
  | watchdogExpiry
  /-- PRUNE_CLUSTER (R460). -/
  | pruneCluster (v : Word)
  /-- PRUNE_LANE (R461). -/
  | pruneLane (v : Word)
  /-- UNPRUNE (R462). -/
  | unprune (v : Word)
  /-- CLUSTER_FAULT (R460). -/
  | clusterFault (c : Fin 64)
  /-- SLEEP_REQUEST (R438). -/
  | sleepRequest (v : Word)
  /-- FAST_CLOCK_WAKE (R438). -/
  | fastClockWake (demand : Demand)
  /-- ZEROIZE_COMMAND (R410). -/
  | zeroizeCommand (v : Word)
  /-- PORT_RETRAIN (R280). -/
  | portRetrain (p : Fin 4) (v : Word)
  /-- PORT_TEST_RUN (R311). -/
  | portTestRun (p : Fin 4) (v : Word)
  /-- BOUNDARY_DECLARE (R157). -/
  | boundaryDeclare (v : DWord)
  /-- JOB_RISK_WRITE (R431). -/
  | jobRiskWrite (v : DWord)
  /-- TIME_CORRECTION (R468). -/
  | timeCorrection (v : DWord)
  /-- TIME_READ (R466). -/
  | timeRead
  /-- ALARM_SET (R470). -/
  | alarmSet (v : DWord)
  /-- TIME_ALARM (R470). -/
  | timeAlarm
  /-- PPS_EDGE (R469). -/
  | ppsEdge
  /-- PPS_LOST (R469). -/
  | ppsLost
  /-- GCOUNT_DELIVERY (R472). -/
  | gcountDelivery (v : DWord)
  /-- GCNT_LOST (R472). -/
  | gcntLost
  /-- SYNC_SIGNAL (R475). -/
  | syncSignal (v : Word)
  /-- SYNC_SET (R475). -/
  | syncSet (v : DWord)
  /-- WATCH_ENABLE (R477). -/
  | watchEnable (n : Fin 64) (v : Word)
  /-- GROUP_COALESCE_TIMER (R480). -/
  | groupCoalesceTimer (g : Fin 64)
  /-- HOLDOFF_END (R480). -/
  | holdoffEnd (g : Fin 8)
  /-- GROUP_UNMASK (R481). -/
  | groupUnmask (g : Fin 64) (v : Word)
  /-- INTERRUPT_CLAIM (R484). -/
  | interruptClaim (t : Fin 2)
  /-- INTERRUPT_COMPLETE (R484). -/
  | interruptComplete (t : Fin 2) (v : Word)
  /-- DOORBELL (R495). -/
  | doorbell (q : Fin 4) (v : Word)
  /-- QUEUE_ENABLE (R497). -/
  | queueEnable (q : Fin 4) (v : Word)
  /-- QUEUE_DISABLE (R497). -/
  | queueDisable (q : Fin 4) (v : Word)
  /-- COMMAND_ACCEPT (R501). -/
  | commandAccept (q : Fin 4) (fetched : Option (List Byte))
  /-- COMMAND_TIMEOUT (R456). -/
  | commandTimeout (mailbox : BitVec 8)
  /-- MAILBOX_HEADER_READ (R505). -/
  | mailboxHeaderRead (b : BitVec 8)
  /-- MAILBOX_ACK (R506). -/
  | mailboxAck (v : DWord)
  /-- LEDGER_LATCH (R391). -/
  | ledgerLatch (v : DWord)
  /-- NOP (R499). -/
  | nop (h : CmdHdr)
  /-- RING_OPEN (R186). -/
  | ringOpen (h : CmdHdr) (n : Word)
  /-- RING_SEAL (R158). -/
  | ringSeal (h : CmdHdr) (step : Word) (seq : Byte)
  /-- RING_COMMIT (R177). -/
  | ringCommit (h : CmdHdr) (r : Word)
  /-- RING_ROLLBACK (R181). -/
  | ringRollback (h : CmdHdr) (c n : Word)
  /-- STEP_RETIRE (R138). -/
  | stepRetire (h : CmdHdr) (t : Word)
  /-- STEP_RETIREMENT (R138). -/
  | stepRetirement
  /-- UPDATE_RUN (R192). -/
  | updateRun (h : CmdHdr) (addr : DWord)
  /-- RUN_RESUME (R208). -/
  | runResume (h : CmdHdr) (addr : DWord)
  /-- RUN_CANCEL (R208). -/
  | runCancel (h : CmdHdr) (addr : DWord)
  /-- GRAFT_BEGIN (R252). -/
  | graftBegin (h : CmdHdr) (x : Byte)
  /-- GRAFT_BEGIN_STANDBY (R267). -/
  | graftBeginStandby (h : CmdHdr) (x : Byte)
  /-- RESUME_SET (R257). -/
  | resumeSet (h : CmdHdr) (addr : DWord) (count : BitVec 16)
  /-- EVACUATE_COPY (R268). -/
  | evacuateCopy (h : CmdHdr) (spare : Word)
  /-- EVACUATE_CUTOVER (R269). -/
  | evacuateCutover (h : CmdHdr) (spare : Word)
  /-- EVACUATE_ABORT (R271). -/
  | evacuateAbort (h : CmdHdr) (spare : Word)
  /-- SCRUB_RANGE (R330). -/
  | scrubRange (h : CmdHdr) (base len : DWord) (flags : Word) (bad : List LineRead)
  /-- ANCHOR_WRITE (R341). -/
  | anchorWrite (h : CmdHdr) (addr : DWord)
  /-- ANCHOR_CANCEL (R358). -/
  | anchorCancel (h : CmdHdr) (addr : DWord)
  /-- ANCHOR_RESTORE (R361). -/
  | anchorRestore (h : CmdHdr) (addr : DWord)
  /-- RE_LEAF (R364). -/
  | reLeaf (h : CmdHdr) (region : BitVec 16) (step ring : Word)
  /-- ADOPT (R366). -/
  | adopt (h : CmdHdr) (addr : DWord)
  /-- TENSOR_DIGEST (R375). -/
  | tensorDigest (h : CmdHdr) (addr : DWord)
  /-- STATUS_GET (R511). -/
  | statusGet (inst : Byte)
  /-- VIEW_SET (R513). -/
  | viewSet (inst : Byte) (place : Word) (view : Byte)
  /-- VIEW_GET (R511). -/
  | viewGet (inst : Byte) (place : Word)
  /-- KEY_CHALLENGE (R398). -/
  | keyChallenge (inst : Byte)
  /-- KEY_LOAD (R400). -/
  | keyLoad (inst : Byte) (bundle : List Byte)
  /-- KEY_ZEROIZE (R410). -/
  | keyZeroize (inst : Byte)
  /-- SET_ENDPOINT_ID (R510). -/
  | setEndpointId (op : BitVec 2) (eid : Byte)
  /-- GET_ENDPOINT_ID (R510). -/
  | getEndpointId
  /-- GET_MCTP_VERSION_SUPPORT (R510). -/
  | getMctpVersionSupport (msgType : Byte)
  /-- GET_MESSAGE_TYPE_SUPPORT (R510). -/
  | getMessageTypeSupport
  /-- FOREIGN_VENDOR_MESSAGE (R510). -/
  | foreignVendorMessage (vendor : Word) (body : List Byte)
  /-- PATH_DISAGREE (R515). -/
  | pathDisagree (place : Place)
  /-- TAP_PAIR (R99). -/
  | tapPair (line : BitVec 34) (old new : Line) (src : WrSource) (obark : Bark)
  /-- CAPTURE_IDLE_CLOSE (R100). -/
  | captureIdleClose (region : BitVec 12) (row : BitVec 20) (sector : Byte) (ring : Word)
  /-- BARK_CORRECTED_REPORT (R322). -/
  | barkCorrectedReport (line : BitVec 34) (corrected : Line)
  /-- REFERRED_READ (R326). -/
  | referredRead (port : Fin 8) (id : Byte) (line : BitVec 34) (bad : List (Fin 64))
  /-- HEAT_SAMPLE (R332). -/
  | heatSample (leaf : BitVec 20)
  /-- HEAT_DECAY_SWEEP (R332). -/
  | heatDecaySweep
  /-- HEAT_QUERY (R333). -/
  | heatQuery (leaf : BitVec 20)
  /-- HOLD_QUERY (R534). -/
  | holdQuery (port : Fin 8) (id : Byte) (leaf : BitVec 20) (wr : Bool)
  /-- MEMORY_READ_COMPLETE (R317). -/
  | memoryReadComplete (port : Fin 8) (tag : BitVec 10) (bad : List LineRead)
  /-- MEMORY_WRITE_RESPONSE (R317). -/
  | memoryWriteResponse (port : Fin 8) (tag : BitVec 10) (discarded : Bool)
  /-- READ_SLOW (R317). -/
  | readSlow (port : Fin 8) (tag : BitVec 10)
  /-- STACK_READY (R434). -/
  | stackReady (stack : Fin 8) (gib : Byte)
  /-- MEM_READY_TIMEOUT (R435). -/
  | memReadyTimeout
  /-- FILL_COMPLETE (R336). -/
  | fillComplete (failed : Byte)
  /-- SHARE_WINDOW (R318). -/
  | shareWindow (used : List Nat) (exempt : List Nat)
  /-- SHARE_LOOP_DECISION (R429), with the age in µs of the oldest request that waits and stands in no queue of the model, where one
  waits. -/
  | shareLoopDecision (ageUs : Nat) (waits : Bool)
  /-- SRAM_PATROL (R338). -/
  | sramPatrol (bank : Fin 112) (finding : SramFinding)
  /-- INTAKE_RECORD (R218). -/
  | intakeRecord (hdr : List Byte) (payload : List Byte)
  /-- CHUNK_COMPLETE (R223). -/
  | chunkComplete (handle : BitVec 16) (chunk : Nat) (cluster : Fin 64)
  /-- SPAN_UNBLOCK (R225). -/
  | spanUnblock (handle : BitVec 16) (span : Nat)
  /-- TIER_DONE (R230). -/
  | tierDone (op : Nat)
  /-- FLUSH_LATE (R161). -/
  | flushLate
  /-- TIER_LATE (R230). -/
  | tierLate (op : Nat)
  /-- STREAM_DELTA (R120). -/
  | streamDelta (p : SapPkt)
  /-- RING_DELTA (R167). -/
  | ringDelta (p : SapPkt)
  /-- DELTA_ACK (R114). -/
  | deltaAck (p : SapPkt)
  /-- DELTA_RELEASE (R115). -/
  | deltaRelease (p : SapPkt)
  /-- DELTA_BUSY (R117). -/
  | deltaBusy (p : SapPkt)
  /-- HELD_PACKET_RESUME (R166). -/
  | heldPacketResume
  /-- ACK_DEADLINE_MISS (R121). -/
  | ackDeadlineMiss (k : PktKey) (dest : Fin 16)
  /-- PACKET_RESEND (R121). -/
  | packetResend (k : PktKey) (dest : Fin 16)
  /-- RELEASE_TIMER (R115). -/
  | releaseTimer (region : BitVec 12) (row : BitVec 20) (dest : Fin 16)
  /-- LOCAL_SEAL (R169). -/
  | localSeal
  /-- SEAL_VOTE (R170). -/
  | sealVote (p : SapPkt)
  /-- VOTE_REQ (R173). -/
  | voteReq (p : SapPkt)
  /-- SEAL_TIMEOUT (R173). -/
  | sealTimeout (ring : Word)
  /-- COMMIT_LATE (R175). -/
  | commitLate
  /-- RING_STALL (R175). -/
  | ringStall
  /-- RING_APPLY_END (R180). -/
  | ringApplyEnd
  /-- ROLL_FETCH (R183). -/
  | rollFetch (p : SapPkt)
  /-- ROLL_DATA (R184). -/
  | rollData (p : SapPkt)
  /-- ROLL_END (R184). -/
  | rollEnd (p : SapPkt)
  /-- ROLL_NONE (R185). -/
  | rollNone (p : SapPkt)
  /-- MIRROR_DATA (R83). -/
  | mirrorData (p : SapPkt)
  /-- MIRROR_DONE (R83). -/
  | mirrorDone (p : SapPkt)
  /-- MIRROR_ACK (R83). -/
  | mirrorAck (p : SapPkt)
  /-- MIRROR_TORN (R83). -/
  | mirrorTorn (p : SapPkt)
  /-- MIRROR_ACK_TIMEOUT (R83). -/
  | mirrorAckTimeout (region : BitVec 12) (copy : Word) (dest : Fin 16)
  /-- MIRROR_READ (R83). -/
  | mirrorRead (p : SapPkt)
  /-- MIRROR_LINES (R83). -/
  | mirrorLines (p : SapPkt)
  /-- MIRROR_NONE (R83). -/
  | mirrorNone (p : SapPkt)
  /-- MIRROR_READ_RETRY (R83). -/
  | mirrorReadRetry (req : BitVec 16)
  /-- CLASS_PROD (R83). -/
  | classProd (p : SapPkt)
  /-- PROD_ACK (R83). -/
  | prodAck (p : SapPkt)
  /-- LOG_DATA (R137). -/
  | logData (p : SapPkt)
  /-- LOG_SCALAR (R134). -/
  | logScalar (p : SapPkt)
  /-- LOG_ACK (R135). -/
  | logAck (p : SapPkt)
  /-- LOG_RETIRE (R138). -/
  | logRetire (p : SapPkt)
  /-- POINT_REPORT (R144). -/
  | pointReport (p : SapPkt)
  /-- POINT_DECIDE (R144). -/
  | pointDecide (p : SapPkt)
  /-- POINT_DONE (R144). -/
  | pointDone (p : SapPkt)
  /-- POINT_SETTLED (R146). -/
  | pointSettled (p : SapPkt)
  /-- POINT_TIMEOUT (R148). -/
  | pointTimeout (x : Fin 16)
  /-- HEARTBEAT_TIMER (R233). -/
  | heartbeatTimer
  /-- HEARTBEAT (R305). -/
  | heartbeat (p : SapPkt)
  /-- MEMBER_SILENT (R234). -/
  | memberSilent (xs : List (Fin 16))
  /-- LOSS_NOTICE (R235). -/
  | lossNotice (p : SapPkt)
  /-- RB_REQ (R240). -/
  | rbReq (p : SapPkt)
  /-- RB_PART (R239). -/
  | rbPart (p : SapPkt)
  /-- RB_DONE (R242). -/
  | rbDone (p : SapPkt)
  /-- RB_CREDIT (R241). -/
  | rbCredit (p : SapPkt)
  /-- RB_CHUNK_TIMEOUT (R242). -/
  | rbChunkTimeout (req : Word)
  /-- ACC_FALLBACK (R241). -/
  | accFallback (req : Word)
  /-- DEGRADED_READ (R244). -/
  | degradedRead (store : Bool) (off : BitVec 40) (len : Nat) (key : Word) (requester : Place)
  /-- DEGRADED_READ_TIMEOUT (R245). -/
  | degradedReadTimeout (off : BitVec 40)
  /-- GRAFT_JOIN (R253). -/
  | graftJoin (p : SapPkt)
  /-- GRAFT_WELCOME (R253). -/
  | graftWelcome (p : SapPkt)
  /-- GRAFT_COUNT (R255). -/
  | graftCount (p : SapPkt)
  /-- GRAFT_PHASE (R261). -/
  | graftPhase (p : SapPkt)
  /-- SNAP_NOTE (R250). -/
  | snapNote (p : SapPkt)
  /-- THICK_NOTE (R265). -/
  | thickNote (p : SapPkt)
  /-- HEAT_COPY (R257). -/
  | heatCopy (p : SapPkt)
  /-- EVAC_DATA (R268). -/
  | evacData (p : SapPkt)
  /-- EVAC_STATE (R270). -/
  | evacState (p : SapPkt)
  /-- EVAC_READY (R268). -/
  | evacReady
  /-- HANDOVER (R269). -/
  | handover (p : SapPkt)
  /-- RISK_EVALUATION (R421). -/
  | riskEvaluation
  /-- RATE_BUCKET_TICK (R417). -/
  | rateBucketTick
  /-- LANE_REPORT (R418). -/
  | laneReport (lane : Fin 64) (corrected received : Nat) (eye : BitVec 16)
  /-- WEAR_SAMPLE (R423). -/
  | wearSample (hours : List (List Nat))
  /-- DROOP_WARN (R419). -/
  | droopWarn
  /-- DROOP_RECOVER (R419). -/
  | droopRecover (micros : Nat)
  /-- LINK_LOOP_DECISION (R430). -/
  | linkLoopDecision (p : Fin 4)
  /-- ANCHOR_DUE_TIMER (R344). -/
  | anchorDueTimer
  /-- STORAGE_WRITE_COMPLETE (R356). -/
  | storageWriteComplete (ok : Bool)
  /-- STORAGE_RETRY (R358). -/
  | storageRetry
  /-- WEIGHT_DIGEST (R379). -/
  | weightDigest
  /-- DIGEST_RECOMPUTE (R372). -/
  | digestRecompute (leaf : BitVec 20)
  /-- POWER_GOOD (R434). -/
  | powerGood (flashA flashB : FlashRead) (tests : BitVec 9) (stores : StoreTest) (te : Bool)
  /-- POWER_LOSS (R450). -/
  | powerLoss
  /-- SELF_TEST_FAIL (R406). -/
  | selfTestFail (reseed : Bool)
  /-- COMPUTE_RESET (R455). -/
  | computeReset
  /-- COMPUTE_RESET_RELEASE (R455). -/
  | computeResetRelease
  /-- TAMPER (R411). -/
  | tamper
  /-- FLASH_SHARE_REQUEST (R540). -/
  | flashShareRequest (level : Bool)
  /-- PORT_TRAINING_STEP (R278). -/
  | portTrainingStep (p : Fin 4) (step : Fin 6) (lanes : BitVec 16) (met : Bool)
  /-- LINK_RESET (R283). -/
  | linkReset (p : Fin 4)
  /-- LANE_LOCK_LOSS (R282). -/
  | laneLockLoss (p : Fin 4) (l : Fin 16)
  /-- DATA_FLIT (R293). -/
  | dataFlit (p : Fin 4) (flit : List Byte) (fecBad : Bool)
  /-- ABORT_FLIT (R291). -/
  | abortFlit (p : Fin 4) (flit : List Byte) (fecBad : Bool)
  /-- RELAY_STALL (R291). -/
  | relayStall (p : Fin 4) (vc : Fin 4) (cls : Fin 17)
  /-- INIT (R278). -/
  | init (p : Fin 4) (far : Byte) (present : BitVec 16) (attempt : Byte)
  /-- ID (R281). -/
  | id (p : Fin 4) (place : Place) (pos : BitVec 4) (noPos : Bool)
  /-- WIDTH (R279). -/
  | width (p : Fin 4) (passing : BitVec 16) (w : Byte) (used : BitVec 16) (final : Bool)
  /-- RETRY_REQ (R293). -/
  | retryReq (p : Fin 4) (fseq : BitVec 12)
  /-- RETRY_REQ_REPEAT (R293). -/
  | retryReqRepeat (p : Fin 4)
  /-- ACK (R292). -/
  | ack (p : Fin 4) (fseq : BitVec 12)
  /-- ACK_TIMER (R292). -/
  | ackTimer (p : Fin 4)
  /-- CREDIT (R296). -/
  | credit (p : Fin 4) (vc : Fin 4) (cls : Fin 17) (freed : BitVec 16)
  /-- RESTRIPE (R282). -/
  | restripe (p : Fin 4) (used : BitVec 16) (fseq : BitVec 12)
  /-- LOW_REQ (R306). -/
  | lowReq (p : Fin 4)
  /-- LOW_ACK (R306). -/
  | lowAck (p : Fin 4)
  /-- LOW_NAK (R306). -/
  | lowNak (p : Fin 4)
  /-- WAKE (R308). -/
  | wake (p : Fin 4) (source : WakeSource)
  /-- WAKE_COMPLETE (R308). -/
  | wakeComplete (p : Fin 4)
  /-- WAKE_LOCK_TIMEOUT (R308). -/
  | wakeLockTimeout (p : Fin 4) (l : Fin 16)
  /-- BEAT (R307). -/
  | beat (p : Fin 4) (senderLow : Bool)
  /-- LOW_LINK_SILENCE (R307). -/
  | lowLinkSilence (p : Fin 4)
  /-- SPILL_WRITE (R126). -/
  | spillWrite (key : Word) (requester : Place) (type : Byte) (p : SapPkt)
  /-- ROUTE_WRITE (R254). -/
  | routeWrite (key : Word) (requester : Place) (type : Byte) (p : SapPkt)
  /-- PORT_IDLE_TIMER (R306). -/
  | portIdleTimer (p : Fin 4)
  /-- BEAT_TIMER (R307). -/
  | beatTimer (p : Fin 4)
  /-- DELTA_BUSY_END (R117). -/
  | deltaBusyEnd (pos : Fin 16)
  /-- ROLL_FETCH_TIMEOUT (R189). -/
  | rollFetchTimeout (region : BitVec 12) (row : BitVec 20) (ring : Word)
  /-- REFERRED_READ_LIMIT (R326). -/
  | referredReadLimit (port : Fin 8) (id : Byte)
  /-- MAP_FETCH_RETRY (R443). -/
  | mapFetchRetry
  /-- STORAGE_READ_COMPLETE (R361). -/
  | storageReadComplete (data : Option (List Byte))
  /-- TIME_SLEW_END (R468). -/
  | timeSlewEnd
  /-- PRBS_LOCK_TIMEOUT (R313). -/
  | prbsLockTimeout (p : Fin 4) (l : Fin 16)
  /-- BAD_MSG (R511). -/
  | badMsg (code inst : Byte)
  /-- DYNAMIC_ADDRESS_ASSIGNMENT (R510). -/
  | dynamicAddressAssignment (addr : BitVec 7)
  /-- WRAPPER_INSTRUCTION_LOAD (R546). -/
  | wrapperInstructionLoad (code : BitVec 4)
  /-- INSTRUMENT_ACCESS (R547). -/
  | instrumentAccess (inst : Instrument) (wr : Bool) (v : DWord)
  deriving DecidableEq, Repr

end Sys2Proof
end

