-- ==== Sys2Proof/Decode.lean ====
section
/-!
DEFINITION. Sys2Proof/Decode.lean: reading a command from a word. No row of spec/opcode_table.json gives bits: the engine
takes its commands as accesses, packets and events at its interfaces (R19), never as one word of fixed fields. No word
therefore spells a command. (The one encoded command the spec has, the 64 B descriptor of R498, is decoded by the
meaning of COMMAND_ACCEPT in Machine/Queue.lean.)
-/
namespace Sys2Proof

/-- The command that a word spells by the table's bits: none, since no row gives bits. -/
def decodeTableWord (_nbits _w : Nat) : Option Instr := none

end Sys2Proof
end

