-- ==== Sys2Proof/Config.lean ====
section
/-!
DEFINITION. Sys2Proof/Config.lean: what one implementation of the engine fixes and what the spec leaves open. A constant
with no body is a free value: nothing in Lean can evaluate it or prove a value of it, so a claim holds for every value.
-/
namespace Sys2Proof.Config

/-- Silicon step shown by GEN_ID.SILICON, "from silicon" (R492 and the GEN_ID table). DESIGN CHOICE: log entry 4. -/
opaque siliconStep : Nat → BitVec 16

/-- Module hardware version shown by SEC_STAT.HW_VER, "from silicon". DESIGN CHOICE: log entry 4. -/
opaque moduleHwVer : Nat → Byte

/-- The device root key of the fuse block (R396); its value is each part's own. DESIGN CHOICE: log entry 3. -/
opaque deviceRootKey : Nat → List Byte

/-- The hash of the image key fused in a slot (R408); each licensee's own. DESIGN CHOICE: log entry 3. -/
opaque keyHash : Nat → List Byte

/-- The device serial (R398); each part's own. DESIGN CHOICE: log entry 3. -/
opaque serial : Nat → DWord

/-- What the entropy source gives for seeding n of the module's random bit generator, with the nonce that goes with it (R393,
R395). DESIGN CHOICE: log entry 6. -/
opaque seedInput : Nat → List Byte

/-- A byte that the spec leaves undefined, indexed by the state's counter of free values. DESIGN CHOICE: log entry 6. -/
opaque freeByte : Nat → Byte

/-- A 64-bit value that the spec leaves undefined, indexed by the state's counter of free values.
DESIGN CHOICE: log entry 6. -/
opaque freeWord : Nat → DWord

/-- Result of a DIV, SQRT or RSQRT in fast mode, where the spec bounds the error and does not fix the value (R212):
operation, mantissa width class and operand patterns. The model keeps it only when it meets R212's bound.
DESIGN CHOICE: log entry 6. -/
opaque fastResult : Nat → Nat → Nat → Nat → Nat

/-- Where in the journal an object lies, in lines from its base: its kind (0 staging sector, 1 window packet, 2 owner's journal
copy, 3 replay-log chunk, 4 mirror copy, 5 applied record) and its key. The spec fixes the addresses and does not state them (R167).
DESIGN CHOICE: log entry 89. -/
opaque journalAt : Nat → List Nat → Nat

/-- How many passes a position ran in a step, modulo 2^20: no message tells its spare (R135, R150). DESIGN CHOICE: log entry 31. -/
opaque passCount : Nat → Nat → Nat

/-- The run descriptor of a pass that a lost position ran: position, step, pass index and byte. R150 has replay use the original
pass's microprogram, elements and streams, and no message carries them. DESIGN CHOICE: log entry 31. -/
opaque passDesc : Nat → Nat → Nat → Nat → Byte

/-- First element and number of elements of a logged slice, by position, step and slice index: LOG_DATA names neither (R135). The
number is at most what the slice's lines hold. DESIGN CHOICE: log entry 31. -/
opaque sliceSpan : Nat → Nat → Nat → Nat × Nat

/-- What a replayed pass whose inputs no longer all stand as they did before it has to go by: position, region, leaf row, step,
sector, region key, the logged slices and scalar records of the step, the bytes of the microprogram store, and the sector's
old bytes. -/
structure ReplayIn where
  x       : Nat
  region  : Nat
  row     : Nat
  step    : Nat
  sector  : Nat
  key     : Nat
  slices  : List (List Byte)
  scalars : List (List Byte)
  progs   : List (Nat × Byte)
  old     : List Byte

/-- What a pass wrote into a sector of a leaf, where another leaf that it reads stands past it already, or is lost, so that R151's
bytes cannot be computed from what the spare holds. DESIGN CHOICE: log entry 31. -/
opaque replayed : ReplayIn → Nat → Byte

/-- The committed ring that a spare takes up, by the counter of free values: GRAFT_WELCOME carries none (R238, R258).
DESIGN CHOICE: log entry 31. -/
opaque graftRing : Nat → Nat

/-- Whether a position's step had a slice of a tag of which no chunk was logged (R152): nothing tells the spare.
DESIGN CHOICE: log entry 31. -/
opaque sliceMissing : Nat → Nat → Nat → Bool

/-- The position whose slice the collective units deliver to the intake with GRV_LOG_CTL.SRC at 1, by tag, step and first
element: the record does not name it (R133, R217). Taken modulo w. DESIGN CHOICE: log entry 90. -/
opaque sliceOwner : Nat → Nat → Nat → Nat

/-- Links between two members, lower position first, that are not present, at a count of questions: no message carries the
state of a link between two others (R64). DESIGN CHOICE: log entry 12. -/
opaque farLinksDown : Nat → List (Nat × Nat)

/-- Whether the other surviving owners of a stripe have drained (R147), at a count of questions: no message tells an owner.
DESIGN CHOICE: log entry 72. -/
opaque othersDrained : Nat → Bool

/-- X + 127, modulo 255, for a block with a NaN, by the patterns of its values: R199 gives such a block a scale and no X.
DESIGN CHOICE: log entry 74. -/
opaque nanBlockX : List Nat → Nat

/-- emax of a block-scaled format for which R199 gives none, modulo 256. DESIGN CHOICE: log entry 74. -/
opaque emaxOther : Nat → Nat

/-- COL0 and ROW0 of an element in a run with COLS at 0, where the spec gives it no column and no row, and in the mid section: by step
and element, and which of the two. DESIGN CHOICE: log entry 74. -/
opaque noColumn : Nat → Nat → Nat → Bool

/-- An accumulator used both as a sum and as a maximum over more than one chunk, by the chunks' partials: R209 does not say how
they combine. DESIGN CHOICE: log entry 74. -/
opaque mixedAcc : List Nat → Nat

/-- The stack, and so the memory-side port, of a line address: the spec fixes eight equal stacks (R25) and not how addresses
are spread over them. Taken modulo 8. DESIGN CHOICE: log entry 80. -/
opaque stackOf : Nat → Nat

/-- Whether MEM_USABLE_TOP or MEM_JOURNAL_BASE of a standby spare differs from that of the member at a place that evacuates to it
(R270): no packet carries either. DESIGN CHOICE: log entry 35. -/
opaque spareDiffers : Nat → Bool

end Sys2Proof.Config
end

