-- ==== Sys2Proof/Machine/State.lean ====
section
/-!
DEFINITION. Sys2Proof/Machine/State.lean: every piece of state the spec gives the engine, as plain data. The register
window is one table of fields (`regs`), since software sees it so; what no register shows is held in the structures
below, each named after the chapter that speaks of it. Numbers that the spec counts, compares or uses as keys are Nat;
bytes of storage are bit vectors.
-/
namespace Sys2Proof.Machine

/-- A sparse table: entries in strictly rising key order (`SMap.Sorted`). What an absent key stands for is said where a
table is used. -/
abbrev SMap (α : Type) := List (Nat × α)

/-- A SAP packet in plain: the fields of R108 as numbers and the payload before encryption. -/
structure Pkt where
  typ     : Nat
  flags   : Nat := 0
  gen     : Nat := 0
  src     : Nat := 0
  dst     : Nat := 0
  region  : Nat := 0
  row     : Nat := 0
  sector  : Nat := 0
  stamp   : Nat := 0
  seq     : Nat := 0
  release : Nat := 0
  planes  : Nat := 0
  lineMap : Nat := 0
  payload : List Byte := []
  deriving DecidableEq, Repr

/-- The operations the engine asks of the tier manager (R161, R182, R230, R333, R335). -/
inductive TierOp where
  | flush (ranges : List (Nat × Nat))
  | discard (ranges : List (Nat × Nat))
  | refresh (ranges : List (Nat × Nat))
  | invalidate (ranges : List (Nat × Nat))
  | hot (leaf heat : Nat)
  deriving DecidableEq, Repr

/-- The control messages of a CTRL flit (R299). -/
inductive LinkMsg where
  | init (port present attempt : Nat)
  | id (place pos : Nat) (none : Bool)
  | width (passing w used : Nat) (final : Bool)
  | retryReq (fseq : Nat)
  | ack (fseq : Nat)
  | credit (vc cls freed : Nat)
  | restripe (used fseq : Nat)
  | lowReq | lowAck | lowNak | wake
  | beat (senderLow : Bool)
  deriving DecidableEq, Repr

/-- What the engine does at its interfaces (R19) in answer to a command. `State.eng.out` holds the actions of the last
command, in the order they were made. -/
inductive Action where
  /-- The value a register read returns (R11). -/
  | answer (v : Nat)
  /-- The error response of the register port or of an aperture (R10, R90, R436, R487). -/
  | busError
  /-- Target 0: 4 B of message data written to host memory (R482). -/
  | message (addr data : Nat)
  /-- The engine reads the descriptor at a host address (R495). -/
  | fetch (queue addr : Nat)
  /-- A vendor message's response: CODE + 0x80, INSTANCE, status, body (R511). -/
  | mgmt (code inst status : Nat) (body : List Byte)
  /-- An MCTP control response (R510). -/
  | mctp (cmd : Nat) (body : List Byte)
  /-- A SAP packet sent to a place: in plain, and as it goes on the wire (R107, R301). -/
  | sap (place : Nat) (plain : Pkt) (typ : Nat) (wire : SapPkt)
  /-- A flit on a lane of a grove port (R286, R290). -/
  | flit (port lane : Nat) (bytes : List Byte)
  /-- A CTRL flit on a lane of a grove port, with one control message, and its bytes (R290, R299). -/
  | link (port lane : Nat) (m : LinkMsg) (bytes : List Byte)
  /-- A port's present lanes enter a test mode with a pattern (R312). -/
  | lanesTest (port mode pattern : Nat)
  /-- An operation asked of the tier manager, by its number (R161, R230). -/
  | tier (op : Nat) (what : TierOp)
  /-- A write to an engine aperture of another place, with its key (R90, R442, R446, R538). -/
  | fabricWrite (place aperture off key : Nat) (data : List Byte)
  /-- The answer to a fabric access: the bytes, none for an error response (R243, R90). -/
  | fabricAnswer (data : Option (List Byte))
  /-- A storage-path read of an object (R443, R360). -/
  | storageRead (handle off len : Nat)
  /-- A storage-path write to an object (R351). -/
  | storageWrite (handle off : Nat) (data : List Byte)
  /-- A tagged read or write at a memory-side port (R317). -/
  | memRead (port tag addr len : Nat)
  | memWrite (port tag addr : Nat) (data : List Byte)
  /-- A CWRITE of a line, with the tag of the READ that it names (R317). -/
  | memCwrite (port tag addr : Nat) (data : List Byte) (read : Nat)
  /-- The answer to a hold query: 1 holds the access (R346, R534). -/
  | hold (port id : Nat) (held : Bool)
  /-- A held leaf is released (R535). -/
  | release (port leaf : Nat)
  /-- The answer to a referred read (R326, R536). -/
  | referral (port id : Nat) (ok : Bool) (data : List Byte)
  /-- Acceptance of a tap pair or an intake record is withheld until its cause ends (R164, R220). -/
  | withheld
  /-- A chunk issued to a cluster (R223). -/
  | chunk (cluster handle index : Nat)
  /-- The wear store written in NVM (R425). -/
  | nvm
  /-- An instrument's or a wrapper's answer on the test network (R546, R547). -/
  | testAnswer (v : Nat)
  deriving DecidableEq, Repr

/-- The wires at the engine's edge (R19): their present levels, true for high. -/
structure Pins where
  pwrGood    : Bool
  cmpRstL    : Bool
  droopWarnL : Bool
  teMode     : Bool
  flShareReq : Bool
  flShareGnt : Bool
  engReady   : Bool
  compHold   : Bool
  deriving DecidableEq, Repr

/-- The fuse block as read at power-on (R26, R382, R396, R408, R409). -/
structure Fuses where
  clusters : Nat
  lanes    : Nat
  svnMin   : Nat
  revoked  : Nat
  keyHash  : List (List Byte)
  rootKill : Bool
  serial   : Nat
  deriving DecidableEq, Repr

/-- Bring-up state that no register shows (R434 to R438): what the memory controllers have reported, whether the fast
clocks run, and what the accepted image carries. -/
structure Boot where
  /-- Capacity in GiB reported by each stack; absent: not yet ready. -/
  stackCaps : SMap Nat
  /-- The fill has been issued. -/
  filling  : Bool
  /-- Default timeout in ms of each opcode, from the image (R499). -/
  timeouts : SMap Nat
  /-- Engine times of the coding-core resets of the last 600 s (R458). -/
  resetsAt : List Nat
  /-- Between a coding-core reset and its resumption (R451), with the cause of the reset. The shadow of R451 and the registers
  hold the same values at all times but these; `Eng.regs` stands for both. -/
  inReset  : Bool
  watchdog : Bool
  deriving DecidableEq, Repr

/-- Engine time (R466 to R470). `acc` counts units of 2^-32 ns; `slew` is T's path while a backward correction runs. -/
structure Time where
  acc     : Nat
  half    : Bool
  slew    : Option Nat
  lastPps : Option Nat
  deriving DecidableEq, Repr

/-- What the interrupt controller holds beside its registers (R479 to R484): unfired events in order of arrival,
delivered and unclaimed sources, privileged groups in hold-off, and the target each source in service was claimed by. -/
structure Intr where
  unfired   : List Nat
  delivered : List Nat
  holdoff   : List Nat
  claimedBy : SMap Nat
  deriving DecidableEq, Repr

/-- The operations a descriptor can ask for (R499), decoded. -/
inductive Op where
  | nop
  | ringOpen (n : Nat)
  | ringSeal (step seq : Nat)
  | ringCommit (r : Nat)
  | ringRollback (c n : Nat)
  | stepRetire (t : Nat)
  | updateRun (addr : Nat)
  | graftBegin (x mode : Nat)
  | resumeSet (addr count : Nat)
  | evacuate (mode spare : Nat)
  | scrubRange (base len flags : Nat)
  | anchorWrite (addr : Nat)
  | anchorRestore (addr : Nat)
  | reLeaf (region step ring : Nat)
  | adopt (addr : Nat)
  | tensorDigest (addr : Nat)
  deriving DecidableEq, Repr

/-- A descriptor that has been fetched and not yet accepted (R497, R501): its fields and whether its mailbox has been
opened for it (R504) and its wait counted (R507). -/
structure Fetched where
  opcode  : Nat
  flags   : Nat
  mailbox : Nat
  seq     : Nat
  timeout : Nat
  /-- The operation; none when the opcode is undefined or a reserved bit is set, with the reason of R500. -/
  op      : Option Op
  bad     : Nat
  opened  : Bool
  counted : Bool
  bads    : List LineRead := []
  /-- Its entry in the SRAM was lost: it completes with INTERNAL when it is accepted (R338). -/
  lost    : Bool := false
  deriving DecidableEq, Repr

/-- A command that has been accepted and has not completed (R501, R507). `id` is the engine's own number for it. -/
structure OpenCmd where
  id      : Nat
  queue   : Nat
  mailbox : Nat
  quiet   : Bool
  opcode  : Nat
  seq     : Nat
  timeout : Nat
  op      : Op
  deriving DecidableEq, Repr

/-- The state of a mailbox that is not empty (R504). -/
inductive MboxState where
  | opened | ready
  deriving DecidableEq, Repr

/-- The command side (R495 to R507): the queues with a descriptor read outstanding, the fetched descriptor of each queue,
the open commands, the mailboxes that are not empty, and the number the next accepted command takes. -/
structure Queues where
  asked   : List Nat
  fetched : SMap Fetched
  opens   : List OpenCmd
  mbox    : SMap MboxState
  nextId  : Nat
  deriving DecidableEq, Repr

/-- Start-lock processing and the roll call (R446 to R448): whether the roll call is running, which records are held, as
received, and which members have taken this engine's record. -/
structure RollCall where
  active  : Bool
  records : SMap (List Byte)
  own     : List Byte
  unsent  : List Nat
  deriving DecidableEq, Repr

/-- The grove map of an engine (R439 to R445): the bytes received, the accepted or held map, and its fetch. -/
structure MapState where
  /-- Digest of the map held or accepted. -/
  digest  : List Byte
  /-- Bytes received into the map aperture so far. -/
  buf     : SMap Byte
  /-- Length of the map held or accepted, 0 with none. -/
  len     : Nat
  /-- Children not yet answered for (tree indices). -/
  waiting : List Nat
  fanout  : Nat
  ngroves : Nat
  resume  : List Nat
  deriving DecidableEq, Repr

/-- One of the 64 management views: its entry, the data view of its place as last noted, and the engine time at which either last changed (R512);
`reported` once the disagreement that stands has been (R515). -/
structure View where
  slot     : Nat
  place    : Nat
  mgt      : Nat
  data     : Nat
  since    : Nat
  reported : Bool
  deriving DecidableEq, Repr

/-- The management endpoint (R510 to R515): its MCTP endpoint ID, its dynamic address, and the views, oldest first. -/
structure Mgmt where
  eid     : Nat
  dynAddr : Nat
  /-- The I3C static address, from the image (R529). -/
  staticAddr : Nat
  views   : List View
  deriving DecidableEq, Repr

/-- One direction pair of a session with a place (R300 to R305). `st`: 1 open, 2 closed, 3 advancing. -/
structure Sess where
  gen   : Nat
  st    : Nat
  tx    : Nat
  /-- A packet at the current generation has arrived from the peer (R305). -/
  heard : Bool
  /-- The key state for the session has been lost, so that it advances once the peer is heard (R304, R410). -/
  keyLost : Bool := false
  deriving DecidableEq, Repr

/-- A packet in a port's send queue: destination position, virtual channel, the stream it arrives on when it is relayed
(port, channel, class), the bytes of it with its envelope that have not left, those of them at hand, how many have left, and,
once its first flit has left, its class here (R288, R291, R296). `marks`: the flits it arrived in, by number, with how far
into the packet each reaches; the flit's buffer is held until so much has left. -/
structure TxPkt where
  dst   : Nat
  vc    : Nat
  relay : Option (Nat × Nat × Nat)
  total : Nat
  bytes : List Byte
  cls   : Option Nat
  sent  : Nat := 0
  marks : List (Nat × Nat) := []
  deriving DecidableEq, Repr

/-- A packet arriving on a stream (R288): its virtual channel and class and the bytes so far. `relayed`: what arrives goes
to its entry in a send queue (R291). `drop`: the rest of the packet is dropped as it arrives, its discard counted. -/
structure RxStream where
  vc      : Nat
  cls     : Nat
  got     : Nat
  total   : Nat
  buf     : List Byte
  relayed : Bool
  drop    : Bool
  deriving DecidableEq, Repr

/-- A flit in a receive buffer (R295): its number, its channel and class, and how many uses of it are left. -/
structure RxBuf where
  id   : Nat
  vc   : Nat
  cls  : Nat
  refs : Nat
  deriving DecidableEq, Repr

/-- What a port holds beside its registers (R278 to R309). -/
structure Port where
  /-- Attempts made in this series (R278), and whether equaliser settings are kept from an earlier one. -/
  attempt  : Nat
  kept     : Bool
  /-- A link reset is under way, as against the first training (R283: a failure then is EXCL 3). -/
  resetting : Bool
  /-- Present lanes of the far end from INIT, and lanes passing there from WIDTH. -/
  farPresent : Nat
  farPassing : Nat
  /-- Lanes that have left service through loss of lock (R282). -/
  lost     : Nat
  /-- Width ceiling from the start lock (R279); 16 before it. -/
  ceiling  : Nat
  /-- Next FSEQ to send; unacknowledged sequenced flits, oldest first (R292). -/
  txFseq   : Nat
  replay   : List (Nat × List Byte)
  /-- FSEQ expected next; sequenced flits taken and not yet acknowledged; a retry has been requested (R293). -/
  rxFseq   : Nat
  unacked  : Nat
  retrying : Bool
  /-- RETRY_REQ bookkeeping (R294): the FSEQ last named, how often, and the engine times of requests in the last ms. -/
  reqFseq  : Nat
  reqCount : Nat
  reqTimes : List Nat
  /-- Flits sent and flits freed at the far end, cumulative, by channel and class (R296); flits freed here. -/
  used     : SMap Nat
  freedFar : SMap Nat
  freed    : SMap Nat
  /-- Flits served by channel in this round of the weighted round robin of R297. -/
  served   : SMap Nat
  txq      : List TxPkt
  rx       : List RxStream
  /-- Streams whose packet in progress is to be ended by ABORT (R291, R292), as channel and class. -/
  aborts   : List (Nat × Nat)
  /-- Flits in the receive buffers, and the number of the next (R295). -/
  bufs     : List RxBuf
  bufNo    : Nat
  /-- The lane after the one that the last flit went on (R290). -/
  lane     : Nat
  /-- The far end's ID has come since the last training began (R281). -/
  farId    : Bool
  /-- The handshake of R306: LOW_REQ sent, and nothing has passed since that keeps the port UP. -/
  lowSent  : Bool
  /-- Control messages that are repeated until they are answered (R299). -/
  asks     : List LinkMsg
  /-- The first ACK after a link reset has come before this end was UP (R283). -/
  ackSeen  : Bool
  /-- Flits taken in a coding-core reset that wait in the receive buffers, by number (R452). -/
  heldBufs : List Nat
  /-- The state before a test run. -/
  stBefore : Nat
  /-- The far end's map of used lanes and the FSEQ from which it applies (R282). -/
  farUsed  : Nat
  farFrom  : Nat
  deriving DecidableEq, Repr

/-- A region as the engine reads it when VALID is written from 0 to 1 (R67, R69). -/
structure Rgn where
  num      : Nat
  base     : Nat
  len      : Nat
  cls      : Nat
  fmt      : Nat
  layout   : Nat
  mirrorN  : Nat
  writer   : Nat
  auto     : Nat
  partner  : Nat
  key      : Nat
  tag      : Nat
  layoutDg : Nat
  rateUp   : Nat
  rateDown : Nat
  streak   : Nat
  sync     : Nat
  deriving DecidableEq, Repr

/-- A leaf context (R488) less CLASS and REGION, which follow from the regions once the start lock is set (R72).
`lagged` is the state the leaf returns to from lagging (R122). -/
structure Ctx where
  heat   : Nat
  digest : Bool
  st     : Nat
  lagged : Nat
  stamp  : Nat
  seq    : Nat
  ring   : Nat
  deriving DecidableEq, Repr

/-- A capture entry (R99): the ring it belongs to, the XOR so far, and its place in the order of merging. -/
structure Capture where
  region : Nat
  row    : Nat
  sector : Nat
  ring   : Nat
  delta  : List Byte
  stamp  : Nat
  deriving DecidableEq, Repr

/-- A destination that has not acknowledged a packet: its position, whether it holds the thickening row, the resends made
whether its first deadline has passed, and whether the packet has left for it at all: credit or a pause may hold it back
(R111, R117, R121). -/
structure Dest where
  pos     : Nat
  thick   : Bool
  gone    : Bool
  resends : Nat
  missed  : Bool
  deriving DecidableEq, Repr

/-- The journal's copy of a data-bearing packet (R111) or of a CLASS_PROD (R83), with those still to acknowledge it. -/
structure Sent where
  typ     : Nat
  region  : Nat
  row     : Nat
  sector  : Nat
  stamp   : Nat
  seq     : Nat
  planes  : Nat
  lineMap : Nat
  payload : List Byte
  release : Nat
  dests   : List Dest
  deriving DecidableEq, Repr

/-- The last SEQ an owner has assigned to one leaf in one ring (R112). -/
structure RingSeq where
  region : Nat
  row    : Nat
  ring   : Nat
  last   : Nat
  deriving DecidableEq, Repr

/-- A packet kept in the holder's window until its release (R115). -/
structure WinPkt where
  region  : Nat
  row     : Nat
  src     : Nat
  thick   : Bool
  seq     : Nat
  stamp   : Nat
  sector  : Nat
  lineMap : Nat
  payload : List Byte
  deriving DecidableEq, Repr

/-- An applied record (R130): A with its cut, and the release point last received with its cut. -/
structure Applied where
  region    : Nat
  row       : Nat
  src       : Nat
  thick     : Bool
  a         : Nat
  aStamp    : Nat
  aSector   : Nat
  rel       : Nat
  relStamp  : Nat
  relSector : Nat
  deriving DecidableEq, Repr

/-- Staging of one source leaf in one ring (R167): A_h and the staging sectors whose staged bit is set; `usable` is false
after an uncorrectable error (R190). -/
structure Stage where
  ring   : Nat
  region : Nat
  row    : Nat
  src    : Nat
  thick  : Bool
  ah     : Nat
  secs   : SMap (List Byte)
  usable : Bool
  deriving DecidableEq, Repr

/-- The class advisor at one region (R91, R92): thinned bytes by ring, the smoothed value, the grove mean, the streak, the
last proposal, and the switch in progress (0 none, 1 towards mirror, 2 towards coded) with the ring that decided it; a
proposal that waits for a later seal is queued. -/
structure Advisor where
  region  : Nat
  bytes   : SMap Nat
  us      : Nat
  mean    : Nat
  streak  : Nat
  propose : Nat
  switch  : Nat
  ring    : Nat
  queued  : Bool
  deriving DecidableEq, Repr

/-- The states of a ring (R188). -/
inductive RingState where
  | free | opened | flushing | sending | localSealed | groveSealed | committed | split | rolled
  deriving DecidableEq, Repr

/-- A declared boundary: STEP, KIND and count stamp (R157). -/
structure Bnd where
  step  : Nat
  kind  : Nat
  count : Nat
  deriving DecidableEq, Repr

/-- A ring that has not been freed (R156, R188): its number, its state, the boundary that ended it, and the weight step of
that boundary (R379), none when no step boundary had been declared. -/
structure RingRec where
  num   : Nat
  st    : RingState
  bnd   : Option Bnd
  wstep : Option Nat
  deriving DecidableEq, Repr

/-- Votes received for a ring from one position (R170, R189): the boundary voted, how many parts there are, the parts
held, and the u_s records. -/
structure Vote where
  ring  : Nat
  pos   : Nat
  bnd   : Bnd
  count : Nat
  parts : List Nat
  us    : SMap Nat
  deriving DecidableEq, Repr

/-- A seal request made by RING_SEAL and not yet answered (R158): the command, the STEP and sequence it names, and the
ring it selected once its boundary has been declared. -/
structure SealReq where
  cmd  : Nat
  step : Nat
  seq  : Nat
  ring : Option Nat
  deriving DecidableEq, Repr

/-- One ROLL_FETCH of a rollback (R184): the leaf and ring, the holder asked, those that have failed, the sectors received
and whether ROLL_END has come. -/
structure Fetch where
  region : Nat
  row    : Nat
  ring   : Nat
  holder : Nat
  thick  : Bool
  tried  : List Nat
  got    : SMap (List Byte)
  ah     : Nat
  live   : Bool
  ended  : Bool
  deriving DecidableEq, Repr

/-- A rollback in progress (R181 to R186): its target, its command, the fetches, the owner's copies of the packets of the
rings after the target, and the leaves that cannot return. -/
structure Roll where
  target  : Nat
  cmd     : Nat
  fetches : List Fetch
  copies  : List Sent
  gaps    : List (Nat × Nat)
  deriving DecidableEq, Repr

/-- A parity sector still to apply (R178): its ring, its leaf and whether it lies in a thickening row. -/
structure ApplyJob where
  ring   : Nat
  region : Nat
  row    : Nat
  sector : Nat
  thick  : Bool
  deriving DecidableEq, Repr

/-- Ring state (R155 to R190). -/
structure Rings where
  /-- The rings that are not free, ascending: BASE, BASE + 1, and the ring opened under R174 while BASE is applied. -/
  recs   : List RingRec
  votes  : List Vote
  reqs   : List SealReq
  /-- A ring waits to open for want of a slot (R174): since when; RING_STALL raised. -/
  stallAt : Option Nat
  stallRaised : Bool
  /-- SEAL_LATE raised for the pending scheduled request (R160). -/
  lateRaised : Bool
  /-- Highest ring opened since the start lock (R181); none before the first. -/
  highest : Option Nat
  /-- Commits whose apply has not ended, ascending: the command, if any, the ring and its boundary (R177 to R180). -/
  commits : List (Option Nat × Nat × Bnd)
  /-- Boundary of the committed ring. -/
  lastBnd : Option Bnd
  applies : List ApplyJob
  stages  : List Stage
  seqs    : List RingSeq
  /-- Governing target of a freeze (R183). -/
  frozen  : Option Nat
  roll    : Option Roll
  /-- N that RING_OPEN must name after a rollback (R186). -/
  nextN   : Option Nat
  /-- The step and time-step sequences have had their first declaration (R157). -/
  seenStep  : Bool
  seenTstep : Bool
  deriving DecidableEq, Repr

/-- Why an operation was asked of the tier manager. -/
inductive TierWhy where
  | ringFlush | rollDiscard | evacFlush
  | run (handle : Nat)
  deriving DecidableEq, Repr

/-- An operation of the tier manager that has not been answered. -/
structure TierOpen where
  op   : Nat
  what : TierOp
  why  : TierWhy
  deriving DecidableEq, Repr

/-- What a tagged transfer at a memory-side port is for (R317). -/
inductive XferKind where
  | mirrorRead (region copy : Nat)
  | anchorRead (leaf : Nat)
  | hashRead (cmd leaf : Nat)
  | applyWrite
  | cwrite
  /-- The READ of a line that a CWRITE names. -/
  | lineRead
  deriving DecidableEq, Repr

/-- A transfer that its memory controller has not answered: its tag, address and length, and the bytes of a write. It goes in
operations of at most 256 B, one after the other (R317). -/
structure Xfer where
  tag  : Nat
  addr : Nat
  len  : Nat
  data : List Byte
  kind : XferKind
  /-- Its priority class at its port, the engine time at which it was queued there, and whether the port has issued it (R319). -/
  cls  : Nat
  since : Nat
  out  : Bool
  /-- Bytes answered so far, and the lines among them that did not read CLEAN; the tag of the READ that a CWRITE names. -/
  off  : Nat := 0
  bads : List LineRead := []
  read : Nat := 0
  deriving DecidableEq, Repr

/-- A tap pair that waits (R164, R247, R260, R327, R452): line address, old and new line, source, bark outcome. -/
structure HeldTap where
  /-- The new line is in memory already: only the old line's recovery is awaited (R327). -/
  landed : Bool
  line : Nat
  old  : List Byte
  new  : List Byte
  src  : WrSource
  bark : Bark
  deriving DecidableEq, Repr

/-- The cut of a packet (R129). -/
structure Cut where
  seq    : Nat
  stamp  : Nat
  sector : Nat
  deriving DecidableEq, Repr

/-- The agreement of one leaf of a lost position (R141 to R146): the round, whether this engine coordinates, the reports
and DONEs received, the q decided, and whether it is settled here. -/
structure Agree where
  x       : Nat
  region  : Nat
  row     : Nat
  round   : Nat
  coord   : Bool
  /-- The coordinator's position, as R141 chooses it. -/
  chief   : Nat
  /-- Reporters awaited, and the reports held: position and cut of A. -/
  awaited : List Nat
  reports : List (Nat × Cut)
  q       : Option Cut
  dones   : List Nat
  settled : Bool
  deriving DecidableEq, Repr

/-- A slice or scalar packet this engine keeps as a log partner (R133 to R138). -/
structure LogHeld where
  owner  : Nat
  scalar : Bool
  stamp  : Nat
  row    : Nat
  region : Nat
  lines  : Nat
  chunks : SMap (List Byte)
  /-- At a spare: the partner that handed it on; none for what a partner keeps. -/
  via    : Option Nat := none
  deriving DecidableEq, Repr

/-- With GRV_LOG_CTL.SRC at 1: a partner's answer for a slice that is not complete here yet (R133, R135): the partner, STAMP,
ROW, the count it holds, and whether it holds it. -/
structure EarlyAck where
  partner : Nat
  stamp   : Nat
  row     : Nat
  seq     : Nat
  ok      : Bool
  deriving DecidableEq, Repr

/-- A slice or scalar packet this engine has logged as owner, towards one partner: the chunks, how many the partner
holds, and the chunks refused for lack of room (R133, R137). -/
structure LogOut where
  partner : Nat
  scalar  : Bool
  stamp   : Nat
  row     : Nat
  region  : Nat
  lines   : Nat
  chunks  : SMap (List Byte)
  held    : Nat
  /-- Chunks sent and not yet answered, in order. -/
  pend    : List Nat
  refused : List Nat
  deriving DecidableEq, Repr

/-- The replay log and step retirement at one engine (R132 to R139). -/
structure Log where
  held    : List LogHeld
  outs    : List LogOut
  /-- Partners in place: first and, with COPIES 2, second (R132); owners refused since room last freed (R137). -/
  refused : List Nat
  /-- Bytes logged per step, for LOG_OVER (R137). -/
  bytes   : SMap Nat
  /-- Next index of a slice that the collective units deliver for an owner, by owner × 2^32 + step (R135). -/
  nextRow : SMap Nat
  /-- STEP_RETIRE commands waiting: command and step. -/
  retires : List (Nat × Nat)
  /-- The newest step a lost partner leaves exposed (R139). -/
  exposed : Option Nat
  early   : List EarlyAck
  /-- The newest step for which STEP_RETIRE has been accepted since the start lock or since an encoding set RETIRED (R347, R379). -/
  asked   : Option Nat
  deriving DecidableEq, Repr

/-- A mirror copy this engine is sending (R80): its boundary, the cursor, the lines recorded ahead of it, the lines sent,
and the receivers with what each has answered. -/
structure MirrorTx where
  region   : Nat
  copy     : Nat
  bnd      : Bnd
  ring     : Nat
  cursor   : Nat
  recorded : List Nat
  sentN    : Nat
  /-- Quick digest of the lines sent so far, and the hash of the whole copy where the ledger takes it (R381). -/
  dig      : Nat
  hash     : Option (List Byte)
  /-- Receivers still to answer: copy index and position. -/
  waiting  : List (Nat × Nat)
  done     : Bool
  deriving DecidableEq, Repr

/-- A mirror copy being received or held (R81): the sender, the lines held by line index, and the completion record. -/
structure MirrorRx where
  src      : Nat
  region   : Nat
  copy     : Nat
  index    : Nat
  stamp    : Nat
  ring     : Nat
  count    : Nat
  lines    : SMap (List Byte)
  /-- The digest that its completion record carries, once that has come. -/
  dig      : Option Nat
  complete : Bool
  deriving DecidableEq, Repr

/-- A read of a copy that this engine has asked of a receiver (R83), for a graft (R259). -/
structure MirrorReq where
  id      : Nat
  region  : Nat
  row     : Nat
  sector  : Nat
  stamp   : Nat
  /-- The stamp or ring of the copy that fits the restored point (R259). -/
  want    : Nat
  byRing  : Bool
  whose   : Nat
  asked   : Nat
  tried   : List Nat
  deriving DecidableEq, Repr

/-- The key store and the module's own state (R396 to R413). -/
structure Sec where
  jlk       : Option (List Byte)
  amk       : Option (List Byte)
  atk       : Option (List Byte)
  challenge : Option (List Byte)
  /-- The random bit generator (R395, R396): key and V, 48 B; its counter, 0 where it is not instantiated; and how often the
  entropy source has seeded it, the model's own count. -/
  drbg      : List Byte
  reseed    : Nat
  seeds     : Nat
  /-- Engine time of the last AUTH_FAIL raised, in ms; none before the first (R404). -/
  authMs    : Option Nat
  deriving DecidableEq, Repr

/-- What the engine knows of its peers' lives (R233 to R237, R84): when each position was last heard, the places seen
declared lost, the positions that told of a plain region, the positions reached only by the fabric (R254), and the phase
of the graft under way at each position (R261). -/
structure Loss where
  heard   : SMap Nat
  silent  : List Nat
  wasLost : List Nat
  plain   : List Nat
  fabric  : List Nat
  grafts  : SMap Nat
  /-- Grafted positions that have not taken up their role as log partner, with the newest step at the end of the graft (R132). -/
  fresh   : List (Nat × Option Nat)
  /-- Positions lost, coordinators that have told of every stripe of theirs settled, and the positions present then, which say
  which stripes those were (R141, R144, R146). -/
  settledBy : List (Nat × Nat × List Nat)
  /-- GRAFT_BEGIN commands that wait for the join of a spare (R262): command and position. -/
  begins  : List (Nat × Nat)
  /-- Stripes found beyond the code (R272). -/
  beyond  : List (Nat × Nat)
  /-- Lost map and LOSSES held at a coding-core reset, for its heartbeats (R452). -/
  hbLosses : Nat
  hbMap    : Nat
  deriving DecidableEq, Repr

/-- A thickening row of a stripe as this engine sees it as owner: the host its packets go to (R265). -/
structure ThickDest where
  region : Nat
  row    : Nat
  host   : Nat
  deriving DecidableEq, Repr

/-- A thickening row this engine hosts (R58, R264 to R266): the risky member, the parity bytes by sector, the rings that
were uncommitted at a snapshot, and whether the row is built, provisional or being released. -/
structure Hosted where
  region  : Nat
  row     : Nat
  risky   : Nat
  secs    : SMap (List Byte)
  rings   : List Nat
  built   : Bool
  provisional : Bool
  releasing   : Bool
  /-- While it is being released, the owners whose last THICK packet has still to be acknowledged (R266). -/
  left    : List Nat
  deriving DecidableEq, Repr

/-- One entry of the quick-digest table (R369). -/
structure Dig where
  cur        : Nat
  prior      : Nat
  priorStamp : Nat
  current    : Bool
  priorValid : Bool
  /-- Step of the newest writing pass that has reached the leaf (R371, R378). -/
  begun      : Option Nat := none
  deriving DecidableEq, Repr

/-- Evacuation (R267 to R271). As the departing member: the commands of MODE 0 and MODE 1, the spare's place, the sectors sent
and the cached lines of the dirty bitmaps, each of two leaves, least recently used first (R334), the step of R269 reached, and the state kinds the
spare has accepted. As the spare: the place it receives from, once the first sector has
come, and the parts of each kind received. -/
structure Evac where
  copyCmd : Option Nat
  /-- The thickening loop has started it (R422, R433). -/
  auto    : Bool
  cutCmd  : Option Nat
  spare   : Nat
  sent    : SMap Nat
  dirty   : SMap Nat
  step    : Nat
  acks    : List Nat
  src     : Option Nat
  parts   : List (Nat × Nat × Nat × List Byte)
  deriving DecidableEq, Repr

/-- A product of a class switch that has been applied here (R83): region, row, source position, ring and SEQ. -/
structure ProdKey where
  region : Nat
  row    : Nat
  src    : Nat
  thick  : Bool
  ring   : Nat
  seq    : Nat
  deriving DecidableEq, Repr

/-- What a reconstruction is for (R239): a degraded read, a repair, a leaf of a graft, or a parity row being built. -/
inductive ReconWhy where
  | degraded | repair | leaf | row | encode
  deriving DecidableEq, Repr

/-- A reconstruction this engine collects (R239, R242): the request id, the chunk, the position of the leaf sought and whether
it is a thickening row, the priority class, the code rows of the chain in force (position role, w for a thickening row) and
those dropped, whether the requests have been sent, and the sectors received. -/
structure Recon where
  id     : Nat
  region : Nat
  row    : Nat
  first  : Nat
  count  : Nat
  lost   : Nat
  thick  : Bool
  prio   : Nat
  why    : ReconWhy
  chain  : List Nat
  bad    : List Nat
  asked  : Bool
  got    : SMap (List Byte)
  /-- Credits granted for its sectors and not yet used (R241). -/
  granted : Nat
  /-- Of a repair: lines written since it began (R326). -/
  wrote  : List Nat := []
  deriving DecidableEq, Repr

/-- A chain member's part in a reconstruction (R239 to R242): the request, the partials received and not yet merged and the
sectors passed on, both by 256 × chain index + sector. -/
structure ChainJob where
  id     : Nat
  coll   : Nat
  region : Nat
  row    : Nat
  first  : Nat
  count  : Nat
  lost   : Nat
  thick  : Bool
  prio   : Nat
  chain  : List Nat
  parts  : SMap (List Byte)
  sent   : List Nat
  /-- Credits granted for its partials and not yet used, by chain index (R241). -/
  granted : SMap Nat
  deriving DecidableEq, Repr

/-- Accumulation slots (R241): credits this engine holds from each position, credits it has granted to each that are not
yet used, and whether ACC_FALLBACK has been raised. -/
structure AccSlots where
  credit : SMap Nat
  owed   : SMap Nat
  raised : Bool
  deriving DecidableEq, Repr

/-- A snapshot this owner has taken for a builder (R249): the builder's position, the leaf, and whether its last chunk is
still to come; while it is, the leaf is blocked or its tap pairs are withheld. -/
structure Snap where
  builder : Nat
  /-- The builder's last request for the row. -/
  id      : Nat
  thick   : Bool
  region  : Nat
  row     : Nat
  live    : Bool
  deriving DecidableEq, Repr

/-- A parity row that this engine is building or has built provisionally (R249 to R251): next sector, 256 once built, and the
rings uncommitted at its snapshots that have not committed. -/
structure RowBuild where
  region : Nat
  row    : Nat
  thick  : Bool
  next   : Nat
  rings  : List Nat
  /-- Its last request. -/
  last   : Option Nat
  deriving DecidableEq, Repr

/-- A load that the front has not answered (R244, R245): the lost position, the offset in the aperture and the length. -/
structure DrLoad where
  x   : Nat
  off : Nat
  len : Nat
  deriving DecidableEq, Repr

/-- A sector of a lost position in the front's store (R244). -/
structure DrSector where
  x      : Nat
  region : Nat
  row    : Nat
  sector : Nat
  data   : List Byte
  deriving DecidableEq, Repr

/-- A referred read that has not been answered, or was answered with an error at its limit (R326). -/
structure Referral where
  port : Nat
  id   : Nat
  line : Nat
  late : Bool
  deriving DecidableEq, Repr

/-- A scrub in progress that waits for a repair (R330, R331): its command, the range left, the flags, the lines that do not
read CLEAN, the sector waited for and the counts of its summary. -/
structure Scrub where
  cmd     : Nat
  next    : Nat
  top     : Nat
  flags   : Nat
  bads    : List LineRead
  wait    : Option Nat
  bark    : Nat
  heart   : Nat
  grove   : Nat
  unrep   : List Nat
  sectors : Nat
  skipped : Nat
  miscorr : Nat
  deriving DecidableEq, Repr

/-- The replay of one streamed leaf of a spare (R149): its cut, the passes still to replay, as step and sector, in order, and
those replayed, with how many of the chunks that write into the sector the log fed. -/
structure Replay where
  region : Nat
  row    : Nat
  cut    : Cut
  todo   : List (Nat × Nat)
  did    : List (Nat × Nat × Nat)
  deriving DecidableEq, Repr

/-- A graft at the spare (R252 to R263): position, the commands of GRAFT_BEGIN and RESUME_SET, the list of tags of
RESUME_SET, members still to welcome it, counts still to come, the leaves to rebuild in the phase, those urgent, the
leaf in hand, the next sector of every leaf begun, the cuts of its streamed leaves, the tags whose slices are missing from
the log, and whether a stripe was beyond the code. -/
structure Graft where
  x        : Nat
  standby  : Bool
  cmd      : Option Nat
  resume   : Option Nat
  tags     : Option (List Nat)
  welcomes : List Nat
  counts   : List (Nat × Nat)
  todo     : List (Nat × Nat)
  urgent   : List (Nat × Nat)
  leaf     : Option (Nat × Nat)
  progress : List (Nat × Nat × Nat)
  cuts     : List (Nat × Nat × Cut)
  /-- Mirror regions restored from an older copy, with its stamp or ring (R259). -/
  behind   : List (Nat × Nat)
  missing  : List Nat
  beyond   : Bool
  /-- Streamed leaves that stand at their cut or beyond it, with what is left to replay of each. -/
  replays  : List Replay
  /-- Bytes that replayed passes have overwritten, as they stood before, by step (R150, R223). -/
  olds     : SMap (SMap Byte)
  /-- The first step that replay needs and no present member has logged (R153). -/
  gap      : Option Nat
  deriving DecidableEq, Repr

/-- A GRAFT_JOIN or HANDOVER held until the views agree (R514). -/
structure HeldJoin where
  place : Nat
  pkt   : Pkt
  deriving DecidableEq, Repr

/-- An access held at a memory-side port (R260, R346, R377, R534). -/
structure HeldAccess where
  port : Nat
  id   : Nat
  leaf : Nat
  wr   : Bool
  deriving DecidableEq, Repr


/-- An intake slice (R217, R219): what names it, its NCONTRIB, the sum of the contributions added as FP32 patterns, the
contributions added, and those that wait for an earlier one in strict mode. `full` once complete; `row` its index in the
step's order of completion where it is logged (R135). -/
structure Slice where
  tag    : Nat
  step   : Nat
  eoff   : Nat
  count  : Nat
  n      : Nat
  sum    : List Nat
  added  : List Nat
  early  : SMap (List Nat)
  full   : Bool
  row    : Option Nat
  deriving DecidableEq, Repr

/-- What one chunk of pass 1 contributes (R209): its accumulator partials and its sums by output and row or column, as FP64
patterns. -/
structure ChunkPart where
  chunk : Nat
  accs  : SMap Nat
  sums  : List (Nat × Nat × Nat)
  deriving DecidableEq, Repr

/-- Where a run stands (R207, R208, R210, R230). An ended run has completed, and waits only for its last deltas to go
(R224, R231). -/
inductive RunPhase where
  | pass1 | held | logging | writing | tier | ended
  deriving DecidableEq, Repr

/-- A run of the update unit that holds a handle (R192 to R232). -/
structure Run where
  handle : Nat
  cmd    : Option Nat
  desc   : List Byte
  scal   : List Nat
  phase  : RunPhase
  /-- Chunks in flight with their clusters, and chunks of the pass that are done. -/
  issued : List (Nat × Nat)
  done   : List Nat
  parts  : List ChunkPart
  accs   : List Nat
  /-- Bytes this run has overwritten, as they stood before (R223). -/
  old    : SMap Byte
  /-- Streamed sectors that are complete, and the deltas that wait for their release: region, row, sector (R97, R224). -/
  made   : List (Nat × Nat × Nat)
  ready  : List ((Nat × Nat × Nat) × List Byte)
  /-- Streamed leaves that carry this run's stamp already (R227), and leaves that its passes have begun (R332, R371). -/
  stamped : List (Nat × Nat)
  begun  : List (Nat × Nat)
  /-- Pass index of its scalar records within the step, once logged (R135, R210). -/
  logRow : Option Nat
  nonf   : Nat
  sat    : Nat
  deriving DecidableEq, Repr

/-- Gradient intake and runs (R217 to R232). -/
structure Update where
  gen     : Nat
  slices  : List Slice
  /-- Records whose acceptance is withheld: header and payload (R220, R452). -/
  held    : List (List Byte × List Byte)
  heldAt  : Nat
  runs    : List Run
  last    : Nat
  /-- Since when no chunk has gone because every leaf with work left is blocked (R116), and because each that could go waits
  for the log (R137); counted up to then in HLT_WIN_WAIT and GRV_LOG_WAIT. -/
  winWait : Option Nat
  logWait : Option Nat
  /-- STEP of the last completed run of each tag (R218). -/
  lastStep : SMap Nat
  /-- Next index of a logged slice and of a scalar packet within each step (R135). -/
  nextSlice : SMap Nat
  nextPass  : SMap Nat
  deriving DecidableEq, Repr


/-- A leaf saved for an anchor (R345, R353): leaf index, region, row, the record's STAMP and the leaf's bytes. -/
structure SavedLeaf where
  leaf   : Nat
  region : Nat
  row    : Nat
  stamp  : Nat
  data   : List Byte
  deriving DecidableEq, Repr

/-- Which part of an anchor object the engine writes next (R356). -/
inductive AncPart where
  | manifest | records | chunks | header | trailer
  deriving DecidableEq, Repr

/-- The anchor in progress (R341 to R358). Before its cut it waits for its boundary; from the cut on it has its ring and the
leaves still unsaved, in the order of R348. -/
structure Anchor where
  cmd     : Nat
  handle  : Nat
  num     : Nat
  step    : Nat
  byCount : Bool
  /-- Shard entries: region, TOFF, TLEN. -/
  shards  : List (Nat × Nat × Nat)
  ring    : Nat
  bnd     : Option Bnd
  /-- The flush of its ring has ended: the cut has been taken. -/
  cut     : Bool
  /-- Regions anchored at the cut, ascending, as they were then, with their data rows (R354). -/
  regions : List (Rgn × List Nat)
  unsaved : List Nat
  /-- Urgent leaves, in the order they became urgent, and those that have waited for room. -/
  urgent  : List Nat
  waited  : List Nat
  /-- Leaves whose copy is being read. -/
  reading : List Nat
  /-- Leaves saved, in order, how many of them are in the object, and how many saves were urgent. -/
  saved   : List SavedLeaf
  sent    : Nat
  nUrgent : Nat
  part    : AncPart
  /-- The parts written and persistent: offset and bytes. -/
  object  : List (Nat × List Byte)
  /-- The write that waits for its answer, and how often it has been retried. -/
  writing : Option (Nat × List Byte)
  retries : Nat
  /-- The ledger record of its ring, once that has finished (R390). -/
  ledger  : Option (List Byte)
  /-- Boundaries declared since the last completed anchor's cut, and the engine time, at this anchor's cut (R344). -/
  cutB    : Nat
  cutAt   : Nat
  deriving DecidableEq, Repr

/-- When the last completed anchor took its cut (R344): boundaries declared since, engine time, and the reasons already
raised since the last completed anchor. `num`: highest anchor number completed since power-on. -/
structure AnchorDue where
  boundaries : Nat
  at_        : Nat
  raised     : List Nat
  /-- The last completed anchor's number since power-on (R341). -/
  num        : Option Nat
  deriving DecidableEq, Repr

/-- A TENSOR_DIGEST that takes its image (R375 to R377): leaves still unhashed, urgent ones first, the leaf being read, and
the bytes taken, by row. -/
structure HashJob where
  cmd    : Nat
  region : Nat
  toff   : Nat
  out    : Nat
  todo   : List Nat
  urgent : List Nat
  reading : Option Nat
  rows   : SMap (List Byte)
  deriving DecidableEq, Repr

/-- A ledger record (R383 to R386). `bytes` is its 256 B once finished. -/
structure LedRec where
  ring    : Nat
  bnd     : Bnd
  wstep   : Option Nat
  time    : Nat
  isNew   : Bool
  applied : Bool
  bytes   : Option (List Byte)
  lost    : Bool
  deriving DecidableEq, Repr

/-- The ledger (R383 to R391): records held, oldest first; MAC of the newest intact finished record; the weight digests
that records carry, by step; the highest weight step a record has been begun for; flags that the next record to finish takes. -/
structure Ledger where
  recs     : List LedRec
  prevMac  : List Byte
  weights  : SMap (List Byte)
  lastW    : Option Nat
  /-- A weight digest came too late for its record: the next pending record carries WEIGHT_NEW (R386). -/
  lateNew  : Bool
  recomputed : Bool
  gap      : Bool
  chainNew : Bool
  graft    : Bool
  /-- Weight steps of committed rings whose digests have not been formed (R379, R380). -/
  owed     : List Nat
  deriving DecidableEq, Repr

/-- What an encoding of parity is for (R362, R364, R367), with what its command's completion carries. -/
inductive EncodeWhy where
  | reLeaf
  | restore (result : List Byte)
  | adopt (result : List Byte)
  deriving DecidableEq, Repr

/-- Parity leaves being built from the data leaves as they stand (R364): the command, the step and ring they are encoded
for, the regions, the parity leaves still to build, as region and row, and the next sector of the first of them. -/
structure Encode where
  cmd     : Nat
  why     : EncodeWhy
  step    : Nat
  ring    : Nat
  regions : List Nat
  todo    : List (Nat × Nat)
  next    : Nat
  deriving DecidableEq, Repr

/-- What an anchor restore reads next from its object (R361). -/
inductive RestorePart where
  | header | trailer | manifest | records | body | rest
  deriving DecidableEq, Repr

/-- An ANCHOR_RESTORE in progress (R360 to R362). -/
structure Restore where
  cmd    : Nat
  handle : Nat
  num    : Nat
  step   : Nat
  len    : Nat
  part   : RestorePart
  head   : List Byte
  tail   : List Byte
  /-- Every object byte read so far, for OBJ_DIGEST, and the offset and index of the next record. -/
  got    : List Byte
  off    : Nat
  idx    : Nat
  deriving DecidableEq, Repr

/-- Anchors, encoding and digests (R339 to R391). -/
structure Keep where
  anchor  : Option Anchor
  /-- Seal requests that anchor requests make (R342): by STEP, or by ANC_AT. -/
  picks   : List (Bool × Nat)
  due     : AnchorDue
  hashes  : List HashJob
  led     : Ledger
  encode  : List Encode
  restore : Option Restore
  /-- STEP that every restore and adopt must name, once one has (R363); a run or a ring has started since the lock. -/
  source  : Option Nat
  started : Bool
  /-- Regions whose data writes this engine has ended by re-leaf, restore or final adopt (R364). -/
  encoded : List Nat
  /-- Requests of the builders that this engine has answered since then: collector, id, region, row, first sector (R364). -/
  answered : List (Nat × Nat × Nat × Nat × Nat)
  deriving DecidableEq, Repr


/-- An access that is withheld during a coding-core reset (R452): a packet at a grove port or, by the fabric, at the spill or
route aperture; a degraded read; a write to the map or roll-call aperture. -/
inductive Withheld where
  | packet (typ : Nat) (p : SapPkt)
  | fabric (route : Bool) (key requester typ : Nat) (p : SapPkt)
  | load (store : Bool) (off len key requester : Nat)
  | map (key requester off : Nat) (data : List Byte)
  | roll (key requester pos : Nat) (record : List Byte)
  deriving DecidableEq, Repr



/-- Error counts of one minute (R417): bark and heartwood corrections, droops, corrected SRAM words, compute resets. -/
structure Bucket where
  bark   : Nat
  hw     : Nat
  droop  : Nat
  sram   : Nat
  resets : Nat
  deriving DecidableEq, Repr

/-- What a lane has reported (R418, R461): last BER code and eye margin, corrected symbols since power-on, and the reports in
a row at or above LANE_BER. -/
structure LaneHealth where
  ber  : Nat
  eye  : Nat
  corr : Nat
  high : Nat
  deriving DecidableEq, Repr

/-- Wear of one unit (R423): stress hours in units of 2^-20 h, and the samples, oldest first, each with its number and its
value in units of 1/256. -/
structure Wear where
  stress  : Nat
  samples : List (Nat × Nat)
  deriving DecidableEq, Repr

/-- Health, risk and wear beside its registers (R416 to R433). Units are keyed 128 × kind + number. -/
structure Health where
  /-- The minute in progress, and the completed ones, newest first, up to 1,440. -/
  now     : Bucket
  buckets : List Bucket
  /-- Corrected symbols reported since the last evaluation. -/
  fec     : Nat
  lanes   : SMap LaneHealth
  /-- Indicators at the last evaluation. -/
  x       : List Nat
  /-- Consecutive evaluations of the three conditions of R422; thickening has been offered or advised. -/
  upper   : Nat
  lower   : Nat
  hard    : Nat
  offered : Bool
  /-- Stripes that this member has offered since it last withdrew its offers: region and row (R264, R422). -/
  offers  : List (Nat × Nat)
  /-- Errors of each unit since the previous wear sample, the number of the next sample, and the wear of each unit. -/
  errs    : SMap Nat
  /-- Minutes since then in which each lane has been used at full rate (R423). -/
  full    : SMap Nat
  wearNo  : Nat
  wear    : SMap Wear
  /-- The NVM copy of R425: number of the next sample, and the wear of each unit. -/
  nvmNo   : Nat
  nvm     : SMap Wear
  /-- Bytes of exempt work charged to later windows, by port (R320); wakes seen at the last decision, by port (R430). -/
  debt    : SMap Nat
  /-- Bytes that each memory-side port has issued in its window, and the class it serves first there (R318, R319). -/
  spent   : SMap Nat
  first   : SMap Nat
  /-- Bytes spent and budget of each port's last 16 windows, newest first (R429). -/
  windows : SMap (List (Nat × Nat))
  /-- Engine times of the bark reports of the last 20 µs taken up for confirmation (R322). -/
  confirms : List Nat
  wakes   : SMap Nat
  /-- The job risk that is current (R431). -/
  jobRisk : Nat
  deriving DecidableEq, Repr


/-- The flash and the test network (R518, R546, R547): wear writes that wait while the flash is granted, oldest first, as the
number of the next sample and the wear of each unit; the wrapper instruction; results of SRAM tests run by bank. -/
structure Edge where
  wearQ : List (Nat × SMap Wear)
  wir   : Nat
  bist  : SMap Nat
  deriving DecidableEq, Repr


/-- The engine's whole state but the queue of waiting commands. -/
structure Eng where
  /-- What the last command made the engine do at its interfaces, in order. -/
  out    : List Action
  /-- The model's own counter of free values: the index the next undefined value takes. -/
  free   : Nat
  /-- Register fields that have been set, by key 64 × offset + low bit; a field not listed reads its reset value. -/
  regs   : SMap Nat
  /-- Local memory: bytes that are not zero, by address (R24, R336). -/
  mem    : List Host.Cell
  ctxs   : SMap Ctx
  /-- Bytes of the region-descriptor space and of the microprogram store that are not zero (R67, R200). -/
  descs  : SMap Byte
  progs  : SMap Byte
  /-- Sync objects that are not zero (R474). -/
  syncs  : SMap Nat
  pins   : Pins
  fuses  : Fuses
  boot   : Boot
  time   : Time
  intr   : Intr
  q      : Queues
  rc     : RollCall
  map    : MapState
  mgmt   : Mgmt
  /-- Sessions by place (R300), and the spares' places that hold one without a position (R267). -/
  sess   : SMap Sess
  ports  : List Port
  /-- Links between two other members, lower position first, that are not present as far as this engine knows (R64). -/
  linksDown : List (Nat × Nat)
  /-- Valid regions in ascending number. -/
  rgns   : List Rgn
  /-- Open capture entries, least recently merged first. -/
  caps   : List Capture
  sent   : List Sent
  /-- Release points last sent to each holder: region, row, position, point (R115). -/
  relSent : List (Nat × Nat × Nat × Nat)
  /-- Destinations that have asked for a pause (R117). -/
  busy   : List Nat
  /-- Engine time of the last data-bearing packet from each position (R117). -/
  dataAt : SMap Nat
  applied : List Applied
  window  : List WinPkt
  /-- Data-bearing packets that wait: out of order, for a rebuilding context, or for a staging slot (R113, R119, R166). -/
  waits  : List Pkt
  advs   : List Advisor
  rings  : Rings
  agrees : List Agree
  /-- Agreement packets of a later round (R142). -/
  early  : List Pkt
  log    : Log
  mtx    : List MirrorTx
  mrx    : List MirrorRx
  mreq   : List MirrorReq
  /-- Number of the next copy of each region (R83). -/
  mcopy  : SMap Nat
  /-- Operations of the tier manager not yet answered, and the number of the next (R230). -/
  tier   : List TierOpen
  tierNo : Nat
  /-- Transfers at the memory-side ports not yet answered, and the tag of the next (R317). -/
  xfers  : List Xfer
  xferNo : Nat
  /-- Tap pairs whose acceptance is withheld. -/
  taps   : List HeldTap
  sec    : Sec
  loss   : Loss
  thickDests : List ThickDest
  hosted : List Hosted
  /-- Released thickening rows whose hosts have still to hear that this owner's last THICK packet is acknowledged (R266). -/
  thickEnds : List ThickDest
  /-- Survivor sets whose decoding rows are held, least recently used first (R56). -/
  rowSets : List (List Nat)
  /-- Next counter of a generation-0 session with a place (R300). -/
  gen0   : SMap Nat
  /-- Quick digests by leaf (R369). -/
  digs   : SMap Dig
  /-- Heartwood cache: sector number and pending change of its check bytes, least recently used first (R325). -/
  hwc    : List (Nat × List Byte)
  evac   : Evac
  /-- Lines listed as unrepaired, oldest first (R328). -/
  unrep  : List Nat
  /-- The line address that the last BARK_MISCORRECT was raised with (R322). -/
  miscorr : Option Nat
  /-- Products of class switches applied here (R83). -/
  prods  : List ProdKey
  /-- Input digests of the ledger by ring (R381). -/
  inputs : SMap (List Byte)
  recons : List Recon
  reconNo : Nat
  chains : List ChainJob
  acc    : AccSlots
  snaps  : List Snap
  builds : List RowBuild
  drLoads : List DrLoad
  /-- The front's store of reconstructed sectors, oldest first (R244). -/
  drStore : List DrSector
  refs   : List Referral
  scrubs : List Scrub
  graft  : Option Graft
  /-- Heat bytes received in HEAT_COPY, by source position and leaf (R257). -/
  heats  : List (Nat × SMap Nat)
  heldJoins : List HeldJoin
  held   : List HeldAccess
  /-- Stripes whose parity no longer matches an own leaf, as this owner knows: region, row and the ring of the change
  (R327, R329, R338). -/
  oldLost : List (Nat × Nat × Nat)
  /-- Engine time of the last advice event of each loop (R427). -/
  advised : SMap Nat
  upd    : Update
  keep   : Keep
  /-- Packets that this engine sends itself: it owns a data leaf of a stripe whose thickening row it hosts (R58). -/
  selfQ  : List Pkt
  /-- Own streamed leaves, by region and row, in stripes that a loss has touched and that are not yet drained (R147). -/
  draining : List (Nat × Nat)
  /-- Stamp and sector of the packet last sent of an own streamed leaf, by leaf (R129). -/
  cuts   : SMap (Nat × Nat)
  /-- Accesses withheld during a coding-core reset, oldest first (R452). -/
  late   : List Withheld
  health : Health
  edge   : Edge
  deriving DecidableEq, Repr

/-- The machine's state: the engine, and the commands that wait for it, first in, first out. -/
structure State where
  pending : List Instr
  eng     : Eng
  deriving DecidableEq, Repr

/-- Why the machine stops with a fault. Every error the spec describes for software is an error response, a status, a
counter or an interrupt source, and the machine goes on; what is left is an access that cannot exist. -/
inductive Fault where
  /-- An access to local memory above the capacity the stacks report, which R25 says does not exist. Raised by the
  memory controllers' own commands (TAP_PAIR, REFERRED_READ); safe: nothing is concluded of such an access. -/
  | outsideMemory
  deriving DecidableEq, Repr

/-- Why a command has no meaning here. -/
inductive Refusal where
  /-- The dispatcher has no meaning for this command yet. Raised by `exec` alone; safe. -/
  | notModelled (mnemonic : String)
  deriving DecidableEq, Repr

/-- Wires at power-off: pwr_good is low, nothing drives the others but the pull-ups of the active-low inputs. -/
def Pins.reset : Pins :=
  { pwrGood := false, cmpRstL := true, droopWarnL := true, teMode := false, flShareReq := false,
    flShareGnt := false, engReady := false, compHold := true }

/-- An unfused part: every cluster and lane present, no revoked key, no fused minimum version (DESIGN CHOICE, log entry 3). -/
def Fuses.unfused : Fuses :=
  { clusters := 2 ^ 64 - 1, lanes := 2 ^ 64 - 1, svnMin := 0, revoked := 0,
    keyHash := (List.range 4).map Config.keyHash, rootKill := false, serial := (Config.serial 0).toNat }

/-- A port before its first training (R278). -/
def Port.reset : Port :=
  { attempt := 0, kept := false, resetting := false, farPresent := 0, farPassing := 0, lost := 0, ceiling := 16,
    txFseq := 0, replay := [], rxFseq := 0, unacked := 0, retrying := false, reqFseq := 0, reqCount := 0,
    reqTimes := [], used := [], freedFar := [], freed := [], served := [], txq := [], rx := [], aborts := [],
    bufs := [], bufNo := 0, lane := 0, farId := false, lowSent := false, asks := [], ackSeen := false, heldBufs := [],
    stBefore := 0, farUsed := 0, farFrom := 0 }

/-- The engine right after reset: pwr_good has not risen, every register reads its reset value.
DESIGN CHOICE: log entry 4. DESIGN CHOICE: log entry 5. -/
def Eng.reset : Eng :=
  { out := [], free := 0, regs := [], mem := [], ctxs := [], descs := [], progs := [], syncs := [],
    pins := Pins.reset, fuses := Fuses.unfused,
    boot := { stackCaps := [], filling := false, timeouts := [], resetsAt := [], inReset := false, watchdog := false },
    time := { acc := 0, half := false, slew := none, lastPps := none },
    intr := { unfired := [], delivered := [], holdoff := [], claimedBy := [] },
    q := { asked := [], fetched := [], opens := [], mbox := [], nextId := 0 },
    rc := { active := false, records := [], own := [], unsent := [] },
    map := { digest := [], buf := [], len := 0, waiting := [], fanout := 0, ngroves := 0, resume := [] },
    mgmt := { eid := 0, dynAddr := 0, staticAddr := 0x3A, views := [] },
    sess := [], ports := [Port.reset, Port.reset, Port.reset, Port.reset], linksDown := [], rgns := [], caps := [], sent := [],
    relSent := [], busy := [], dataAt := [], applied := [], window := [], waits := [], advs := [],
    rings := { recs := [], votes := [], reqs := [], stallAt := none, stallRaised := false, lateRaised := false,
               highest := none, commits := [], lastBnd := none, applies := [], stages := [], seqs := [], frozen := none,
               roll := none, nextN := none, seenStep := false, seenTstep := false },
    agrees := [], early := [],
    log := { held := [], outs := [], refused := [], bytes := [], nextRow := [], retires := [], exposed := none, early := [], asked := none },
    mtx := [], mrx := [], mreq := [], mcopy := [],
    tier := [], tierNo := 0, xfers := [], xferNo := 0, taps := [],
    sec := { jlk := none, amk := none, atk := none, challenge := none, drbg := List.replicate 48 0, reseed := 0, seeds := 0, authMs := none },
    loss := { heard := [], silent := [], wasLost := [], plain := [], fabric := [], grafts := [], fresh := [], settledBy := [],
              begins := [], beyond := [], hbLosses := 0, hbMap := 0 },
    thickDests := [], hosted := [], thickEnds := [], rowSets := [],
    gen0 := [],
    digs := [], hwc := [],
    evac := { copyCmd := none, auto := false, cutCmd := none, spare := 0, sent := [], dirty := [], step := 0, acks := [], src := none,
              parts := [] },
    unrep := [], miscorr := none, prods := [], inputs := [], recons := [], reconNo := 1, chains := [],
    acc := { credit := [], owed := [], raised := false }, snaps := [], builds := [], drLoads := [],
    drStore := [], refs := [], scrubs := [], graft := none, heats := [], heldJoins := [], held := [],
    oldLost := [],
    advised := [],
    upd := { gen := 0, slices := [], held := [], heldAt := 0, runs := [], last := 0, winWait := none, logWait := none,
             lastStep := [], nextSlice := [],
             nextPass := [] },
    keep := { anchor := none, picks := [], due := { boundaries := 0, at_ := 0, raised := [], num := none }, hashes := [],
                led := { recs := [], prevMac := [], weights := [], lastW := none, lateNew := false, recomputed := false,
                         gap := false, chainNew := false, graft := false, owed := [] },
                encode := [], restore := none, source := none, started := false, encoded := [], answered := [] },
    selfQ := [], draining := [],
    cuts := [],
    late := [],
    health := { now := { bark := 0, hw := 0, droop := 0, sram := 0, resets := 0 }, buckets := [], fec := 0, lanes := [],
                  x := List.replicate 10 0, upper := 0, lower := 0, hard := 0, offered := false, offers := [], errs := [],
                  full := [], wearNo := 0,
                  wear := [], nvmNo := 0, nvm := [], debt := [], spent := [], first := [], windows := [],
                  confirms := [], wakes := [], jobRisk := 0 },
    edge := { wearQ := [], wir := 0, bist := [] } }

/-- The machine right after reset: the engine as reset leaves it, and no command waiting. DESIGN CHOICE: log entry 4. -/
def State.reset : State := { pending := [], eng := Eng.reset }

end Sys2Proof.Machine
end

