-- ==== Sys2Proof/Machine/Regs.lean ====
section
/-!
DEFINITION. Sys2Proof/Machine/Regs.lean: every field of every register of the register window (R9 to R11, R487), as the
register tables of the spec give it: offset, bits, access code, reset value, and the range to which a write is clamped.
A field whose reset column says "from image (v)" carries v, the value of the shipped image. Reserved bits have no field:
they read zero (R13).
-/
namespace Sys2Proof.Machine

/-- The sources that R478 and R516 mark as level: ENGINE_READY, OUT_OF_SERVICE, CQ_HALT0 to CQ_HALT3, GROVE_ISOLATED,
SELF_FENCED, CRYPTO_ERROR. -/
def isLevelSource (n : Nat) : Bool :=
  n == 0 || n == 4 || (36 ≤ n && n ≤ 39) || n == 129 || n == 130 || n == 193

/-- Access codes (R11). -/
inductive Acc where
  | ro | rw | w1c | wo | rwl
  deriving DecidableEq, Repr

/-- Reset domains of registers. -/
inductive Dom where
  | alwaysOn | coding | link | crypto
  deriving DecidableEq, Repr

/-- One field of a register: the register's offset, its low bit, its width, its access code, its reset value, and the
least and greatest value a software write stores (R9, R11). -/
structure Fld where
  off   : Nat
  lo    : Nat
  width : Nat
  acc   : Acc
  reset : Nat
  cmin  : Nat
  cmax  : Nat
  deriving DecidableEq, Repr

/-- The key of a field in `Eng.regs`. -/
def Fld.key (f : Fld) : Nat := 64 * f.off + f.lo

/-- One row of the register map: name, base offset, the stride and count of up to two indices, width in bits, reset
domain, and the register's fields at given indices. -/
structure RegRow where
  name : String
  base : Nat
  str1 : Nat
  cnt1 : Nat
  str2 : Nat
  cnt2 : Nat
  bits : Nat
  dom  : Dom
  flds : Nat → Nat → List Fld

namespace Reg

/-! ### Registers of 01_engine_in_accelerator.md -/

/-- GEN_FLOOR_CLU.PRESENT [63:0], RO: bit c is 1 when cluster c is present at power-on. Its reset value: DESIGN CHOICE, log entry 4. -/
def GEN_FLOOR_CLU_PRESENT : Fld :=
  ⟨0x000100, 0, 64, .ro, 0xFFFFFFFFFFFFFFFF, 0, 18446744073709551615⟩

/-- GEN_FLOOR_LANE.PRESENT [63:0], RO: bit 16p + l is 1 when lane l of port p is present at power-on. Its reset value: DESIGN CHOICE, log entry 4. -/
def GEN_FLOOR_LANE_PRESENT : Fld :=
  ⟨0x000108, 0, 64, .ro, 0xFFFFFFFFFFFFFFFF, 0, 18446744073709551615⟩

/-- GEN_FLOOR_SUM.STACK_GIB [31:24], RO: capacity of each stack in GiB; 0 if MEM_GEOM_BAD. -/
def GEN_FLOOR_SUM_STACK_GIB : Fld :=
  ⟨0x000110, 24, 8, .ro, 0, 0, 255⟩

/-- GEN_FLOOR_SUM.LANES [23:16], RO: count of present grove lanes, 56 to 64 inclusive. Its reset value: DESIGN CHOICE, log entry 4. -/
def GEN_FLOOR_SUM_LANES : Fld :=
  ⟨0x000110, 16, 8, .ro, 64, 0, 255⟩

/-- GEN_FLOOR_SUM.CLUSTERS [15:8], RO: count of present clusters, 60 to 64 inclusive. Its reset value: DESIGN CHOICE, log entry 4. -/
def GEN_FLOOR_SUM_CLUSTERS : Fld :=
  ⟨0x000110, 8, 8, .ro, 64, 0, 255⟩

/-- GEN_FLOOR_SUM.MEM_GEOM_BAD [1:1], RO: stacks violate R25. -/
def GEN_FLOOR_SUM_MEM_GEOM_BAD : Fld :=
  ⟨0x000110, 1, 1, .ro, 0, 0, 1⟩

/-- GEN_FLOOR_SUM.FUSE_BAD [0:0], RO: fuse map violates R26. -/
def GEN_FLOOR_SUM_FUSE_BAD : Fld :=
  ⟨0x000110, 0, 1, .ro, 0, 0, 1⟩

/-- GEN_PLACE.VALID [31:31], RO: set by the first write to this register. -/
def GEN_PLACE_VALID : Fld :=
  ⟨0x000118, 31, 1, .ro, 0, 0, 1⟩

/-- GEN_PLACE.BLOCK [19:12], RWL: block number. -/
def GEN_PLACE_BLOCK : Fld :=
  ⟨0x000118, 12, 8, .rwl, 0, 0, 255⟩

/-- GEN_PLACE.CUBE [11:6], RWL: cube number. -/
def GEN_PLACE_CUBE : Fld :=
  ⟨0x000118, 6, 6, .rwl, 0, 0, 63⟩

/-- GEN_PLACE.CHIP [5:0], RWL: chip number. -/
def GEN_PLACE_CHIP : Fld :=
  ⟨0x000118, 0, 6, .rwl, 0, 0, 63⟩

/-! ### Registers of 02_code_and_groves.md -/

/-- GRV_CFG.VALID [31:31], RO: 1 when a grove map has been accepted. -/
def GRV_CFG_VALID : Fld :=
  ⟨0x060000, 31, 1, .ro, 0, 0, 1⟩

/-- GRV_CFG.W [20:16], RO: grove width w, 4 to 16 inclusive. -/
def GRV_CFG_W : Fld :=
  ⟨0x060000, 16, 5, .ro, 0, 0, 31⟩

/-- GRV_CFG.K [15:12], RO: data count k, 1 to 15 inclusive. -/
def GRV_CFG_K : Fld :=
  ⟨0x060000, 12, 4, .ro, 0, 0, 15⟩

/-- GRV_CFG.M [9:8], RO: parity count m, 1 to 3 inclusive. -/
def GRV_CFG_M : Fld :=
  ⟨0x060000, 8, 2, .ro, 0, 0, 3⟩

/-- GRV_CFG.POS [3:0], RO: this engine's grove position. -/
def GRV_CFG_POS : Fld :=
  ⟨0x060000, 0, 4, .ro, 0, 0, 15⟩

/-- GRV_WIRING.P3_ROLE [17:16], RO: 0: none; 1: cube-level peer; 2: spare rail; 3: reserved. -/
def GRV_WIRING_P3_ROLE : Fld :=
  ⟨0x060004, 16, 2, .ro, 0, 0, 3⟩

/-- GRV_WIRING.P2_VALID [12:12], RO: 1 when this position has a chord partner. -/
def GRV_WIRING_P2_VALID : Fld :=
  ⟨0x060004, 12, 1, .ro, 0, 0, 1⟩

/-- GRV_WIRING.P2_NBR [11:8], RO: chord partner position; 0 when P2_VALID is 0. -/
def GRV_WIRING_P2_NBR : Fld :=
  ⟨0x060004, 8, 4, .ro, 0, 0, 15⟩

/-- GRV_WIRING.P1_NBR [7:4], RO: position (POS − 1) mod w. -/
def GRV_WIRING_P1_NBR : Fld :=
  ⟨0x060004, 4, 4, .ro, 0, 0, 15⟩

/-- GRV_WIRING.P0_NBR [3:0], RO: position (POS + 1) mod w. -/
def GRV_WIRING_P0_NBR : Fld :=
  ⟨0x060004, 0, 4, .ro, 0, 0, 15⟩

/-- GRV_GF_TEST.INV_A [31:24], RO: A^-1 in GF(2^8); 0x00 when A is 0x00. -/
def GRV_GF_TEST_INV_A : Fld :=
  ⟨0x060010, 24, 8, .ro, 0, 0, 255⟩

/-- GRV_GF_TEST.PROD [23:16], RO: A·B in GF(2^8). -/
def GRV_GF_TEST_PROD : Fld :=
  ⟨0x060010, 16, 8, .ro, 0, 0, 255⟩

/-- GRV_GF_TEST.B [15:8], RW: second operand. -/
def GRV_GF_TEST_B : Fld :=
  ⟨0x060010, 8, 8, .rw, 0, 0, 255⟩

/-- GRV_GF_TEST.A [7:0], RW: first operand. -/
def GRV_GF_TEST_A : Fld :=
  ⟨0x060010, 0, 8, .rw, 0, 0, 255⟩

/-- GRV_STRAY_CNT.COUNT [31:0], RO: stray parity writes under R44; stops at 0xFFFF_FFFF. -/
def GRV_STRAY_CNT_COUNT : Fld :=
  ⟨0x060018, 0, 32, .ro, 0, 0, 4294967295⟩

/-- GRV_STRAY_ADDR.LINE [39:6], RO: line address of the most recent stray parity write. -/
def GRV_STRAY_ADDR_LINE : Fld :=
  ⟨0x060020, 6, 34, .ro, 0, 0, 17179869183⟩

/-- GRV_MEMBER.PRESENT [31:31], RO: 1 when n < w in the accepted grove map. -/
def GRV_MEMBER_PRESENT (n : Nat) : Fld :=
  ⟨0x060040 + 0x4 * n, 31, 1, .ro, 0, 0, 1⟩

/-- GRV_MEMBER.LOST [30:30], RO: 1 while position n is declared lost, as set out in *Degraded reads, rebuild and graft*. -/
def GRV_MEMBER_LOST (n : Nat) : Fld :=
  ⟨0x060040 + 0x4 * n, 30, 1, .ro, 0, 0, 1⟩

/-- GRV_MEMBER.PLACE [19:0], RO: place address bound to position n; changes only at graft. -/
def GRV_MEMBER_PLACE (n : Nat) : Fld :=
  ⟨0x060040 + 0x4 * n, 0, 20, .ro, 0, 0, 1048575⟩

/-! ### Registers of 03_regions_and_classes.md -/

/-- GRV_RGN_CHECK.FAIL [31:31], W1C: a check of R71 failed. -/
def GRV_RGN_CHECK_FAIL : Fld :=
  ⟨0x060100, 31, 1, .w1c, 0, 0, 1⟩

/-- GRV_RGN_CHECK.REASON [23:16], RO: reason code of the first failure since FAIL was last clear. -/
def GRV_RGN_CHECK_REASON : Fld :=
  ⟨0x060100, 16, 8, .ro, 0, 0, 255⟩

/-- GRV_RGN_CHECK.REGION [11:0], RO: region of that failure. -/
def GRV_RGN_CHECK_REGION : Fld :=
  ⟨0x060100, 0, 12, .ro, 0, 0, 4095⟩

/-- GRV_RGN_DIGEST.DIGEST [63:0], RO: region-table digest of R73; byte i of the digest in bits [8i+7:8i]. -/
def GRV_RGN_DIGEST_DIGEST : Fld :=
  ⟨0x060108, 0, 64, .ro, 0, 0, 18446744073709551615⟩

/-- GRV_KEY_MISS_CNT.COUNT [31:0], RO: refusals under R90; stops at 0xFFFF_FFFF. -/
def GRV_KEY_MISS_CNT_COUNT : Fld :=
  ⟨0x060110, 0, 32, .ro, 0, 0, 4294967295⟩

/-- GRV_KEY_MISS_LAST.NO_REGION [63:63], RO: 1 when the leaf or named region lay in no region of class 1 to 4 inclusive, or the refusal was at the route aperture. -/
def GRV_KEY_MISS_LAST_NO_REGION : Fld :=
  ⟨0x060118, 63, 1, .ro, 0, 0, 1⟩

/-- GRV_KEY_MISS_LAST.REGION [43:32], RO: region addressed; 0 when NO_REGION is 1. -/
def GRV_KEY_MISS_LAST_REGION : Fld :=
  ⟨0x060118, 32, 12, .ro, 0, 0, 4095⟩

/-- GRV_KEY_MISS_LAST.PLACE [19:0], RO: place address of the requester. -/
def GRV_KEY_MISS_LAST_PLACE : Fld :=
  ⟨0x060118, 0, 20, .ro, 0, 0, 1048575⟩

/-- GRV_WRITER_CNT.COUNT [31:0], RO: writer violations under R76; stops at 0xFFFF_FFFF. -/
def GRV_WRITER_CNT_COUNT : Fld :=
  ⟨0x060120, 0, 32, .ro, 0, 0, 4294967295⟩

/-- GRV_WRITER_ADDR.SOURCE [42:40], RO: 1 tier write-back, 2 fabric store, 3 storage path, 4 other. -/
def GRV_WRITER_ADDR_SOURCE : Fld :=
  ⟨0x060128, 40, 3, .ro, 0, 0, 7⟩

/-- GRV_WRITER_ADDR.LINE [39:6], RO: line address of the most recent writer violation. -/
def GRV_WRITER_ADDR_LINE : Fld :=
  ⟨0x060128, 6, 34, .ro, 0, 0, 17179869183⟩

/-- GRV_MIRROR_TORN.COUNT [31:0], RO: torn copies under R80; stops at 0xFFFF_FFFF. -/
def GRV_MIRROR_TORN_COUNT : Fld :=
  ⟨0x060130, 0, 32, .ro, 0, 0, 4294967295⟩

/-- GRV_ADV_CTL.EXPERT [0:0], RW: 1 lets the advisor switch classes under R92. -/
def GRV_ADV_CTL_EXPERT : Fld :=
  ⟨0x060140, 0, 1, .rw, 0, 0, 1⟩

/-- GRV_ADV_SEL.REGION [11:0], RW: region whose advisor state GRV_ADV_STAT shows. -/
def GRV_ADV_SEL_REGION : Fld :=
  ⟨0x060144, 0, 12, .rw, 0, 0, 4095⟩

/-- GRV_ADV_STAT.MEAN [31:16], RO: grove mean of u_s at the last seal, in units of 1/65,536. -/
def GRV_ADV_STAT_MEAN : Fld :=
  ⟨0x060148, 16, 16, .ro, 0, 0, 65535⟩

/-- GRV_ADV_STAT.STREAK [15:8], RO: consecutive seals past the threshold in force. -/
def GRV_ADV_STAT_STREAK : Fld :=
  ⟨0x060148, 8, 8, .ro, 0, 0, 255⟩

/-- GRV_ADV_STAT.PROPOSE [1:0], RO: 0 none; 1 towards mirror; 2 towards coded; 3 switch in progress. -/
def GRV_ADV_STAT_PROPOSE : Fld :=
  ⟨0x060148, 0, 2, .ro, 0, 0, 3⟩

/-! ### Registers of 04_delta_capture_and_transport.md -/

/-- GRV_TAP_CTL.IDLE [7:0], RW: idle time in µs that closes a capture entry under R100, 1 to 255 inclusive; a write of 0 stores 1. -/
def GRV_TAP_CTL_IDLE : Fld :=
  ⟨0x060200, 0, 8, .rw, 16, 1, 255⟩

/-- GRV_WIN_CTL.FIT [31:31], RO: 0 when the last start-lock attempt failed R118. -/
def GRV_WIN_CTL_FIT : Fld :=
  ⟨0x060204, 31, 1, .ro, 1, 0, 1⟩

/-- GRV_WIN_CTL.OPEN [28:16], RWL: open streamed leaves per holder, 64 to 4,096 inclusive; values outside the range are stored clamped. -/
def GRV_WIN_CTL_OPEN : Fld :=
  ⟨0x060204, 16, 13, .rwl, 1024, 64, 4096⟩

/-- GRV_WIN_CTL.DEPTH [8:0], RWL: per-leaf window in packets, 16 to 256 inclusive; values outside the range are stored clamped. -/
def GRV_WIN_CTL_DEPTH : Fld :=
  ⟨0x060204, 0, 9, .rwl, 64, 16, 256⟩

/-- GRV_ACK_CTL.CREDIT [27:16], RWL: packets outstanding per holder, 32 to 1,024 inclusive; values outside the range are stored clamped. -/
def GRV_ACK_CTL_CREDIT : Fld :=
  ⟨0x060208, 16, 12, .rwl, 256, 32, 1024⟩

/-- GRV_ACK_CTL.DEADLINE [15:0], RW: acknowledgement deadline in units of 10 µs, 10 to 10,000 inclusive; values outside the range are stored clamped. -/
def GRV_ACK_CTL_DEADLINE : Fld :=
  ⟨0x060208, 0, 16, .rw, 200, 10, 10000⟩

/-- GRV_SPILL_CTL.EXPERT [31:31], RW: unlocks SHARE under R124. -/
def GRV_SPILL_CTL_EXPERT : Fld :=
  ⟨0x06020C, 31, 1, .rw, 0, 0, 1⟩

/-- GRV_SPILL_CTL.SHARE [7:0], RW: spill share in %, 0 to 30 inclusive. -/
def GRV_SPILL_CTL_SHARE : Fld :=
  ⟨0x06020C, 0, 8, .rw, 0, 0, 30⟩

/-- GRV_LAG_NOW.LEAVES [20:0], RO: leaves currently lagging under R122. -/
def GRV_LAG_NOW_LEAVES : Fld :=
  ⟨0x060210, 0, 21, .ro, 0, 0, 2097151⟩

/-- GRV_LAG_CNT.COUNT [63:0], RO: deadline misses under R121; stops at all ones. -/
def GRV_LAG_CNT_COUNT : Fld :=
  ⟨0x060218, 0, 64, .ro, 0, 0, 18446744073709551615⟩

/-- GRV_SAP_TX.COUNT [63:0], RO: data-bearing packets sent, counting each destination and each resend; stops at all ones. -/
def GRV_SAP_TX_COUNT : Fld :=
  ⟨0x060220, 0, 64, .ro, 0, 0, 18446744073709551615⟩

/-- GRV_SAP_RAW.BYTES [63:0], RO: 4,096 B for each sector delta thinned and sent, counted once per sector; stops at all ones. -/
def GRV_SAP_RAW_BYTES : Fld :=
  ⟨0x060228, 0, 64, .ro, 0, 0, 18446744073709551615⟩

/-- GRV_SAP_THIN.BYTES [63:0], RO: payload bytes of the same sectors after thinning, counted once per sector; stops at all ones. -/
def GRV_SAP_THIN_BYTES : Fld :=
  ⟨0x060230, 0, 64, .ro, 0, 0, 18446744073709551615⟩

/-- GRV_SAP_DROP.GEN [31:24], RO: packets discarded at check 1 of R119; stops at 255. -/
def GRV_SAP_DROP_GEN : Fld :=
  ⟨0x060238, 24, 8, .ro, 0, 0, 255⟩

/-- GRV_SAP_DROP.MALFORMED [23:16], RO: packets discarded at checks 2 to 5 inclusive; stops at 255. -/
def GRV_SAP_DROP_MALFORMED : Fld :=
  ⟨0x060238, 16, 8, .ro, 0, 0, 255⟩

/-- GRV_SAP_DROP.REORDER [15:8], RO: packets discarded because their source's receive space was full, that is, sent beyond credit (R113); stops at 255. -/
def GRV_SAP_DROP_REORDER : Fld :=
  ⟨0x060238, 8, 8, .ro, 0, 0, 255⟩

/-- GRV_SAP_DROP.DUP [7:0], RO: duplicates acknowledged and not applied; stops at 255. -/
def GRV_SAP_DROP_DUP : Fld :=
  ⟨0x060238, 0, 8, .ro, 0, 0, 255⟩

/-- GRV_SPILL_BYTES.BYTES [63:0], RO: bytes of SAP packets sent by spill, tags included; stops at all ones. -/
def GRV_SPILL_BYTES_BYTES : Fld :=
  ⟨0x060240, 0, 64, .ro, 0, 0, 18446744073709551615⟩

/-! ### Registers of 05_streamed_consistency.md -/

/-- GRV_LOG_CTL.FIT [31:31], RO: 0 when the last start-lock attempt failed R136. -/
def GRV_LOG_CTL_FIT : Fld :=
  ⟨0x060300, 31, 1, .ro, 1, 0, 1⟩

/-- GRV_LOG_CTL.SRC [24:24], RWL: 0: owner sends log; 1: collective units deliver to partners (R133). -/
def GRV_LOG_CTL_SRC : Fld :=
  ⟨0x060300, 24, 1, .rwl, 0, 0, 1⟩

/-- GRV_LOG_CTL.COPIES [17:16], RWL: log partners, 1 or 2; a write of 0 stores 1, a write of 3 stores 2. -/
def GRV_LOG_CTL_COPIES : Fld :=
  ⟨0x060300, 16, 2, .rwl, 1, 1, 2⟩

/-- GRV_LOG_CTL.STEP_SIZE [12:0], RWL: per-step log size in units of 64 MiB, 0 to 4,096 inclusive; larger values are stored as 4,096. -/
def GRV_LOG_CTL_STEP_SIZE : Fld :=
  ⟨0x060300, 0, 13, .rwl, 0, 0, 4096⟩

/-- GRV_LOG_STAT.RETIRED [63:32], RO: newest step retired under R138. -/
def GRV_LOG_STAT_RETIRED : Fld :=
  ⟨0x060308, 32, 32, .ro, 0, 0, 4294967295⟩

/-- GRV_LOG_STAT.EXPOSED [31:31], RO: set under R139. -/
def GRV_LOG_STAT_EXPOSED : Fld :=
  ⟨0x060308, 31, 1, .ro, 0, 0, 1⟩

/-- GRV_LOG_STAT.OVER [30:30], RO: a step's log has passed STEP_SIZE since the start lock (R137). -/
def GRV_LOG_STAT_OVER : Fld :=
  ⟨0x060308, 30, 1, .ro, 0, 0, 1⟩

/-- GRV_LOG_STAT.LOGGED [29:0], RO: low 30 bits of the newest step whose slices are all logged. -/
def GRV_LOG_STAT_LOGGED : Fld :=
  ⟨0x060308, 0, 30, .ro, 0, 0, 1073741823⟩

/-- GRV_LOG_WAIT.CYCLES [63:0], RO: update-clock cycles in which the update unit issued no chunk because every chunk it could otherwise issue waited for log space or for LOG_ACK (R133, R137); cycles in which other chunks progress do not count; stops at all ones. -/
def GRV_LOG_WAIT_CYCLES : Fld :=
  ⟨0x060310, 0, 64, .ro, 0, 0, 18446744073709551615⟩

/-- GRV_PT_CTL.TIMEOUT [15:0], RW: round timeout in ms, 10 to 10,000 inclusive; values outside the range are stored clamped. -/
def GRV_PT_CTL_TIMEOUT : Fld :=
  ⟨0x060318, 0, 16, .rw, 100, 10, 10000⟩

/-- GRV_PT_STAT.LOSSES [63:32], RO: loss declarations in the grove since the start lock; the round of R142. -/
def GRV_PT_STAT_LOSSES : Fld :=
  ⟨0x060320, 32, 32, .ro, 0, 0, 4294967295⟩

/-- GRV_PT_STAT.RESTARTS [31:16], RO: loss declarations that interrupted an unsettled agreement at this engine (R146); stops at 65,535. -/
def GRV_PT_STAT_RESTARTS : Fld :=
  ⟨0x060320, 16, 16, .ro, 0, 0, 65535⟩

/-- GRV_PT_STAT.STUCK [15:0], RO: POINT_STUCK events; stops at 65,535. -/
def GRV_PT_STAT_STUCK : Fld :=
  ⟨0x060320, 0, 16, .ro, 0, 0, 65535⟩

/-- GRV_PT_STRIP.PACKETS [63:0], RO: window packets stripped under R144; stops at all ones. -/
def GRV_PT_STRIP_PACKETS : Fld :=
  ⟨0x060330, 0, 64, .ro, 0, 0, 18446744073709551615⟩

/-- GRV_REPLAY_STAT.TARGET [63:32], RO: newest logged step of the current replay (R149). -/
def GRV_REPLAY_STAT_TARGET : Fld :=
  ⟨0x060328, 32, 32, .ro, 0, 0, 4294967295⟩

/-- GRV_REPLAY_STAT.GAP [31:31], RO: set under R153. -/
def GRV_REPLAY_STAT_GAP : Fld :=
  ⟨0x060328, 31, 1, .ro, 0, 0, 1⟩

/-- GRV_REPLAY_STAT.INCOMPLETE [30:30], RO: set under R152. -/
def GRV_REPLAY_STAT_INCOMPLETE : Fld :=
  ⟨0x060328, 30, 1, .ro, 0, 0, 1⟩

/-- GRV_REPLAY_STAT.LEAVES [20:0], RO: streamed leaves still to replay. -/
def GRV_REPLAY_STAT_LEAVES : Fld :=
  ⟨0x060328, 0, 21, .ro, 0, 0, 2097151⟩

/-! ### Registers of 06_rings_seal_commit.md -/

/-- GRV_SEAL_CTL.STALL_WARN [31:24], RW: stall in ms that raises RING_STALL (R175), 1 to 255 inclusive; a write of 0 stores 1. -/
def GRV_SEAL_CTL_STALL_WARN : Fld :=
  ⟨0x060400, 24, 8, .rw, 20, 1, 255⟩

/-- GRV_SEAL_CTL.TIMEOUT [23:16], RW: seal timeout in units of 10 ms (R160, R173), 1 to 255 inclusive; a write of 0 stores 1. -/
def GRV_SEAL_CTL_TIMEOUT : Fld :=
  ⟨0x060400, 16, 8, .rw, 10, 1, 255⟩

/-- GRV_SEAL_CTL.FLUSH_WARN [15:8], RW: flush time in units of 10 µs that raises FLUSH_LATE (R161); a write of 0 stores 1. -/
def GRV_SEAL_CTL_FLUSH_WARN : Fld :=
  ⟨0x060400, 8, 8, .rw, 100, 1, 255⟩

/-- GRV_SEAL_CTL.PEND [4:4], RO: a seal request is pending. -/
def GRV_SEAL_CTL_PEND : Fld :=
  ⟨0x060400, 4, 1, .ro, 0, 0, 1⟩

/-- GRV_SEAL_CTL.SCHED_ARM [3:3], RW: arms the scheduled seal at GRV_SEAL_AT; cleared by the engine when it fires. -/
def GRV_SEAL_CTL_SCHED_ARM : Fld :=
  ⟨0x060400, 3, 1, .rw, 0, 0, 1⟩

/-- GRV_SEAL_CTL.KIND_TSTEP [2:2], RW: time-step boundaries qualify (R158). -/
def GRV_SEAL_CTL_KIND_TSTEP : Fld :=
  ⟨0x060400, 2, 1, .rw, 1, 0, 1⟩

/-- GRV_SEAL_CTL.KIND_STEP [1:1], RW: step boundaries qualify. -/
def GRV_SEAL_CTL_KIND_STEP : Fld :=
  ⟨0x060400, 1, 1, .rw, 1, 0, 1⟩

/-- GRV_SEAL_CTL.EN [0:0], RW: 1 lets qualifying boundaries end rings; with 0, requests stay pending. -/
def GRV_SEAL_CTL_EN : Fld :=
  ⟨0x060400, 0, 1, .rw, 1, 0, 1⟩

/-- GRV_RING_CTL.FIT [31:31], RO: 0 when the last start-lock attempt failed R168. -/
def GRV_RING_CTL_FIT : Fld :=
  ⟨0x060404, 31, 1, .ro, 1, 0, 1⟩

/-- GRV_RING_CTL.ROLL_PAR [23:16], RWL: fetches in flight (R184), 1 to 128 inclusive; values outside the range are stored clamped. -/
def GRV_RING_CTL_ROLL_PAR : Fld :=
  ⟨0x060404, 16, 8, .rwl, 64, 1, 128⟩

/-- GRV_RING_CTL.COMMIT_MAX [15:0], RW: commit deadline in ms (R175), 1 to 60,000 inclusive; values outside the range are stored clamped. -/
def GRV_RING_CTL_COMMIT_MAX : Fld :=
  ⟨0x060404, 0, 16, .rw, 1000, 1, 60000⟩

/-- GRV_RING_SYNC.SEALED_OBJ [30:16], RWL: sync object signalled at each grove seal. -/
def GRV_RING_SYNC_SEALED_OBJ : Fld :=
  ⟨0x060408, 16, 15, .rwl, 0, 0, 32767⟩

/-- GRV_RING_SYNC.OPEN_OBJ [14:0], RWL: sync object signalled at each ring open. -/
def GRV_RING_SYNC_OPEN_OBJ : Fld :=
  ⟨0x060408, 0, 15, .rwl, 0, 0, 32767⟩

/-- GRV_BND_COUNT.COUNT [63:0], RW: global-count stamp of the next declared boundary (R157). -/
def GRV_BND_COUNT_COUNT : Fld :=
  ⟨0x060410, 0, 64, .rw, 0, 0, 18446744073709551615⟩

/-- GRV_BND_DECL.KIND [33:32], WO: 1 step; 2 time step; 3 both; 0 declares nothing. -/
def GRV_BND_DECL_KIND : Fld :=
  ⟨0x060418, 32, 2, .wo, 0, 0, 3⟩

/-- GRV_BND_DECL.STEP [31:0], WO: step or time-step number; the write declares the boundary. -/
def GRV_BND_DECL_STEP : Fld :=
  ⟨0x060418, 0, 32, .wo, 0, 0, 4294967295⟩

/-- GRV_SEAL_AT.COUNT [63:0], RW: global count of the scheduled seal (R158). -/
def GRV_SEAL_AT_COUNT : Fld :=
  ⟨0x060420, 0, 64, .rw, 0, 0, 18446744073709551615⟩

/-- GRV_RING_STAT.COMMITTED [63:32], RO: committed ring. -/
def GRV_RING_STAT_COMMITTED : Fld :=
  ⟨0x060428, 32, 32, .ro, 0, 0, 4294967295⟩

/-- GRV_RING_STAT.BASE [31:0], RO: lowest uncommitted ring. -/
def GRV_RING_STAT_BASE : Fld :=
  ⟨0x060428, 0, 32, .ro, 0, 0, 4294967295⟩

/-- GRV_RING_STATE.CLOSED [31:31], RO: set as R156 states: until the first RING_OPEN after the start lock, and from an accepted RING_ROLLBACK until the RING_OPEN that follows it. -/
def GRV_RING_STATE_CLOSED : Fld :=
  ⟨0x060430, 31, 1, .ro, 1, 0, 1⟩

/-- GRV_RING_STATE.ROLLING [30:30], RO: a rollback is in progress: set at the acceptance of RING_ROLLBACK, cleared at its completion (R186). -/
def GRV_RING_STATE_ROLLING : Fld :=
  ⟨0x060430, 30, 1, .ro, 0, 0, 1⟩

/-- GRV_RING_STATE.NEXT_ST [23:20], RO: state of ring BASE + 1, coded as in R188. -/
def GRV_RING_STATE_NEXT_ST : Fld :=
  ⟨0x060430, 20, 4, .ro, 0, 0, 15⟩

/-- GRV_RING_STATE.BASE_ST [19:16], RO: state of ring BASE. -/
def GRV_RING_STATE_BASE_ST : Fld :=
  ⟨0x060430, 16, 4, .ro, 0, 0, 15⟩

/-- GRV_RING_STATE.VOTES [15:0], RO: bit p is 1 when position p's vote is held for the oldest ring in LOCAL_SEALED. -/
def GRV_RING_STATE_VOTES : Fld :=
  ⟨0x060430, 0, 16, .ro, 0, 0, 65535⟩

/-- GRV_RING_STEP.SEALED_STEP [63:32], RO: STEP of the boundary that ended ring BASE; 0 while it stands open. -/
def GRV_RING_STEP_SEALED_STEP : Fld :=
  ⟨0x060438, 32, 32, .ro, 0, 0, 4294967295⟩

/-- GRV_RING_STEP.LAST_STEP [31:0], RO: STEP of the last declared boundary. -/
def GRV_RING_STEP_LAST_STEP : Fld :=
  ⟨0x060438, 0, 32, .ro, 0, 0, 4294967295⟩

/-- GRV_STAGE_SIZE.BYTES [63:0], RO: staging reservation of R168. -/
def GRV_STAGE_SIZE_BYTES : Fld :=
  ⟨0x060440, 0, 64, .ro, 0, 0, 18446744073709551615⟩

/-- GRV_APPLY_STAT.RING [63:32], RO: ring being applied, or last applied. -/
def GRV_APPLY_STAT_RING : Fld :=
  ⟨0x060448, 32, 32, .ro, 0, 0, 4294967295⟩

/-- GRV_APPLY_STAT.ACTIVE [31:31], RO: an apply is running. -/
def GRV_APPLY_STAT_ACTIVE : Fld :=
  ⟨0x060448, 31, 1, .ro, 0, 0, 1⟩

/-- GRV_APPLY_STAT.LEAVES [20:0], RO: parity leaves still to apply. -/
def GRV_APPLY_STAT_LEAVES : Fld :=
  ⟨0x060448, 0, 21, .ro, 0, 0, 2097151⟩

/-- GRV_ROLL_STAT.TARGET [63:32], RO: target of the last completed rollback. -/
def GRV_ROLL_STAT_TARGET : Fld :=
  ⟨0x060450, 32, 32, .ro, 0, 0, 4294967295⟩

/-- GRV_ROLL_STAT.LEAVES [31:11], RO: leaves still to roll back. -/
def GRV_ROLL_STAT_LEAVES : Fld :=
  ⟨0x060450, 11, 21, .ro, 0, 0, 2097151⟩

/-- GRV_ROLL_STAT.GAP [10:0], RO: leaves that could not roll back (R185); stops at 2,047. -/
def GRV_ROLL_STAT_GAP : Fld :=
  ⟨0x060450, 0, 11, .ro, 0, 0, 2047⟩

/-- GRV_RING_DROP.COUNT [31:0], RO: RING_DELTA packets discarded under R166; stops at 0xFFFF_FFFF. -/
def GRV_RING_DROP_COUNT : Fld :=
  ⟨0x060458, 0, 32, .ro, 0, 0, 4294967295⟩

/-- GRV_RING_CLOSED_WR.COUNT [31:0], RO: closed-ring writes under R165; stops at 0xFFFF_FFFF. -/
def GRV_RING_CLOSED_WR_COUNT : Fld :=
  ⟨0x06045C, 0, 32, .ro, 0, 0, 4294967295⟩

/-- GRV_RING_STALL.MICROS [63:0], RO: total µs that ring opens waited under R174; stops at all ones. -/
def GRV_RING_STALL_MICROS : Fld :=
  ⟨0x060460, 0, 64, .ro, 0, 0, 18446744073709551615⟩

/-- GRV_BND_LAST.LAST_TSTEP [63:32], RO: STEP of the last declared boundary of the time-step sequence (R157); 0 before the first. -/
def GRV_BND_LAST_LAST_TSTEP : Fld :=
  ⟨0x060468, 32, 32, .ro, 0, 0, 4294967295⟩

/-- GRV_BND_LAST.LAST_STEP [31:0], RO: STEP of the last declared boundary of the step sequence; 0 before the first. -/
def GRV_BND_LAST_LAST_STEP : Fld :=
  ⟨0x060468, 0, 32, .ro, 0, 0, 4294967295⟩

/-! ### Registers of 07_coded_update_unit.md -/

/-- UPD_CTL.TIER_WARN [31:24], RW: µs before TIER_LATE (R230), 1 to 255 inclusive; a write of 0 stores 1. -/
def UPD_CTL_TIER_WARN : Fld :=
  ⟨0x070000, 24, 8, .rw, 100, 1, 255⟩

/-- UPD_CTL.TIER_OP [8:8], RW: 0 REFRESH; 1 INVALIDATE. -/
def UPD_CTL_TIER_OP : Fld :=
  ⟨0x070000, 8, 1, .rw, 0, 0, 1⟩

/-- UPD_CTL.STRICT [0:0], RWL: 1 selects strict mode (R212). -/
def UPD_CTL_STRICT : Fld :=
  ⟨0x070000, 0, 1, .rwl, 0, 0, 1⟩

/-- UPD_INTAKE_CTL.FIT [31:31], RO: 0 when the last start-lock attempt failed R221 or the buffer check. -/
def UPD_INTAKE_CTL_FIT : Fld :=
  ⟨0x070004, 31, 1, .ro, 1, 0, 1⟩

/-- UPD_INTAKE_CTL.GEN_NOW [2:2], RO: bit 0 of the current intake generation. -/
def UPD_INTAKE_CTL_GEN_NOW : Fld :=
  ⟨0x070004, 2, 1, .ro, 0, 0, 1⟩

/-- UPD_INTAKE_CTL.B5 [1:1], RWL: 1 selects SCE-5 bucket intake. -/
def UPD_INTAKE_CTL_B5 : Fld :=
  ⟨0x070004, 1, 1, .rwl, 0, 0, 1⟩

/-- UPD_INTAKE_CTL.EN [0:0], RWL: 1 enables gradient intake. -/
def UPD_INTAKE_CTL_EN : Fld :=
  ⟨0x070004, 0, 1, .rwl, 0, 0, 1⟩

/-- UPD_INTAKE_BASE.BASE [39:20], RWL: intake buffer base, in MiB. -/
def UPD_INTAKE_BASE_BASE : Fld :=
  ⟨0x070008, 20, 20, .rwl, 0, 0, 1048575⟩

/-- UPD_INTAKE_LEN.LEN [40:20], RWL: intake buffer length, in MiB. -/
def UPD_INTAKE_LEN_LEN : Fld :=
  ⟨0x070010, 20, 21, .rwl, 0, 0, 2097151⟩

/-- UPD_B5_TABLE.BASE [39:5], RWL: local address of the bucket index table, in units of 32 B. -/
def UPD_B5_TABLE_BASE : Fld :=
  ⟨0x070018, 5, 35, .rwl, 0, 0, 34359738367⟩

/-- UPD_B5_COUNT.ENTRIES [16:0], RWL: table entries, 0 to 65,536 inclusive; larger values are stored as 65,536. -/
def UPD_B5_COUNT_ENTRIES : Fld :=
  ⟨0x070020, 0, 17, .rwl, 0, 0, 65536⟩

/-- UPD_PROG_CHECK.FAIL [31:31], W1C: a program check of R202 failed. -/
def UPD_PROG_CHECK_FAIL : Fld :=
  ⟨0x070024, 31, 1, .w1c, 0, 0, 1⟩

/-- UPD_PROG_CHECK.REASON [23:16], RO: reason code of the first failure since FAIL was last clear. -/
def UPD_PROG_CHECK_REASON : Fld :=
  ⟨0x070024, 16, 8, .ro, 0, 0, 255⟩

/-- UPD_PROG_CHECK.SLOT [11:8], RO: slot of that failure. -/
def UPD_PROG_CHECK_SLOT : Fld :=
  ⟨0x070024, 8, 4, .ro, 0, 0, 15⟩

/-- UPD_PROG_CHECK.INSTR [7:0], RO: instruction index of that failure. -/
def UPD_PROG_CHECK_INSTR : Fld :=
  ⟨0x070024, 0, 8, .ro, 0, 0, 255⟩

/-- UPD_UPROG_DIGEST.DIGEST [63:0], RO: bytes 0 to 7 of the store digest of R201; byte i in bits [8i+7:8i]. -/
def UPD_UPROG_DIGEST_DIGEST : Fld :=
  ⟨0x070028, 0, 64, .ro, 0, 0, 18446744073709551615⟩

/-- UPD_INTAKE_STAT.FROZEN [63:48], RO: records discarded for coded-frozen tags; stops at 65,535. -/
def UPD_INTAKE_STAT_FROZEN : Fld :=
  ⟨0x070030, 48, 16, .ro, 0, 0, 65535⟩

/-- UPD_INTAKE_STAT.UNKNOWN [47:32], RO: records with unknown tags; stops at 65,535. -/
def UPD_INTAKE_STAT_UNKNOWN : Fld :=
  ⟨0x070030, 32, 16, .ro, 0, 0, 65535⟩

/-- UPD_INTAKE_STAT.STALE [31:16], RO: records of an earlier generation; stops at 65,535. -/
def UPD_INTAKE_STAT_STALE : Fld :=
  ⟨0x070030, 16, 16, .ro, 0, 0, 65535⟩

/-- UPD_INTAKE_STAT.BAD [15:0], RO: malformed records and unknown buckets; stops at 65,535. -/
def UPD_INTAKE_STAT_BAD : Fld :=
  ⟨0x070030, 0, 16, .ro, 0, 0, 65535⟩

/-- UPD_INTAKE_WAIT.CYCLES [63:0], RO: update-clock cycles of withheld intake (R220); stops at all ones. -/
def UPD_INTAKE_WAIT_CYCLES : Fld :=
  ⟨0x070038, 0, 64, .ro, 0, 0, 18446744073709551615⟩

/-- UPD_RUN_STAT.DONE [63:32], RO: runs completed since the start lock; stops at 0xFFFF_FFFF. -/
def UPD_RUN_STAT_DONE : Fld :=
  ⟨0x070040, 32, 32, .ro, 0, 0, 4294967295⟩

/-- UPD_RUN_STAT.ACTIVE [8:0], RO: runs accepted and not completed, 0 to 256 inclusive. -/
def UPD_RUN_STAT_ACTIVE : Fld :=
  ⟨0x070040, 0, 9, .ro, 0, 0, 511⟩

/-- UPD_NUM_STAT.NONFINITE [63:32], RO: NaN and infinity stores (R206); stops at 0xFFFF_FFFF. -/
def UPD_NUM_STAT_NONFINITE : Fld :=
  ⟨0x070048, 32, 32, .ro, 0, 0, 4294967295⟩

/-- UPD_NUM_STAT.SATURATED [31:0], RO: saturations and NaN replacements (R198); stops at 0xFFFF_FFFF. -/
def UPD_NUM_STAT_SATURATED : Fld :=
  ⟨0x070048, 0, 32, .ro, 0, 0, 4294967295⟩

/-- UPD_TIER_LATE.COUNT [31:0], RO: tier operations past TIER_WARN (R230); stops at 0xFFFF_FFFF. -/
def UPD_TIER_LATE_COUNT : Fld :=
  ⟨0x070050, 0, 32, .ro, 0, 0, 4294967295⟩

/-! ### Registers of 08_rebuild_and_graft.md -/

/-- RBD_LOSS_CTL.HB_MISS [31:16], RW: silence in units of 10 µs (R234), 10 to 10,000 inclusive; values outside the range are stored clamped; where HB_MISS is less than 4 × HB_INT, the engine uses 4 × HB_INT. -/
def RBD_LOSS_CTL_HB_MISS : Fld :=
  ⟨0x080000, 16, 16, .rw, 50, 10, 10000⟩

/-- RBD_LOSS_CTL.HB_INT [9:0], RW: heartbeat interval in µs (R233), 10 to 1,000 inclusive; values outside the range are stored clamped. -/
def RBD_LOSS_CTL_HB_INT : Fld :=
  ⟨0x080000, 0, 10, .rw, 50, 10, 1000⟩

/-- RBD_LOSS_STAT.LOST_MAP [47:32], RO: bit p is 1 while position p is declared lost. -/
def RBD_LOSS_STAT_LOST_MAP : Fld :=
  ⟨0x080008, 32, 16, .ro, 0, 0, 65535⟩

/-- RBD_LOSS_STAT.ISOLATED [31:31], RO: set under R234. -/
def RBD_LOSS_STAT_ISOLATED : Fld :=
  ⟨0x080008, 31, 1, .ro, 0, 0, 1⟩

/-- RBD_LOSS_STAT.FENCED [30:30], RO: set under R237; cleared only by restart. -/
def RBD_LOSS_STAT_FENCED : Fld :=
  ⟨0x080008, 30, 1, .ro, 0, 0, 1⟩

/-- RBD_LOSS_STAT.LAST_POS [23:20], RO: position of the latest declaration. -/
def RBD_LOSS_STAT_LAST_POS : Fld :=
  ⟨0x080008, 20, 4, .ro, 0, 0, 15⟩

/-- RBD_LOSS_STAT.LAST_REASON [17:16], RO: 0 none; 1 heartbeat; 2 management; 3 out of service. -/
def RBD_LOSS_STAT_LAST_REASON : Fld :=
  ⟨0x080008, 16, 2, .ro, 0, 0, 3⟩

/-- RBD_LOSS_STAT.DECLS [15:0], RO: declarations made by this engine; stops at 65,535. -/
def RBD_LOSS_STAT_DECLS : Fld :=
  ⟨0x080008, 0, 16, .ro, 0, 0, 65535⟩

/-- RBD_DR_CTL.LIMIT [15:0], RW: degraded-read limit in ms (R245), 1 to 1,000 inclusive; values outside the range are stored clamped. -/
def RBD_DR_CTL_LIMIT : Fld :=
  ⟨0x080010, 0, 16, .rw, 10, 1, 1000⟩

/-- RBD_DR_SERVED.LOADS [63:0], RO: degraded reads answered with data by this engine as front; stops at all ones. -/
def RBD_DR_SERVED_LOADS : Fld :=
  ⟨0x080018, 0, 64, .ro, 0, 0, 18446744073709551615⟩

/-- RBD_DR_FAIL.TIMEOUT [31:16], RO: loads past LIMIT; stops at 65,535. -/
def RBD_DR_FAIL_TIMEOUT : Fld :=
  ⟨0x080020, 16, 16, .ro, 0, 0, 65535⟩

/-- RBD_DR_FAIL.REFUSED [15:0], RO: stores, loads outside coded or mirror regions, and loads beyond the code; stops at 65,535. -/
def RBD_DR_FAIL_REFUSED : Fld :=
  ⟨0x080020, 0, 16, .ro, 0, 0, 65535⟩

/-- RBD_ACC_CTL.MEM [23:16], RWL: memory accumulation area in units of 64 MiB, 1 to 64 inclusive; values outside the range are stored clamped. -/
def RBD_ACC_CTL_MEM : Fld :=
  ⟨0x080028, 16, 8, .rwl, 4, 1, 64⟩

/-- RBD_ACC_CTL.FALLBACK [15:0], RW: slot wait in µs before memory accumulation (R241), 10 to 10,000 inclusive; values outside the range are stored clamped. -/
def RBD_ACC_CTL_FALLBACK : Fld :=
  ⟨0x080028, 0, 16, .rw, 200, 10, 10000⟩

/-- RBD_ACC_STAT.FALLBACKS [63:32], RO: partials accumulated in memory; stops at 0xFFFF_FFFF. -/
def RBD_ACC_STAT_FALLBACKS : Fld :=
  ⟨0x080030, 32, 32, .ro, 0, 0, 4294967295⟩

/-- RBD_ACC_STAT.QUEUED [31:16], RO: partials waiting for space now; stops at 65,535. -/
def RBD_ACC_STAT_QUEUED : Fld :=
  ⟨0x080030, 16, 16, .ro, 0, 0, 65535⟩

/-- RBD_ACC_STAT.FREE [9:0], RO: free accumulation slots, 0 to 512 inclusive. -/
def RBD_ACC_STAT_FREE : Fld :=
  ⟨0x080030, 0, 10, .ro, 512, 0, 1023⟩

/-- RBD_GRAFT_CTL.FG_RATE [31:26], RW: spare ingress in GB/s for phases 2 to 4 inclusive, 1 to 63 inclusive; a write of 0 stores 1. -/
def RBD_GRAFT_CTL_FG_RATE : Fld :=
  ⟨0x080038, 26, 6, .rw, 16, 1, 63⟩

/-- RBD_GRAFT_CTL.BG_RATE [25:20], RW: spare ingress in GB/s for phase 5, 1 to 63 inclusive; a write of 0 stores 1. -/
def RBD_GRAFT_CTL_BG_RATE : Fld :=
  ⟨0x080038, 20, 6, .rw, 4, 1, 63⟩

/-- RBD_GRAFT_CTL.RESUME [15:0], RW: resume-set size in units of 64 MiB, 1 to 16,384 inclusive; values outside the range are stored clamped. -/
def RBD_GRAFT_CTL_RESUME : Fld :=
  ⟨0x080038, 0, 16, .rw, 64, 1, 16384⟩

/-- RBD_GRAFT_STAT.PHASE [63:61], RO: phase code of R256; 0 when no graft has begun. -/
def RBD_GRAFT_STAT_PHASE : Fld :=
  ⟨0x080040, 61, 3, .ro, 0, 0, 7⟩

/-- RBD_GRAFT_STAT.HOLD [60:60], RO: the hold interface is active (R260). -/
def RBD_GRAFT_STAT_HOLD : Fld :=
  ⟨0x080040, 60, 1, .ro, 0, 0, 1⟩

/-- RBD_GRAFT_STAT.POS [59:56], RO: position being grafted. -/
def RBD_GRAFT_STAT_POS : Fld :=
  ⟨0x080040, 56, 4, .ro, 0, 0, 15⟩

/-- RBD_GRAFT_STAT.PLACE [51:32], RO: place address of the spare. -/
def RBD_GRAFT_STAT_PLACE : Fld :=
  ⟨0x080040, 32, 20, .ro, 0, 0, 1048575⟩

/-- RBD_GRAFT_STAT.LEAVES [20:0], RO: leaves still to rebuild. -/
def RBD_GRAFT_STAT_LEAVES : Fld :=
  ⟨0x080040, 0, 21, .ro, 0, 0, 2097151⟩

/-- RBD_REPAIR_STAT.REPAIRED [63:32], RO: sectors repaired under R246; stops at 0xFFFF_FFFF. -/
def RBD_REPAIR_STAT_REPAIRED : Fld :=
  ⟨0x080048, 32, 32, .ro, 0, 0, 4294967295⟩

/-- RBD_REPAIR_STAT.FAILED [31:0], RO: repairs failed under R248; stops at 0xFFFF_FFFF. -/
def RBD_REPAIR_STAT_FAILED : Fld :=
  ⟨0x080048, 0, 32, .ro, 0, 0, 4294967295⟩

/-- RBD_ROUTE_KEY.KEY [31:0], RWL: key of the route aperture (R254); equal on every member and spare; with 0, the aperture refuses every access. -/
def RBD_ROUTE_KEY_KEY : Fld :=
  ⟨0x080050, 0, 32, .rwl, 0, 0, 4294967295⟩

/-- RBD_THICK_CTL.MAX [12:0], RW: journal a host may spend on thickening, in units of 64 MiB, 0 to 4,096 inclusive; values outside the range are stored clamped; 0 hosts nothing. -/
def RBD_THICK_CTL_MAX : Fld :=
  ⟨0x080058, 0, 13, .rw, 16, 0, 4096⟩

/-- RBD_THICK_STAT.BUILT [63:32], RO: rows built since the start lock; stops at 0xFFFF_FFFF. -/
def RBD_THICK_STAT_BUILT : Fld :=
  ⟨0x080060, 32, 32, .ro, 0, 0, 4294967295⟩

/-- RBD_THICK_STAT.HOSTED [20:0], RO: rows hosted now. -/
def RBD_THICK_STAT_HOSTED : Fld :=
  ⟨0x080060, 0, 21, .ro, 0, 0, 2097151⟩

/-- RBD_EVAC_CTL.AUTO [31:31], RW: lets a hard threshold start evacuation (R267). -/
def RBD_EVAC_CTL_AUTO : Fld :=
  ⟨0x080068, 31, 1, .rw, 0, 0, 1⟩

/-- RBD_EVAC_CTL.RATE [5:0], RW: copy rate in GB/s, 1 to 63 inclusive; a write of 0 stores 1. -/
def RBD_EVAC_CTL_RATE : Fld :=
  ⟨0x080068, 0, 6, .rw, 8, 1, 63⟩

/-- RBD_EVAC_STAT.PHASE [63:61], RO: 0 none; 1 COPY; 2 READY; 3 CUTOVER; 4 DONE; 5 ABORTED; 6 and 7 reserved. -/
def RBD_EVAC_STAT_PHASE : Fld :=
  ⟨0x080070, 61, 3, .ro, 0, 0, 7⟩

/-- RBD_EVAC_STAT.SPARE [51:32], RO: place address of the spare. -/
def RBD_EVAC_STAT_SPARE : Fld :=
  ⟨0x080070, 32, 20, .ro, 0, 0, 1048575⟩

/-- RBD_EVAC_STAT.LEAVES [20:0], RO: leaves still to copy in COPY; leaves with dirty sectors in CUTOVER. -/
def RBD_EVAC_STAT_LEAVES : Fld :=
  ⟨0x080070, 0, 21, .ro, 0, 0, 2097151⟩

/-- RBD_BEYOND.ROW [63:44], RO: leaf-row index of the first stripe beyond the code. -/
def RBD_BEYOND_ROW : Fld :=
  ⟨0x080078, 44, 20, .ro, 0, 0, 1048575⟩

/-- RBD_BEYOND.REGION [43:32], RO: region of that stripe. -/
def RBD_BEYOND_REGION : Fld :=
  ⟨0x080078, 32, 12, .ro, 0, 0, 4095⟩

/-- RBD_BEYOND.COUNT [31:0], RO: stripes found beyond the code (R272); stops at 0xFFFF_FFFF. -/
def RBD_BEYOND_COUNT : Fld :=
  ⟨0x080078, 0, 32, .ro, 0, 0, 4294967295⟩

/-! ### Registers of 09_grove_ports.md -/

/-- GP_CTL.RETRAIN [1:1], WO: a write of 1 takes a link reset (R283), or restarts training of an excluded port (R280). -/
def GP_CTL_RETRAIN (p : Nat) : Fld :=
  ⟨0x040000 + 0x4000 * p, 1, 1, .wo, 0, 0, 1⟩

/-- GP_CTL.HOLD [0:0], RW: 1 keeps the port down, not counted as failed. -/
def GP_CTL_HOLD (p : Nat) : Fld :=
  ⟨0x040000 + 0x4000 * p, 0, 1, .rw, 0, 0, 1⟩

/-- GP_STAT.FAR_PLACE [63:44], RO: far end's place address from ID. -/
def GP_STAT_FAR_PLACE (p : Nat) : Fld :=
  ⟨0x040008 + 0x4000 * p, 44, 20, .ro, 0, 0, 1048575⟩

/-- GP_STAT.FAR_POS [43:40], RO: far end's grove position. -/
def GP_STAT_FAR_POS (p : Nat) : Fld :=
  ⟨0x040008 + 0x4000 * p, 40, 4, .ro, 0, 0, 15⟩

/-- GP_STAT.FAR_NONE [39:39], RO: far end holds no position. -/
def GP_STAT_FAR_NONE (p : Nat) : Fld :=
  ⟨0x040008 + 0x4000 * p, 39, 1, .ro, 0, 0, 1⟩

/-- GP_STAT.EXCL [35:32], RO: 0 none; 1 training failed; 2 wrong far end; 3 retraining failed. -/
def GP_STAT_EXCL (p : Nat) : Fld :=
  ⟨0x040008 + 0x4000 * p, 32, 4, .ro, 0, 0, 15⟩

/-- GP_STAT.ATTEMPTS [31:24], RO: training attempts since power-on; stops at 255. -/
def GP_STAT_ATTEMPTS (p : Nat) : Fld :=
  ⟨0x040008 + 0x4000 * p, 24, 8, .ro, 0, 0, 255⟩

/-- GP_STAT.WIDTH [20:16], RO: W: 0, 2, 4, 8 or 16. -/
def GP_STAT_WIDTH (p : Nat) : Fld :=
  ⟨0x040008 + 0x4000 * p, 16, 5, .ro, 0, 0, 31⟩

/-- GP_STAT.STATE [3:0], RO: 0 DOWN; 1 DETECT; 2 EQUALISE; 3 LOCK; 4 WIDTH; 5 UP; 6 LOW; 7 WAKE; 8 EXCLUDED; 9 HELD; 10 TEST; 11 to 15 reserved. -/
def GP_STAT_STATE (p : Nat) : Fld :=
  ⟨0x040008 + 0x4000 * p, 0, 4, .ro, 0, 0, 15⟩

/-- GP_LANES.PRUNED [47:32], RO: bit l is 1 when lane l is pruned. -/
def GP_LANES_PRUNED (p : Nat) : Fld :=
  ⟨0x040010 + 0x4000 * p, 32, 16, .ro, 0, 0, 65535⟩

/-- GP_LANES.USED [31:16], RO: bit l is 1 when lane l is used. -/
def GP_LANES_USED (p : Nat) : Fld :=
  ⟨0x040010 + 0x4000 * p, 16, 16, .ro, 0, 0, 65535⟩

/-- GP_LANES.TRAINED [15:0], RO: bit l is 1 when lane l passed steps 2 and 3 in the last training. -/
def GP_LANES_TRAINED (p : Nat) : Fld :=
  ⟨0x040010 + 0x4000 * p, 0, 16, .ro, 0, 0, 65535⟩

/-- GP_RETRY.FLITS [63:32], RO: flits resent; stops at 0xFFFF_FFFF. -/
def GP_RETRY_FLITS (p : Nat) : Fld :=
  ⟨0x040018 + 0x4000 * p, 32, 32, .ro, 0, 0, 4294967295⟩

/-- GP_RETRY.REQS [31:16], RO: RETRY_REQ messages received; stops at 65,535. -/
def GP_RETRY_REQS (p : Nat) : Fld :=
  ⟨0x040018 + 0x4000 * p, 16, 16, .ro, 0, 0, 65535⟩

/-- GP_RETRY.RESETS [15:0], RO: link resets under R294; stops at 65,535. -/
def GP_RETRY_RESETS (p : Nat) : Fld :=
  ⟨0x040018 + 0x4000 * p, 0, 16, .ro, 0, 0, 65535⟩

/-- GP_FLIT_ERR.CRC [63:32], RO: flits failing CRC or R287; stops at 0xFFFF_FFFF. -/
def GP_FLIT_ERR_CRC (p : Nat) : Fld :=
  ⟨0x040020 + 0x4000 * p, 32, 32, .ro, 0, 0, 4294967295⟩

/-- GP_FLIT_ERR.FEC_BAD [31:0], RO: flits marked bad under R276; stops at 0xFFFF_FFFF. -/
def GP_FLIT_ERR_FEC_BAD (p : Nat) : Fld :=
  ⟨0x040020 + 0x4000 * p, 0, 32, .ro, 0, 0, 4294967295⟩

/-- GP_PWR.WAKE_LATE [23:16], RO: wakes with a lane past step 3 (R308); stops at 255. -/
def GP_PWR_WAKE_LATE (p : Nat) : Fld :=
  ⟨0x040028 + 0x4000 * p, 16, 8, .ro, 0, 0, 255⟩

/-- GP_PWR.IDLE [15:8], RW: idle µs before LOW (R306), 1 to 255 inclusive; a write of 0 stores 1. -/
def GP_PWR_IDLE (p : Nat) : Fld :=
  ⟨0x040028 + 0x4000 * p, 8, 8, .rw, 100, 1, 255⟩

/-- GP_PWR.LOW_NOW [1:1], RO: the port is in LOW. -/
def GP_PWR_LOW_NOW (p : Nat) : Fld :=
  ⟨0x040028 + 0x4000 * p, 1, 1, .ro, 0, 0, 1⟩

/-- GP_PWR.LOW_EN [0:0], RW: 1 permits LOW. -/
def GP_PWR_LOW_EN (p : Nat) : Fld :=
  ⟨0x040028 + 0x4000 * p, 0, 1, .rw, 1, 0, 1⟩

/-- GP_WAKES.COUNT [31:0], RO: wakes completed; stops at 0xFFFF_FFFF. -/
def GP_WAKES_COUNT (p : Nat) : Fld :=
  ⟨0x040030 + 0x4000 * p, 0, 32, .ro, 0, 0, 4294967295⟩

/-- GP_TEST.RUN [31:31], RW: runs the selected mode (R311). -/
def GP_TEST_RUN (p : Nat) : Fld :=
  ⟨0x040038 + 0x4000 * p, 31, 1, .rw, 0, 0, 1⟩

/-- GP_TEST.REFUSED [30:30], W1C: a write of RUN was refused. -/
def GP_TEST_REFUSED (p : Nat) : Fld :=
  ⟨0x040038 + 0x4000 * p, 30, 1, .w1c, 0, 0, 1⟩

/-- GP_TEST.PATTERN [7:6], RW: 0 PRBS13Q; 1 PRBS31Q; 2 SSPRQ; 3 reserved. -/
def GP_TEST_PATTERN (p : Nat) : Fld :=
  ⟨0x040038 + 0x4000 * p, 6, 2, .rw, 0, 0, 3⟩

/-- GP_TEST.MODE [3:0], RW: code of R312; 0 none; 5 to 15 reserved. -/
def GP_TEST_MODE (p : Nat) : Fld :=
  ⟨0x040038 + 0x4000 * p, 0, 4, .rw, 0, 0, 15⟩

/-- GP_PRBS_ERR.COUNT [31:0], RO: symbol errors of lane l under R313; stops at 0xFFFF_FFFE. -/
def GP_PRBS_ERR_COUNT (p : Nat) (l : Nat) : Fld :=
  ⟨0x040040 + 0x4000 * p + 0x4 * l, 0, 32, .ro, 0, 0, 4294967295⟩

/-- GRV_PLANE_CTL.ALLOW [8:8], RWL: 1 lets the start lock proceed below the floor (R284). -/
def GRV_PLANE_CTL_ALLOW : Fld :=
  ⟨0x060500, 8, 1, .rwl, 0, 0, 1⟩

/-- GRV_PLANE_CTL.FLOOR [6:0], RWL: floor in %, 0 to 100 inclusive; larger values are stored as 100. -/
def GRV_PLANE_CTL_FLOOR : Fld :=
  ⟨0x060500, 0, 7, .rwl, 75, 0, 100⟩

/-- GRV_PLANE_STAT.UNDER [31:31], RO: the grove percentage was below FLOOR at the last roll call. -/
def GRV_PLANE_STAT_UNDER : Fld :=
  ⟨0x060504, 31, 1, .ro, 0, 0, 1⟩

/-- GRV_PLANE_STAT.GROVE_PCT [30:24], RO: grove percentage of R284. -/
def GRV_PLANE_STAT_GROVE_PCT : Fld :=
  ⟨0x060504, 24, 7, .ro, 0, 0, 127⟩

/-- GRV_PLANE_STAT.OWN_PCT [22:16], RO: own used lanes as a percentage of nominal, rounded down. -/
def GRV_PLANE_STAT_OWN_PCT : Fld :=
  ⟨0x060504, 16, 7, .ro, 0, 0, 127⟩

/-- GRV_PLANE_STAT.OWN_LANES [5:0], RO: used lanes of ports 0 to 2, 0 to 48 inclusive. -/
def GRV_PLANE_STAT_OWN_LANES : Fld :=
  ⟨0x060504, 0, 6, .ro, 0, 0, 63⟩

/-- GRV_SESS_SEL.POS [3:0], RW: peer position shown in GRV_SESS_STAT. -/
def GRV_SESS_SEL_POS : Fld :=
  ⟨0x060508, 0, 4, .rw, 0, 0, 15⟩

/-- GRV_SESS_STAT.GEN [63:56], RO: current generation with the selected peer. -/
def GRV_SESS_STAT_GEN : Fld :=
  ⟨0x060510, 56, 8, .ro, 0, 0, 255⟩

/-- GRV_SESS_STAT.STATE [55:54], RO: 0 none; 1 open; 2 closed; 3 advancing under R305. -/
def GRV_SESS_STAT_STATE : Fld :=
  ⟨0x060510, 54, 2, .ro, 0, 0, 3⟩

/-- GRV_SESS_STAT.TX_LOW [47:0], RO: bits [47:0] of the next transmit COUNTER. -/
def GRV_SESS_STAT_TX_LOW : Fld :=
  ⟨0x060510, 0, 48, .ro, 0, 0, 281474976710655⟩

/-- GRV_RELAY_DROP.UNREACH [31:16], RO: packets discarded for an unreachable or lost destination; stops at 65,535. -/
def GRV_RELAY_DROP_UNREACH : Fld :=
  ⟨0x060518, 16, 16, .ro, 0, 0, 65535⟩

/-- GRV_RELAY_DROP.HOPS [15:8], RO: packets discarded at the hop limit; stops at 255. -/
def GRV_RELAY_DROP_HOPS : Fld :=
  ⟨0x060518, 8, 8, .ro, 0, 0, 255⟩

/-- GRV_RELAY_DROP.ABORTED [7:0], RO: packets ended by ABORT at this engine as destination; stops at 255. -/
def GRV_RELAY_DROP_ABORTED : Fld :=
  ⟨0x060518, 0, 8, .ro, 0, 0, 255⟩

/-! ### Registers of 10_memory_tier_and_protection.md -/

/-- MEM_LAYOUT_CTL.REFUSED [31:31], W1C: a JOURNAL_PCT write was refused (R315). -/
def MEM_LAYOUT_CTL_REFUSED : Fld :=
  ⟨0x050000, 31, 1, .w1c, 0, 0, 1⟩

/-- MEM_LAYOUT_CTL.JOURNAL_PCT [4:0], RWL: journal share in %, 2 to 25 inclusive; values outside the range are stored clamped. -/
def MEM_LAYOUT_CTL_JOURNAL_PCT : Fld :=
  ⟨0x050000, 0, 5, .rwl, 8, 2, 25⟩

/-- MEM_USABLE_TOP.TOP [40:20], RO: exclusive top of the software-usable range, in MiB. -/
def MEM_USABLE_TOP_TOP : Fld :=
  ⟨0x050008, 20, 21, .ro, 0, 0, 2097151⟩

/-- MEM_JOURNAL_BASE.BASE [39:20], RO: base of the area, in MiB. -/
def MEM_JOURNAL_BASE_BASE : Fld :=
  ⟨0x050010, 20, 20, .ro, 0, 0, 1048575⟩

/-- MEM_BITMAP_BASE.BASE [39:20], RO: base of the area, in MiB. -/
def MEM_BITMAP_BASE_BASE : Fld :=
  ⟨0x050018, 20, 20, .ro, 0, 0, 1048575⟩

/-- MEM_HW_BASE.BASE [39:20], RO: base of the area, in MiB. -/
def MEM_HW_BASE_BASE : Fld :=
  ⟨0x050020, 20, 20, .ro, 0, 0, 1048575⟩

/-- MEM_SHARE.NOMINAL [31:16], RWL: nominal memory bandwidth in GB/s; a write of 0 stores 1. -/
def MEM_SHARE_NOMINAL : Fld :=
  ⟨0x050028, 16, 16, .rwl, 9600, 1, 65535⟩

/-- MEM_SHARE.NOW [6:0], RO: share in force, in % (R318). -/
def MEM_SHARE_NOW : Fld :=
  ⟨0x050028, 0, 7, .ro, 40, 0, 127⟩

/-- MEM_SHARE_STAT.THROTTLED [63:32], RO: port-windows with the budget spent; stops at 0xFFFF_FFFF. -/
def MEM_SHARE_STAT_THROTTLED : Fld :=
  ⟨0x050030, 32, 32, .ro, 0, 0, 4294967295⟩

/-- MEM_SHARE_STAT.EXEMPT [31:16], RO: windows with debt written off (R320); stops at 65,535. -/
def MEM_SHARE_STAT_EXEMPT : Fld :=
  ⟨0x050030, 16, 16, .ro, 0, 0, 65535⟩

/-- MEM_SHARE_STAT.SLOW [15:0], RO: reads past 10 µs (R317); stops at 65,535. -/
def MEM_SHARE_STAT_SLOW : Fld :=
  ⟨0x050030, 0, 16, .ro, 0, 0, 65535⟩

/-- MEM_HEAT_CTL.INTERVAL [31:16], RO: decay interval in ms in force, 1 to 65,535 inclusive. -/
def MEM_HEAT_CTL_INTERVAL : Fld :=
  ⟨0x050038, 16, 16, .ro, 10, 0, 65535⟩

/-- MEM_HEAT_CTL.HOT [15:8], RW: heat at or above which HOT notices are sent. -/
def MEM_HEAT_CTL_HOT : Fld :=
  ⟨0x050038, 8, 8, .rw, 192, 0, 255⟩

/-- MEM_HEAT_CTL.SHIFT [7:5], RW: decay shift, 1 to 7 inclusive; a write of 0 stores 1. -/
def MEM_HEAT_CTL_SHIFT : Fld :=
  ⟨0x050038, 5, 3, .rw, 3, 1, 7⟩

/-- MEM_HEAT_CTL.SAMPLE [4:1], RW: one access in 2^SAMPLE is sampled. -/
def MEM_HEAT_CTL_SAMPLE : Fld :=
  ⟨0x050038, 1, 4, .rw, 10, 0, 15⟩

/-- MEM_CODE_STAT.BARK [63:32], RO: CORRECTED reports from stack s; stops at 0xFFFF_FFFF. -/
def MEM_CODE_STAT_BARK (s : Nat) : Fld :=
  ⟨0x050040 + 0x8 * s, 32, 32, .ro, 0, 0, 4294967295⟩

/-- MEM_CODE_STAT.HEARTWOOD [31:0], RO: sectors of stack s corrected by the heartwood code; stops at 0xFFFF_FFFF. -/
def MEM_CODE_STAT_HEARTWOOD (s : Nat) : Fld :=
  ⟨0x050040 + 0x8 * s, 0, 32, .ro, 0, 0, 4294967295⟩

/-- MEM_UNREP.COUNT [31:0], RO: lines first found unrepaired (R328); stops at 0xFFFF_FFFF. -/
def MEM_UNREP_COUNT : Fld :=
  ⟨0x050080, 0, 32, .ro, 0, 0, 4294967295⟩

/-- MEM_UNREP_FIRST.VALID [63:63], W1C: LINE holds the first unrepaired line since VALID was last clear. -/
def MEM_UNREP_FIRST_VALID : Fld :=
  ⟨0x050088, 63, 1, .w1c, 0, 0, 1⟩

/-- MEM_UNREP_FIRST.LINE [39:6], RO: line address. -/
def MEM_UNREP_FIRST_LINE : Fld :=
  ⟨0x050088, 6, 34, .ro, 0, 0, 17179869183⟩

/-- MEM_UNREP_LAST.LINE [39:6], RO: most recent line first found unrepaired. -/
def MEM_UNREP_LAST_LINE : Fld :=
  ⟨0x050090, 6, 34, .ro, 0, 0, 17179869183⟩

/-- MEM_ERR_EVT.MISCORR [63:48], RO: miscorrections found (R322); stops at 65,535. -/
def MEM_ERR_EVT_MISCORR : Fld :=
  ⟨0x050098, 48, 16, .ro, 0, 0, 65535⟩

/-- MEM_ERR_EVT.UNCONFIRMED [47:32], RO: corrections not confirmed (R322); stops at 65,535. -/
def MEM_ERR_EVT_UNCONFIRMED : Fld :=
  ⟨0x050098, 32, 16, .ro, 0, 0, 65535⟩

/-- MEM_ERR_EVT.TAP_OLD_LOST [31:16], RO: tap pairs with an unrecoverable old line (R327); stops at 65,535. -/
def MEM_ERR_EVT_TAP_OLD_LOST : Fld :=
  ⟨0x050098, 16, 16, .ro, 0, 0, 65535⟩

/-- MEM_ERR_EVT.RSVD_WR [15:0], RO: reserved-area writes (R316); stops at 65,535. -/
def MEM_ERR_EVT_RSVD_WR : Fld :=
  ⟨0x050098, 0, 16, .ro, 0, 0, 65535⟩

/-- MEM_FILL.DONE [31:31], RO: the power-on fill has completed (R336). -/
def MEM_FILL_DONE : Fld :=
  ⟨0x0500A0, 31, 1, .ro, 0, 0, 1⟩

/-- MEM_FILL.FAIL [30:30], RO: a controller reported a write failure during the fill. -/
def MEM_FILL_FAIL : Fld :=
  ⟨0x0500A0, 30, 1, .ro, 0, 0, 1⟩

/-- MEM_FILL.STACKS [7:0], RO: bit s is 1 when stack s failed the fill. -/
def MEM_FILL_STACKS : Fld :=
  ⟨0x0500A0, 0, 8, .ro, 0, 0, 255⟩

/-- MEM_SRAM_STAT.FAIL [63:63], RO: a bank could not be repaired (R337). -/
def MEM_SRAM_STAT_FAIL : Fld :=
  ⟨0x0500A8, 63, 1, .ro, 0, 0, 1⟩

/-- MEM_SRAM_STAT.FAIL_BANK [62:56], RO: number of the first such bank, 0 to 111 inclusive. -/
def MEM_SRAM_STAT_FAIL_BANK : Fld :=
  ⟨0x0500A8, 56, 7, .ro, 0, 0, 127⟩

/-- MEM_SRAM_STAT.SOFT [55:48], RO: repairs made from spares at power-on; stops at 255. -/
def MEM_SRAM_STAT_SOFT : Fld :=
  ⟨0x0500A8, 48, 8, .ro, 0, 0, 255⟩

/-- MEM_SRAM_STAT.UE [47:32], RO: uncorrectable words (R338); stops at 65,535. -/
def MEM_SRAM_STAT_UE : Fld :=
  ⟨0x0500A8, 32, 16, .ro, 0, 0, 65535⟩

/-- MEM_SRAM_STAT.CE [31:0], RO: corrected words; stops at 0xFFFF_FFFF. -/
def MEM_SRAM_STAT_CE : Fld :=
  ⟨0x0500A8, 0, 32, .ro, 0, 0, 4294967295⟩

/-! ### Registers of 11_anchors_and_warm_start.md -/

/-- ANC_CTL.FIT [31:31], RO: 0 when the last start-lock attempt failed R349. -/
def ANC_CTL_FIT : Fld :=
  ⟨0x090000, 31, 1, .ro, 1, 0, 1⟩

/-- ANC_CTL.RATE [29:24], RW: export rate to the storage path in GB/s, 1 to 63 inclusive; a write of 0 stores 1. -/
def ANC_CTL_RATE : Fld :=
  ⟨0x090000, 24, 6, .rw, 8, 1, 63⟩

/-- ANC_CTL.BUF [11:2], RWL: anchor buffer in units of 64 MiB, 1 to 1,023 inclusive; a write of 0 stores 1. -/
def ANC_CTL_BUF : Fld :=
  ⟨0x090000, 2, 10, .rwl, 16, 1, 1023⟩

/-- ANC_AT.COUNT [63:0], RW: global count that selects a boundary for an anchor request with AT (R342). -/
def ANC_AT_COUNT : Fld :=
  ⟨0x090008, 0, 64, .rw, 0, 0, 18446744073709551615⟩

/-- ANC_DUE_CTL.RISK [63:48], RW: risk estimate at which ANCHOR_DUE is raised, in the units of *Health, risk and wear*; 0 disables. -/
def ANC_DUE_CTL_RISK : Fld :=
  ⟨0x090010, 48, 16, .rw, 0, 0, 65535⟩

/-- ANC_DUE_CTL.MINUTES [47:32], RW: minutes since the last cut; 0 disables. -/
def ANC_DUE_CTL_MINUTES : Fld :=
  ⟨0x090010, 32, 16, .rw, 30, 0, 65535⟩

/-- ANC_DUE_CTL.STEPS [31:0], RW: boundaries since the last cut; 0 disables. -/
def ANC_DUE_CTL_STEPS : Fld :=
  ⟨0x090010, 0, 32, .rw, 0, 0, 4294967295⟩

/-- ANC_DUE_STAT.DUE [31:31], W1C: ANCHOR_DUE has been raised since DUE was last clear. -/
def ANC_DUE_STAT_DUE : Fld :=
  ⟨0x090018, 31, 1, .w1c, 0, 0, 1⟩

/-- ANC_DUE_STAT.RISK [30:30], RO: the risk reason holds. -/
def ANC_DUE_STAT_RISK : Fld :=
  ⟨0x090018, 30, 1, .ro, 0, 0, 1⟩

/-- ANC_DUE_STAT.TIME [29:29], RO: the minutes reason holds. -/
def ANC_DUE_STAT_TIME : Fld :=
  ⟨0x090018, 29, 1, .ro, 0, 0, 1⟩

/-- ANC_DUE_STAT.STEPS [28:28], RO: the steps reason holds. -/
def ANC_DUE_STAT_STEPS : Fld :=
  ⟨0x090018, 28, 1, .ro, 0, 0, 1⟩

/-- ANC_STAT.PHASE [63:61], RO: 0 idle; 1 waiting for its boundary; 2 EXPORTING; 3 waiting for commit of r; 4 finishing; 5 done; 6 aborted; 7 reserved. -/
def ANC_STAT_PHASE : Fld :=
  ⟨0x090020, 61, 3, .ro, 0, 0, 7⟩

/-- ANC_STAT.RETIRE_WAIT [60:60], RO: streamed export waits for STEP_RETIRE (R347). -/
def ANC_STAT_RETIRE_WAIT : Fld :=
  ⟨0x090020, 60, 1, .ro, 0, 0, 1⟩

/-- ANC_STAT.LEAVES [20:0], RO: anchored leaves still unsaved. -/
def ANC_STAT_LEAVES : Fld :=
  ⟨0x090020, 0, 21, .ro, 0, 0, 2097151⟩

/-- ANC_LAST.STEP [63:32], RO: t of the last anchor completed with status OK. -/
def ANC_LAST_STEP : Fld :=
  ⟨0x090028, 32, 32, .ro, 0, 0, 4294967295⟩

/-- ANC_LAST.ANCHOR [31:0], RO: bits [31:0] of its anchor number. -/
def ANC_LAST_ANCHOR : Fld :=
  ⟨0x090028, 0, 32, .ro, 0, 0, 4294967295⟩

/-- ANC_HOLD.URGENT [63:32], RO: urgent saves since the start lock; stops at 0xFFFF_FFFF. -/
def ANC_HOLD_URGENT : Fld :=
  ⟨0x090030, 32, 32, .ro, 0, 0, 4294967295⟩

/-- ANC_HOLD.WAITS [31:0], RO: urgent leaves that waited for buffer space (R348); stops at 0xFFFF_FFFF. -/
def ANC_HOLD_WAITS : Fld :=
  ⟨0x090030, 0, 32, .ro, 0, 0, 4294967295⟩

/-- ANC_ERR.RETRIES [31:24], RO: storage writes retried; stops at 255. -/
def ANC_ERR_RETRIES : Fld :=
  ⟨0x090038, 24, 8, .ro, 0, 0, 255⟩

/-- ANC_ERR.ABORTS [23:16], RO: anchors aborted (R358); stops at 255. -/
def ANC_ERR_ABORTS : Fld :=
  ⟨0x090038, 16, 8, .ro, 0, 0, 255⟩

/-- ANC_ERR.RESTORE_FAIL [15:8], RO: restores and adopts ended with a status other than OK; stops at 255. -/
def ANC_ERR_RESTORE_FAIL : Fld :=
  ⟨0x090038, 8, 8, .ro, 0, 0, 255⟩

/-- ANC_ERR.DIGEST [7:0], RO: record, object, chunk or leaf digests that failed; stops at 255. -/
def ANC_ERR_DIGEST : Fld :=
  ⟨0x090038, 0, 8, .ro, 0, 0, 255⟩

/-- ANC_RST_STAT.STEP [63:32], RO: source STEP of the last restore or adopt. -/
def ANC_RST_STAT_STEP : Fld :=
  ⟨0x090040, 32, 32, .ro, 0, 0, 4294967295⟩

/-- ANC_RST_STAT.DIFF [31:31], RO: a restored header differed in firmware, microprograms or mode (R361). -/
def ANC_RST_STAT_DIFF : Fld :=
  ⟨0x090040, 31, 1, .ro, 0, 0, 1⟩

/-- ANC_RST_STAT.CHUNK_WARN [30:30], RO: an adopt used leaf checks (R367). -/
def ANC_RST_STAT_CHUNK_WARN : Fld :=
  ⟨0x090040, 30, 1, .ro, 0, 0, 1⟩

/-- ANC_RST_STAT.LEAVES [20:0], RO: leaves still to write or encode in the restore or adopt in progress. -/
def ANC_RST_STAT_LEAVES : Fld :=
  ⟨0x090040, 0, 21, .ro, 0, 0, 2097151⟩

/-! ### Registers of 12_digests_and_reproducibility.md -/

/-- LED_CTL.KEY [31:31], RO: an attestation key is installed. -/
def LED_CTL_KEY : Fld :=
  ⟨0x0A0000, 31, 1, .ro, 0, 0, 1⟩

/-- LED_CTL.FIT [30:30], RO: 0 when the last start-lock attempt failed R381. -/
def LED_CTL_FIT : Fld :=
  ⟨0x0A0000, 30, 1, .ro, 1, 0, 1⟩

/-- LED_CTL.INPUT_EN [12:12], RWL: 1 takes the input digest from INPUT_REGION. -/
def LED_CTL_INPUT_EN : Fld :=
  ⟨0x0A0000, 12, 1, .rwl, 0, 0, 1⟩

/-- LED_CTL.INPUT_REGION [11:0], RWL: input region of R381. -/
def LED_CTL_INPUT_REGION : Fld :=
  ⟨0x0A0000, 0, 12, .rwl, 0, 0, 4095⟩

/-- LED_PROGRAM.DIGEST [63:0], RWL: bytes 8n to 8n + 7 of the program digest; byte 8n + i in bits [8i+7:8i]. -/
def LED_PROGRAM_DIGEST (n : Nat) : Fld :=
  ⟨0x0A0008 + 0x8 * n, 0, 64, .rwl, 0, 0, 18446744073709551615⟩

/-- LED_FUSE.DIGEST [63:0], RO: bytes 8n to 8n + 7 of the fuse-map digest of R382. -/
def LED_FUSE_DIGEST (n : Nat) : Fld :=
  ⟨0x0A0028 + 0x8 * n, 0, 64, .ro, 0, 0, 18446744073709551615⟩

/-- LED_SEL.STATE [63:62], RO: 0 finished; 1 pending; 2 not held; 3 lost (R389). -/
def LED_SEL_STATE : Fld :=
  ⟨0x0A0048, 62, 2, .ro, 2, 0, 3⟩

/-- LED_SEL.RING [31:0], RW: a write latches that ring's record (R391). -/
def LED_SEL_RING : Fld :=
  ⟨0x0A0048, 0, 32, .rw, 0, 0, 4294967295⟩

/-- LED_LAST.NEWEST [63:32], RO: ring of the newest finished record. -/
def LED_LAST_NEWEST : Fld :=
  ⟨0x0A0050, 32, 32, .ro, 0, 0, 4294967295⟩

/-- LED_LAST.OLDEST [31:0], RO: ring of the oldest record held. -/
def LED_LAST_OLDEST : Fld :=
  ⟨0x0A0050, 0, 32, .ro, 0, 0, 4294967295⟩

/-- DIG_STAT.RECOMPUTED [63:32], RO: quick digests recomputed under R372; stops at 0xFFFF_FFFF. -/
def DIG_STAT_RECOMPUTED : Fld :=
  ⟨0x0A0058, 32, 32, .ro, 0, 0, 4294967295⟩

/-- DIG_STAT.STALE [20:0], RO: leaves whose CURRENT is 0 now. -/
def DIG_STAT_STALE : Fld :=
  ⟨0x0A0058, 0, 21, .ro, 0, 0, 2097151⟩

/-- LED_DATA.WORD [31:0], RO: bytes 4n to 4n + 3 of the latched record. -/
def LED_DATA_WORD (n : Nat) : Fld :=
  ⟨0x0A0100 + 0x4 * n, 0, 32, .ro, 0, 0, 4294967295⟩

/-! ### Registers of 13_security_module.md -/

/-- SEC_STAT.ST_DONE [31:31], RO: every power-on self-test has passed. -/
def SEC_STAT_ST_DONE : Fld :=
  ⟨0x030000, 31, 1, .ro, 0, 0, 1⟩

/-- SEC_STAT.ERROR [30:30], RO: the module is in its error state (R406). -/
def SEC_STAT_ERROR : Fld :=
  ⟨0x030000, 30, 1, .ro, 0, 0, 1⟩

/-- SEC_STAT.ZEROIZED [29:29], W1C: a zeroization has occurred (R410). -/
def SEC_STAT_ZEROIZED : Fld :=
  ⟨0x030000, 29, 1, .w1c, 0, 0, 1⟩

/-- SEC_STAT.TAMPER [28:28], W1C: the last zeroization was triggered by tamper_l. -/
def SEC_STAT_TAMPER : Fld :=
  ⟨0x030000, 28, 1, .w1c, 0, 0, 1⟩

/-- SEC_STAT.ROOT_BLOCKED [27:27], RO: DRK is blocked or killed (R411). -/
def SEC_STAT_ROOT_BLOCKED : Fld :=
  ⟨0x030000, 27, 1, .ro, 0, 0, 1⟩

/-- SEC_STAT.KEY_NEED [26:26], RO: the last start-lock attempt failed R401. -/
def SEC_STAT_KEY_NEED : Fld :=
  ⟨0x030000, 26, 1, .ro, 0, 0, 1⟩

/-- SEC_STAT.KEYS [25:23], RO: bit 0 JLK, bit 1 AMK, bit 2 ATK installed. -/
def SEC_STAT_KEYS : Fld :=
  ⟨0x030000, 23, 3, .ro, 0, 0, 7⟩

/-- SEC_STAT.FAILED [19:16], RO: order number of the failing self-test of R405; 0 when none; 10 for a continuous entropy test, 11 for a DRBG reseed check. -/
def SEC_STAT_FAILED : Fld :=
  ⟨0x030000, 16, 4, .ro, 0, 0, 15⟩

/-- SEC_STAT.HW_VER [7:0], RO: module hardware version. -/
def SEC_STAT_HW_VER : Fld :=
  ⟨0x030000, 0, 8, .ro, (Config.moduleHwVer 0).toNat, 0, 255⟩

/-- SEC_CTL.ZKEY [15:8], WO: must be 0xC3 in the zeroizing write. -/
def SEC_CTL_ZKEY : Fld :=
  ⟨0x030004, 8, 8, .wo, 0, 0, 255⟩

/-- SEC_CTL.TAMPER_KILL [1:1], RWL: 1 lets tamper blow the root-kill fuse (R411). -/
def SEC_CTL_TAMPER_KILL : Fld :=
  ⟨0x030004, 1, 1, .rwl, 0, 0, 1⟩

/-- SEC_CTL.ZEROIZE [0:0], WO: a write of 1 with ZKEY = 0xC3 zeroizes (R410). -/
def SEC_CTL_ZEROIZE : Fld :=
  ⟨0x030004, 0, 1, .wo, 0, 0, 1⟩

/-- SEC_JOB_ID.JOB_ID [63:0], RO: JOB_ID of the installed keys; 0 when none. -/
def SEC_JOB_ID_JOB_ID : Fld :=
  ⟨0x030008, 0, 64, .ro, 0, 0, 18446744073709551615⟩

/-- SEC_ST_RESULT.PASSED [8:0], RO: bit n − 1 is 1 when test n of R405 passed at the last power-on. -/
def SEC_ST_RESULT_PASSED : Fld :=
  ⟨0x030010, 0, 9, .ro, 0, 0, 511⟩

/-- SEC_AUTH_FAIL.LINK [63:32], RO: SAP packets failing their tag; stops at 0xFFFF_FFFF. -/
def SEC_AUTH_FAIL_LINK : Fld :=
  ⟨0x030018, 32, 32, .ro, 0, 0, 4294967295⟩

/-- SEC_AUTH_FAIL.ANCHOR [31:16], RO: anchor record or trailer tags failing; stops at 65,535. -/
def SEC_AUTH_FAIL_ANCHOR : Fld :=
  ⟨0x030018, 16, 16, .ro, 0, 0, 65535⟩

/-- SEC_AUTH_FAIL.BUNDLE [15:0], RO: key bundles failing their tag; stops at 65,535. -/
def SEC_AUTH_FAIL_BUNDLE : Fld :=
  ⟨0x030018, 0, 16, .ro, 0, 0, 65535⟩

/-- SEC_IMG.SVN [31:24], RO: security version of the accepted image. -/
def SEC_IMG_SVN : Fld :=
  ⟨0x030020, 24, 8, .ro, 0, 0, 255⟩

/-- SEC_IMG.SVN_MIN [23:16], RO: fused minimum security version (R408). -/
def SEC_IMG_SVN_MIN : Fld :=
  ⟨0x030020, 16, 8, .ro, 0, 0, 255⟩

/-- SEC_IMG.REVOKED [15:12], RO: bit n is 1 when key slot n is revoked. -/
def SEC_IMG_REVOKED : Fld :=
  ⟨0x030020, 12, 4, .ro, 0, 0, 15⟩

/-- SEC_IMG.KEY_SLOT [5:4], RO: key slot of the accepted image, 0 to 3 inclusive. -/
def SEC_IMG_KEY_SLOT : Fld :=
  ⟨0x030020, 4, 2, .ro, 0, 0, 3⟩

/-- SEC_IMG.IMAGE [1:0], RO: 0 none accepted; 1 image A; 2 image B; 3 reserved. -/
def SEC_IMG_IMAGE : Fld :=
  ⟨0x030020, 0, 2, .ro, 0, 0, 3⟩

/-! ### Registers of 14_health_risk_and_wear.md -/

/-- HLT_RISK.PEAK [31:16], RO: highest risk since the start lock. -/
def HLT_RISK_PEAK : Fld :=
  ⟨0x0B0000, 16, 16, .ro, 0, 0, 65535⟩

/-- HLT_RISK.RISK [15:0], RO: risk at the last evaluation (R420). -/
def HLT_RISK_RISK : Fld :=
  ⟨0x0B0000, 0, 16, .ro, 0, 0, 65535⟩

/-- HLT_RISK_W0.W_BER [63:48], RW: weight w3. -/
def HLT_RISK_W0_W_BER : Fld :=
  ⟨0x0B0008, 48, 16, .rw, 8192, 0, 65535⟩

/-- HLT_RISK_W0.W_FEC [47:32], RW: weight w2. -/
def HLT_RISK_W0_W_FEC : Fld :=
  ⟨0x0B0008, 32, 16, .rw, 64, 0, 65535⟩

/-- HLT_RISK_W0.W_HW [31:16], RW: weight w1. -/
def HLT_RISK_W0_W_HW : Fld :=
  ⟨0x0B0008, 16, 16, .rw, 2048, 0, 65535⟩

/-- HLT_RISK_W0.W_BARK [15:0], RW: weight w0. -/
def HLT_RISK_W0_W_BARK : Fld :=
  ⟨0x0B0008, 0, 16, .rw, 16, 0, 65535⟩

/-- HLT_RISK_W1.W_SRAM [63:48], RW: weight w7. -/
def HLT_RISK_W1_W_SRAM : Fld :=
  ⟨0x0B0010, 48, 16, .rw, 256, 0, 65535⟩

/-- HLT_RISK_W1.W_DROOP [47:32], RW: weight w6. -/
def HLT_RISK_W1_W_DROOP : Fld :=
  ⟨0x0B0010, 32, 16, .rw, 4096, 0, 65535⟩

/-- HLT_RISK_W1.W_TEMP [31:16], RW: weight w5. -/
def HLT_RISK_W1_W_TEMP : Fld :=
  ⟨0x0B0010, 16, 16, .rw, 16384, 0, 65535⟩

/-- HLT_RISK_W1.W_EYE [15:0], RW: weight w4. -/
def HLT_RISK_W1_W_EYE : Fld :=
  ⟨0x0B0010, 0, 16, .rw, 1024, 0, 65535⟩

/-- HLT_RISK_W2.BASE [47:32], RW: constant term. -/
def HLT_RISK_W2_BASE : Fld :=
  ⟨0x0B0018, 32, 16, .rw, 3, 0, 65535⟩

/-- HLT_RISK_W2.W_LIFE [31:16], RW: weight w9. -/
def HLT_RISK_W2_W_LIFE : Fld :=
  ⟨0x0B0018, 16, 16, .rw, 65535, 0, 65535⟩

/-- HLT_RISK_W2.W_RESET [15:0], RW: weight w8. -/
def HLT_RISK_W2_W_RESET : Fld :=
  ⟨0x0B0018, 0, 16, .rw, 65535, 0, 65535⟩

/-- HLT_RISK_THR.THICK_EN [63:63], RW: 1 lets the loop offer thickening (R422). -/
def HLT_RISK_THR_THICK_EN : Fld :=
  ⟨0x0B0020, 63, 1, .rw, 0, 0, 1⟩

/-- HLT_RISK_THR.HARD [47:32], RW: evacuation threshold. -/
def HLT_RISK_THR_HARD : Fld :=
  ⟨0x0B0020, 32, 16, .rw, 2560, 0, 65535⟩

/-- HLT_RISK_THR.UPPER [31:16], RW: thickening threshold. -/
def HLT_RISK_THR_UPPER : Fld :=
  ⟨0x0B0020, 16, 16, .rw, 256, 0, 65535⟩

/-- HLT_RISK_THR.LOWER [15:0], RW: release threshold. -/
def HLT_RISK_THR_LOWER : Fld :=
  ⟨0x0B0020, 0, 16, .rw, 64, 0, 65535⟩

/-- HLT_IND_SEL.INDEX [3:0], RW: indicator shown in HLT_IND, 0 to 9 inclusive; 10 to 15 show 0. -/
def HLT_IND_SEL_INDEX : Fld :=
  ⟨0x0B0028, 0, 4, .rw, 0, 0, 15⟩

/-- HLT_IND.X [15:0], RO: indicator value at the last evaluation. -/
def HLT_IND_X : Fld :=
  ⟨0x0B0030, 0, 16, .ro, 0, 0, 65535⟩

/-- HLT_LANE_SEL.LANE [5:0], RW: lane 16p + l shown in HLT_LANE. -/
def HLT_LANE_SEL_LANE : Fld :=
  ⟨0x0B0038, 0, 6, .rw, 0, 0, 63⟩

/-- HLT_LANE.EYE [63:48], RO: last eye margin in mUI (R418). -/
def HLT_LANE_EYE : Fld :=
  ⟨0x0B0040, 48, 16, .ro, 0, 0, 65535⟩

/-- HLT_LANE.BER_CODE [47:40], RO: last BER_CODE. -/
def HLT_LANE_BER_CODE : Fld :=
  ⟨0x0B0040, 40, 8, .ro, 0, 0, 255⟩

/-- HLT_LANE.CORR [31:0], RO: corrected symbols since power-on; stops at 0xFFFF_FFFF. -/
def HLT_LANE_CORR : Fld :=
  ⟨0x0B0040, 0, 32, .ro, 0, 0, 4294967295⟩

/-- HLT_TEMP.DROOP [63:48], RO: droop events (R419); stops at 65,535. -/
def HLT_TEMP_DROOP : Fld :=
  ⟨0x0B0048, 48, 16, .ro, 0, 0, 65535⟩

/-- HLT_TEMP.MAX [39:32], RO: hottest reading since power-on, in °C. -/
def HLT_TEMP_MAX : Fld :=
  ⟨0x0B0048, 32, 8, .ro, 0, 0, 255⟩

/-- HLT_TEMP.T3_T0 [31:0], RO: byte q: last reading of quadrant q, 0 to 150 °C inclusive; hotter reads 150. -/
def HLT_TEMP_T3_T0 : Fld :=
  ⟨0x0B0048, 0, 32, .ro, 0, 0, 4294967295⟩

/-- HLT_THROTTLE.MICROS [63:0], RO: µs at half rate (R419); stops at all ones. -/
def HLT_THROTTLE_MICROS : Fld :=
  ⟨0x0B0050, 0, 64, .ro, 0, 0, 18446744073709551615⟩

/-- HLT_RESETS.DAY [31:16], RO: compute resets in the last 24 h. -/
def HLT_RESETS_DAY : Fld :=
  ⟨0x0B0058, 16, 16, .ro, 0, 0, 65535⟩

/-- HLT_RESETS.TOTAL [15:0], RO: compute resets since power-on; stops at 65,535. -/
def HLT_RESETS_TOTAL : Fld :=
  ⟨0x0B0058, 0, 16, .ro, 0, 0, 65535⟩

/-- HLT_WIN_WAIT.CYCLES [63:0], RO: update-clock cycles in which every leaf with work was blocked (R116); stops at all ones. -/
def HLT_WIN_WAIT_CYCLES : Fld :=
  ⟨0x0B0060, 0, 64, .ro, 0, 0, 18446744073709551615⟩

/-- HLT_EOL_SEL.KIND [9:8], RW: 0 stack; 1 lane; 2 bank; 3 reserved. -/
def HLT_EOL_SEL_KIND : Fld :=
  ⟨0x0B0068, 8, 2, .rw, 0, 0, 3⟩

/-- HLT_EOL_SEL.UNIT [6:0], RW: unit number; values beyond the kind's count show 0. -/
def HLT_EOL_SEL_UNIT : Fld :=
  ⟨0x0B0068, 0, 7, .rw, 0, 0, 127⟩

/-- HLT_EOL.PRED [63:48], RO: predicted life in hours (R424). -/
def HLT_EOL_PRED : Fld :=
  ⟨0x0B0070, 48, 16, .ro, 65535, 0, 65535⟩

/-- HLT_EOL.LOW90 [47:32], RO: 90 % lower bound in hours. -/
def HLT_EOL_LOW90 : Fld :=
  ⟨0x0B0070, 32, 16, .ro, 65535, 0, 65535⟩

/-- HLT_EOL.NO_TREND [31:31], RO: no trend fitted. -/
def HLT_EOL_NO_TREND : Fld :=
  ⟨0x0B0070, 31, 1, .ro, 1, 0, 1⟩

/-- HLT_EOL.STRESS [30:15], RO: stress hours, in units of 8 h. -/
def HLT_EOL_STRESS : Fld :=
  ⟨0x0B0070, 15, 16, .ro, 0, 0, 65535⟩

/-- HLT_EOL.SAMPLES [6:0], RO: samples held, 0 to 64 inclusive. -/
def HLT_EOL_SAMPLES : Fld :=
  ⟨0x0B0070, 0, 7, .ro, 0, 0, 127⟩

/-- HLT_EOL_MIN.LOW90 [63:48], RO: least LOW90 over all units. -/
def HLT_EOL_MIN_LOW90 : Fld :=
  ⟨0x0B0078, 48, 16, .ro, 65535, 0, 65535⟩

/-- HLT_EOL_MIN.KIND [41:40], RO: kind of that unit. -/
def HLT_EOL_MIN_KIND : Fld :=
  ⟨0x0B0078, 40, 2, .ro, 0, 0, 3⟩

/-- HLT_EOL_MIN.UNIT [38:32], RO: number of that unit; ties go to the lowest kind, then the lowest unit. -/
def HLT_EOL_MIN_UNIT : Fld :=
  ⟨0x0B0078, 32, 7, .ro, 0, 0, 127⟩

/-- HLT_SHARE_LOOP.EN [31:31], RW: loop enable. -/
def HLT_SHARE_LOOP_EN : Fld :=
  ⟨0x0B0080, 31, 1, .rw, 1, 0, 1⟩

/-- HLT_SHARE_LOOP.CEIL [30:24], RW: ceiling in %, 1 to 100 inclusive; larger values are stored as 100; a write of 0 stores 1. -/
def HLT_SHARE_LOOP_CEIL : Fld :=
  ⟨0x0B0080, 24, 7, .rw, 50, 1, 100⟩

/-- HLT_SHARE_LOOP.FLOOR [22:16], RW: floor in %, 1 to 100 inclusive; stored as CEIL and 1 do for their bounds. -/
def HLT_SHARE_LOOP_FLOOR : Fld :=
  ⟨0x0B0080, 16, 7, .rw, 30, 1, 100⟩

/-- HLT_SHARE_LOOP.WAIT_HI [15:8], RW: wait threshold in units of 10 µs; a write of 0 stores 1. -/
def HLT_SHARE_LOOP_WAIT_HI : Fld :=
  ⟨0x0B0080, 8, 8, .rw, 50, 1, 255⟩

/-- HLT_SHARE_LOOP.STEP [3:0], RW: step in %; a write of 0 stores 1. -/
def HLT_SHARE_LOOP_STEP : Fld :=
  ⟨0x0B0080, 0, 4, .rw, 2, 1, 15⟩

/-- HLT_LINK_LOOP.EN [31:31], RW: loop enable. -/
def HLT_LINK_LOOP_EN : Fld :=
  ⟨0x0B0084, 31, 1, .rw, 1, 0, 1⟩

/-- HLT_LINK_LOOP.PREWAKE [30:30], RW: wake at step boundaries (R430). -/
def HLT_LINK_LOOP_PREWAKE : Fld :=
  ⟨0x0B0084, 30, 1, .rw, 1, 0, 1⟩

/-- HLT_LINK_LOOP.CEIL [23:16], RW: ceiling of IDLE in µs; a write of 0 stores 1. -/
def HLT_LINK_LOOP_CEIL : Fld :=
  ⟨0x0B0084, 16, 8, .rw, 255, 1, 255⟩

/-- HLT_LINK_LOOP.FLOOR [15:8], RW: floor of IDLE in µs; a write of 0 stores 1. -/
def HLT_LINK_LOOP_FLOOR : Fld :=
  ⟨0x0B0084, 8, 8, .rw, 20, 1, 255⟩

/-- HLT_LINK_LOOP.WAKE_HI [7:0], RW: wakes per 10 ms; a write of 0 stores 1. -/
def HLT_LINK_LOOP_WAKE_HI : Fld :=
  ⟨0x0B0084, 0, 8, .rw, 8, 1, 255⟩

/-- HLT_SEAL_LOOP.EN [63:63], RW: loop enable. -/
def HLT_SEAL_LOOP_EN : Fld :=
  ⟨0x0B0088, 63, 1, .rw, 0, 0, 1⟩

/-- HLT_SEAL_LOOP.CEIL [47:24], RW: longest interval, in units of 1,024 count increments; a write of 0 stores 1. -/
def HLT_SEAL_LOOP_CEIL : Fld :=
  ⟨0x0B0088, 24, 24, .rw, 4096, 1, 16777215⟩

/-- HLT_SEAL_LOOP.FLOOR [23:0], RW: shortest interval, in the same units; a write of 0 stores 1. -/
def HLT_SEAL_LOOP_FLOOR : Fld :=
  ⟨0x0B0088, 0, 24, .rw, 256, 1, 16777215⟩

/-- HLT_JOB_RISK.STEP [63:32], RW: step from which RISK is current (R431). -/
def HLT_JOB_RISK_STEP : Fld :=
  ⟨0x0B0090, 32, 32, .rw, 0, 0, 4294967295⟩

/-- HLT_JOB_RISK.LATE [31:31], W1C: a write was ignored as late. -/
def HLT_JOB_RISK_LATE : Fld :=
  ⟨0x0B0090, 31, 1, .w1c, 0, 0, 1⟩

/-- HLT_JOB_RISK.PENDING [30:30], RO: the written value is not yet current. -/
def HLT_JOB_RISK_PENDING : Fld :=
  ⟨0x0B0090, 30, 1, .ro, 0, 0, 1⟩

/-- HLT_JOB_RISK.SEQ [29:29], RW: sequence of STEP: 0 step sequence; 1 time-step sequence (R157). -/
def HLT_JOB_RISK_SEQ : Fld :=
  ⟨0x0B0090, 29, 1, .rw, 0, 0, 1⟩

/-- HLT_JOB_RISK.RISK [15:0], RW: job risk, in the units of R420. -/
def HLT_JOB_RISK_RISK : Fld :=
  ⟨0x0B0090, 0, 16, .rw, 0, 0, 65535⟩

/-- HLT_HEAT_LOOP.EN [63:63], RW: loop enable. -/
def HLT_HEAT_LOOP_EN : Fld :=
  ⟨0x0B0098, 63, 1, .rw, 1, 0, 1⟩

/-- HLT_HEAT_LOOP.CEIL [47:32], RW: ceiling of INTERVAL in ms; a write of 0 stores 1. -/
def HLT_HEAT_LOOP_CEIL : Fld :=
  ⟨0x0B0098, 32, 16, .rw, 1000, 1, 65535⟩

/-- HLT_HEAT_LOOP.FLOOR [31:16], RW: floor of INTERVAL in ms; a write of 0 stores 1. -/
def HLT_HEAT_LOOP_FLOOR : Fld :=
  ⟨0x0B0098, 16, 16, .rw, 2, 1, 65535⟩

/-- HLT_HEAT_LOOP.TARGET [15:0], RW: hot leaves aimed for (R432). -/
def HLT_HEAT_LOOP_TARGET : Fld :=
  ⟨0x0B0098, 0, 16, .rw, 4096, 0, 65535⟩

/-- HLT_ADVICE.CLASS [6:6], W1C: CLASS_ADVICE raised. -/
def HLT_ADVICE_CLASS : Fld :=
  ⟨0x0B00A0, 6, 1, .w1c, 0, 0, 1⟩

/-- HLT_ADVICE.EVAC [5:5], W1C: EVAC_ADVICE raised. -/
def HLT_ADVICE_EVAC : Fld :=
  ⟨0x0B00A0, 5, 1, .w1c, 0, 0, 1⟩

/-- HLT_ADVICE.THICK [4:4], W1C: THICK_ADVICE raised. -/
def HLT_ADVICE_THICK : Fld :=
  ⟨0x0B00A0, 4, 1, .w1c, 0, 0, 1⟩

/-- HLT_ADVICE.HEAT [3:3], W1C: HEAT_ADVICE raised. -/
def HLT_ADVICE_HEAT : Fld :=
  ⟨0x0B00A0, 3, 1, .w1c, 0, 0, 1⟩

/-- HLT_ADVICE.SEAL [2:2], W1C: SEAL_ADVICE raised. -/
def HLT_ADVICE_SEAL : Fld :=
  ⟨0x0B00A0, 2, 1, .w1c, 0, 0, 1⟩

/-- HLT_ADVICE.LINK [1:1], W1C: LINK_ADVICE raised. -/
def HLT_ADVICE_LINK : Fld :=
  ⟨0x0B00A0, 1, 1, .w1c, 0, 0, 1⟩

/-- HLT_ADVICE.SHARE [0:0], W1C: SHARE_ADVICE raised. -/
def HLT_ADVICE_SHARE : Fld :=
  ⟨0x0B00A0, 0, 1, .w1c, 0, 0, 1⟩

/-- HLT_ADVICE_VAL.WISH [63:32], RO: wish of the latest advice, in its loop's units. -/
def HLT_ADVICE_VAL_WISH : Fld :=
  ⟨0x0B00A8, 32, 32, .ro, 0, 0, 4294967295⟩

/-- HLT_ADVICE_VAL.PORT [7:4], RO: port of a link-power advice; 0 otherwise. -/
def HLT_ADVICE_VAL_PORT : Fld :=
  ⟨0x0B00A8, 4, 4, .ro, 0, 0, 15⟩

/-- HLT_ADVICE_VAL.LOOP [3:0], RO: loop code of R428. -/
def HLT_ADVICE_VAL_LOOP : Fld :=
  ⟨0x0B00A8, 0, 4, .ro, 0, 0, 15⟩

/-! ### Registers of 15_bringup_reset_recovery.md -/

/-- GEN_BOOT.READY [63:63], RO: step 8 of R434 reached. -/
def GEN_BOOT_READY : Fld :=
  ⟨0x000400, 63, 1, .ro, 0, 0, 1⟩

/-- GEN_BOOT.STAGE [62:59], RO: step in progress, or the step that failed, 1 to 8 inclusive. -/
def GEN_BOOT_STAGE : Fld :=
  ⟨0x000400, 59, 4, .ro, 0, 0, 15⟩

/-- GEN_BOOT.FAIL [58:55], RO: 0 none; 1 FUSE; 2 IMAGE; 3 SELF_TEST; 4 SRAM; 5 MEM_GEOM; 6 MEM_READY; 7 FILL; 8 to 15 reserved. -/
def GEN_BOOT_FAIL : Fld :=
  ⟨0x000400, 55, 4, .ro, 0, 0, 15⟩

/-- GEN_BOOT.IMG_A [54:52], RO: 0 not tried; 1 accepted; 2 read error; 3 format; 4 key; 5 signature; 6 security version; 7 reserved. -/
def GEN_BOOT_IMG_A : Fld :=
  ⟨0x000400, 52, 3, .ro, 0, 0, 7⟩

/-- GEN_BOOT.IMG_B [51:49], RO: as IMG_A. -/
def GEN_BOOT_IMG_B : Fld :=
  ⟨0x000400, 49, 3, .ro, 0, 0, 7⟩

/-- GEN_BOOT.MS [15:0], RO: ms from pwr_good to READY or to the failure. -/
def GEN_BOOT_MS : Fld :=
  ⟨0x000400, 0, 16, .ro, 0, 0, 65535⟩

/-- GEN_PWR.REFUSED [31:31], W1C: a SLEEP write was refused (R438). -/
def GEN_PWR_REFUSED : Fld :=
  ⟨0x000408, 31, 1, .w1c, 0, 0, 1⟩

/-- GEN_PWR.ASLEEP [1:1], RO: the fast clocks are stopped. -/
def GEN_PWR_ASLEEP : Fld :=
  ⟨0x000408, 1, 1, .ro, 0, 0, 1⟩

/-- GEN_PWR.SLEEP [0:0], RW: 1 requests keep-alive. -/
def GEN_PWR_SLEEP : Fld :=
  ⟨0x000408, 0, 1, .rw, 0, 0, 1⟩

/-- GEN_RESET.KEY [15:8], WO: must be 0x5A (R450). -/
def GEN_RESET_KEY : Fld :=
  ⟨0x00040C, 8, 8, .wo, 0, 0, 255⟩

/-- GEN_RESET.CRYPTO [1:1], WO: 1 takes a crypto reset. -/
def GEN_RESET_CRYPTO : Fld :=
  ⟨0x00040C, 1, 1, .wo, 0, 0, 1⟩

/-- GEN_RESET.CORE [0:0], WO: 1 takes a coding-core reset. -/
def GEN_RESET_CORE : Fld :=
  ⟨0x00040C, 0, 1, .wo, 0, 0, 1⟩

/-- GEN_RESET_STAT.CORE_TOTAL [63:48], RO: coding-core resets since power-on; stops at 65,535. -/
def GEN_RESET_STAT_CORE_TOTAL : Fld :=
  ⟨0x000410, 48, 16, .ro, 0, 0, 65535⟩

/-- GEN_RESET_STAT.IN_WINDOW [47:40], RO: coding-core resets in the last 600 s. -/
def GEN_RESET_STAT_IN_WINDOW : Fld :=
  ⟨0x000410, 40, 8, .ro, 0, 0, 255⟩

/-- GEN_RESET_STAT.LAST_CAUSE [39:36], RO: 0 none; 1 software; 2 watchdog; 3 to 15 reserved. -/
def GEN_RESET_STAT_LAST_CAUSE : Fld :=
  ⟨0x000410, 36, 4, .ro, 0, 0, 15⟩

/-- GEN_RESET_STAT.OOS [35:35], RO: the engine is out of service. -/
def GEN_RESET_STAT_OOS : Fld :=
  ⟨0x000410, 35, 1, .ro, 0, 0, 1⟩

/-- GEN_RESET_STAT.OOS_CAUSE [34:32], RO: 0 none; 1 resets; 2 SRAM; 3 shadow; 4 crypto; 5 no clusters; 6 and 7 reserved. -/
def GEN_RESET_STAT_OOS_CAUSE : Fld :=
  ⟨0x000410, 32, 3, .ro, 0, 0, 7⟩

/-- GEN_RESET_STAT.CRYPTO_TOTAL [31:16], RO: crypto resets since power-on; stops at 65,535. -/
def GEN_RESET_STAT_CRYPTO_TOTAL : Fld :=
  ⟨0x000410, 16, 16, .ro, 0, 0, 65535⟩

/-- GEN_RESET_STAT.RESUME_US [15:0], RO: duration of the last resumption in µs. -/
def GEN_RESET_STAT_RESUME_US : Fld :=
  ⟨0x000410, 0, 16, .ro, 0, 0, 65535⟩

/-- GEN_WDT.LIMIT [15:0], RW: watchdog limit in ms (R457), 10 to 10,000 inclusive; values outside the range are stored clamped. -/
def GEN_WDT_LIMIT : Fld :=
  ⟨0x000418, 0, 16, .rw, 100, 10, 10000⟩

/-- GEN_PRUNE.KEY [31:24], WO: must be 0xA5. -/
def GEN_PRUNE_KEY : Fld :=
  ⟨0x00041C, 24, 8, .wo, 0, 0, 255⟩

/-- GEN_PRUNE.UNPRUNE [9:9], WO: 1 ends the prune (R462). -/
def GEN_PRUNE_UNPRUNE : Fld :=
  ⟨0x00041C, 9, 1, .wo, 0, 0, 1⟩

/-- GEN_PRUNE.KIND [8:8], WO: 0 cluster; 1 lane. -/
def GEN_PRUNE_KIND : Fld :=
  ⟨0x00041C, 8, 1, .wo, 0, 0, 1⟩

/-- GEN_PRUNE.UNIT [5:0], WO: cluster 16q + n, or lane 16p + l. -/
def GEN_PRUNE_UNIT : Fld :=
  ⟨0x00041C, 0, 6, .wo, 0, 0, 63⟩

/-- GEN_PRUNE_CTL.AUTO_CLU [31:31], RW: automatic cluster pruning (R460). -/
def GEN_PRUNE_CTL_AUTO_CLU : Fld :=
  ⟨0x000420, 31, 1, .rw, 1, 0, 1⟩

/-- GEN_PRUNE_CTL.AUTO_LANE [30:30], RW: automatic lane pruning (R461). -/
def GEN_PRUNE_CTL_AUTO_LANE : Fld :=
  ⟨0x000420, 30, 1, .rw, 1, 0, 1⟩

/-- GEN_PRUNE_CTL.LANE_BER [23:16], RW: BER_CODE threshold. -/
def GEN_PRUNE_CTL_LANE_BER : Fld :=
  ⟨0x000420, 16, 8, .rw, 128, 0, 255⟩

/-- GEN_PRUNE_CTL.CLU_MIN [5:0], RW: CLUSTER_LOW threshold, 1 to 60 inclusive; values outside the range are stored clamped. -/
def GEN_PRUNE_CTL_CLU_MIN : Fld :=
  ⟨0x000420, 0, 6, .rw, 32, 1, 60⟩

/-- GEN_HOLE_CLU.PRUNED [63:0], RO: bit c is 1 while cluster c is pruned. -/
def GEN_HOLE_CLU_PRUNED : Fld :=
  ⟨0x000428, 0, 64, .ro, 0, 0, 18446744073709551615⟩

/-- GRV_MAP_CTL.ARMED [31:31], RO: the engine is armed (R442). -/
def GRV_MAP_CTL_ARMED : Fld :=
  ⟨0x060600, 31, 1, .ro, 0, 0, 1⟩

/-- GRV_MAP_CTL.WAIT [23:16], RW: wait before fetching, in units of 10 ms, 1 to 255 inclusive; a write of 0 stores 1. -/
def GRV_MAP_CTL_WAIT : Fld :=
  ⟨0x060600, 16, 8, .rw, 20, 1, 255⟩

/-- GRV_MAP_CTL.STANDBY [2:2], RWL: accept a map without a position (R445). -/
def GRV_MAP_CTL_STANDBY : Fld :=
  ⟨0x060600, 2, 1, .rwl, 0, 0, 1⟩

/-- GRV_MAP_CTL.GRAFT [1:1], RWL: direct delivery; no forwarding and no roll call. -/
def GRV_MAP_CTL_GRAFT : Fld :=
  ⟨0x060600, 1, 1, .rwl, 0, 0, 1⟩

/-- GRV_MAP_CTL.ARM [0:0], WO: a write of 1 arms the engine. -/
def GRV_MAP_CTL_ARM : Fld :=
  ⟨0x060600, 0, 1, .wo, 0, 0, 1⟩

/-- GRV_MAP_BASE.LEN [63:48], RWL: buffer length in units of 4 KiB. -/
def GRV_MAP_BASE_LEN : Fld :=
  ⟨0x060608, 48, 16, .rwl, 0, 0, 65535⟩

/-- GRV_MAP_BASE.BASE [39:12], RWL: buffer base in units of 4 KiB; software-usable and in no region. -/
def GRV_MAP_BASE_BASE : Fld :=
  ⟨0x060608, 12, 28, .rwl, 0, 0, 268435455⟩

/-- GRV_MAP_HANDLE.HANDLE [63:0], RWL: storage-path handle of the map object (R443). -/
def GRV_MAP_HANDLE_HANDLE : Fld :=
  ⟨0x060610, 0, 64, .rwl, 0, 0, 18446744073709551615⟩

/-- GRV_MAP_DIG.DIGEST [63:0], RWL: bytes 8n to 8n + 7 of the expected map digest; byte 8n + i in bits [8i+7:8i]. -/
def GRV_MAP_DIG_DIGEST (n : Nat) : Fld :=
  ⟨0x060618 + 0x8 * n, 0, 64, .rwl, 0, 0, 18446744073709551615⟩

/-- GRV_LAYOUT.DIGEST [63:0], RO: bytes 8n to 8n + 7 of the layout digest (R441). -/
def GRV_LAYOUT_DIGEST (n : Nat) : Fld :=
  ⟨0x060638 + 0x8 * n, 0, 64, .ro, 0, 0, 18446744073709551615⟩

/-- GRV_MAP_STAT.SOURCE [63:62], RO: 0 none; 1 broadcast; 2 fetched; 3 direct. -/
def GRV_MAP_STAT_SOURCE : Fld :=
  ⟨0x060658, 62, 2, .ro, 0, 0, 3⟩

/-- GRV_MAP_STAT.STATE [61:59], RO: 0 idle; 1 waiting; 2 fetching; 3 accepted; 4 held; 5 failed; 6 and 7 reserved. -/
def GRV_MAP_STAT_STATE : Fld :=
  ⟨0x060658, 59, 3, .ro, 0, 0, 7⟩

/-- GRV_MAP_STAT.REASON [55:52], RO: 0 none; 1 digest; 2 format; 3 geometry; 4 not in map; 5 fetch; 6 to 15 reserved. -/
def GRV_MAP_STAT_REASON : Fld :=
  ⟨0x060658, 52, 4, .ro, 0, 0, 15⟩

/-- GRV_MAP_STAT.CHILD_FAIL [47:40], RO: children not reached; stops at 255. -/
def GRV_MAP_STAT_CHILD_FAIL : Fld :=
  ⟨0x060658, 40, 8, .ro, 0, 0, 255⟩

/-- GRV_MAP_STAT.TRIES [39:32], RO: fetch attempts. -/
def GRV_MAP_STAT_TRIES : Fld :=
  ⟨0x060658, 32, 8, .ro, 0, 0, 255⟩

/-- GRV_MAP_STAT.GROVE [17:0], RO: grove index of this engine. -/
def GRV_MAP_STAT_GROVE : Fld :=
  ⟨0x060658, 0, 18, .ro, 0, 0, 262143⟩

/-- GRV_RC_CTL.TIMEOUT [15:0], RW: roll-call timeout in units of 100 ms, 1 to 6,000 inclusive; values outside the range are stored clamped. -/
def GRV_RC_CTL_TIMEOUT : Fld :=
  ⟨0x060660, 0, 16, .rw, 100, 1, 6000⟩

/-- GRV_RC_STAT.HELD [63:48], RO: bit p is 1 when a record from position p is held. -/
def GRV_RC_STAT_HELD : Fld :=
  ⟨0x060668, 48, 16, .ro, 0, 0, 65535⟩

/-- GRV_RC_STAT.BAD_POS [47:44], RO: position of the reported mismatch. -/
def GRV_RC_STAT_BAD_POS : Fld :=
  ⟨0x060668, 44, 4, .ro, 0, 0, 15⟩

/-- GRV_RC_STAT.REASON [39:32], RO: reason code of R447. -/
def GRV_RC_STAT_REASON : Fld :=
  ⟨0x060668, 32, 8, .ro, 0, 0, 255⟩

/-- GRV_RC_STAT.KEY_MISS [31:16], RO: roll-call and map writes refused for their key; stops at 65,535. -/
def GRV_RC_STAT_KEY_MISS : Fld :=
  ⟨0x060668, 16, 16, .ro, 0, 0, 65535⟩

/-- GRV_RC_STAT.PASSED [1:1], RO: the last roll call passed. -/
def GRV_RC_STAT_PASSED : Fld :=
  ⟨0x060668, 1, 1, .ro, 0, 0, 1⟩

/-- GRV_RC_STAT.FAILED [0:0], W1C: a roll call was refused. -/
def GRV_RC_STAT_FAILED : Fld :=
  ⟨0x060668, 0, 1, .w1c, 0, 0, 1⟩

/-! ### Registers of 16_time_and_interrupts.md -/

/-- TIM_NOW.NS [63:0], RO: engine time in ns; a read latches the fraction into TIM_FRAC. -/
def TIM_NOW_NS : Fld :=
  ⟨0x020000, 0, 64, .ro, 0, 0, 18446744073709551615⟩

/-- TIM_FRAC.FRAC [7:0], RO: fraction in 1/256 ns, latched at the last TIM_NOW read. -/
def TIM_FRAC_FRAC : Fld :=
  ⟨0x020008, 0, 8, .ro, 0, 0, 255⟩

/-- TIM_SET.NS [63:0], WO: target of a correction under R468. -/
def TIM_SET_NS : Fld :=
  ⟨0x020010, 0, 64, .wo, 0, 0, 18446744073709551615⟩

/-- TIM_RATE.INC [39:0], RW: increment per time-clock cycle in units of 2^-32 ns (R467). -/
def TIM_RATE_INC : Fld :=
  ⟨0x020018, 0, 40, .rw, 10737418240, 10726680822, 10748155658⟩

/-- TIM_CTL.MAX_STEP [23:8], RW: largest correction in µs; a write of 0 stores 1. -/
def TIM_CTL_MAX_STEP : Fld :=
  ⟨0x020020, 8, 16, .rw, 1000, 1, 65535⟩

/-- TIM_CTL.ALIGN [1:1], RW: edges correct time under R469. -/
def TIM_CTL_ALIGN : Fld :=
  ⟨0x020020, 1, 1, .rw, 0, 0, 1⟩

/-- TIM_CTL.PPS_EN [0:0], RW: pps_in is watched for PPS_LOST. -/
def TIM_CTL_PPS_EN : Fld :=
  ⟨0x020020, 0, 1, .rw, 0, 0, 1⟩

/-- TIM_PPS_NEXT.NS [63:0], RW: engine time the next edge marks. -/
def TIM_PPS_NEXT_NS : Fld :=
  ⟨0x020028, 0, 64, .rw, 0, 0, 18446744073709551615⟩

/-- TIM_PPS_CAP.NS [63:0], RO: engine time at the last accepted edge. -/
def TIM_PPS_CAP_NS : Fld :=
  ⟨0x020030, 0, 64, .ro, 0, 0, 18446744073709551615⟩

/-- TIM_PPS_STAT.LOST [31:31], RO: set under R469. -/
def TIM_PPS_STAT_LOST : Fld :=
  ⟨0x020038, 31, 1, .ro, 0, 0, 1⟩

/-- TIM_PPS_STAT.REJECT [15:8], RO: corrections refused (R468); stops at 255. -/
def TIM_PPS_STAT_REJECT : Fld :=
  ⟨0x020038, 8, 8, .ro, 0, 0, 255⟩

/-- TIM_PPS_STAT.GLITCH [7:0], RO: edges ignored as glitches; stops at 255. -/
def TIM_PPS_STAT_GLITCH : Fld :=
  ⟨0x020038, 0, 8, .ro, 0, 0, 255⟩

/-- TIM_PPS_ERR.NS [63:0], RO: captured time minus TIM_PPS_NEXT at the last edge, two's complement. -/
def TIM_PPS_ERR_NS : Fld :=
  ⟨0x020040, 0, 64, .ro, 0, 0, 18446744073709551615⟩

/-- TIM_ALARM.NS [63:0], RW: alarm time (R470); 0 disables. -/
def TIM_ALARM_NS : Fld :=
  ⟨0x020048, 0, 64, .rw, 0, 0, 18446744073709551615⟩

/-- TIM_GCOUNT.COUNT [63:0], RO: newest global count held (R472). -/
def TIM_GCOUNT_COUNT : Fld :=
  ⟨0x020050, 0, 64, .ro, 0, 0, 18446744073709551615⟩

/-- TIM_GCNT_CTL.LOST [31:31], RO: no count for 10 µs. -/
def TIM_GCNT_CTL_LOST : Fld :=
  ⟨0x020058, 31, 1, .ro, 0, 0, 1⟩

/-- TIM_GCNT_CTL.BACK [23:16], RO: values ignored as lower; stops at 255. -/
def TIM_GCNT_CTL_BACK : Fld :=
  ⟨0x020058, 16, 8, .ro, 0, 0, 255⟩

/-- TIM_GCNT_CTL.PERIOD [15:0], RWL: ps per increment; a write of 0 stores 1. -/
def TIM_GCNT_CTL_PERIOD : Fld :=
  ⟨0x020058, 0, 16, .rwl, 1000, 1, 65535⟩

/-- SYN_MEM.EN [63:63], RW: mirror writes on (R476). -/
def SYN_MEM_EN : Fld :=
  ⟨0x020100, 63, 1, .rw, 0, 0, 1⟩

/-- SYN_MEM.BAD [62:62], W1C: a mirror write was skipped. -/
def SYN_MEM_BAD : Fld :=
  ⟨0x020100, 62, 1, .w1c, 0, 0, 1⟩

/-- SYN_MEM.BASE [39:6], RW: mirror base, in units of 64 B. -/
def SYN_MEM_BASE : Fld :=
  ⟨0x020100, 6, 34, .rw, 0, 0, 17179869183⟩

/-- SYN_SEL.OBJ [14:0], RW: object shown in SYN_VAL. -/
def SYN_SEL_OBJ : Fld :=
  ⟨0x020108, 0, 15, .rw, 0, 0, 32767⟩

/-- SYN_VAL.VALUE [63:0], RW: value of the selected object; a write sets it (R475); kept through a coding-core reset. -/
def SYN_VAL_VALUE : Fld :=
  ⟨0x020110, 0, 64, .rw, 0, 0, 18446744073709551615⟩

/-- SYN_SIGNAL.OBJ [14:0], WO: a write signals that object. -/
def SYN_SIGNAL_OBJ : Fld :=
  ⟨0x020118, 0, 15, .wo, 0, 0, 32767⟩

/-- SYN_WATCH_CTL.EN [31:31], RW: watch enabled; cleared at a hit (R477). -/
def SYN_WATCH_CTL_EN (n : Nat) : Fld :=
  ⟨0x020200 + 0x10 * n, 31, 1, .rw, 0, 0, 1⟩

/-- SYN_WATCH_CTL.OBJ [14:0], RW: object watched. -/
def SYN_WATCH_CTL_OBJ (n : Nat) : Fld :=
  ⟨0x020200 + 0x10 * n, 0, 15, .rw, 0, 0, 32767⟩

/-- SYN_WATCH_THR.THRESH [63:0], RW: threshold value. -/
def SYN_WATCH_THR_THRESH (n : Nat) : Fld :=
  ⟨0x020208 + 0x10 * n, 0, 64, .rw, 0, 0, 18446744073709551615⟩

/-- SYN_HIT.HIT [63:0], W1C: bit n is set when watch n hit. -/
def SYN_HIT_HIT : Fld :=
  ⟨0x020600, 0, 64, .w1c, 0, 0, 18446744073709551615⟩

/-- INT_SRC_CFG.PENDING [31:31], RO: the source is pending. -/
def INT_SRC_CFG_PENDING (n : Nat) : Fld :=
  ⟨0x010000 + 0x4 * n, 31, 1, .ro, 0, 0, 1⟩

/-- INT_SRC_CFG.IN_SERVICE [30:30], RO: claimed and not completed. -/
def INT_SRC_CFG_IN_SERVICE (n : Nat) : Fld :=
  ⟨0x010000 + 0x4 * n, 30, 1, .ro, 0, 0, 1⟩

/-- INT_SRC_CFG.RAW [29:29], RO: current request level. -/
def INT_SRC_CFG_RAW (n : Nat) : Fld :=
  ⟨0x010000 + 0x4 * n, 29, 1, .ro, 0, 0, 1⟩

/-- INT_SRC_CFG.GROUP [23:18], RW: group (R480). -/
def INT_SRC_CFG_GROUP (n : Nat) : Fld :=
  ⟨0x010000 + 0x4 * n, 18, 6, .rw, (n / 8), 0, 63⟩

/-- INT_SRC_CFG.TARGET [17:16], RW: bit 0 host, bit 1 management controller; fixed for sources 4 and 193 (R483). -/
def INT_SRC_CFG_TARGET (n : Nat) : Fld :=
  ⟨0x010000 + 0x4 * n, 16, 2, .rw, 1, 0, 3⟩

/-- INT_SRC_CFG.SENSE [10:8], RW: sense code of R479. -/
def INT_SRC_CFG_SENSE (n : Nat) : Fld :=
  ⟨0x010000 + 0x4 * n, 8, 3, .rw, (if isLevelSource n then 0 else 2), 0, 7⟩

/-- INT_SRC_CFG.EN [0:0], RW: source enabled. -/
def INT_SRC_CFG_EN (n : Nat) : Fld :=
  ⟨0x010000 + 0x4 * n, 0, 1, .rw, 0, 0, 1⟩

/-- INT_GRP_CFG.MASK [31:31], RW: firings recorded, not delivered (R481). -/
def INT_GRP_CFG_MASK (g : Nat) : Fld :=
  ⟨0x010800 + 0x10 * g, 31, 1, .rw, 1, 0, 1⟩

/-- INT_GRP_CFG.FIRED_PEND [30:30], RO: a firing is recorded. -/
def INT_GRP_CFG_FIRED_PEND (g : Nat) : Fld :=
  ⟨0x010800 + 0x10 * g, 30, 1, .ro, 0, 0, 1⟩

/-- INT_GRP_CFG.COUNT [23:16], RW: events that fire a coalescing group; ignored in groups 0 to 7. -/
def INT_GRP_CFG_COUNT (g : Nat) : Fld :=
  ⟨0x010800 + 0x10 * g, 16, 8, .rw, 1, 1, 255⟩

/-- INT_GRP_CFG.TIME [13:0], RW: coalescing time or hold-off in µs, 1 to 16,000 inclusive. -/
def INT_GRP_CFG_TIME (g : Nat) : Fld :=
  ⟨0x010800 + 0x10 * g, 0, 14, .rw, 100, 1, 16000⟩

/-- INT_GRP_DATA.DATA [31:0], RW: message data. -/
def INT_GRP_DATA_DATA (g : Nat) : Fld :=
  ⟨0x010804 + 0x10 * g, 0, 32, .rw, 0, 0, 4294967295⟩

/-- INT_GRP_ADDR.ADDR [63:2], RW: message address in units of 4 B; 0 sends nothing. -/
def INT_GRP_ADDR_ADDR (g : Nat) : Fld :=
  ⟨0x010808 + 0x10 * g, 2, 62, .rw, 0, 0, 4611686018427387903⟩

/-- INT_CLAIM.SOURCE [9:0], RO: a read claims under R484. -/
def INT_CLAIM_SOURCE (t : Nat) : Fld :=
  ⟨0x010C00 + 0x8 * t, 0, 10, .ro, 1023, 0, 1023⟩

/-- INT_COMPLETE.SOURCE [8:0], WO: ends service of that source. -/
def INT_COMPLETE_SOURCE (t : Nat) : Fld :=
  ⟨0x010C04 + 0x8 * t, 0, 9, .wo, 0, 0, 511⟩

/-- INT_WATCH.EN [31:31], RW: events of SOURCE start the fast clocks (R485). -/
def INT_WATCH_EN (n : Nat) : Fld :=
  ⟨0x010D00 + 0x4 * n, 31, 1, .rw, 0, 0, 1⟩

/-- INT_WATCH.SOURCE [8:0], RW: source watched. -/
def INT_WATCH_SOURCE (n : Nat) : Fld :=
  ⟨0x010D00 + 0x4 * n, 0, 9, .rw, 0, 0, 511⟩

/-- INT_STAT.MSGS [63:32], RO: messages written; stops at 0xFFFF_FFFF. -/
def INT_STAT_MSGS : Fld :=
  ⟨0x010E00, 32, 32, .ro, 0, 0, 4294967295⟩

/-- INT_STAT.SPURIOUS [31:16], RO: claims of withdrawn sources; stops at 65,535. -/
def INT_STAT_SPURIOUS : Fld :=
  ⟨0x010E00, 16, 16, .ro, 0, 0, 65535⟩

/-- INT_STAT.NOADDR [15:1], RO: firings with ADDR 0; stops at 32,767. -/
def INT_STAT_NOADDR : Fld :=
  ⟨0x010E00, 1, 15, .ro, 0, 0, 32767⟩

/-- INT_STAT.WIRE [0:0], RO: 1 while mc_irq_l is low. -/
def INT_STAT_WIRE : Fld :=
  ⟨0x010E00, 0, 1, .ro, 0, 0, 1⟩

/-! ### Registers of 17_software_interface.md -/

/-- GEN_ID.PART [63:48], RO: part code of the SCE-8. -/
def GEN_ID_PART : Fld :=
  ⟨0x000000, 48, 16, .ro, 23784, 0, 65535⟩

/-- GEN_ID.SILICON [47:32], RO: silicon step. -/
def GEN_ID_SILICON : Fld :=
  ⟨0x000000, 32, 16, .ro, (Config.siliconStep 0).toNat, 0, 65535⟩

/-- GEN_ID.FW_VERSION [31:0], RO: firmware version: [31:24] major, [23:16] minor, [15:0] build. -/
def GEN_ID_FW_VERSION : Fld :=
  ⟨0x000000, 0, 32, .ro, 0, 0, 4294967295⟩

/-- GEN_ERR.BAD_ACC [31:16], RO: accesses refused under R10 and R487; stops at 65,535. -/
def GEN_ERR_BAD_ACC : Fld :=
  ⟨0x000020, 16, 16, .ro, 0, 0, 65535⟩

/-- GEN_ERR.EXPERT_WR [2:2], W1C: an access was refused for a clear expert bit. -/
def GEN_ERR_EXPERT_WR : Fld :=
  ⟨0x000020, 2, 1, .w1c, 0, 0, 1⟩

/-- GEN_ERR.RSVD_WR [1:1], W1C: non-zero written to a reserved field (R13). -/
def GEN_ERR_RSVD_WR : Fld :=
  ⟨0x000020, 1, 1, .w1c, 0, 0, 1⟩

/-- GEN_ERR.LOCKED_WR [0:0], W1C: a write to a locked field or area was ignored (R12). -/
def GEN_ERR_LOCKED_WR : Fld :=
  ⟨0x000020, 0, 1, .w1c, 0, 0, 1⟩

/-- GEN_CAP_PTR.FIRST [24:0], RO: offset of the first capability header. -/
def GEN_CAP_PTR_FIRST : Fld :=
  ⟨0x000008, 0, 25, .ro, 2048, 0, 33554431⟩

/-- GEN_START.LOCKED [31:31], RO: the start lock is set. -/
def GEN_START_LOCKED : Fld :=
  ⟨0x000030, 31, 1, .ro, 0, 0, 1⟩

/-- GEN_START.BUSY [30:30], RO: a start-lock write is being processed. -/
def GEN_START_BUSY : Fld :=
  ⟨0x000030, 30, 1, .ro, 0, 0, 1⟩

/-- GEN_START.STATUS [23:8], RO: status code of the last attempt; NOT_READY while BUSY or before any attempt. -/
def GEN_START_STATUS : Fld :=
  ⟨0x000030, 8, 16, .ro, 1, 0, 65535⟩

/-- GEN_START.LOCK [0:0], WO: a write of 1 starts R448. -/
def GEN_START_LOCK : Fld :=
  ⟨0x000030, 0, 1, .wo, 0, 0, 1⟩

/-- GEN_EXPERT.CONTEXT [2:2], RW: context-table aperture readable. -/
def GEN_EXPERT_CONTEXT : Fld :=
  ⟨0x000038, 2, 1, .rw, 0, 0, 1⟩

/-- GEN_EXPERT.SPILL [1:1], RW: as GRV_SPILL_CTL.EXPERT. -/
def GEN_EXPERT_SPILL : Fld :=
  ⟨0x000038, 1, 1, .rw, 0, 0, 1⟩

/-- GEN_EXPERT.ADVISOR [0:0], RW: as GRV_ADV_CTL.EXPERT. -/
def GEN_EXPERT_ADVISOR : Fld :=
  ⟨0x000038, 0, 1, .rw, 0, 0, 1⟩

/-- CQ_BASE.BASE [63:6], RW: host address of the queue in units of 64 B; writable only while EN is 0. -/
def CQ_BASE_BASE (q : Nat) : Fld :=
  ⟨0x0C0000 + 0x40 * q, 6, 58, .rw, 0, 0, 288230376151711743⟩

/-- CQ_CTL.EN [31:31], RW: fetching enabled; a write of 1 clears a halt. -/
def CQ_CTL_EN (q : Nat) : Fld :=
  ⟨0x0C0008 + 0x40 * q, 31, 1, .rw, 0, 0, 1⟩

/-- CQ_CTL.HALTED [30:30], RO: the queue is halted (R497). -/
def CQ_CTL_HALTED (q : Nat) : Fld :=
  ⟨0x0C0008 + 0x40 * q, 30, 1, .ro, 0, 0, 1⟩

/-- CQ_CTL.HALT_WHY [27:24], RO: 0 none; 1 fetch error; 2 mailbox out of range. -/
def CQ_CTL_HALT_WHY (q : Nat) : Fld :=
  ⟨0x0C0008 + 0x40 * q, 24, 4, .ro, 0, 0, 15⟩

/-- CQ_CTL.LOG2SIZE [4:0], RW: log2 of queue entries, 6 to 16 inclusive; values outside the range are stored clamped; writable only while EN is 0. -/
def CQ_CTL_LOG2SIZE (q : Nat) : Fld :=
  ⟨0x0C0008 + 0x40 * q, 0, 5, .rw, 6, 6, 16⟩

/-- CQ_TAIL.TAIL [15:0], RW: doorbell: index after the last valid descriptor (R495). -/
def CQ_TAIL_TAIL (q : Nat) : Fld :=
  ⟨0x0C000C + 0x40 * q, 0, 16, .rw, 0, 0, 65535⟩

/-- CQ_HEAD.HEAD [15:0], RW: index of the next descriptor to accept; writable only while EN is 0. -/
def CQ_HEAD_HEAD (q : Nat) : Fld :=
  ⟨0x0C0010 + 0x40 * q, 0, 16, .rw, 0, 0, 65535⟩

/-- CQ_STAT.DONE [63:32], RO: commands completed; stops at 0xFFFF_FFFF. -/
def CQ_STAT_DONE (q : Nat) : Fld :=
  ⟨0x0C0018 + 0x40 * q, 32, 32, .ro, 0, 0, 4294967295⟩

/-- CQ_STAT.BAD_DB [31:24], RO: tail writes ignored; stops at 255. -/
def CQ_STAT_BAD_DB (q : Nat) : Fld :=
  ⟨0x0C0018 + 0x40 * q, 24, 8, .ro, 0, 0, 255⟩

/-- CQ_STAT.MBOX_WAIT [23:16], RO: waits for a mailbox (R507); stops at 255. -/
def CQ_STAT_MBOX_WAIT (q : Nat) : Fld :=
  ⟨0x0C0018 + 0x40 * q, 16, 8, .ro, 0, 0, 255⟩

/-- CQ_STAT.OPEN [8:0], RO: commands accepted and not completed, 0 to 256 inclusive. -/
def CQ_STAT_OPEN (q : Nat) : Fld :=
  ⟨0x0C0018 + 0x40 * q, 0, 9, .ro, 0, 0, 511⟩

/-- MBX_ACK.SEQ [63:32], WO: SEQ of the result acknowledged. -/
def MBX_ACK_SEQ : Fld :=
  ⟨0x0C0800, 32, 32, .wo, 0, 0, 4294967295⟩

/-- MBX_ACK.MAILBOX [7:0], WO: mailbox acknowledged (R506). -/
def MBX_ACK_MAILBOX : Fld :=
  ⟨0x0C0800, 0, 8, .wo, 0, 0, 255⟩

/-- MBX_STAT.ACKED [63:32], RO: results consumed; stops at 0xFFFF_FFFF. -/
def MBX_STAT_ACKED : Fld :=
  ⟨0x0C0808, 32, 32, .ro, 0, 0, 4294967295⟩

/-- MBX_STAT.BAD_ACK [31:16], RO: acknowledgements ignored; stops at 65,535. -/
def MBX_STAT_BAD_ACK : Fld :=
  ⟨0x0C0808, 16, 16, .ro, 0, 0, 65535⟩

/-- MBX_STAT.FREE [8:0], RO: empty mailboxes, 0 to 256 inclusive. -/
def MBX_STAT_FREE : Fld :=
  ⟨0x0C0808, 0, 9, .ro, 256, 0, 511⟩

/-- MBX_HDR.STATUS [63:48], RO: status code of R503. -/
def MBX_HDR_STATUS (b : Nat) : Fld :=
  ⟨0x0C1000 + 0x80 * b, 48, 16, .ro, 1, 0, 65535⟩

/-- MBX_HDR.READS [47:40], RO: reads while ready (R505). -/
def MBX_HDR_READS (b : Nat) : Fld :=
  ⟨0x0C1000 + 0x80 * b, 40, 8, .ro, 0, 0, 255⟩

/-- MBX_HDR.OPCODE [39:32], RO: opcode of the command. -/
def MBX_HDR_OPCODE (b : Nat) : Fld :=
  ⟨0x0C1000 + 0x80 * b, 32, 8, .ro, 0, 0, 255⟩

/-- MBX_HDR.SEQ [31:0], RO: SEQ of the command. -/
def MBX_HDR_SEQ (b : Nat) : Fld :=
  ⟨0x0C1000 + 0x80 * b, 0, 32, .ro, 0, 0, 4294967295⟩

/-- MBX_AUX.REASON [63:56], RO: BAD_USE reason of R500; 0 otherwise. -/
def MBX_AUX_REASON (b : Nat) : Fld :=
  ⟨0x0C1008 + 0x80 * b, 56, 8, .ro, 0, 0, 255⟩

/-- MBX_AUX.ADDR [39:0], RO: line address for MEM_ERROR; 0 otherwise. -/
def MBX_AUX_ADDR (b : Nat) : Fld :=
  ⟨0x0C1008 + 0x80 * b, 0, 40, .ro, 0, 0, 1099511627775⟩

/-- MBX_DATA.WORD [31:0], RO: result bytes 4n to 4n + 3. -/
def MBX_DATA_WORD (b : Nat) (n : Nat) : Fld :=
  ⟨0x0C1010 + 0x80 * b + 0x4 * n, 0, 32, .ro, 0, 0, 4294967295⟩

/-- MGT_VIEW_SEL.ENTRY [5:0], RW: view entry shown in MGT_VIEW. -/
def MGT_VIEW_SEL_ENTRY : Fld :=
  ⟨0x0C0900, 0, 6, .rw, 0, 0, 63⟩

/-- MGT_VIEW.VALID [63:63], RO: the entry holds a place. -/
def MGT_VIEW_VALID : Fld :=
  ⟨0x0C0908, 63, 1, .ro, 0, 0, 1⟩

/-- MGT_VIEW.DATA [62:60], RO: 0 none; 1 ALIVE; 2 SILENT; 3 LOST_HEARD; 4 LOST. -/
def MGT_VIEW_DATA : Fld :=
  ⟨0x0C0908, 60, 3, .ro, 0, 0, 7⟩

/-- MGT_VIEW.MGT [59:58], RO: 0 UNKNOWN; 1 ALIVE; 2 LOST. -/
def MGT_VIEW_MGT : Fld :=
  ⟨0x0C0908, 58, 2, .ro, 0, 0, 3⟩

/-- MGT_VIEW.PLACE [51:32], RO: place address. -/
def MGT_VIEW_PLACE : Fld :=
  ⟨0x0C0908, 32, 20, .ro, 0, 0, 1048575⟩

/-- MGT_VIEW.AGE [31:0], RO: ms since either view last changed; stops at 0xFFFF_FFFF. -/
def MGT_VIEW_AGE : Fld :=
  ⟨0x0C0908, 0, 32, .ro, 0, 0, 4294967295⟩

/-- MGT_DISAGREE.VALID [63:63], W1C: a disagreement has been recorded (R515). -/
def MGT_DISAGREE_VALID : Fld :=
  ⟨0x0C0910, 63, 1, .w1c, 0, 0, 1⟩

/-- MGT_DISAGREE.PLACE [62:43], RO: place of the latest disagreement. -/
def MGT_DISAGREE_PLACE : Fld :=
  ⟨0x0C0910, 43, 20, .ro, 0, 0, 1048575⟩

/-- MGT_DISAGREE.DATA [42:40], RO: data view, coded as in MGT_VIEW. -/
def MGT_DISAGREE_DATA : Fld :=
  ⟨0x0C0910, 40, 3, .ro, 0, 0, 7⟩

/-- MGT_DISAGREE.MGT [39:38], RO: management view, coded as in MGT_VIEW. -/
def MGT_DISAGREE_MGT : Fld :=
  ⟨0x0C0910, 38, 2, .ro, 0, 0, 3⟩

/-- MGT_DISAGREE.TIME [37:0], RO: engine time in ms when it was recorded. -/
def MGT_DISAGREE_TIME : Fld :=
  ⟨0x0C0910, 0, 38, .ro, 0, 0, 274877906943⟩

end Reg

open Reg in
/-- Registers of 01_engine_in_accelerator.md, in the order of the spec. -/
def regTable01 : List RegRow := [
  ⟨"GEN_FLOOR_CLU", 0x000100, 0, 1, 0, 1, 64, .alwaysOn,
    fun _ _ => [GEN_FLOOR_CLU_PRESENT]⟩,
  ⟨"GEN_FLOOR_LANE", 0x000108, 0, 1, 0, 1, 64, .alwaysOn,
    fun _ _ => [GEN_FLOOR_LANE_PRESENT]⟩,
  ⟨"GEN_FLOOR_SUM", 0x000110, 0, 1, 0, 1, 32, .alwaysOn,
    fun _ _ => [GEN_FLOOR_SUM_STACK_GIB, GEN_FLOOR_SUM_LANES, GEN_FLOOR_SUM_CLUSTERS, GEN_FLOOR_SUM_MEM_GEOM_BAD, GEN_FLOOR_SUM_FUSE_BAD]⟩,
  ⟨"GEN_PLACE", 0x000118, 0, 1, 0, 1, 32, .coding,
    fun _ _ => [GEN_PLACE_VALID, GEN_PLACE_BLOCK, GEN_PLACE_CUBE, GEN_PLACE_CHIP]⟩]

open Reg in
/-- Registers of 02_code_and_groves.md, in the order of the spec. -/
def regTable02 : List RegRow := [
  ⟨"GRV_CFG", 0x060000, 0, 1, 0, 1, 32, .coding,
    fun _ _ => [GRV_CFG_VALID, GRV_CFG_W, GRV_CFG_K, GRV_CFG_M, GRV_CFG_POS]⟩,
  ⟨"GRV_WIRING", 0x060004, 0, 1, 0, 1, 32, .coding,
    fun _ _ => [GRV_WIRING_P3_ROLE, GRV_WIRING_P2_VALID, GRV_WIRING_P2_NBR, GRV_WIRING_P1_NBR, GRV_WIRING_P0_NBR]⟩,
  ⟨"GRV_GF_TEST", 0x060010, 0, 1, 0, 1, 32, .coding,
    fun _ _ => [GRV_GF_TEST_INV_A, GRV_GF_TEST_PROD, GRV_GF_TEST_B, GRV_GF_TEST_A]⟩,
  ⟨"GRV_STRAY_CNT", 0x060018, 0, 1, 0, 1, 32, .coding,
    fun _ _ => [GRV_STRAY_CNT_COUNT]⟩,
  ⟨"GRV_STRAY_ADDR", 0x060020, 0, 1, 0, 1, 64, .coding,
    fun _ _ => [GRV_STRAY_ADDR_LINE]⟩,
  ⟨"GRV_MEMBER", 0x060040, 4, 16, 0, 1, 32, .coding,
    fun n _ => [GRV_MEMBER_PRESENT n, GRV_MEMBER_LOST n, GRV_MEMBER_PLACE n]⟩]

open Reg in
/-- Registers of 03_regions_and_classes.md, in the order of the spec. -/
def regTable03 : List RegRow := [
  ⟨"GRV_RGN_CHECK", 0x060100, 0, 1, 0, 1, 32, .coding,
    fun _ _ => [GRV_RGN_CHECK_FAIL, GRV_RGN_CHECK_REASON, GRV_RGN_CHECK_REGION]⟩,
  ⟨"GRV_RGN_DIGEST", 0x060108, 0, 1, 0, 1, 64, .coding,
    fun _ _ => [GRV_RGN_DIGEST_DIGEST]⟩,
  ⟨"GRV_KEY_MISS_CNT", 0x060110, 0, 1, 0, 1, 32, .coding,
    fun _ _ => [GRV_KEY_MISS_CNT_COUNT]⟩,
  ⟨"GRV_KEY_MISS_LAST", 0x060118, 0, 1, 0, 1, 64, .coding,
    fun _ _ => [GRV_KEY_MISS_LAST_NO_REGION, GRV_KEY_MISS_LAST_REGION, GRV_KEY_MISS_LAST_PLACE]⟩,
  ⟨"GRV_WRITER_CNT", 0x060120, 0, 1, 0, 1, 32, .coding,
    fun _ _ => [GRV_WRITER_CNT_COUNT]⟩,
  ⟨"GRV_WRITER_ADDR", 0x060128, 0, 1, 0, 1, 64, .coding,
    fun _ _ => [GRV_WRITER_ADDR_SOURCE, GRV_WRITER_ADDR_LINE]⟩,
  ⟨"GRV_MIRROR_TORN", 0x060130, 0, 1, 0, 1, 32, .coding,
    fun _ _ => [GRV_MIRROR_TORN_COUNT]⟩,
  ⟨"GRV_ADV_CTL", 0x060140, 0, 1, 0, 1, 32, .coding,
    fun _ _ => [GRV_ADV_CTL_EXPERT]⟩,
  ⟨"GRV_ADV_SEL", 0x060144, 0, 1, 0, 1, 32, .coding,
    fun _ _ => [GRV_ADV_SEL_REGION]⟩,
  ⟨"GRV_ADV_STAT", 0x060148, 0, 1, 0, 1, 32, .coding,
    fun _ _ => [GRV_ADV_STAT_MEAN, GRV_ADV_STAT_STREAK, GRV_ADV_STAT_PROPOSE]⟩]

open Reg in
/-- Registers of 04_delta_capture_and_transport.md, in the order of the spec. -/
def regTable04 : List RegRow := [
  ⟨"GRV_TAP_CTL", 0x060200, 0, 1, 0, 1, 32, .coding,
    fun _ _ => [GRV_TAP_CTL_IDLE]⟩,
  ⟨"GRV_WIN_CTL", 0x060204, 0, 1, 0, 1, 32, .coding,
    fun _ _ => [GRV_WIN_CTL_FIT, GRV_WIN_CTL_OPEN, GRV_WIN_CTL_DEPTH]⟩,
  ⟨"GRV_ACK_CTL", 0x060208, 0, 1, 0, 1, 32, .coding,
    fun _ _ => [GRV_ACK_CTL_CREDIT, GRV_ACK_CTL_DEADLINE]⟩,
  ⟨"GRV_SPILL_CTL", 0x06020C, 0, 1, 0, 1, 32, .coding,
    fun _ _ => [GRV_SPILL_CTL_EXPERT, GRV_SPILL_CTL_SHARE]⟩,
  ⟨"GRV_LAG_NOW", 0x060210, 0, 1, 0, 1, 32, .coding,
    fun _ _ => [GRV_LAG_NOW_LEAVES]⟩,
  ⟨"GRV_LAG_CNT", 0x060218, 0, 1, 0, 1, 64, .coding,
    fun _ _ => [GRV_LAG_CNT_COUNT]⟩,
  ⟨"GRV_SAP_TX", 0x060220, 0, 1, 0, 1, 64, .coding,
    fun _ _ => [GRV_SAP_TX_COUNT]⟩,
  ⟨"GRV_SAP_RAW", 0x060228, 0, 1, 0, 1, 64, .coding,
    fun _ _ => [GRV_SAP_RAW_BYTES]⟩,
  ⟨"GRV_SAP_THIN", 0x060230, 0, 1, 0, 1, 64, .coding,
    fun _ _ => [GRV_SAP_THIN_BYTES]⟩,
  ⟨"GRV_SAP_DROP", 0x060238, 0, 1, 0, 1, 32, .coding,
    fun _ _ => [GRV_SAP_DROP_GEN, GRV_SAP_DROP_MALFORMED, GRV_SAP_DROP_REORDER, GRV_SAP_DROP_DUP]⟩,
  ⟨"GRV_SPILL_BYTES", 0x060240, 0, 1, 0, 1, 64, .coding,
    fun _ _ => [GRV_SPILL_BYTES_BYTES]⟩]

open Reg in
/-- Registers of 05_streamed_consistency.md, in the order of the spec. -/
def regTable05 : List RegRow := [
  ⟨"GRV_LOG_CTL", 0x060300, 0, 1, 0, 1, 32, .coding,
    fun _ _ => [GRV_LOG_CTL_FIT, GRV_LOG_CTL_SRC, GRV_LOG_CTL_COPIES, GRV_LOG_CTL_STEP_SIZE]⟩,
  ⟨"GRV_LOG_STAT", 0x060308, 0, 1, 0, 1, 64, .coding,
    fun _ _ => [GRV_LOG_STAT_RETIRED, GRV_LOG_STAT_EXPOSED, GRV_LOG_STAT_OVER, GRV_LOG_STAT_LOGGED]⟩,
  ⟨"GRV_LOG_WAIT", 0x060310, 0, 1, 0, 1, 64, .coding,
    fun _ _ => [GRV_LOG_WAIT_CYCLES]⟩,
  ⟨"GRV_PT_CTL", 0x060318, 0, 1, 0, 1, 32, .coding,
    fun _ _ => [GRV_PT_CTL_TIMEOUT]⟩,
  ⟨"GRV_PT_STAT", 0x060320, 0, 1, 0, 1, 64, .coding,
    fun _ _ => [GRV_PT_STAT_LOSSES, GRV_PT_STAT_RESTARTS, GRV_PT_STAT_STUCK]⟩,
  ⟨"GRV_PT_STRIP", 0x060330, 0, 1, 0, 1, 64, .coding,
    fun _ _ => [GRV_PT_STRIP_PACKETS]⟩,
  ⟨"GRV_REPLAY_STAT", 0x060328, 0, 1, 0, 1, 64, .coding,
    fun _ _ => [GRV_REPLAY_STAT_TARGET, GRV_REPLAY_STAT_GAP, GRV_REPLAY_STAT_INCOMPLETE, GRV_REPLAY_STAT_LEAVES]⟩]

open Reg in
/-- Registers of 06_rings_seal_commit.md, in the order of the spec. -/
def regTable06 : List RegRow := [
  ⟨"GRV_SEAL_CTL", 0x060400, 0, 1, 0, 1, 32, .coding,
    fun _ _ => [GRV_SEAL_CTL_STALL_WARN, GRV_SEAL_CTL_TIMEOUT, GRV_SEAL_CTL_FLUSH_WARN, GRV_SEAL_CTL_PEND, GRV_SEAL_CTL_SCHED_ARM, GRV_SEAL_CTL_KIND_TSTEP, GRV_SEAL_CTL_KIND_STEP, GRV_SEAL_CTL_EN]⟩,
  ⟨"GRV_RING_CTL", 0x060404, 0, 1, 0, 1, 32, .coding,
    fun _ _ => [GRV_RING_CTL_FIT, GRV_RING_CTL_ROLL_PAR, GRV_RING_CTL_COMMIT_MAX]⟩,
  ⟨"GRV_RING_SYNC", 0x060408, 0, 1, 0, 1, 32, .coding,
    fun _ _ => [GRV_RING_SYNC_SEALED_OBJ, GRV_RING_SYNC_OPEN_OBJ]⟩,
  ⟨"GRV_BND_COUNT", 0x060410, 0, 1, 0, 1, 64, .coding,
    fun _ _ => [GRV_BND_COUNT_COUNT]⟩,
  ⟨"GRV_BND_DECL", 0x060418, 0, 1, 0, 1, 64, .coding,
    fun _ _ => [GRV_BND_DECL_KIND, GRV_BND_DECL_STEP]⟩,
  ⟨"GRV_SEAL_AT", 0x060420, 0, 1, 0, 1, 64, .coding,
    fun _ _ => [GRV_SEAL_AT_COUNT]⟩,
  ⟨"GRV_RING_STAT", 0x060428, 0, 1, 0, 1, 64, .coding,
    fun _ _ => [GRV_RING_STAT_COMMITTED, GRV_RING_STAT_BASE]⟩,
  ⟨"GRV_RING_STATE", 0x060430, 0, 1, 0, 1, 32, .coding,
    fun _ _ => [GRV_RING_STATE_CLOSED, GRV_RING_STATE_ROLLING, GRV_RING_STATE_NEXT_ST, GRV_RING_STATE_BASE_ST, GRV_RING_STATE_VOTES]⟩,
  ⟨"GRV_RING_STEP", 0x060438, 0, 1, 0, 1, 64, .coding,
    fun _ _ => [GRV_RING_STEP_SEALED_STEP, GRV_RING_STEP_LAST_STEP]⟩,
  ⟨"GRV_STAGE_SIZE", 0x060440, 0, 1, 0, 1, 64, .coding,
    fun _ _ => [GRV_STAGE_SIZE_BYTES]⟩,
  ⟨"GRV_APPLY_STAT", 0x060448, 0, 1, 0, 1, 64, .coding,
    fun _ _ => [GRV_APPLY_STAT_RING, GRV_APPLY_STAT_ACTIVE, GRV_APPLY_STAT_LEAVES]⟩,
  ⟨"GRV_ROLL_STAT", 0x060450, 0, 1, 0, 1, 64, .coding,
    fun _ _ => [GRV_ROLL_STAT_TARGET, GRV_ROLL_STAT_LEAVES, GRV_ROLL_STAT_GAP]⟩]

open Reg in
/-- Registers of 06_rings_seal_commit.md, in the order of the spec. -/
def regTable06b : List RegRow := [
  ⟨"GRV_RING_DROP", 0x060458, 0, 1, 0, 1, 32, .coding,
    fun _ _ => [GRV_RING_DROP_COUNT]⟩,
  ⟨"GRV_RING_CLOSED_WR", 0x06045C, 0, 1, 0, 1, 32, .coding,
    fun _ _ => [GRV_RING_CLOSED_WR_COUNT]⟩,
  ⟨"GRV_RING_STALL", 0x060460, 0, 1, 0, 1, 64, .coding,
    fun _ _ => [GRV_RING_STALL_MICROS]⟩,
  ⟨"GRV_BND_LAST", 0x060468, 0, 1, 0, 1, 64, .coding,
    fun _ _ => [GRV_BND_LAST_LAST_TSTEP, GRV_BND_LAST_LAST_STEP]⟩]

open Reg in
/-- Registers of 07_coded_update_unit.md, in the order of the spec. -/
def regTable07 : List RegRow := [
  ⟨"UPD_CTL", 0x070000, 0, 1, 0, 1, 32, .coding,
    fun _ _ => [UPD_CTL_TIER_WARN, UPD_CTL_TIER_OP, UPD_CTL_STRICT]⟩,
  ⟨"UPD_INTAKE_CTL", 0x070004, 0, 1, 0, 1, 32, .coding,
    fun _ _ => [UPD_INTAKE_CTL_FIT, UPD_INTAKE_CTL_GEN_NOW, UPD_INTAKE_CTL_B5, UPD_INTAKE_CTL_EN]⟩,
  ⟨"UPD_INTAKE_BASE", 0x070008, 0, 1, 0, 1, 64, .coding,
    fun _ _ => [UPD_INTAKE_BASE_BASE]⟩,
  ⟨"UPD_INTAKE_LEN", 0x070010, 0, 1, 0, 1, 64, .coding,
    fun _ _ => [UPD_INTAKE_LEN_LEN]⟩,
  ⟨"UPD_B5_TABLE", 0x070018, 0, 1, 0, 1, 64, .coding,
    fun _ _ => [UPD_B5_TABLE_BASE]⟩,
  ⟨"UPD_B5_COUNT", 0x070020, 0, 1, 0, 1, 32, .coding,
    fun _ _ => [UPD_B5_COUNT_ENTRIES]⟩,
  ⟨"UPD_PROG_CHECK", 0x070024, 0, 1, 0, 1, 32, .coding,
    fun _ _ => [UPD_PROG_CHECK_FAIL, UPD_PROG_CHECK_REASON, UPD_PROG_CHECK_SLOT, UPD_PROG_CHECK_INSTR]⟩,
  ⟨"UPD_UPROG_DIGEST", 0x070028, 0, 1, 0, 1, 64, .coding,
    fun _ _ => [UPD_UPROG_DIGEST_DIGEST]⟩,
  ⟨"UPD_INTAKE_STAT", 0x070030, 0, 1, 0, 1, 64, .coding,
    fun _ _ => [UPD_INTAKE_STAT_FROZEN, UPD_INTAKE_STAT_UNKNOWN, UPD_INTAKE_STAT_STALE, UPD_INTAKE_STAT_BAD]⟩,
  ⟨"UPD_INTAKE_WAIT", 0x070038, 0, 1, 0, 1, 64, .coding,
    fun _ _ => [UPD_INTAKE_WAIT_CYCLES]⟩,
  ⟨"UPD_RUN_STAT", 0x070040, 0, 1, 0, 1, 64, .coding,
    fun _ _ => [UPD_RUN_STAT_DONE, UPD_RUN_STAT_ACTIVE]⟩,
  ⟨"UPD_NUM_STAT", 0x070048, 0, 1, 0, 1, 64, .coding,
    fun _ _ => [UPD_NUM_STAT_NONFINITE, UPD_NUM_STAT_SATURATED]⟩]

open Reg in
/-- Registers of 07_coded_update_unit.md, in the order of the spec. -/
def regTable07b : List RegRow := [
  ⟨"UPD_TIER_LATE", 0x070050, 0, 1, 0, 1, 32, .coding,
    fun _ _ => [UPD_TIER_LATE_COUNT]⟩]

open Reg in
/-- Registers of 08_rebuild_and_graft.md, in the order of the spec. -/
def regTable08 : List RegRow := [
  ⟨"RBD_LOSS_CTL", 0x080000, 0, 1, 0, 1, 32, .coding,
    fun _ _ => [RBD_LOSS_CTL_HB_MISS, RBD_LOSS_CTL_HB_INT]⟩,
  ⟨"RBD_LOSS_STAT", 0x080008, 0, 1, 0, 1, 64, .coding,
    fun _ _ => [RBD_LOSS_STAT_LOST_MAP, RBD_LOSS_STAT_ISOLATED, RBD_LOSS_STAT_FENCED, RBD_LOSS_STAT_LAST_POS, RBD_LOSS_STAT_LAST_REASON, RBD_LOSS_STAT_DECLS]⟩,
  ⟨"RBD_DR_CTL", 0x080010, 0, 1, 0, 1, 32, .coding,
    fun _ _ => [RBD_DR_CTL_LIMIT]⟩,
  ⟨"RBD_DR_SERVED", 0x080018, 0, 1, 0, 1, 64, .coding,
    fun _ _ => [RBD_DR_SERVED_LOADS]⟩,
  ⟨"RBD_DR_FAIL", 0x080020, 0, 1, 0, 1, 32, .coding,
    fun _ _ => [RBD_DR_FAIL_TIMEOUT, RBD_DR_FAIL_REFUSED]⟩,
  ⟨"RBD_ACC_CTL", 0x080028, 0, 1, 0, 1, 32, .coding,
    fun _ _ => [RBD_ACC_CTL_MEM, RBD_ACC_CTL_FALLBACK]⟩,
  ⟨"RBD_ACC_STAT", 0x080030, 0, 1, 0, 1, 64, .coding,
    fun _ _ => [RBD_ACC_STAT_FALLBACKS, RBD_ACC_STAT_QUEUED, RBD_ACC_STAT_FREE]⟩,
  ⟨"RBD_GRAFT_CTL", 0x080038, 0, 1, 0, 1, 32, .coding,
    fun _ _ => [RBD_GRAFT_CTL_FG_RATE, RBD_GRAFT_CTL_BG_RATE, RBD_GRAFT_CTL_RESUME]⟩,
  ⟨"RBD_GRAFT_STAT", 0x080040, 0, 1, 0, 1, 64, .coding,
    fun _ _ => [RBD_GRAFT_STAT_PHASE, RBD_GRAFT_STAT_HOLD, RBD_GRAFT_STAT_POS, RBD_GRAFT_STAT_PLACE, RBD_GRAFT_STAT_LEAVES]⟩,
  ⟨"RBD_REPAIR_STAT", 0x080048, 0, 1, 0, 1, 64, .coding,
    fun _ _ => [RBD_REPAIR_STAT_REPAIRED, RBD_REPAIR_STAT_FAILED]⟩,
  ⟨"RBD_ROUTE_KEY", 0x080050, 0, 1, 0, 1, 32, .coding,
    fun _ _ => [RBD_ROUTE_KEY_KEY]⟩,
  ⟨"RBD_THICK_CTL", 0x080058, 0, 1, 0, 1, 32, .coding,
    fun _ _ => [RBD_THICK_CTL_MAX]⟩]

open Reg in
/-- Registers of 08_rebuild_and_graft.md, in the order of the spec. -/
def regTable08b : List RegRow := [
  ⟨"RBD_THICK_STAT", 0x080060, 0, 1, 0, 1, 64, .coding,
    fun _ _ => [RBD_THICK_STAT_BUILT, RBD_THICK_STAT_HOSTED]⟩,
  ⟨"RBD_EVAC_CTL", 0x080068, 0, 1, 0, 1, 32, .coding,
    fun _ _ => [RBD_EVAC_CTL_AUTO, RBD_EVAC_CTL_RATE]⟩,
  ⟨"RBD_EVAC_STAT", 0x080070, 0, 1, 0, 1, 64, .coding,
    fun _ _ => [RBD_EVAC_STAT_PHASE, RBD_EVAC_STAT_SPARE, RBD_EVAC_STAT_LEAVES]⟩,
  ⟨"RBD_BEYOND", 0x080078, 0, 1, 0, 1, 64, .coding,
    fun _ _ => [RBD_BEYOND_ROW, RBD_BEYOND_REGION, RBD_BEYOND_COUNT]⟩]

open Reg in
/-- Registers of 09_grove_ports.md, in the order of the spec. -/
def regTable09 : List RegRow := [
  ⟨"GP_CTL", 0x040000, 16384, 4, 0, 1, 32, .link,
    fun p _ => [GP_CTL_RETRAIN p, GP_CTL_HOLD p]⟩,
  ⟨"GP_STAT", 0x040008, 16384, 4, 0, 1, 64, .link,
    fun p _ => [GP_STAT_FAR_PLACE p, GP_STAT_FAR_POS p, GP_STAT_FAR_NONE p, GP_STAT_EXCL p, GP_STAT_ATTEMPTS p, GP_STAT_WIDTH p, GP_STAT_STATE p]⟩,
  ⟨"GP_LANES", 0x040010, 16384, 4, 0, 1, 64, .link,
    fun p _ => [GP_LANES_PRUNED p, GP_LANES_USED p, GP_LANES_TRAINED p]⟩,
  ⟨"GP_RETRY", 0x040018, 16384, 4, 0, 1, 64, .link,
    fun p _ => [GP_RETRY_FLITS p, GP_RETRY_REQS p, GP_RETRY_RESETS p]⟩,
  ⟨"GP_FLIT_ERR", 0x040020, 16384, 4, 0, 1, 64, .link,
    fun p _ => [GP_FLIT_ERR_CRC p, GP_FLIT_ERR_FEC_BAD p]⟩,
  ⟨"GP_PWR", 0x040028, 16384, 4, 0, 1, 32, .link,
    fun p _ => [GP_PWR_WAKE_LATE p, GP_PWR_IDLE p, GP_PWR_LOW_NOW p, GP_PWR_LOW_EN p]⟩,
  ⟨"GP_WAKES", 0x040030, 16384, 4, 0, 1, 32, .link,
    fun p _ => [GP_WAKES_COUNT p]⟩,
  ⟨"GP_TEST", 0x040038, 16384, 4, 0, 1, 32, .link,
    fun p _ => [GP_TEST_RUN p, GP_TEST_REFUSED p, GP_TEST_PATTERN p, GP_TEST_MODE p]⟩,
  ⟨"GP_PRBS_ERR", 0x040040, 16384, 4, 4, 16, 32, .link,
    fun p l => [GP_PRBS_ERR_COUNT p l]⟩,
  ⟨"GRV_PLANE_CTL", 0x060500, 0, 1, 0, 1, 32, .coding,
    fun _ _ => [GRV_PLANE_CTL_ALLOW, GRV_PLANE_CTL_FLOOR]⟩,
  ⟨"GRV_PLANE_STAT", 0x060504, 0, 1, 0, 1, 32, .coding,
    fun _ _ => [GRV_PLANE_STAT_UNDER, GRV_PLANE_STAT_GROVE_PCT, GRV_PLANE_STAT_OWN_PCT, GRV_PLANE_STAT_OWN_LANES]⟩,
  ⟨"GRV_SESS_SEL", 0x060508, 0, 1, 0, 1, 32, .coding,
    fun _ _ => [GRV_SESS_SEL_POS]⟩]

open Reg in
/-- Registers of 09_grove_ports.md, in the order of the spec. -/
def regTable09b : List RegRow := [
  ⟨"GRV_SESS_STAT", 0x060510, 0, 1, 0, 1, 64, .coding,
    fun _ _ => [GRV_SESS_STAT_GEN, GRV_SESS_STAT_STATE, GRV_SESS_STAT_TX_LOW]⟩,
  ⟨"GRV_RELAY_DROP", 0x060518, 0, 1, 0, 1, 32, .coding,
    fun _ _ => [GRV_RELAY_DROP_UNREACH, GRV_RELAY_DROP_HOPS, GRV_RELAY_DROP_ABORTED]⟩]

open Reg in
/-- Registers of 10_memory_tier_and_protection.md, in the order of the spec. -/
def regTable10 : List RegRow := [
  ⟨"MEM_LAYOUT_CTL", 0x050000, 0, 1, 0, 1, 32, .coding,
    fun _ _ => [MEM_LAYOUT_CTL_REFUSED, MEM_LAYOUT_CTL_JOURNAL_PCT]⟩,
  ⟨"MEM_USABLE_TOP", 0x050008, 0, 1, 0, 1, 64, .coding,
    fun _ _ => [MEM_USABLE_TOP_TOP]⟩,
  ⟨"MEM_JOURNAL_BASE", 0x050010, 0, 1, 0, 1, 64, .coding,
    fun _ _ => [MEM_JOURNAL_BASE_BASE]⟩,
  ⟨"MEM_BITMAP_BASE", 0x050018, 0, 1, 0, 1, 64, .coding,
    fun _ _ => [MEM_BITMAP_BASE_BASE]⟩,
  ⟨"MEM_HW_BASE", 0x050020, 0, 1, 0, 1, 64, .coding,
    fun _ _ => [MEM_HW_BASE_BASE]⟩,
  ⟨"MEM_SHARE", 0x050028, 0, 1, 0, 1, 32, .coding,
    fun _ _ => [MEM_SHARE_NOMINAL, MEM_SHARE_NOW]⟩,
  ⟨"MEM_SHARE_STAT", 0x050030, 0, 1, 0, 1, 64, .coding,
    fun _ _ => [MEM_SHARE_STAT_THROTTLED, MEM_SHARE_STAT_EXEMPT, MEM_SHARE_STAT_SLOW]⟩,
  ⟨"MEM_HEAT_CTL", 0x050038, 0, 1, 0, 1, 32, .coding,
    fun _ _ => [MEM_HEAT_CTL_INTERVAL, MEM_HEAT_CTL_HOT, MEM_HEAT_CTL_SHIFT, MEM_HEAT_CTL_SAMPLE]⟩,
  ⟨"MEM_CODE_STAT", 0x050040, 8, 8, 0, 1, 64, .coding,
    fun s _ => [MEM_CODE_STAT_BARK s, MEM_CODE_STAT_HEARTWOOD s]⟩,
  ⟨"MEM_UNREP", 0x050080, 0, 1, 0, 1, 32, .coding,
    fun _ _ => [MEM_UNREP_COUNT]⟩,
  ⟨"MEM_UNREP_FIRST", 0x050088, 0, 1, 0, 1, 64, .coding,
    fun _ _ => [MEM_UNREP_FIRST_VALID, MEM_UNREP_FIRST_LINE]⟩,
  ⟨"MEM_UNREP_LAST", 0x050090, 0, 1, 0, 1, 64, .coding,
    fun _ _ => [MEM_UNREP_LAST_LINE]⟩]

open Reg in
/-- Registers of 10_memory_tier_and_protection.md, in the order of the spec. -/
def regTable10b : List RegRow := [
  ⟨"MEM_ERR_EVT", 0x050098, 0, 1, 0, 1, 64, .coding,
    fun _ _ => [MEM_ERR_EVT_MISCORR, MEM_ERR_EVT_UNCONFIRMED, MEM_ERR_EVT_TAP_OLD_LOST, MEM_ERR_EVT_RSVD_WR]⟩,
  ⟨"MEM_FILL", 0x0500A0, 0, 1, 0, 1, 32, .alwaysOn,
    fun _ _ => [MEM_FILL_DONE, MEM_FILL_FAIL, MEM_FILL_STACKS]⟩,
  ⟨"MEM_SRAM_STAT", 0x0500A8, 0, 1, 0, 1, 64, .alwaysOn,
    fun _ _ => [MEM_SRAM_STAT_FAIL, MEM_SRAM_STAT_FAIL_BANK, MEM_SRAM_STAT_SOFT, MEM_SRAM_STAT_UE, MEM_SRAM_STAT_CE]⟩]

open Reg in
/-- Registers of 11_anchors_and_warm_start.md, in the order of the spec. -/
def regTable11 : List RegRow := [
  ⟨"ANC_CTL", 0x090000, 0, 1, 0, 1, 32, .coding,
    fun _ _ => [ANC_CTL_FIT, ANC_CTL_RATE, ANC_CTL_BUF]⟩,
  ⟨"ANC_AT", 0x090008, 0, 1, 0, 1, 64, .coding,
    fun _ _ => [ANC_AT_COUNT]⟩,
  ⟨"ANC_DUE_CTL", 0x090010, 0, 1, 0, 1, 64, .coding,
    fun _ _ => [ANC_DUE_CTL_RISK, ANC_DUE_CTL_MINUTES, ANC_DUE_CTL_STEPS]⟩,
  ⟨"ANC_DUE_STAT", 0x090018, 0, 1, 0, 1, 32, .coding,
    fun _ _ => [ANC_DUE_STAT_DUE, ANC_DUE_STAT_RISK, ANC_DUE_STAT_TIME, ANC_DUE_STAT_STEPS]⟩,
  ⟨"ANC_STAT", 0x090020, 0, 1, 0, 1, 64, .coding,
    fun _ _ => [ANC_STAT_PHASE, ANC_STAT_RETIRE_WAIT, ANC_STAT_LEAVES]⟩,
  ⟨"ANC_LAST", 0x090028, 0, 1, 0, 1, 64, .coding,
    fun _ _ => [ANC_LAST_STEP, ANC_LAST_ANCHOR]⟩,
  ⟨"ANC_HOLD", 0x090030, 0, 1, 0, 1, 64, .coding,
    fun _ _ => [ANC_HOLD_URGENT, ANC_HOLD_WAITS]⟩,
  ⟨"ANC_ERR", 0x090038, 0, 1, 0, 1, 32, .coding,
    fun _ _ => [ANC_ERR_RETRIES, ANC_ERR_ABORTS, ANC_ERR_RESTORE_FAIL, ANC_ERR_DIGEST]⟩,
  ⟨"ANC_RST_STAT", 0x090040, 0, 1, 0, 1, 64, .coding,
    fun _ _ => [ANC_RST_STAT_STEP, ANC_RST_STAT_DIFF, ANC_RST_STAT_CHUNK_WARN, ANC_RST_STAT_LEAVES]⟩]

open Reg in
/-- Registers of 12_digests_and_reproducibility.md, in the order of the spec. -/
def regTable12 : List RegRow := [
  ⟨"LED_CTL", 0x0A0000, 0, 1, 0, 1, 32, .coding,
    fun _ _ => [LED_CTL_KEY, LED_CTL_FIT, LED_CTL_INPUT_EN, LED_CTL_INPUT_REGION]⟩,
  ⟨"LED_PROGRAM", 0x0A0008, 8, 4, 0, 1, 64, .coding,
    fun n _ => [LED_PROGRAM_DIGEST n]⟩,
  ⟨"LED_FUSE", 0x0A0028, 8, 4, 0, 1, 64, .alwaysOn,
    fun n _ => [LED_FUSE_DIGEST n]⟩,
  ⟨"LED_SEL", 0x0A0048, 0, 1, 0, 1, 64, .coding,
    fun _ _ => [LED_SEL_STATE, LED_SEL_RING]⟩,
  ⟨"LED_LAST", 0x0A0050, 0, 1, 0, 1, 64, .coding,
    fun _ _ => [LED_LAST_NEWEST, LED_LAST_OLDEST]⟩,
  ⟨"DIG_STAT", 0x0A0058, 0, 1, 0, 1, 64, .coding,
    fun _ _ => [DIG_STAT_RECOMPUTED, DIG_STAT_STALE]⟩,
  ⟨"LED_DATA", 0x0A0100, 4, 64, 0, 1, 32, .coding,
    fun n _ => [LED_DATA_WORD n]⟩]

open Reg in
/-- Registers of 13_security_module.md, in the order of the spec. -/
def regTable13 : List RegRow := [
  ⟨"SEC_STAT", 0x030000, 0, 1, 0, 1, 32, .crypto,
    fun _ _ => [SEC_STAT_ST_DONE, SEC_STAT_ERROR, SEC_STAT_ZEROIZED, SEC_STAT_TAMPER, SEC_STAT_ROOT_BLOCKED, SEC_STAT_KEY_NEED, SEC_STAT_KEYS, SEC_STAT_FAILED, SEC_STAT_HW_VER]⟩,
  ⟨"SEC_CTL", 0x030004, 0, 1, 0, 1, 32, .alwaysOn,
    fun _ _ => [SEC_CTL_ZKEY, SEC_CTL_TAMPER_KILL, SEC_CTL_ZEROIZE]⟩,
  ⟨"SEC_JOB_ID", 0x030008, 0, 1, 0, 1, 64, .crypto,
    fun _ _ => [SEC_JOB_ID_JOB_ID]⟩,
  ⟨"SEC_ST_RESULT", 0x030010, 0, 1, 0, 1, 32, .alwaysOn,
    fun _ _ => [SEC_ST_RESULT_PASSED]⟩,
  ⟨"SEC_AUTH_FAIL", 0x030018, 0, 1, 0, 1, 64, .crypto,
    fun _ _ => [SEC_AUTH_FAIL_LINK, SEC_AUTH_FAIL_ANCHOR, SEC_AUTH_FAIL_BUNDLE]⟩,
  ⟨"SEC_IMG", 0x030020, 0, 1, 0, 1, 32, .alwaysOn,
    fun _ _ => [SEC_IMG_SVN, SEC_IMG_SVN_MIN, SEC_IMG_REVOKED, SEC_IMG_KEY_SLOT, SEC_IMG_IMAGE]⟩]

open Reg in
/-- Registers of 14_health_risk_and_wear.md, in the order of the spec. -/
def regTable14 : List RegRow := [
  ⟨"HLT_RISK", 0x0B0000, 0, 1, 0, 1, 32, .alwaysOn,
    fun _ _ => [HLT_RISK_PEAK, HLT_RISK_RISK]⟩,
  ⟨"HLT_RISK_W0", 0x0B0008, 0, 1, 0, 1, 64, .alwaysOn,
    fun _ _ => [HLT_RISK_W0_W_BER, HLT_RISK_W0_W_FEC, HLT_RISK_W0_W_HW, HLT_RISK_W0_W_BARK]⟩,
  ⟨"HLT_RISK_W1", 0x0B0010, 0, 1, 0, 1, 64, .alwaysOn,
    fun _ _ => [HLT_RISK_W1_W_SRAM, HLT_RISK_W1_W_DROOP, HLT_RISK_W1_W_TEMP, HLT_RISK_W1_W_EYE]⟩,
  ⟨"HLT_RISK_W2", 0x0B0018, 0, 1, 0, 1, 64, .alwaysOn,
    fun _ _ => [HLT_RISK_W2_BASE, HLT_RISK_W2_W_LIFE, HLT_RISK_W2_W_RESET]⟩,
  ⟨"HLT_RISK_THR", 0x0B0020, 0, 1, 0, 1, 64, .alwaysOn,
    fun _ _ => [HLT_RISK_THR_THICK_EN, HLT_RISK_THR_HARD, HLT_RISK_THR_UPPER, HLT_RISK_THR_LOWER]⟩,
  ⟨"HLT_IND_SEL", 0x0B0028, 0, 1, 0, 1, 32, .alwaysOn,
    fun _ _ => [HLT_IND_SEL_INDEX]⟩,
  ⟨"HLT_IND", 0x0B0030, 0, 1, 0, 1, 32, .alwaysOn,
    fun _ _ => [HLT_IND_X]⟩,
  ⟨"HLT_LANE_SEL", 0x0B0038, 0, 1, 0, 1, 32, .alwaysOn,
    fun _ _ => [HLT_LANE_SEL_LANE]⟩,
  ⟨"HLT_LANE", 0x0B0040, 0, 1, 0, 1, 64, .alwaysOn,
    fun _ _ => [HLT_LANE_EYE, HLT_LANE_BER_CODE, HLT_LANE_CORR]⟩,
  ⟨"HLT_TEMP", 0x0B0048, 0, 1, 0, 1, 64, .alwaysOn,
    fun _ _ => [HLT_TEMP_DROOP, HLT_TEMP_MAX, HLT_TEMP_T3_T0]⟩,
  ⟨"HLT_THROTTLE", 0x0B0050, 0, 1, 0, 1, 64, .alwaysOn,
    fun _ _ => [HLT_THROTTLE_MICROS]⟩,
  ⟨"HLT_RESETS", 0x0B0058, 0, 1, 0, 1, 32, .alwaysOn,
    fun _ _ => [HLT_RESETS_DAY, HLT_RESETS_TOTAL]⟩]

open Reg in
/-- Registers of 14_health_risk_and_wear.md, in the order of the spec. -/
def regTable14b : List RegRow := [
  ⟨"HLT_WIN_WAIT", 0x0B0060, 0, 1, 0, 1, 64, .alwaysOn,
    fun _ _ => [HLT_WIN_WAIT_CYCLES]⟩,
  ⟨"HLT_EOL_SEL", 0x0B0068, 0, 1, 0, 1, 32, .alwaysOn,
    fun _ _ => [HLT_EOL_SEL_KIND, HLT_EOL_SEL_UNIT]⟩,
  ⟨"HLT_EOL", 0x0B0070, 0, 1, 0, 1, 64, .alwaysOn,
    fun _ _ => [HLT_EOL_PRED, HLT_EOL_LOW90, HLT_EOL_NO_TREND, HLT_EOL_STRESS, HLT_EOL_SAMPLES]⟩,
  ⟨"HLT_EOL_MIN", 0x0B0078, 0, 1, 0, 1, 64, .alwaysOn,
    fun _ _ => [HLT_EOL_MIN_LOW90, HLT_EOL_MIN_KIND, HLT_EOL_MIN_UNIT]⟩,
  ⟨"HLT_SHARE_LOOP", 0x0B0080, 0, 1, 0, 1, 32, .alwaysOn,
    fun _ _ => [HLT_SHARE_LOOP_EN, HLT_SHARE_LOOP_CEIL, HLT_SHARE_LOOP_FLOOR, HLT_SHARE_LOOP_WAIT_HI, HLT_SHARE_LOOP_STEP]⟩,
  ⟨"HLT_LINK_LOOP", 0x0B0084, 0, 1, 0, 1, 32, .alwaysOn,
    fun _ _ => [HLT_LINK_LOOP_EN, HLT_LINK_LOOP_PREWAKE, HLT_LINK_LOOP_CEIL, HLT_LINK_LOOP_FLOOR, HLT_LINK_LOOP_WAKE_HI]⟩,
  ⟨"HLT_SEAL_LOOP", 0x0B0088, 0, 1, 0, 1, 64, .alwaysOn,
    fun _ _ => [HLT_SEAL_LOOP_EN, HLT_SEAL_LOOP_CEIL, HLT_SEAL_LOOP_FLOOR]⟩,
  ⟨"HLT_JOB_RISK", 0x0B0090, 0, 1, 0, 1, 64, .alwaysOn,
    fun _ _ => [HLT_JOB_RISK_STEP, HLT_JOB_RISK_LATE, HLT_JOB_RISK_PENDING, HLT_JOB_RISK_SEQ, HLT_JOB_RISK_RISK]⟩,
  ⟨"HLT_HEAT_LOOP", 0x0B0098, 0, 1, 0, 1, 64, .alwaysOn,
    fun _ _ => [HLT_HEAT_LOOP_EN, HLT_HEAT_LOOP_CEIL, HLT_HEAT_LOOP_FLOOR, HLT_HEAT_LOOP_TARGET]⟩,
  ⟨"HLT_ADVICE", 0x0B00A0, 0, 1, 0, 1, 32, .alwaysOn,
    fun _ _ => [HLT_ADVICE_CLASS, HLT_ADVICE_EVAC, HLT_ADVICE_THICK, HLT_ADVICE_HEAT, HLT_ADVICE_SEAL, HLT_ADVICE_LINK, HLT_ADVICE_SHARE]⟩,
  ⟨"HLT_ADVICE_VAL", 0x0B00A8, 0, 1, 0, 1, 64, .alwaysOn,
    fun _ _ => [HLT_ADVICE_VAL_WISH, HLT_ADVICE_VAL_PORT, HLT_ADVICE_VAL_LOOP]⟩]

open Reg in
/-- Registers of 15_bringup_reset_recovery.md, in the order of the spec. -/
def regTable15 : List RegRow := [
  ⟨"GEN_BOOT", 0x000400, 0, 1, 0, 1, 64, .alwaysOn,
    fun _ _ => [GEN_BOOT_READY, GEN_BOOT_STAGE, GEN_BOOT_FAIL, GEN_BOOT_IMG_A, GEN_BOOT_IMG_B, GEN_BOOT_MS]⟩,
  ⟨"GEN_PWR", 0x000408, 0, 1, 0, 1, 32, .alwaysOn,
    fun _ _ => [GEN_PWR_REFUSED, GEN_PWR_ASLEEP, GEN_PWR_SLEEP]⟩,
  ⟨"GEN_RESET", 0x00040C, 0, 1, 0, 1, 32, .alwaysOn,
    fun _ _ => [GEN_RESET_KEY, GEN_RESET_CRYPTO, GEN_RESET_CORE]⟩,
  ⟨"GEN_RESET_STAT", 0x000410, 0, 1, 0, 1, 64, .alwaysOn,
    fun _ _ => [GEN_RESET_STAT_CORE_TOTAL, GEN_RESET_STAT_IN_WINDOW, GEN_RESET_STAT_LAST_CAUSE, GEN_RESET_STAT_OOS, GEN_RESET_STAT_OOS_CAUSE, GEN_RESET_STAT_CRYPTO_TOTAL, GEN_RESET_STAT_RESUME_US]⟩,
  ⟨"GEN_WDT", 0x000418, 0, 1, 0, 1, 32, .alwaysOn,
    fun _ _ => [GEN_WDT_LIMIT]⟩,
  ⟨"GEN_PRUNE", 0x00041C, 0, 1, 0, 1, 32, .alwaysOn,
    fun _ _ => [GEN_PRUNE_KEY, GEN_PRUNE_UNPRUNE, GEN_PRUNE_KIND, GEN_PRUNE_UNIT]⟩,
  ⟨"GEN_PRUNE_CTL", 0x000420, 0, 1, 0, 1, 32, .alwaysOn,
    fun _ _ => [GEN_PRUNE_CTL_AUTO_CLU, GEN_PRUNE_CTL_AUTO_LANE, GEN_PRUNE_CTL_LANE_BER, GEN_PRUNE_CTL_CLU_MIN]⟩,
  ⟨"GEN_HOLE_CLU", 0x000428, 0, 1, 0, 1, 64, .alwaysOn,
    fun _ _ => [GEN_HOLE_CLU_PRUNED]⟩,
  ⟨"GRV_MAP_CTL", 0x060600, 0, 1, 0, 1, 32, .coding,
    fun _ _ => [GRV_MAP_CTL_ARMED, GRV_MAP_CTL_WAIT, GRV_MAP_CTL_STANDBY, GRV_MAP_CTL_GRAFT, GRV_MAP_CTL_ARM]⟩,
  ⟨"GRV_MAP_BASE", 0x060608, 0, 1, 0, 1, 64, .coding,
    fun _ _ => [GRV_MAP_BASE_LEN, GRV_MAP_BASE_BASE]⟩,
  ⟨"GRV_MAP_HANDLE", 0x060610, 0, 1, 0, 1, 64, .coding,
    fun _ _ => [GRV_MAP_HANDLE_HANDLE]⟩,
  ⟨"GRV_MAP_DIG", 0x060618, 8, 4, 0, 1, 64, .coding,
    fun n _ => [GRV_MAP_DIG_DIGEST n]⟩]

open Reg in
/-- Registers of 15_bringup_reset_recovery.md, in the order of the spec. -/
def regTable15b : List RegRow := [
  ⟨"GRV_LAYOUT", 0x060638, 8, 4, 0, 1, 64, .coding,
    fun n _ => [GRV_LAYOUT_DIGEST n]⟩,
  ⟨"GRV_MAP_STAT", 0x060658, 0, 1, 0, 1, 64, .coding,
    fun _ _ => [GRV_MAP_STAT_SOURCE, GRV_MAP_STAT_STATE, GRV_MAP_STAT_REASON, GRV_MAP_STAT_CHILD_FAIL, GRV_MAP_STAT_TRIES, GRV_MAP_STAT_GROVE]⟩,
  ⟨"GRV_RC_CTL", 0x060660, 0, 1, 0, 1, 32, .coding,
    fun _ _ => [GRV_RC_CTL_TIMEOUT]⟩,
  ⟨"GRV_RC_STAT", 0x060668, 0, 1, 0, 1, 64, .coding,
    fun _ _ => [GRV_RC_STAT_HELD, GRV_RC_STAT_BAD_POS, GRV_RC_STAT_REASON, GRV_RC_STAT_KEY_MISS, GRV_RC_STAT_PASSED, GRV_RC_STAT_FAILED]⟩]

open Reg in
/-- Registers of 16_time_and_interrupts.md, in the order of the spec. -/
def regTable16 : List RegRow := [
  ⟨"TIM_NOW", 0x020000, 0, 1, 0, 1, 64, .alwaysOn,
    fun _ _ => [TIM_NOW_NS]⟩,
  ⟨"TIM_FRAC", 0x020008, 0, 1, 0, 1, 32, .alwaysOn,
    fun _ _ => [TIM_FRAC_FRAC]⟩,
  ⟨"TIM_SET", 0x020010, 0, 1, 0, 1, 64, .alwaysOn,
    fun _ _ => [TIM_SET_NS]⟩,
  ⟨"TIM_RATE", 0x020018, 0, 1, 0, 1, 64, .alwaysOn,
    fun _ _ => [TIM_RATE_INC]⟩,
  ⟨"TIM_CTL", 0x020020, 0, 1, 0, 1, 32, .alwaysOn,
    fun _ _ => [TIM_CTL_MAX_STEP, TIM_CTL_ALIGN, TIM_CTL_PPS_EN]⟩,
  ⟨"TIM_PPS_NEXT", 0x020028, 0, 1, 0, 1, 64, .alwaysOn,
    fun _ _ => [TIM_PPS_NEXT_NS]⟩,
  ⟨"TIM_PPS_CAP", 0x020030, 0, 1, 0, 1, 64, .alwaysOn,
    fun _ _ => [TIM_PPS_CAP_NS]⟩,
  ⟨"TIM_PPS_STAT", 0x020038, 0, 1, 0, 1, 32, .alwaysOn,
    fun _ _ => [TIM_PPS_STAT_LOST, TIM_PPS_STAT_REJECT, TIM_PPS_STAT_GLITCH]⟩,
  ⟨"TIM_PPS_ERR", 0x020040, 0, 1, 0, 1, 64, .alwaysOn,
    fun _ _ => [TIM_PPS_ERR_NS]⟩,
  ⟨"TIM_ALARM", 0x020048, 0, 1, 0, 1, 64, .alwaysOn,
    fun _ _ => [TIM_ALARM_NS]⟩,
  ⟨"TIM_GCOUNT", 0x020050, 0, 1, 0, 1, 64, .alwaysOn,
    fun _ _ => [TIM_GCOUNT_COUNT]⟩,
  ⟨"TIM_GCNT_CTL", 0x020058, 0, 1, 0, 1, 32, .alwaysOn,
    fun _ _ => [TIM_GCNT_CTL_LOST, TIM_GCNT_CTL_BACK, TIM_GCNT_CTL_PERIOD]⟩]

open Reg in
/-- Registers of 16_time_and_interrupts.md, in the order of the spec. -/
def regTable16b : List RegRow := [
  ⟨"SYN_MEM", 0x020100, 0, 1, 0, 1, 64, .coding,
    fun _ _ => [SYN_MEM_EN, SYN_MEM_BAD, SYN_MEM_BASE]⟩,
  ⟨"SYN_SEL", 0x020108, 0, 1, 0, 1, 32, .coding,
    fun _ _ => [SYN_SEL_OBJ]⟩,
  ⟨"SYN_VAL", 0x020110, 0, 1, 0, 1, 64, .coding,
    fun _ _ => [SYN_VAL_VALUE]⟩,
  ⟨"SYN_SIGNAL", 0x020118, 0, 1, 0, 1, 32, .coding,
    fun _ _ => [SYN_SIGNAL_OBJ]⟩,
  ⟨"SYN_WATCH_CTL", 0x020200, 16, 64, 0, 1, 32, .coding,
    fun n _ => [SYN_WATCH_CTL_EN n, SYN_WATCH_CTL_OBJ n]⟩,
  ⟨"SYN_WATCH_THR", 0x020208, 16, 64, 0, 1, 64, .coding,
    fun n _ => [SYN_WATCH_THR_THRESH n]⟩,
  ⟨"SYN_HIT", 0x020600, 0, 1, 0, 1, 64, .coding,
    fun _ _ => [SYN_HIT_HIT]⟩,
  ⟨"INT_SRC_CFG", 0x010000, 4, 512, 0, 1, 32, .alwaysOn,
    fun n _ => [INT_SRC_CFG_PENDING n, INT_SRC_CFG_IN_SERVICE n, INT_SRC_CFG_RAW n, INT_SRC_CFG_GROUP n, INT_SRC_CFG_TARGET n, INT_SRC_CFG_SENSE n, INT_SRC_CFG_EN n]⟩,
  ⟨"INT_GRP_CFG", 0x010800, 16, 64, 0, 1, 32, .alwaysOn,
    fun g _ => [INT_GRP_CFG_MASK g, INT_GRP_CFG_FIRED_PEND g, INT_GRP_CFG_COUNT g, INT_GRP_CFG_TIME g]⟩,
  ⟨"INT_GRP_DATA", 0x010804, 16, 64, 0, 1, 32, .alwaysOn,
    fun g _ => [INT_GRP_DATA_DATA g]⟩,
  ⟨"INT_GRP_ADDR", 0x010808, 16, 64, 0, 1, 64, .alwaysOn,
    fun g _ => [INT_GRP_ADDR_ADDR g]⟩,
  ⟨"INT_CLAIM", 0x010C00, 8, 2, 0, 1, 32, .alwaysOn,
    fun t _ => [INT_CLAIM_SOURCE t]⟩]

open Reg in
/-- Registers of 16_time_and_interrupts.md, in the order of the spec. -/
def regTable16c : List RegRow := [
  ⟨"INT_COMPLETE", 0x010C04, 8, 2, 0, 1, 32, .alwaysOn,
    fun t _ => [INT_COMPLETE_SOURCE t]⟩,
  ⟨"INT_WATCH", 0x010D00, 4, 32, 0, 1, 32, .alwaysOn,
    fun n _ => [INT_WATCH_EN n, INT_WATCH_SOURCE n]⟩,
  ⟨"INT_STAT", 0x010E00, 0, 1, 0, 1, 64, .alwaysOn,
    fun _ _ => [INT_STAT_MSGS, INT_STAT_SPURIOUS, INT_STAT_NOADDR, INT_STAT_WIRE]⟩]

open Reg in
/-- Registers of 17_software_interface.md, in the order of the spec. -/
def regTable17 : List RegRow := [
  ⟨"GEN_ID", 0x000000, 0, 1, 0, 1, 64, .alwaysOn,
    fun _ _ => [GEN_ID_PART, GEN_ID_SILICON, GEN_ID_FW_VERSION]⟩,
  ⟨"GEN_ERR", 0x000020, 0, 1, 0, 1, 32, .coding,
    fun _ _ => [GEN_ERR_BAD_ACC, GEN_ERR_EXPERT_WR, GEN_ERR_RSVD_WR, GEN_ERR_LOCKED_WR]⟩,
  ⟨"GEN_CAP_PTR", 0x000008, 0, 1, 0, 1, 32, .alwaysOn,
    fun _ _ => [GEN_CAP_PTR_FIRST]⟩,
  ⟨"GEN_START", 0x000030, 0, 1, 0, 1, 32, .coding,
    fun _ _ => [GEN_START_LOCKED, GEN_START_BUSY, GEN_START_STATUS, GEN_START_LOCK]⟩,
  ⟨"GEN_EXPERT", 0x000038, 0, 1, 0, 1, 32, .coding,
    fun _ _ => [GEN_EXPERT_CONTEXT, GEN_EXPERT_SPILL, GEN_EXPERT_ADVISOR]⟩,
  ⟨"CQ_BASE", 0x0C0000, 64, 4, 0, 1, 64, .coding,
    fun q _ => [CQ_BASE_BASE q]⟩,
  ⟨"CQ_CTL", 0x0C0008, 64, 4, 0, 1, 32, .coding,
    fun q _ => [CQ_CTL_EN q, CQ_CTL_HALTED q, CQ_CTL_HALT_WHY q, CQ_CTL_LOG2SIZE q]⟩,
  ⟨"CQ_TAIL", 0x0C000C, 64, 4, 0, 1, 32, .coding,
    fun q _ => [CQ_TAIL_TAIL q]⟩,
  ⟨"CQ_HEAD", 0x0C0010, 64, 4, 0, 1, 32, .coding,
    fun q _ => [CQ_HEAD_HEAD q]⟩,
  ⟨"CQ_STAT", 0x0C0018, 64, 4, 0, 1, 64, .coding,
    fun q _ => [CQ_STAT_DONE q, CQ_STAT_BAD_DB q, CQ_STAT_MBOX_WAIT q, CQ_STAT_OPEN q]⟩,
  ⟨"MBX_ACK", 0x0C0800, 0, 1, 0, 1, 64, .coding,
    fun _ _ => [MBX_ACK_SEQ, MBX_ACK_MAILBOX]⟩,
  ⟨"MBX_STAT", 0x0C0808, 0, 1, 0, 1, 64, .coding,
    fun _ _ => [MBX_STAT_ACKED, MBX_STAT_BAD_ACK, MBX_STAT_FREE]⟩]

open Reg in
/-- Registers of 17_software_interface.md, in the order of the spec. -/
def regTable17b : List RegRow := [
  ⟨"MBX_HDR", 0x0C1000, 128, 256, 0, 1, 64, .coding,
    fun b _ => [MBX_HDR_STATUS b, MBX_HDR_READS b, MBX_HDR_OPCODE b, MBX_HDR_SEQ b]⟩,
  ⟨"MBX_AUX", 0x0C1008, 128, 256, 0, 1, 64, .coding,
    fun b _ => [MBX_AUX_REASON b, MBX_AUX_ADDR b]⟩,
  ⟨"MBX_DATA", 0x0C1010, 128, 256, 4, 28, 32, .coding,
    fun b n => [MBX_DATA_WORD b n]⟩,
  ⟨"MGT_VIEW_SEL", 0x0C0900, 0, 1, 0, 1, 32, .coding,
    fun _ _ => [MGT_VIEW_SEL_ENTRY]⟩,
  ⟨"MGT_VIEW", 0x0C0908, 0, 1, 0, 1, 64, .coding,
    fun _ _ => [MGT_VIEW_VALID, MGT_VIEW_DATA, MGT_VIEW_MGT, MGT_VIEW_PLACE, MGT_VIEW_AGE]⟩,
  ⟨"MGT_DISAGREE", 0x0C0910, 0, 1, 0, 1, 64, .coding,
    fun _ _ => [MGT_DISAGREE_VALID, MGT_DISAGREE_PLACE, MGT_DISAGREE_DATA, MGT_DISAGREE_MGT, MGT_DISAGREE_TIME]⟩]

/-- Every register of the register window. -/
def regTable : List RegRow :=
  regTable01 ++ regTable02 ++ regTable03 ++ regTable04 ++ regTable05 ++ regTable06 ++ regTable06b ++ regTable07 ++ regTable07b ++ regTable08 ++ regTable08b ++ regTable09 ++ regTable09b ++ regTable10 ++ regTable10b ++ regTable11 ++ regTable12 ++ regTable13 ++ regTable14 ++ regTable14b ++ regTable15 ++ regTable15b ++ regTable16 ++ regTable16b ++ regTable16c ++ regTable17 ++ regTable17b

end Sys2Proof.Machine
end

