-- ==== Sys2Proof/Machine/Ops.lean ====
section
/-!
DEFINITION. Sys2Proof/Machine/Ops.lean: the named operations over tables, bytes, local memory, registers and actions that
every meaning is written with.
-/
namespace Sys2Proof.Machine

/-! ### Sparse tables -/

/-- The value at a key of a table, if the key is listed. -/
def look {α : Type} : SMap α → Nat → Option α
  | [], _ => none
  | (k, v) :: t, x => if x = k then some v else if x < k then none else look t x

/-- The table with one key listed at a value. -/
def put {α : Type} : SMap α → Nat → α → SMap α
  | [], x, w => [(x, w)]
  | (k, v) :: t, x, w =>
    if x = k then (x, w) :: t else if x < k then (x, w) :: (k, v) :: t else (k, v) :: put t x w

/-- The table with one key no longer listed. -/
def cut {α : Type} (m : SMap α) (x : Nat) : SMap α := m.filter (fun e => e.1 != x)

/-- Entries in strictly rising key order: the canonical form of a table. -/
abbrev SMap.Sorted {α : Type} (m : SMap α) : Prop := m.Pairwise (fun a b => a.1 < b.1)

/-! ### Numbers and bytes -/

/-- A 32-bit value: wraps as R155 and R112 state. -/
def w32 (n : Nat) : Nat := n % 2 ^ 32

/-- `a` precedes `b` serially (R112). -/
def precedes (a b : Nat) : Bool :=
  let d := (b + 2 ^ 32 - w32 a) % 2 ^ 32
  1 ≤ d && d ≤ 2 ^ 31 - 1

/-- `a` precedes or equals `b` serially. -/
def atOrBefore (a b : Nat) : Bool := w32 a == w32 b || precedes a b

/-- Bit i of a number. -/
def bit (n i : Nat) : Bool := n.testBit i

/-- The field [hi:lo] of a number. -/
def bits (n hi lo : Nat) : Nat := (n >>> lo) % 2 ^ (hi + 1 - lo)

/-- Number of 1 bits among the low `w` bits. -/
def popcount (n w : Nat) : Nat := ((List.range w).filter (fun i => n.testBit i)).length

/-- The number with bit i set, or cleared. -/
def setBit (n i : Nat) : Nat := n ||| 2 ^ i
def clearBit (n i : Nat) : Nat := if n.testBit i then n - 2 ^ i else n

/-- The set of bits below `w` at which a predicate holds. -/
def bitsWhere (w : Nat) (p : Nat → Bool) : Nat :=
  (List.range w).foldl (fun a i => if p i then a + 2 ^ i else a) 0

/-- One byte of a number. -/
def byteOf (n : Nat) : Byte := BitVec.ofNat 8 n

/-- The number whose little-endian bytes are given (R8). -/
def leNat : List Byte → Nat
  | [] => 0
  | b :: t => b.toNat + 256 * leNat t

/-- The `w` little-endian bytes of a number (R8). -/
def natLe : Nat → Nat → List Byte
  | 0, _ => []
  | w + 1, n => byteOf n :: natLe w (n / 256)

/-- `w` bytes at an offset of a structure, little-endian; bytes past its end read zero. -/
def fieldAt (bs : List Byte) (off w : Nat) : Nat := leNat ((bs.drop off).take w)

/-- `n` zero bytes. -/
def zeros (n : Nat) : List Byte := List.replicate n 0

/-- A byte string brought to length `n` with zeros. -/
def padTo (n : Nat) (bs : List Byte) : List Byte := (bs ++ zeros (n - bs.length)).take n

/-- Byte-wise XOR of two strings of one length. -/
def xorBytes (a b : List Byte) : List Byte := List.zipWith (· ^^^ ·) a b

/-- A string all of whose bytes are zero. -/
def allZero (bs : List Byte) : Bool := bs.all (· == 0)

/-- The bytes of a line operand, byte 0 first. -/
def lineBytes (l : Line) : List Byte := (List.range 64).map (fun i => l.extractLsb' (8 * i) 8)

/-- The line made of 64 bytes. -/
def bytesLine (bs : List Byte) : Line := BitVec.ofNat 512 (leNat (bs.take 64))

/-- A string with the bytes at an offset replaced. -/
def overlay (bs : List Byte) (off : Nat) (new : List Byte) : List Byte :=
  bs.take off ++ new ++ bs.drop (off + new.length)

/-! ### Byte stores in canonical form -/

/-- Non-zero bytes of a string as cells from an address on. -/
def cells (a : Nat) : List Byte → SMap Byte
  | [] => []
  | b :: t => if b = 0 then cells (a + 1) t else (a, b) :: cells (a + 1) t

/-- A byte of a store; an unlisted address reads as zero. DESIGN CHOICE: log entry 5. -/
def byteAt (m : SMap Byte) (a : Nat) : Byte := (look m a).getD 0

/-- `n` bytes of a store from an address on. -/
def bytesAt (m : SMap Byte) (a n : Nat) : List Byte := (List.range n).map (fun i => byteAt m (a + i))

/-- A store with a string written at an address: entries below and above stay, zero bytes are not listed. -/
def splice (m : SMap Byte) (a : Nat) (bs : List Byte) : SMap Byte :=
  m.filter (fun e => e.1 < a) ++ (cells a bs ++ m.filter (fun e => a + bs.length ≤ e.1))

/-- The canonical form of a store of bytes: rising addresses, no entry equal to what an unlisted address reads as. -/
abbrev Memory.wf (m : SMap Byte) : Prop := m.Pairwise (fun a b => a.1 < b.1) ∧ ∀ e ∈ m, e.2 ≠ 0

/-! ### Local memory -/

/-- One byte of local memory (R24). Bytes that nothing has written read zero: the fill of R336 leaves them so.
DESIGN CHOICE: log entry 5. -/
def Eng.memByte (e : Eng) (a : Nat) : Byte := byteAt e.mem a

/-- Bytes of local memory from an address on. -/
def Eng.memRead (e : Eng) (a n : Nat) : List Byte := bytesAt e.mem a n

/-- Local memory with a string written at an address. -/
def Eng.memWrite (e : Eng) (a : Nat) (bs : List Byte) : Eng := { e with mem := splice e.mem a bs }

/-- A little-endian number of local memory. -/
def Eng.memNat (e : Eng) (a w : Nat) : Nat := leNat (e.memRead a w)

/-- XOR of a string into local memory. -/
def Eng.memXor (e : Eng) (a : Nat) (bs : List Byte) : Eng :=
  e.memWrite a (xorBytes (e.memRead a bs.length) bs)

/-! ### Registers -/

/-- The value of a register field. -/
def Eng.rd (e : Eng) (f : Fld) : Nat := (look e.regs f.key).getD f.reset

/-- A register field set, by the engine itself. -/
def Eng.wr (e : Eng) (f : Fld) (v : Nat) : Eng := { e with regs := put e.regs f.key (v % 2 ^ f.width) }

/-- A one-bit field read as a truth value, and set from one. -/
def Eng.on (e : Eng) (f : Fld) : Bool := e.rd f == 1
def Eng.flag (e : Eng) (f : Fld) (b : Bool) : Eng := e.wr f (if b then 1 else 0)

/-- A counter field advanced; it stops at all ones. -/
def Eng.bumpBy (e : Eng) (f : Fld) (n : Nat) : Eng := e.wr f (min (e.rd f + n) (2 ^ f.width - 1))
def Eng.bump (e : Eng) (f : Fld) : Eng := e.bumpBy f 1

/-! ### Actions and free values -/

/-- The engine makes an action at an interface. -/
def Eng.emit (e : Eng) (a : Action) : Eng := { e with out := e.out ++ [a] }

/-- Advance the counter of free values past `n` of them. DESIGN CHOICE: log entry 6. -/
def Eng.useFree (e : Eng) (n : Nat) : Eng := { e with free := e.free + n }

/-- `n` undefined bytes, from the state's next free value on. DESIGN CHOICE: log entry 6. -/
def Eng.freeBytes (e : Eng) (n : Nat) : List Byte := (List.range n).map (fun i => Config.freeByte (e.free + i))

/-- A command's effect on the engine: what the last command did at the interfaces is forgotten, then the effect. -/
def State.run (s : State) (f : Eng → Eng) : State := { s with eng := f { s.eng with out := [] } }

/-- Apply an effect where a condition holds. -/
def Eng.when (e : Eng) (c : Bool) (f : Eng → Eng) : Eng := if c then f e else e

/-- Apply an effect for each element of a list, in order. -/
def Eng.each {α : Type} (e : Eng) (xs : List α) (f : α → Eng → Eng) : Eng := xs.foldl (fun e x => f x e) e

/-! ### Engine time -/

/-- Engine time in ns (R466): bits of the 96-bit accumulator above 2^-32 ns, as TIM_NOW shows them. DEDUCED: log entry 85. -/
def Eng.now (e : Eng) : Nat := (e.time.acc / 2 ^ 32) % 2 ^ 64

end Sys2Proof.Machine
end

