-- ==== Sys2Proof/Machine/Float.lean ====
section
/-!
DEFINITION. Sys2Proof/Machine/Float.lean: numbers of the update unit (R196 to R199, R206, R212, R215, R216): exact dyadic values,
rounding to a precision, the element formats, the arithmetic of the instruction set, and stochastic rounding.
-/
namespace Sys2Proof.Machine

/-- A value: NaN, an infinity, or ± m · 2^e. A zero keeps its sign. -/
inductive Num where
  | nan
  | inf (neg : Bool)
  | fin (neg : Bool) (m : Nat) (e : Int)
  deriving DecidableEq, Repr

/-- Zero and one. -/
def Num.zero : Num := .fin false 0 0
def Num.one : Num := .fin false 1 0

/-- Sign, and the value with the opposite sign. -/
def Num.neg : Num → Num
  | .nan => .nan
  | .inf n => .inf (!n)
  | .fin n m e => .fin (!n) m e

def Num.isNeg : Num → Bool
  | .nan => false
  | .inf n => n
  | .fin n _ _ => n

def Num.isZero : Num → Bool
  | .fin _ 0 _ => true
  | _ => false

/-- The magnitude with a sign. -/
def Num.withSign (n : Bool) : Num → Num
  | .nan => .nan
  | .inf _ => .inf n
  | .fin _ m e => .fin n m e

/-- m · 2^(e − t) as a number, for t at or below e. -/
def scaleTo (m : Nat) (e t : Int) : Nat := m * 2 ^ (e - t).toNat

/-- Exponent of the highest bit of m · 2^e, m not 0. -/
def topExp (m : Nat) (e : Int) : Int := (Nat.log2 m : Int) + e

/-! ### Rounding -/

/-- How a value is rounded (R194 ROUND): to nearest even, stochastically with a draw, toward zero. -/
inductive Rnd where
  | even
  | stoch (u : Nat)
  | zero
  deriving DecidableEq, Repr

/-- m / 2^s rounded to a whole number (R216 for the stochastic case). -/
def roundShift (r : Rnd) (m s : Nat) : Nat :=
  let q := m / 2 ^ s
  let rem := m % 2 ^ s
  if rem = 0 then q
  else match r with
    | .zero => q
    | .even => if 2 * rem < 2 ^ s then q else if 2 ^ s < 2 * rem then q + 1 else q + q % 2
    | .stoch u => if u < 2 ^ 32 * rem / 2 ^ s then q + 1 else q

/-- m · 2^e rounded to a multiple of 2^t. -/
def roundAt (r : Rnd) (m : Nat) (e t : Int) : Nat × Int :=
  if t ≤ e then (m, e) else (roundShift r m (t - e).toNat, t)

/-- m · 2^e rounded to p significant bits, none below 2^q. -/
def roundBits (r : Rnd) (p : Nat) (q : Option Int) (m : Nat) (e : Int) : Nat × Int :=
  if m = 0 then (0, 0)
  else
    let t := topExp m e - (p : Int) + 1
    let t := match q with | some q => if q < t then t else q | none => t
    roundAt r m e t

/-! ### Precisions (R206, R212) -/

/-- Significand bits, least exponent of a normal value and greatest exponent of a precision: FP32 or FP64. -/
def precBits (p64 : Bool) : Nat := if p64 then 53 else 24
def precMin (p64 : Bool) : Int := if p64 then -1022 else -126
def precMax (p64 : Bool) : Int := if p64 then 1023 else 127

/-- m · 2^e is below the smallest normal value of a precision. -/
def belowNormal (p64 : Bool) (m : Nat) (e : Int) : Bool := m == 0 || topExp m e < precMin p64

/-- A value rounded to a precision; `flush`: a subnormal result is replaced by zero of its sign (R212). -/
def toPrec (p64 flush : Bool) : Num → Num
  | .nan => .nan
  | .inf n => .inf n
  | .fin n m e =>
    let free := roundBits .even (precBits p64) none m e
    if flush && belowNormal p64 free.1 free.2 then .fin n 0 0
    else
      let (m', e') := roundBits .even (precBits p64) (some (precMin p64 - (precBits p64 : Int) + 1)) m e
      if m' ≠ 0 ∧ precMax p64 < topExp m' e' then .inf n else .fin n m' e'

/-! ### Exact arithmetic -/

/-- Sum of two finite values, exactly; an exact zero sum of unlike signs is +0. -/
def addFin (n1 : Bool) (m1 : Nat) (e1 : Int) (n2 : Bool) (m2 : Nat) (e2 : Int) : Num :=
  let t := if e1 < e2 then e1 else e2
  let a := scaleTo m1 e1 t
  let b := scaleTo m2 e2 t
  if n1 == n2 then .fin n1 (a + b) t
  else if a = b then .fin false 0 0
  else if b < a then .fin n1 (a - b) t else .fin n2 (b - a) t

def Num.add : Num → Num → Num
  | .nan, _ => .nan
  | _, .nan => .nan
  | .inf a, .inf b => if a == b then .inf a else .nan
  | .inf a, _ => .inf a
  | _, .inf b => .inf b
  | .fin n1 m1 e1, .fin n2 m2 e2 => addFin n1 m1 e1 n2 m2 e2

def Num.mul : Num → Num → Num
  | .nan, _ => .nan
  | _, .nan => .nan
  | .inf a, .inf b => .inf (a != b)
  | .inf a, .fin n m _ => if m = 0 then .nan else .inf (a != n)
  | .fin n m _, .inf b => if m = 0 then .nan else .inf (n != b)
  | .fin n1 m1 e1, .fin n2 m2 e2 => .fin (n1 != n2) (m1 * m2) (e1 + e2)

/-- Integer square root, by bits from the top. -/
def isqrtAux : Nat → Nat → Nat → Nat
  | 0, _, r => r
  | k + 1, n, r =>
    let c := r + 2 ^ k
    isqrtAux k n (if c * c ≤ n then c else r)

def isqrt (n : Nat) : Nat := isqrtAux (Nat.log2 n / 2 + 1) n 0

/-- A quotient or root to 130 bits, its lowest bit standing for whatever is left: enough to round to any precision. -/
def Num.div : Num → Num → Num
  | .nan, _ => .nan
  | _, .nan => .nan
  | .inf _, .inf _ => .nan
  | .inf a, .fin n _ _ => .inf (a != n)
  | .fin n _ _, .inf b => .fin (n != b) 0 0
  | .fin n1 m1 e1, .fin n2 m2 e2 =>
    if m2 = 0 then (if m1 = 0 then .nan else .inf (n1 != n2))
    else if m1 = 0 then .fin (n1 != n2) 0 0
    else
      let s : Nat := 130 + Nat.log2 m2
      let a := m1 * 2 ^ s
      .fin (n1 != n2) (2 * (a / m2) + (if a % m2 = 0 then 0 else 1)) (e1 - e2 - (s : Int) - 1)

def Num.sqrt : Num → Num
  | .nan => .nan
  | .inf n => if n then .nan else .inf false
  | .fin n m e =>
    if m = 0 then .fin n 0 0
    else if n then .nan
    else
      let s : Nat := 260 + (if (e % 2) = 0 then 0 else 1)
      let a := m * 2 ^ s
      let r := isqrt a
      .fin false (2 * r + (if r * r = a then 0 else 1)) ((e - (s : Int)) / 2 - 1)

/-- a < b, and a = b, for values that are not NaN. -/
def Num.lt : Num → Num → Bool
  | .nan, _ => false
  | _, .nan => false
  | .inf a, .inf b => a && !b
  | .inf a, _ => a
  | _, .inf b => !b
  | .fin n1 m1 e1, .fin n2 m2 e2 =>
    match addFin n1 m1 e1 (!n2) m2 e2 with
    | .fin n m _ => n && m != 0
    | _ => false

def Num.eq (a b : Num) : Bool :=
  match a, b with
  | .nan, _ => false
  | _, .nan => false
  | _, _ => !a.lt b && !b.lt a

/-- Minimum and maximum; a NaN operand gives NaN, −0 is below +0 (R205). -/
def Num.min (a b : Num) : Num :=
  match a, b with
  | .nan, _ => .nan
  | _, .nan => .nan
  | _, _ => if a.lt b then a else if b.lt a then b else if a.isNeg then a else b

def Num.max (a b : Num) : Num :=
  match a, b with
  | .nan, _ => .nan
  | _, .nan => .nan
  | _, _ => if b.lt a then a else if a.lt b then b else if a.isNeg then b else a

/-! ### Formats (R196) -/

/-- A floating format: mantissa bits, exponent bits, bias, whether it has infinities, the bits of its NaN (none for FP6 and
FP4), and the bits of its largest finite value. -/
structure FFmt where
  mant  : Nat
  ebits : Nat
  bias  : Int
  inf   : Bool
  nan   : Option Nat
  top   : Nat
  deriving DecidableEq, Repr

/-- The floating formats by code. -/
def ffmt : Nat → Option FFmt
  | 0x00 => some { mant := 52, ebits := 11, bias := 1023, inf := true, nan := some 0x7FF8000000000000, top := 0x7FEFFFFFFFFFFFFF }
  | 0x01 => some { mant := 23, ebits := 8, bias := 127, inf := true, nan := some 0x7FC00000, top := 0x7F7FFFFF }
  | 0x02 => some { mant := 7, ebits := 8, bias := 127, inf := true, nan := some 0x7FC0, top := 0x7F7F }
  | 0x03 => some { mant := 10, ebits := 5, bias := 15, inf := true, nan := some 0x7E00, top := 0x7BFF }
  | 0x04 => some { mant := 3, ebits := 4, bias := 7, inf := false, nan := some 0x7F, top := 0x7E }
  | 0x05 => some { mant := 2, ebits := 5, bias := 15, inf := true, nan := some 0x7E, top := 0x7B }
  | 0x06 => some { mant := 2, ebits := 3, bias := 3, inf := false, nan := none, top := 0x1F }
  | 0x07 => some { mant := 3, ebits := 2, bias := 1, inf := false, nan := none, top := 0x1F }
  | 0x08 => some { mant := 1, ebits := 2, bias := 1, inf := false, nan := none, top := 0x07 }
  | _ => none

/-- Bits of an element of a format (R68). -/
def fmtBits : Nat → Nat
  | 0x00 => 64 | 0x01 => 32 | 0x02 => 16 | 0x03 => 16 | 0x04 => 8 | 0x05 => 8 | 0x06 => 6 | 0x07 => 6 | 0x08 => 4
  | 0x09 => 32 | 0x0A => 8 | 0x0B => 4 | _ => 8

/-- Width of an integer format. -/
def intBits : Nat → Option Nat
  | 0x09 => some 32 | 0x0A => some 8 | 0x0B => some 4 | _ => none

/-- The value of a pattern of a floating format. -/
def FFmt.decode (f : FFmt) (b : Nat) : Num :=
  let neg := b.testBit (f.mant + f.ebits)
  let ex := (b / 2 ^ f.mant) % 2 ^ f.ebits
  let fr := b % 2 ^ f.mant
  let ones := 2 ^ f.ebits - 1
  if f.inf && ex == ones then (if fr = 0 then .inf neg else .nan)
  else if !f.inf && f.nan.isSome && ex == ones && fr == 2 ^ f.mant - 1 then .nan
  else if ex = 0 then .fin neg fr (1 - f.bias - (f.mant : Int))
  else .fin neg (2 ^ f.mant + fr) ((ex : Int) - f.bias - (f.mant : Int))

/-- The pattern of a value that the format holds exactly. -/
def FFmt.pattern (f : FFmt) (neg : Bool) (m : Nat) (e : Int) : Nat :=
  let s := if neg then 2 ^ (f.mant + f.ebits) else 0
  if m = 0 then s
  else
    let q := 1 - f.bias - (f.mant : Int)
    let t := topExp m e - (f.mant : Int)
    let l := if t < q then q else t
    let k := if e < l then m / 2 ^ (l - e).toNat else scaleTo m e l
    if k < 2 ^ f.mant then s + k else s + (l - q + 1).toNat * 2 ^ f.mant + (k - 2 ^ f.mant)

/-- A stored value: its pattern, and whether the store counts as saturated and as non-finite (R198, R206). -/
structure Stored where
  bits : Nat
  sat  : Bool
  nonf : Bool
  deriving DecidableEq, Repr

/-- A value stored in a floating format (R198). -/
def FFmt.encode (f : FFmt) (r : Rnd) (sat : Bool) (v : Num) : Stored :=
  let tooBig := fun (neg isInf : Bool) =>
    let s := if neg then 2 ^ (f.mant + f.ebits) else 0
    if sat then { bits := s + f.top, sat := true, nonf := false : Stored }
    else if f.inf then { bits := s + (2 ^ f.ebits - 1) * 2 ^ f.mant, sat := !isInf, nonf := true }
    else match f.nan with
      | some n => { bits := s + n, sat := true, nonf := true }
      | none => { bits := s + f.top, sat := true, nonf := false }
  match v with
  | .nan => match f.nan with
    | some n => { bits := n, sat := false, nonf := true }
    | none => { bits := 0, sat := true, nonf := false }
  | .inf neg => tooBig neg true
  | .fin neg m e =>
    let free := roundBits r (f.mant + 1) none m e
    let (m', e') := roundBits r (f.mant + 1) (some (1 - f.bias - (f.mant : Int))) m e
    match f.decode f.top with
    | .fin _ mt et =>
      if free.1 ≠ 0 ∧ (Num.fin false mt et).lt (.fin false free.1 free.2) then tooBig neg false
      else { bits := f.pattern neg m' e', sat := false, nonf := false }
    | _ => { bits := f.pattern neg m' e', sat := false, nonf := false }

/-- A value stored as a two's complement integer of w bits (R198). -/
def encodeInt (w : Nat) (r : Rnd) (v : Num) : Stored :=
  let clampTo := fun (neg : Bool) (k : Nat) (inf : Bool) =>
    let lim := if neg then 2 ^ (w - 1) else 2 ^ (w - 1) - 1
    let k' := if inf || lim < k then lim else k
    { bits := if neg then (2 ^ w - k') % 2 ^ w else k', sat := inf || lim < k, nonf := false : Stored }
  match v with
  | .nan => { bits := 0, sat := true, nonf := false }
  | .inf neg => clampTo neg 0 true
  | .fin neg m e =>
    let (m', e') := roundAt r m e 0
    clampTo neg (scaleTo m' e' 0) false

/-- floor(log2 |v|) for a finite value other than zero. -/
def floorLog2 (m : Nat) (e : Int) : Int := topExp m e

/-- A value stored as an E8M0 scale (R198). -/
def encodeE8 (v : Num) : Stored :=
  match v with
  | .nan => { bits := 0xFF, sat := false, nonf := false }
  | .inf _ => { bits := 254, sat := true, nonf := false }
  | .fin _ m e =>
    if m = 0 then { bits := 0, sat := false, nonf := false }
    else
      let x := floorLog2 m e + 127
      if x < 0 then { bits := 0, sat := true, nonf := false }
      else if 254 < x then { bits := 254, sat := true, nonf := false }
      else { bits := x.toNat, sat := false, nonf := false }

/-- A value stored in a format by its code (R198). An E8M0 NaN counts as stored non-finite (R206). -/
def encodeFmt (fmt : Nat) (r : Rnd) (sat : Bool) (v : Num) : Stored :=
  match ffmt fmt, intBits fmt with
  | some f, _ => f.encode r sat v
  | _, some w => encodeInt w r v
  | _, _ => let x := encodeE8 v; { x with nonf := x.bits == 0xFF }

/-- The value of a pattern of a format (R196, R198). -/
def decodeFmt (fmt b : Nat) : Num :=
  match ffmt fmt, intBits fmt with
  | some f, _ => f.decode b
  | _, some w => if b.testBit (w - 1) then .fin true (2 ^ w - b % 2 ^ w) 0 else .fin false (b % 2 ^ w) 0
  | _, _ => if b = 0xFF then .nan else .fin false 1 ((b : Int) - 127)

/-- FP64 and FP32 patterns. -/
def ofF64 (b : Nat) : Num := decodeFmt 0x00 b
def toF64 (v : Num) : Nat := (encodeFmt 0x00 .even false v).bits
def ofF32 (b : Nat) : Num := decodeFmt 0x01 b
def toF32 (v : Num) : Nat := (encodeFmt 0x01 .even false v).bits

/-! ### Fast-mode results (R212) -/

/-- `r` lies within 2 ulp of the exact value, given here to 130 bits. -/
def withinTwoUlp (p64 : Bool) (exact r : Num) : Bool :=
  match exact, r with
  | .fin n m e, .fin n' m' e' =>
    if m = 0 then m' == 0
    else
      let ulp := topExp m e - (precBits p64 : Int) + 1
      match addFin n m e (!n') m' e' with
      | .fin _ d de => !((Num.fin false 2 ulp).lt (.fin false d de))
      | _ => false
  | _, _ => exact == r

/-- Result of DIV, SQRT, RSQRT or RCP: correctly rounded in strict mode; in fast mode the part's own approximation, which
the spec bounds and does not fix (R212). DESIGN CHOICE: log entry 6. -/
def approx (strict p64 : Bool) (op : Nat) (a b : Num) (exact : Num) : Num :=
  let good := toPrec p64 (!strict) exact
  if strict then good
  else match exact with
    | .fin _ (_ + 1) _ =>
      let pat := fun v => if p64 then toF64 v else toF32 v
      let w := Config.fastResult op (if p64 then 64 else 32) (pat a) (pat b)
      let r := if p64 then ofF64 (w % 2 ^ 64) else ofF32 (w % 2 ^ 32)
      if withinTwoUlp p64 exact r then toPrec p64 true r else good
    | _ => good

/-! ### Philox-4x32-10 (R215) -/

/-- One round on the four counter words under two key words. -/
def philoxRound (c : Nat × Nat × Nat × Nat) (k0 k1 : Nat) : Nat × Nat × Nat × Nat :=
  let p0 := 0xD2511F53 * c.1
  let p1 := 0xCD9E8D57 * c.2.2.1
  ((p1 / 2 ^ 32) ^^^ c.2.1 ^^^ k0, p1 % 2 ^ 32, (p0 / 2 ^ 32) ^^^ c.2.2.2 ^^^ k1, p0 % 2 ^ 32)

def philox : Nat → Nat × Nat × Nat × Nat → Nat → Nat → Nat × Nat × Nat × Nat
  | 0, c, _, _ => c
  | n + 1, c, k0, k1 => philox n (philoxRound c k0 k1) ((k0 + 0x9E3779B9) % 2 ^ 32) ((k1 + 0xBB67AE85) % 2 ^ 32)

/-- The draw for a stored element (R215). -/
def draw (key step x out : Nat) : Nat :=
  let c := philox 10 ((x / 4) % 2 ^ 32, (x / 4) / 2 ^ 32, out, 0) key step
  match x % 4 with
  | 0 => c.1
  | 1 => c.2.1
  | 2 => c.2.2.1
  | _ => c.2.2.2

end Sys2Proof.Machine
end

