-- ==== Sys2Proof/Machine/Crypto.lean ====
section
/-!
DEFINITION. Sys2Proof/Machine/Crypto.lean: the algorithms of the cryptographic module (R395), as the standards that R395
names define them (PRESUMED, log entry 20): SHA3-256, SHA-384, HMAC, the counter-mode KDF, AES-256-GCM and ECDSA P-384 verification.
Words are held as natural numbers.
-/
namespace Sys2Proof.Machine

/-- The big-endian number of a byte string, and its `w` big-endian bytes. -/
def beNat (bs : List Byte) : Nat := bs.foldl (fun a b => 256 * a + b.toNat) 0
def natBe (w n : Nat) : List Byte := (natLe w n).reverse

/-- The bytes of an ASCII text. -/
def ascii (s : String) : List Byte := s.toList.map (fun c => byteOf c.toNat)

/-- A list cut into pieces of `n` elements; the last may be shorter. `fuel` bounds the number of pieces. -/
def chunksOf {α : Type} (n : Nat) : Nat → List α → List (List α)
  | 0, _ => []
  | fuel + 1, xs => if xs.isEmpty then [] else xs.take n :: chunksOf n fuel (xs.drop n)

/-! ### SHA3-256 (FIPS 202) -/

/-- Rotation of a 64-bit lane to the left. -/
def rotl64 (x n : Nat) : Nat := ((x <<< n) ||| (x >>> (64 - n))) % 2 ^ 64

def keccakRC : List Nat :=
  [0x1, 0x8082, 0x800000000000808A, 0x8000000080008000,
   0x808B, 0x80000001, 0x8000000080008081, 0x8000000000008009,
   0x8A, 0x88, 0x80008009, 0x8000000A,
   0x8000808B, 0x800000000000008B, 0x8000000000008089, 0x8000000000008003,
   0x8000000000008002, 0x8000000000000080, 0x800A, 0x800000008000000A,
   0x8000000080008081, 0x8000000000008080, 0x80000001, 0x8000000080008008]

def keccakRot : List Nat :=
  [0, 1, 62, 28, 27, 36, 44, 6, 55, 20, 3, 10, 43, 25, 39, 41, 45, 15, 21, 8, 18, 2, 61, 56, 14]

/-- One round of Keccak-f[1600] on 25 lanes, lane x + 5y at index x + 5y. -/
def keccakRound (a : List Nat) (rc : Nat) : List Nat :=
  let g := fun i => a.getD i 0
  let c := (List.range 5).map (fun x => g x ^^^ g (x + 5) ^^^ g (x + 10) ^^^ g (x + 15) ^^^ g (x + 20))
  let cx := fun i => c.getD i 0
  let d := (List.range 5).map (fun x => cx ((x + 4) % 5) ^^^ rotl64 (cx ((x + 1) % 5)) 1)
  let th := (List.range 25).map (fun i => g i ^^^ d.getD (i % 5) 0)
  let b := (List.range 25).map (fun i =>
    let x := i % 5
    let y := i / 5
    let s := (x + 3 * y) % 5 + 5 * x
    rotl64 (th.getD s 0) (keccakRot.getD s 0))
  let gb := fun i => b.getD i 0
  (List.range 25).map (fun i =>
    let y := 5 * (i / 5)
    let x := i % 5
    let v := gb i ^^^ ((2 ^ 64 - 1 - gb ((x + 1) % 5 + y)) &&& gb ((x + 2) % 5 + y))
    if i = 0 then v ^^^ rc else v)

def keccakF (a : List Nat) : List Nat := keccakRC.foldl keccakRound a

/-- Absorb one 136-byte block. -/
def sha3Block (a : List Nat) (blk : List Byte) : List Nat :=
  keccakF ((List.range 25).map (fun i => a.getD i 0 ^^^ (if i < 17 then fieldAt blk (8 * i) 8 else 0)))

/-- SHA3-256 of a byte string. PRESUMED: log entry 20. -/
def sha3_256 (m : List Byte) : List Byte :=
  let n := m.length / 136 + 1
  let pad := n * 136 - m.length
  let tail : List Byte := if pad = 1 then [0x86] else (0x06 : Byte) :: (zeros (pad - 2) ++ [0x80])
  let a := (chunksOf 136 n (m ++ tail)).foldl sha3Block (List.replicate 25 0)
  (a.take 4).flatMap (natLe 8)

/-! ### SHA-384 (FIPS 180-4) -/

def sha512K : List Nat :=
  [0x428A2F98D728AE22, 0x7137449123EF65CD, 0xB5C0FBCFEC4D3B2F, 0xE9B5DBA58189DBBC,
   0x3956C25BF348B538, 0x59F111F1B605D019, 0x923F82A4AF194F9B, 0xAB1C5ED5DA6D8118,
   0xD807AA98A3030242, 0x12835B0145706FBE, 0x243185BE4EE4B28C, 0x550C7DC3D5FFB4E2,
   0x72BE5D74F27B896F, 0x80DEB1FE3B1696B1, 0x9BDC06A725C71235, 0xC19BF174CF692694,
   0xE49B69C19EF14AD2, 0xEFBE4786384F25E3, 0xFC19DC68B8CD5B5, 0x240CA1CC77AC9C65,
   0x2DE92C6F592B0275, 0x4A7484AA6EA6E483, 0x5CB0A9DCBD41FBD4, 0x76F988DA831153B5,
   0x983E5152EE66DFAB, 0xA831C66D2DB43210, 0xB00327C898FB213F, 0xBF597FC7BEEF0EE4,
   0xC6E00BF33DA88FC2, 0xD5A79147930AA725, 0x6CA6351E003826F, 0x142929670A0E6E70,
   0x27B70A8546D22FFC, 0x2E1B21385C26C926, 0x4D2C6DFC5AC42AED, 0x53380D139D95B3DF,
   0x650A73548BAF63DE, 0x766A0ABB3C77B2A8, 0x81C2C92E47EDAEE6, 0x92722C851482353B,
   0xA2BFE8A14CF10364, 0xA81A664BBC423001, 0xC24B8B70D0F89791, 0xC76C51A30654BE30,
   0xD192E819D6EF5218, 0xD69906245565A910, 0xF40E35855771202A, 0x106AA07032BBD1B8,
   0x19A4C116B8D2D0C8, 0x1E376C085141AB53, 0x2748774CDF8EEB99, 0x34B0BCB5E19B48A8,
   0x391C0CB3C5C95A63, 0x4ED8AA4AE3418ACB, 0x5B9CCA4F7763E373, 0x682E6FF3D6B2B8A3,
   0x748F82EE5DEFB2FC, 0x78A5636F43172F60, 0x84C87814A1F0AB72, 0x8CC702081A6439EC,
   0x90BEFFFA23631E28, 0xA4506CEBDE82BDE9, 0xBEF9A3F7B2C67915, 0xC67178F2E372532B,
   0xCA273ECEEA26619C, 0xD186B8C721C0C207, 0xEADA7DD6CDE0EB1E, 0xF57D4F7FEE6ED178,
   0x6F067AA72176FBA, 0xA637DC5A2C898A6, 0x113F9804BEF90DAE, 0x1B710B35131C471B,
   0x28DB77F523047D84, 0x32CAAB7B40C72493, 0x3C9EBE0A15C9BEBC, 0x431D67C49C100D4C,
   0x4CC5D4BECB3E42B6, 0x597F299CFC657E2A, 0x5FCB6FAB3AD6FAEC, 0x6C44198C4A475817]

def sha384IV : List Nat :=
  [0xCBBB9D5DC1059ED8, 0x629A292A367CD507, 0x9159015A3070DD17, 0x152FECD8F70E5939,
   0x67332667FFC00B31, 0x8EB44A8768581511, 0xDB0C2E0D64F98FA7, 0x47B5481DBEFA4FA4]

def rotr64 (x n : Nat) : Nat := rotl64 x (64 - n)

/-- The message schedule, newest word first: `n` further words. -/
def sha512Sched : Nat → List Nat → List Nat
  | 0, w => w
  | n + 1, w =>
    let w2 := w.getD 1 0
    let w15 := w.getD 14 0
    let s1 := rotr64 w2 19 ^^^ rotr64 w2 61 ^^^ (w2 >>> 6)
    let s0 := rotr64 w15 1 ^^^ rotr64 w15 8 ^^^ (w15 >>> 7)
    sha512Sched n (((s1 + w.getD 6 0 + s0 + w.getD 15 0) % 2 ^ 64) :: w)

/-- One step of the compression function. -/
def sha512Step (v : List Nat) (kw : Nat × Nat) : List Nat :=
  match v with
  | [a, b, c, d, e, f, g, h] =>
    let s1 := rotr64 e 14 ^^^ rotr64 e 18 ^^^ rotr64 e 41
    let ch := (e &&& f) ^^^ ((2 ^ 64 - 1 - e) &&& g)
    let t1 := h + s1 + ch + kw.1 + kw.2
    let s0 := rotr64 a 28 ^^^ rotr64 a 34 ^^^ rotr64 a 39
    let mj := (a &&& b) ^^^ (a &&& c) ^^^ (b &&& c)
    [(t1 + s0 + mj) % 2 ^ 64, a, b, c, (d + t1) % 2 ^ 64, e, f, g]
  | _ => v

def sha512Block (h : List Nat) (blk : List Byte) : List Nat :=
  let w0 := (List.range 16).map (fun i => beNat ((blk.drop (8 * i)).take 8))
  let w := (sha512Sched 64 w0.reverse).reverse
  let v := (List.zip sha512K w).foldl sha512Step h
  List.zipWith (fun a b => (a + b) % 2 ^ 64) h v

/-- SHA-384 of a byte string. PRESUMED: log entry 20. -/
def sha384 (m : List Byte) : List Byte :=
  let n := (m.length + 16) / 128 + 1
  let tail : List Byte := (0x80 : Byte) :: (zeros (n * 128 - m.length - 17) ++ natBe 16 (8 * m.length))
  let h := (chunksOf 128 n (m ++ tail)).foldl sha512Block sha384IV
  (h.take 6).flatMap (natBe 8)

/-! ### HMAC (FIPS 198-1) and the counter-mode KDF (SP 800-108r1, R397) -/

/-- HMAC over a hash with a block of `b` bytes. PRESUMED: log entry 20. -/
def hmac (hash : List Byte → List Byte) (b : Nat) (key m : List Byte) : List Byte :=
  let k0 := padTo b (if b < key.length then hash key else key)
  hash (k0.map (· ^^^ 0x5C) ++ hash (k0.map (· ^^^ 0x36) ++ m))

def hmacSha384 (key m : List Byte) : List Byte := hmac sha384 128 key m
def hmacSha3 (key m : List Byte) : List Byte := hmac sha3_256 136 key m

/-- A derived key (R397): one iteration, counter 1, label, zero byte, context, L = 256. PRESUMED: log entry 20. -/
def kdf (key : List Byte) (label : String) (context : List Byte) : List Byte :=
  (hmacSha384 key (natBe 4 1 ++ ascii label ++ [0] ++ context ++ natBe 4 256)).take 32

/-! ### AES-256 (FIPS 197) -/

/-- The substitution table, byte x at bits [8x+7:8x]. -/
def aesSboxTable : Nat :=
  0x16BB54B00F2D99416842E6BF0D89A18CDF2855CEE9871E9B948ED9691198F8E19E1DC186B95735610EF6034866B53E708A8BBD4B1F74DDE8C6B4A61C2E2578BA08AE7A65EAF4566CA94ED58D6D37C8E779E4959162ACD3C25C2406490A3A32E0DB0B5EDE14B8EE4688902A22DC4F816073195D643D7EA7C41744975FEC130CCDD2F3FF1021DAB6BCF5389D928F40A351A89F3C507F02F94585334D43FBAAEFD0CF584C4A39BECB6A5BB1FC20ED00D153842FE329B3D63B52A05A6E1B1A2C830975B227EBE28012079A059618C323C7041531D871F1E5A534CCF73F362693FDB7C072A49CAFA2D4ADF04759FA7DC982CA76ABD7FE2B670130C56F6BF27B777C63

def aesSub (x : Nat) : Nat := (aesSboxTable >>> (8 * x)) % 256

/-- Multiply by x in AES's field. -/
def aesDouble (a : Nat) : Nat := if 128 ≤ a then (2 * a - 256) ^^^ 0x1B else 2 * a

/-- A word of the key schedule as four byte values; the schedule is built newest word first. -/
def aesSched : Nat → Nat → Nat → List (List Nat) → List (List Nat)
  | 0, _, _, w => w
  | n + 1, i, rcon, w =>
    let prev := w.getD 0 []
    let t :=
      if i % 8 = 0 then
        let r := (prev.drop 1 ++ prev.take 1).map aesSub
        [r.getD 0 0 ^^^ rcon, r.getD 1 0, r.getD 2 0, r.getD 3 0]
      else if i % 8 = 4 then prev.map aesSub else prev
    let nw := List.zipWith (· ^^^ ·) (w.getD 7 []) t
    aesSched n (i + 1) (if i % 8 = 0 then aesDouble rcon else rcon) (nw :: w)

/-- The 15 round keys of a 32-byte key, 16 byte values each. -/
def aesKeys (key : List Byte) : List (List Nat) :=
  let w0 := chunksOf 4 8 (key.map (·.toNat))
  let w := (aesSched 52 8 1 w0.reverse).reverse
  (chunksOf 4 15 w).map (fun r => r.flatMap id)

def aesMixCol (c : List Nat) : List Nat :=
  let g := fun i => c.getD (i % 4) 0
  (List.range 4).map (fun i =>
    aesDouble (g i) ^^^ (aesDouble (g (i + 1)) ^^^ g (i + 1)) ^^^ g (i + 2) ^^^ g (i + 3))

/-- SubBytes and ShiftRows: state byte r + 4c. -/
def aesSubShift (s : List Nat) : List Nat :=
  (List.range 16).map (fun i => aesSub (s.getD ((i + 4 * (i % 4)) % 16) 0))

def aesRounds : List (List Nat) → List Nat → List Nat
  | [], s => s
  | [k], s => List.zipWith (· ^^^ ·) (aesSubShift s) k
  | k :: t, s => aesRounds t (List.zipWith (· ^^^ ·) ((chunksOf 4 4 (aesSubShift s)).flatMap aesMixCol) k)

/-- One block under expanded round keys. PRESUMED: log entry 20. -/
def aesBlock (keys : List (List Nat)) (blk : List Byte) : List Byte :=
  match keys with
  | [] => blk
  | k :: t => (aesRounds t (List.zipWith (· ^^^ ·) (blk.map (·.toNat)) k)).map byteOf

/-! ### GCM (SP 800-38D) with 96-bit IVs and 128-bit tags -/

/-- Product in GF(2^128), bit 127 of the number being the block's first bit. -/
def ghashMulAux : Nat → Nat → Nat → Nat → Nat
  | 0, _, _, z => z
  | n + 1, x, v, z =>
    let z := if x.testBit n then z ^^^ v else z
    let v := if v % 2 = 1 then (v / 2) ^^^ (0xE1 <<< 120) else v / 2
    ghashMulAux n x v z
def ghashMul (x y : Nat) : Nat := ghashMulAux 128 x y 0

/-- A string brought to whole 16 B blocks with zeros. -/
def pad16 (bs : List Byte) : List Byte := padTo ((bs.length + 15) / 16 * 16) bs

def ghash (h : Nat) (bs : List Byte) : Nat :=
  (chunksOf 16 (bs.length / 16 + 1) bs).foldl (fun y b => ghashMul (y ^^^ beNat b) h) 0

/-- Counter-mode stream under a key and IV from block 2 on, XORed into a string. -/
def gcmStream (keys : List (List Nat)) (iv bs : List Byte) : List Byte :=
  ((chunksOf 16 (bs.length / 16 + 1) bs).zipIdx).flatMap (fun c =>
    xorBytes c.1 (aesBlock keys (iv ++ natBe 4 (c.2 + 2))))

/-- The tag of a ciphertext with its additional data. -/
def gcmTag (keys : List (List Nat)) (iv aad ct : List Byte) : List Byte :=
  let h := beNat (aesBlock keys (zeros 16))
  let s := ghash h (pad16 aad ++ pad16 ct ++ natBe 8 (8 * aad.length) ++ natBe 8 (8 * ct.length))
  xorBytes (natBe 16 s) (aesBlock keys (iv ++ natBe 4 1))

/-- Encrypt: ciphertext and tag. PRESUMED: log entry 20. -/
def gcmSeal (key iv aad pt : List Byte) : List Byte × List Byte :=
  let keys := aesKeys key
  let ct := gcmStream keys iv pt
  (ct, gcmTag keys iv aad ct)

/-- Verify and decrypt. PRESUMED: log entry 20. -/
def gcmOpen (key iv aad ct tag : List Byte) : Option (List Byte) :=
  let keys := aesKeys key
  if gcmTag keys iv aad ct = tag then some (gcmStream keys iv ct) else none

/-! ### CTR_DRBG (SP 800-90A) with AES-256 and the derivation function, without prediction resistance (R395) -/

/-- The chained cipher of the derivation function. PRESUMED: log entry 20. -/
def drbgChain (keys : List (List Nat)) (bs : List Byte) : List Byte :=
  (chunksOf 16 (bs.length / 16) bs).foldl (fun c b => aesBlock keys (xorBytes c b)) (zeros 16)

/-- The derivation function: 48 B from a seed input of any length. PRESUMED: log entry 20. -/
def drbgDerive (seed : List Byte) : List Byte :=
  let s := pad16 (natBe 4 seed.length ++ natBe 4 48 ++ seed ++ [0x80])
  let keys := aesKeys ((List.range 32).map byteOf)
  let t := (List.range 3).flatMap (fun i => drbgChain keys (natBe 4 i ++ zeros 12 ++ s))
  let keys := aesKeys (t.take 32)
  let x := aesBlock keys ((t.drop 32).take 16)
  let y := aesBlock keys x
  x ++ y ++ aesBlock keys y

/-- Blocks of output from a state of 48 B: key, then V. PRESUMED: log entry 20. -/
def drbgBlocks (st : List Byte) (n : Nat) : List Byte :=
  let keys := aesKeys (st.take 32)
  (List.range n).flatMap (fun i => aesBlock keys (natBe 16 ((beNat (st.drop 32) + i + 1) % 2 ^ 128)))

/-- The update of a state with 48 B. PRESUMED: log entry 20. -/
def drbgUpdate (st data : List Byte) : List Byte := xorBytes (drbgBlocks st 3) data

/-- Generate 32 B: the state after, and the bytes. PRESUMED: log entry 20. -/
def drbgGenerate (st : List Byte) : List Byte × List Byte :=
  let v := natBe 16 ((beNat (st.drop 32) + 2) % 2 ^ 128)
  (drbgUpdate (st.take 32 ++ v) (zeros 48), drbgBlocks st 2)

/-! ### ECDSA P-384 verification (FIPS 186-5) -/

def p384P : Nat := 2 ^ 384 - 2 ^ 128 - 2 ^ 96 + 2 ^ 32 - 1
def p384N : Nat :=
  0xFFFFFFFFFFFFFFFFFFFFFFFFFFFFFFFFFFFFFFFFFFFFFFFFC7634D81F4372DDF581A0DB248B0A77AECEC196ACCC52973
def p384B : Nat :=
  0xB3312FA7E23EE7E4988E056BE3F82D19181D9C6EFE8141120314088F5013875AC656398D8A2ED19D2A85C8EDD3EC2AEF
def p384Gx : Nat :=
  0xAA87CA22BE8B05378EB1C71EF320AD746E1D3B628BA79B9859F741E082542A385502F25DBF55296C3A545E3872760AB7
def p384Gy : Nat :=
  0x3617DE4A96262C6F5D9E98BF9292DC29F8F41DBD289A147CE9DA3113B5F0B8C00A60B1CE1D7E819D7A431D7C90EA0E5F

/-- Modular power by square and multiply over the exponent's low `n` bits. -/
def powMod (b m : Nat) : Nat → Nat → Nat
  | 0, _ => 1
  | n + 1, x =>
    let h := powMod b m n (x / 2)
    let s := h * h % m
    if x % 2 = 1 then s * b % m else s

def invMod (a m : Nat) : Nat := powMod (a % m) m 384 (m - 2)

/-- Subtraction modulo p. -/
def subP (a b : Nat) : Nat := (a + p384P - b % p384P) % p384P

/-- A point in Jacobian coordinates; z = 0 is the point at infinity. -/
abbrev JPoint := Nat × Nat × Nat

def jDouble (q : JPoint) : JPoint :=
  let p := p384P
  let (x, y, z) := q
  if z = 0 ∨ y = 0 then (1, 1, 0)
  else
    let zz := z * z % p
    let m := 3 * (subP x zz) * ((x + zz) % p) % p
    let yy := y * y % p
    let s := 4 * x * yy % p
    let x3 := subP (m * m % p) (2 * s)
    let y3 := subP (m * (subP s x3) % p) (8 * yy * yy)
    (x3, y3, 2 * y * z % p)

def jAdd (q r : JPoint) : JPoint :=
  let p := p384P
  let (x1, y1, z1) := q
  let (x2, y2, z2) := r
  if z1 = 0 then r else if z2 = 0 then q
  else
    let z11 := z1 * z1 % p
    let z22 := z2 * z2 % p
    let u1 := x1 * z22 % p
    let u2 := x2 * z11 % p
    let s1 := y1 * z22 % p * z2 % p
    let s2 := y2 * z11 % p * z1 % p
    if u1 = u2 then (if s1 = s2 then jDouble q else (1, 1, 0))
    else
      let h := subP u2 u1
      let rr := subP s2 s1
      let hh := h * h % p
      let hhh := h * hh % p
      let v := u1 * hh % p
      let x3 := subP (subP (rr * rr % p) hhh) (2 * v)
      let y3 := subP (rr * (subP v x3) % p) (s1 * hhh)
      (x3, y3, z1 * z2 % p * h % p)

/-- Scalar product over the scalar's low `n` bits. -/
def jMul (q : JPoint) : Nat → Nat → JPoint
  | 0, _ => (1, 1, 0)
  | n + 1, k =>
    let h := jDouble (jMul q n (k / 2))
    if k % 2 = 1 then jAdd h q else h

def onCurve (x y : Nat) : Bool :=
  x < p384P && y < p384P && y * y % p384P == subP (x * x % p384P * x + p384B) (3 * x)

/-- A signature (r, s) of a message under the public point (x, y) verifies. PRESUMED: log entry 20. -/
def ecdsaVerify (x y r s : Nat) (msg : List Byte) : Bool :=
  if r = 0 ∨ s = 0 ∨ p384N ≤ r ∨ p384N ≤ s ∨ !onCurve x y then false
  else
    let z := beNat (sha384 msg)
    let w := invMod s p384N
    let u1 := z * w % p384N
    let u2 := r * w % p384N
    let (px, _, pz) := jAdd (jMul (p384Gx, p384Gy, 1) 384 u1) (jMul (x, y, 1) 384 u2)
    if pz = 0 then false
    else
      let iz := invMod pz p384P
      px * (iz * iz % p384P) % p384P % p384N == r

end Sys2Proof.Machine
end

