-- ==== Sys2Proof/Machine/Code.lean ====
section
/-!
DEFINITION. Sys2Proof/Machine/Code.lean: the field, the coefficients, the placement of stripes and their decoding (R35 to
R61), the heartwood code (R323, R324) and the CRC-64 of flits, sectors and leaves (R286, R368).
-/
namespace Sys2Proof.Machine

/-! ### The field GF(2^8) (R45) -/

/-- Multiply by x: shift left and reduce modulo 0x11D. -/
def gfDouble (a : Nat) : Nat := if 128 ≤ a then (2 * a - 256) ^^^ 0x1D else 2 * a

/-- The product of two field elements, as R45's pseudocode forms it over the eight bits of b. -/
def gfMulAux : Nat → Nat → Nat → Nat
  | 0, _, _ => 0
  | n + 1, a, b => (if b % 2 = 1 then a else 0) ^^^ gfMulAux n (gfDouble a) (b / 2)
def gfMul (a b : Nat) : Nat := gfMulAux 8 (a % 256) (b % 256)

/-- A power of a field element. -/
def gfPow (a : Nat) : Nat → Nat
  | 0 => 1
  | n + 1 => gfMul a (gfPow a n)

/-- The inverse of a non-zero element, a^254; 0x00 for 0x00, as GRV_GF_TEST.INV_A reads. -/
def gfInv (a : Nat) : Nat :=
  let a2 := gfMul a a
  let a4 := gfMul a2 a2
  let a8 := gfMul a4 a4
  let a16 := gfMul a8 a8
  let a32 := gfMul a16 a16
  let a64 := gfMul a32 a32
  let a128 := gfMul a64 a64
  gfMul a128 (gfMul a64 (gfMul a32 (gfMul a16 (gfMul a8 (gfMul a4 a2)))))

/-- A string of bytes times one coefficient (R48). -/
def gfScale (c : Nat) (bs : List Byte) : List Byte :=
  if c = 1 then bs else bs.map (fun b => byteOf (gfMul c b.toNat))

/-- log_α of a non-zero element, α = 0x02. -/
def gfLog (a : Nat) : Nat := ((List.range 255).find? (fun n => gfPow 2 n == a)).getD 255

/-- The coefficient of parity row j and data index i (R46, R47). -/
def coeff (j i : Nat) : Nat := gfInv (0x10 ^^^ (j ^^^ i))

/-! ### Placement (R41 to R43) -/

/-- The role of a position at a row: r = (p − s) mod w (R43). -/
def roleOf (w p s : Nat) : Nat := (p + w - s % w) % w

/-- Position of data index i at row s (R42). -/
def dataPos (w s i : Nat) : Nat := (s + i) % w

/-- Position of parity row j at row s (R42). -/
def parityPos (w k s j : Nat) : Nat := (s + k + j) % w

/-! ### Decoding (R54, R55) -/

/-- A leaf of a stripe by its code row: data index, or k + parity row. -/
def genRow (k t : Nat) : List Nat :=
  if t < k then (List.range k).map (fun i => if i = t then 1 else 0)
  else (List.range k).map (fun i => coeff (t - k) i)

/-- The survivors R54 takes, in its order, from the code rows that are present. -/
def survivors (k : Nat) (present : List Nat) : List Nat :=
  ((List.range 20).filter (fun t => present.contains t)).take k

/-- Row operations of Gauss–Jordan elimination over the field: clear column c of every row but the pivot's. -/
def eliminate (c : Nat) (piv : List Nat) (row : List Nat) : List Nat :=
  let f := row.getD c 0
  if f = 0 then row else List.zipWith (fun a b => a ^^^ gfMul f b) row piv

/-- One column of the elimination: find a pivot at or below row c, scale it, clear the column elsewhere. -/
def pivotStep (m : List (List Nat)) (c : Nat) : List (List Nat) :=
  match ((m.zipIdx).drop c).find? (fun r => r.1.getD c 0 != 0) with
  | none => m
  | some (row, i) =>
    let inv := gfInv (row.getD c 0)
    let piv := row.map (gfMul inv)
    let swapped := (m.set i (m.getD c [])).set c piv
    (swapped.zipIdx).map (fun r => if r.2 = c then piv else eliminate c piv r.1)

/-- The inverse of a k × k matrix, by elimination beside the unit matrix. -/
def invMatrix (k : Nat) (m : List (List Nat)) : List (List Nat) :=
  let aug := (m.zipIdx).map (fun r => r.1 ++ (List.range k).map (fun i => if i = r.2 then 1 else 0))
  ((List.range k).foldl pivotStep aug).map (fun r => r.drop k)

/-- A row vector times a matrix. -/
def rowMul (k : Nat) (v : List Nat) (m : List (List Nat)) : List Nat :=
  (List.range k).map (fun c => (List.zipWith (fun a r => gfMul a (r.getD c 0)) v m).foldl (· ^^^ ·) 0)

/-- The decoding row e_t for a lost leaf t and the chosen survivors, in their order (R55). -/
def decodeRow (k : Nat) (chosen : List Nat) (t : Nat) : List Nat :=
  rowMul k (genRow k t) (invMatrix k (chosen.map (genRow k)))

/-! ### The heartwood code (R323 to R325) -/

/-- Change of the check bytes 2i and 2i + 1 for a data delta at offset o of its sector (R325). -/
def heartDelta (o : Nat) (d : Byte) : Byte × Byte :=
  let n := o / 32
  let h1 := gfMul (gfMul d.toNat (1 ^^^ gfPow 2 (n + 2))) 0xF4
  (byteOf (d.toNat ^^^ h1), byteOf h1)

/-- Change of a sector's 64 check bytes for the delta of the bytes from offset o on (R325). -/
def heartChange (o : Nat) (delta : List Byte) : List Byte :=
  delta.zipIdx.foldl (fun h de =>
    if de.1 = 0 then h else
      let i := (o + de.2) % 32
      let c := heartDelta (o + de.2) de.1
      (h.set (2 * i) (h.getD (2 * i) 0 ^^^ c.1)).set (2 * i + 1) (h.getD (2 * i + 1) 0 ^^^ c.2)) (zeros 64)

/-- The check bytes of a whole sector (R323). -/
def heartwood (sector : List Byte) : List Byte := heartChange 0 sector

/-- Codeword i of a sector and its check bytes, by exponent: check bytes at 0 and 1, data byte n at n + 2 (R323). -/
def codeword (sector check : List Byte) (i : Nat) : List Nat :=
  [(check.getD (2 * i) 0).toNat, (check.getD (2 * i + 1) 0).toNat]
    ++ (List.range 128).map (fun n => (sector.getD (32 * n + i) 0).toNat)

/-- Syndromes S0 = C(1) and S1 = C(α) of a codeword (R324). -/
def syndromes (cw : List Nat) : Nat × Nat :=
  (cw.foldl (· ^^^ ·) 0, cw.zipIdx.foldl (fun s e => s ^^^ gfMul e.1 (gfPow 2 e.2)) 0)

/-- Error mode for one codeword (R324): the byte correction as (exponent, value), none for no error; fails otherwise. -/
def errorMode (s : Nat × Nat) : Option (Option (Nat × Nat)) :=
  if s.1 = 0 ∧ s.2 = 0 then some none
  else if s.1 = 0 ∨ s.2 = 0 then none
  else
    let j := gfLog (gfMul s.2 (gfInv s.1))
    if 129 < j then none else some (some (j, s.1))

/-- A sector and its heartwood line with a codeword's symbol at an exponent XORed with a value (R323, R324). -/
def fixSymbol (s : List Byte × List Byte) (i j v : Nat) : List Byte × List Byte :=
  let o := if j < 2 then 2 * i + j else 32 * (j - 2) + i
  let fix := fun (bs : List Byte) => bs.set o (bs.getD o 0 ^^^ byteOf v)
  if j < 2 then (s.1, fix s.2) else (fix s.1, s.2)

/-- Error-mode decoding of a whole sector and its heartwood line: none when some codeword fails (R324). -/
def heartDecode (sector check : List Byte) : Option (List Byte × List Byte) :=
  (List.range 32).foldl (fun acc i =>
    match acc with
    | none => none
    | some s =>
      match errorMode (syndromes (codeword sector check i)) with
      | none => none
      | some none => some s
      | some (some (j, v)) => some (fixSymbol s i j v)) (some (sector, check))

/-- The sector that error mode decodes (R324). -/
def heartError (sector check : List Byte) : Option (List Byte) := (heartDecode sector check).map (·.1)

/-- Erasure-mode decoding: line l of the sector is erased; its two bytes of codeword i lie at exponents 2l + 2 and 2l + 3
(R324). -/
def heartErasure (sector check : List Byte) (l : Nat) : List Byte :=
  let sec0 := overlay sector (64 * l) (zeros 64)
  (List.range 32).foldl (fun s i =>
    let (s0, s1) := syndromes (codeword sec0 check i)
    let a := gfPow 2 (2 * l + 2)
    let b := gfPow 2 (2 * l + 3)
    let e2 := gfMul (s1 ^^^ gfMul a s0) (gfInv (a ^^^ b))
    let e1 := s0 ^^^ e2
    (s.set (64 * l + i) (byteOf e1)).set (64 * l + 32 + i) (byteOf e2)) sec0

/-! ### CRC-64, ECMA-182 polynomial (R286, R368) -/

/-- One bit of the CRC register. -/
def crcBit (c : Nat) (b : Bool) : Nat :=
  let top := c.testBit 63 != b
  let s := (2 * c) % 2 ^ 64
  if top then s ^^^ 0x42F0E1EBA9EA3693 else s

/-- One byte, most significant bit first. -/
def crcByte (c : Nat) (b : Byte) : Nat :=
  (List.range 8).foldl (fun c i => crcBit c (b.toNat.testBit (7 - i))) c

/-- The CRC of a byte string; the register starts at 0 (R368). -/
def crc64 (bs : List Byte) : Nat := bs.foldl crcByte 0

/-- The register after `n` zero bytes. -/
def crcZeros (c n : Nat) : Nat := (List.replicate n (0 : Byte)).foldl crcByte c

end Sys2Proof.Machine
end

