-- ==== Sys2Proof/Machine/Intr.lean ====
section
/-!
DEFINITION. Sys2Proof/Machine/Intr.lean: the interrupt controller (R478 to R485) as operations every meaning uses to raise a
source.
-/
namespace Sys2Proof.Machine

/-- Interrupt source numbers (R478, R516), by their names. -/
inductive Src where
  | ENGINE_READY | CORE_RESUMED | HANG_RESET | CMD_TIMEOUT | OUT_OF_SERVICE | UNIT_PRUNED | CLUSTER_LOW | MAP_FAIL
  | SYNC_HIT | TIME_ALARM | PPS_LOST | PPS_REJECT | GCNT_LOST
  | CMD_DONE (q : Nat) | CQ_HALT (q : Nat) | START_DONE | PATH_DISAGREE
  | STRAY_PARITY_WR | WRITER_VIOLATION | MIRROR_TORN | PLAIN_LOST | ANCHORED_LOST | KEY_MISS
  | DELTA_LAG | SAP_STUCK | LOG_OVER | LOG_EXPOSED | POINT_STUCK | LOG_INCOMPLETE | REPLAY_GAP
  | BND_ORDER | FLUSH_LATE | SEAL_LATE | RING_WRITE_CLOSED | RING_SEALED | SEAL_SPLIT | SEAL_STUCK | RING_STALL
  | COMMIT_LATE | ROLL_GAP
  | INTAKE_UNKNOWN | INTAKE_BAD | TIER_LATE
  | MEMBER_LOST | GROVE_ISOLATED | SELF_FENCED | ACC_FALLBACK | REPAIR_FAIL | MIRROR_BEHIND | EVAC_READY | BEYOND_CODE
  | PORT_EXCLUDED | PLANE_UNDER
  | RESERVED_WR | BARK_MISCORRECT | TAP_OLD_LOST | MEM_UNREPAIRED | SRAM_UE
  | ANCHOR_DUE | ANCHOR_ABORT | RESTORE_DIFF | ADOPT_DOWNGRADED
  | AUTH_FAIL | CRYPTO_ERROR | ZEROIZED
  | SHARE_ADVICE | LINK_ADVICE | SEAL_ADVICE | THICK_ADVICE | EVAC_ADVICE | CLASS_ADVICE | HEAT_ADVICE
  deriving DecidableEq, Repr

/-- The number of a source (R478, R516). -/
def srcNum : Src → Nat
  | .ENGINE_READY => 0 | .CORE_RESUMED => 1 | .HANG_RESET => 2 | .CMD_TIMEOUT => 3 | .OUT_OF_SERVICE => 4
  | .UNIT_PRUNED => 5 | .CLUSTER_LOW => 6 | .MAP_FAIL => 7
  | .SYNC_HIT => 16 | .TIME_ALARM => 17 | .PPS_LOST => 18 | .PPS_REJECT => 19 | .GCNT_LOST => 20
  | .CMD_DONE q => 32 + q % 4 | .CQ_HALT q => 36 + q % 4 | .START_DONE => 40 | .PATH_DISAGREE => 41
  | .STRAY_PARITY_WR => 64 | .WRITER_VIOLATION => 65 | .MIRROR_TORN => 66 | .PLAIN_LOST => 67
  | .ANCHORED_LOST => 68 | .KEY_MISS => 69
  | .DELTA_LAG => 80 | .SAP_STUCK => 81 | .LOG_OVER => 82 | .LOG_EXPOSED => 83 | .POINT_STUCK => 84
  | .LOG_INCOMPLETE => 85 | .REPLAY_GAP => 86
  | .BND_ORDER => 96 | .FLUSH_LATE => 97 | .SEAL_LATE => 98 | .RING_WRITE_CLOSED => 99 | .RING_SEALED => 100
  | .SEAL_SPLIT => 101 | .SEAL_STUCK => 102 | .RING_STALL => 103 | .COMMIT_LATE => 104 | .ROLL_GAP => 105
  | .INTAKE_UNKNOWN => 112 | .INTAKE_BAD => 113 | .TIER_LATE => 114
  | .MEMBER_LOST => 128 | .GROVE_ISOLATED => 129 | .SELF_FENCED => 130 | .ACC_FALLBACK => 131 | .REPAIR_FAIL => 132
  | .MIRROR_BEHIND => 133 | .EVAC_READY => 134 | .BEYOND_CODE => 135
  | .PORT_EXCLUDED => 144 | .PLANE_UNDER => 145
  | .RESERVED_WR => 160 | .BARK_MISCORRECT => 161 | .TAP_OLD_LOST => 162 | .MEM_UNREPAIRED => 163 | .SRAM_UE => 164
  | .ANCHOR_DUE => 176 | .ANCHOR_ABORT => 177 | .RESTORE_DIFF => 178 | .ADOPT_DOWNGRADED => 179
  | .AUTH_FAIL => 192 | .CRYPTO_ERROR => 193 | .ZEROIZED => 194
  | .SHARE_ADVICE => 208 | .LINK_ADVICE => 209 | .SEAL_ADVICE => 210 | .THICK_ADVICE => 211 | .EVAC_ADVICE => 212
  | .CLASS_ADVICE => 213 | .HEAT_ADVICE => 214

/-- The targets a source is routed to; sources 4 and 193 always read 0b11 (R483). -/
def Eng.target (e : Eng) (n : Nat) : Nat :=
  if n = 4 ∨ n = 193 then 3 else e.rd (Reg.INT_SRC_CFG_TARGET n)

/-- mc_irq_l is low: some delivered and unclaimed source is routed to target 1 (R482). -/
def Eng.mcIrq (e : Eng) : Bool := e.intr.delivered.any (fun n => bit (e.target n) 1)

/-- The group of a source (R480). -/
def Eng.groupOf (e : Eng) (n : Nat) : Nat := e.rd (Reg.INT_SRC_CFG_GROUP n)

/-- Unfired events of a group (R480). -/
def Eng.unfiredIn (e : Eng) (g : Nat) : List Nat := e.intr.unfired.filter (fun n => e.groupOf n == g)

/-- A firing of a group that is not masked: every unfired event of the group becomes delivered; target 0 gets one message
where some event is routed to it, or the firing is counted where the group has no address (R480, R482).
DEDUCED: log entry 10. -/
def Eng.deliver (e : Eng) (g : Nat) : Eng :=
  let ev := e.unfiredIn g
  let host := ev.any (fun n => bit (e.target n) 0)
  let addr := 4 * e.rd (Reg.INT_GRP_ADDR_ADDR g)
  let e1 := if host then
      if addr = 0 then e.bump Reg.INT_STAT_NOADDR
      else (e.bump Reg.INT_STAT_MSGS).emit (.message addr (e.rd (Reg.INT_GRP_DATA_DATA g)))
    else e
  { e1 with intr := { e1.intr with
      unfired := e.intr.unfired.filter (fun n => e.groupOf n != g),
      delivered := e.intr.delivered ++ (ev.eraseDups.filter (fun n => !e.intr.delivered.contains n)) } }

/-- A group that would fire: it records the firing while masked (R481), and otherwise delivers. DEDUCED: log entry 10. -/
def Eng.fire (e : Eng) (g : Nat) : Eng :=
  if e.on (Reg.INT_GRP_CFG_MASK g) then e.flag (Reg.INT_GRP_CFG_FIRED_PEND g) true else e.deliver g

/-- A privileged group fires and holds off (R480). DEDUCED: log entry 10. -/
def Eng.firePrivileged (e : Eng) (g : Nat) : Eng :=
  let e := e.fire g
  { e with intr := { e.intr with holdoff := if e.intr.holdoff.contains g then e.intr.holdoff else e.intr.holdoff ++ [g] } }

/-- A new unfired event in a group (R480). -/
def Eng.groupEvent (e : Eng) (g : Nat) : Eng :=
  if g < 8 then (if e.intr.holdoff.contains g then e else e.firePrivileged g)
  else if e.rd (Reg.INT_GRP_CFG_COUNT g) ≤ (e.unfiredIn g).length then e.fire g else e

/-- A watch names the source, so that its event starts the fast clocks (R485). DEDUCED: log entry 10. -/
def Eng.watched (e : Eng) (n : Nat) : Bool :=
  (List.range 32).any (fun i => e.on (Reg.INT_WATCH_EN i) && e.rd (Reg.INT_WATCH_SOURCE i) == n)

/-- The fast clocks run again; the engine stays running until SLEEP is written again (R438), whose bit keeps what was written
last (R11). -/
def Eng.startClocks (e : Eng) : Eng := e.flag Reg.GEN_PWR_ASLEEP false

/-- A demand starts the fast clocks where they are stopped (R310, R438). -/
def Eng.wakeClocks (e : Eng) : Eng := if e.on Reg.GEN_PWR_ASLEEP then e.startClocks else e

/-- An event on a source (R479): a disabled source takes none, an event on a pending source is merged into it. -/
def Eng.srcEvent (e : Eng) (n : Nat) : Eng :=
  if !e.on (Reg.INT_SRC_CFG_EN n) then e
  else
    let e := if e.on Reg.GEN_PWR_ASLEEP && e.watched n then e.startClocks else e
    if e.on (Reg.INT_SRC_CFG_PENDING n) then e
    else
      let e := e.flag (Reg.INT_SRC_CFG_PENDING n) true
      let e := { e with intr := { e.intr with unfired := e.intr.unfired ++ [n] } }
      e.groupEvent (e.groupOf n)

/-- A level-sensed source (SENSE 0 or 1): the level that makes its event; none for an edge-sensed one. -/
def Eng.activeLevel (e : Eng) (n : Nat) : Option Bool :=
  match e.rd (Reg.INT_SRC_CFG_SENSE n) with
  | 0 => some true
  | 1 => some false
  | _ => none

/-- A level-sensed source whose level holds while it is neither pending nor in service takes an event, and one whose level
has gone stops pending (R479). DEDUCED: log entry 10. -/
def Eng.levelCheck (e : Eng) (n : Nat) : Eng :=
  match e.activeLevel n with
  | none => e
  | some act =>
    if e.on (Reg.INT_SRC_CFG_RAW n) == act then
      if e.on (Reg.INT_SRC_CFG_PENDING n) || e.on (Reg.INT_SRC_CFG_IN_SERVICE n) then e else e.srcEvent n
    else e.flag (Reg.INT_SRC_CFG_PENDING n) false

/-- The request of a source takes a level; edges and levels make events by SENSE (R479). -/
def Eng.request (e : Eng) (n : Nat) (b : Bool) : Eng :=
  let old := e.on (Reg.INT_SRC_CFG_RAW n)
  let e := e.flag (Reg.INT_SRC_CFG_RAW n) b
  let sense := e.rd (Reg.INT_SRC_CFG_SENSE n)
  if sense < 2 then e.levelCheck n
  else if old == b then e
  else if (b && (sense == 2 || sense == 4)) || (!b && (sense == 3 || sense == 4)) then e.srcEvent n
  else e

/-- A source that is not level pulses: its request rises and falls within one register-clock cycle (R478). -/
def Eng.raise (e : Eng) (s : Src) : Eng := (e.request (srcNum s) true).request (srcNum s) false

/-- A level source follows its condition (R478). -/
def Eng.setLevel (e : Eng) (s : Src) (b : Bool) : Eng := e.request (srcNum s) b

/-- The source that a claim of target t finds first: the lowest-numbered with a delivered event, routed to t and not in
service (R484). -/
def Eng.claimable (e : Eng) (t : Nat) : Option Nat :=
  (List.range 512).find? (fun n =>
    e.intr.delivered.contains n && bit (e.target n) t && !e.on (Reg.INT_SRC_CFG_IN_SERVICE n))

/-- A read of INT_CLAIMt (R484). DEDUCED: log entry 10. -/
def Eng.claim (e : Eng) (t : Nat) : Eng :=
  match e.claimable t with
  | none => e.emit (.answer 0x3FF)
  | some n =>
    let e1 := { e with intr := { e.intr with delivered := e.intr.delivered.filter (· != n) } }
    if e.on (Reg.INT_SRC_CFG_PENDING n) then
      let e1 := { e1 with intr := { e1.intr with claimedBy := put e1.intr.claimedBy n t } }
      let e1 := e1.flag (Reg.INT_SRC_CFG_IN_SERVICE n) true
      let e1 := if (e.activeLevel n).isSome then e1 else e1.flag (Reg.INT_SRC_CFG_PENDING n) false
      e1.emit (.answer n)
    else (e1.bump Reg.INT_STAT_SPURIOUS).emit (.answer 0x3FF)

/-- A write of a source number to INT_COMPLETEt (R484). DEDUCED: log entry 10. -/
def Eng.completeSrc (e : Eng) (t n : Nat) : Eng :=
  if e.on (Reg.INT_SRC_CFG_IN_SERVICE n) && look e.intr.claimedBy n == some t then
    let e := e.flag (Reg.INT_SRC_CFG_IN_SERVICE n) false
    let e := { e with intr := { e.intr with claimedBy := cut e.intr.claimedBy n } }
    match e.activeLevel n with
    | none => e
    | some act =>
      let e := e.flag (Reg.INT_SRC_CFG_PENDING n) false
      if e.on (Reg.INT_SRC_CFG_RAW n) == act then e.srcEvent n else e
  else e

/-- TIME µs have passed since the oldest unfired event of a coalescing group (R480). -/
def Eng.coalesceExpiry (e : Eng) (g : Nat) : Eng :=
  if 8 ≤ g && !(e.unfiredIn g).isEmpty then e.fire g else e

/-- The hold-off of a privileged group ends: events that arrived during it fire once and start a new one (R480). -/
def Eng.holdoffExpiry (e : Eng) (g : Nat) : Eng :=
  if e.intr.holdoff.contains g then
    let e := { e with intr := { e.intr with holdoff := e.intr.holdoff.filter (· != g) } }
    if (e.unfiredIn g).isEmpty then e else e.firePrivileged g
  else e

/-- MASK of a group goes to 0: a recorded firing is delivered at once (R481). -/
def Eng.unmask (e : Eng) (g : Nat) : Eng :=
  let e := e.flag (Reg.INT_GRP_CFG_MASK g) false
  if e.on (Reg.INT_GRP_CFG_FIRED_PEND g) then (e.flag (Reg.INT_GRP_CFG_FIRED_PEND g) false).deliver g else e

end Sys2Proof.Machine
end

