-- ==== Sys2Proof/Machine/Regions.lean ====
section
/-!
DEFINITION. Sys2Proof/Machine/Regions.lean: what the engine knows of its grove, its regions and its leaves: geometry (R35,
R36, R41 to R43), regions and contexts (R67, R72, R488), element indices (R85), who holds what (R111, R58).
-/
namespace Sys2Proof.Machine

/-- The bytes of a leaf, a sector, a line (R35). -/
def leafBytes : Nat := 1048576
def sectorBytes : Nat := 4096

/-! ### The grove -/

def Eng.locked (e : Eng) : Bool := e.on Reg.GEN_START_LOCKED
def Eng.w (e : Eng) : Nat := e.rd Reg.GRV_CFG_W
def Eng.k (e : Eng) : Nat := e.rd Reg.GRV_CFG_K
def Eng.m (e : Eng) : Nat := e.rd Reg.GRV_CFG_M
def Eng.pos (e : Eng) : Nat := e.rd Reg.GRV_CFG_POS

/-- This engine's place address (R33). -/
def Eng.place (e : Eng) : Nat :=
  4096 * e.rd Reg.GEN_PLACE_BLOCK + 64 * e.rd Reg.GEN_PLACE_CUBE + e.rd Reg.GEN_PLACE_CHIP

/-- A position is present: named by the map and not declared lost. -/
def Eng.isPresent (e : Eng) (p : Nat) : Bool :=
  e.on (Reg.GRV_MEMBER_PRESENT p) && !e.on (Reg.GRV_MEMBER_LOST p)

/-- Present positions, ascending. -/
def Eng.present (e : Eng) : List Nat := (List.range 16).filter e.isPresent

/-- Every other present member (R233). -/
def Eng.peers (e : Eng) : List Nat := e.present.filter (· != e.pos)

/-- The place bound to a position. -/
def Eng.placeOf (e : Eng) (p : Nat) : Nat := e.rd (Reg.GRV_MEMBER_PLACE p)

/-- The map of positions declared lost. -/
def Eng.lostMap (e : Eng) : Nat := e.rd Reg.RBD_LOSS_STAT_LOST_MAP

/-- Serving: not fenced and in service (R237, R459). -/
def Eng.oos (e : Eng) : Bool := e.on Reg.GEN_RESET_STAT_OOS
def Eng.fenced (e : Eng) : Bool := e.on Reg.RBD_LOSS_STAT_FENCED
def Eng.serving (e : Eng) : Bool := !e.oos && !e.fenced

/-- The first present position of the sequence (p + d), (p + 2d), … that a predicate admits; d is w − 1 to count down. -/
def Eng.nextPresent (e : Eng) (p d : Nat) (ok : Nat → Bool) : Option Nat :=
  ((List.range (e.w - 1)).map (fun i => (p + (i + 1) * d) % e.w)).find? (fun x => e.isPresent x && ok x)

/-! ### Local memory -/

/-- Bytes of local memory: eight stacks of equal capacity (R25). -/
def Eng.memSize (e : Eng) : Nat := 8 * e.rd Reg.GEN_FLOOR_SUM_STACK_GIB * 2 ^ 30

/-- Exclusive top of the software-usable range (R314). -/
def Eng.usableTop (e : Eng) : Nat := e.rd Reg.MEM_USABLE_TOP_TOP * leafBytes
/-- DESIGN CHOICE: log entry 69. -/
def Eng.journalBase (e : Eng) : Nat := e.rd Reg.MEM_JOURNAL_BASE_BASE * leafBytes
/-- DESIGN CHOICE: log entry 69. -/
def Eng.bitmapBase (e : Eng) : Nat := e.rd Reg.MEM_BITMAP_BASE_BASE * leafBytes
def Eng.hwBase (e : Eng) : Nat := e.rd Reg.MEM_HW_BASE_BASE * leafBytes

/-- A journal object, by kind and key, lies in a line that is listed as unrepaired (R328, R329). DESIGN CHOICE: log entry 89. -/
def Eng.journalBad (e : Eng) (kind : Nat) (key : List Nat) (len : Nat) : Bool :=
  let a := e.journalBase + 64 * Config.journalAt kind key
  e.unrep.any (fun l => a ≤ 64 * l && 64 * l < a + len)

/-! ### Regions -/

def Rgn.contains (r : Rgn) (a : Nat) : Bool := r.base ≤ a && a < r.base + r.len
def Rgn.rows (r : Rgn) : Nat := r.len / leafBytes
def Rgn.rowOf (r : Rgn) (a : Nat) : Nat := (a - r.base) / leafBytes
def Rgn.rowAddr (r : Rgn) (row : Nat) : Nat := r.base + row * leafBytes
/-- Leaf index of a row of the region on this member (R24). -/
def Rgn.leaf (r : Rgn) (row : Nat) : Nat := r.base / leafBytes + row

/-- Classes 1 to 3 are coded; 1 to 4 are the grove's (R74). -/
def Rgn.coded (r : Rgn) : Bool := 1 ≤ r.cls && r.cls ≤ 3
def Rgn.streamed (r : Rgn) : Bool := r.cls == 1
def Rgn.ringed (r : Rgn) : Bool := r.cls == 2
def Rgn.frozen (r : Rgn) : Bool := r.cls == 3
def Rgn.mirror (r : Rgn) : Bool := r.cls == 4
def Rgn.protectedCls (r : Rgn) : Bool := 1 ≤ r.cls && r.cls ≤ 4

/-- Mirror-eligible: mirror, or coded-ringed with ALLOW_MIRROR (R71). -/
def Rgn.mirrorEligible (r : Rgn) : Bool := r.cls == 4 || (r.cls == 2 && bit r.auto 1)

def Eng.rgn? (e : Eng) (n : Nat) : Option Rgn := e.rgns.find? (fun r => r.num == n)

/-- The valid region that contains an address, whatever the lock. -/
def Eng.rgnOver (e : Eng) (a : Nat) : Option Rgn := e.rgns.find? (fun r => r.contains a)

/-- The region that an address falls in once the start lock is set; before it every leaf is plain (R72). -/
def Eng.rgnAt (e : Eng) (a : Nat) : Option Rgn := if e.locked then e.rgnOver a else none

/-- Role of this member at a row (R43), and whether the leaf there is parity. -/
def Eng.role (e : Eng) (row : Nat) : Nat := roleOf e.w e.pos row
def Eng.isParityRow (e : Eng) (r : Rgn) (row : Nat) : Bool := r.coded && e.k ≤ e.role row

/-- Rows of a region that are data leaves on this member (R85). -/
def Eng.dataRows (e : Eng) (r : Rgn) : List Nat :=
  (List.range r.rows).filter (fun s => !e.isParityRow r s)

/-- The row that holds data leaf number n of a region. -/
def Eng.dataRow (e : Eng) (r : Rgn) (n : Nat) : Option Nat := (e.dataRows r)[n]?

/-- Address of data byte i of a region (R85). -/
def Eng.dataAddr (e : Eng) (r : Rgn) (i : Nat) : Option Nat :=
  (e.dataRow r (i / leafBytes)).map (fun row => r.rowAddr row + i % leafBytes)

/-- Data bytes of a region on this member. -/
def Eng.dataLen (e : Eng) (r : Rgn) : Nat := (e.dataRows r).length * leafBytes

/-- Element width E of a format (R102). -/
def elemWidth (fmt : Nat) : Nat :=
  if fmt = 0 then 8 else if fmt = 1 ∨ fmt = 9 then 4 else if fmt = 2 ∨ fmt = 3 then 2 else 1

/-! ### Contexts (R488) -/

/-- A context that nothing has written. DEDUCED: log entry 79. -/
def Ctx.zero : Ctx := { heat := 0, digest := false, st := 0, lagged := 0, stamp := 0, seq := 0, ring := 0 }

def Eng.ctx (e : Eng) (leaf : Nat) : Ctx := (look e.ctxs leaf).getD Ctx.zero
def Eng.setCtx (e : Eng) (leaf : Nat) (c : Ctx) : Eng := { e with ctxs := put e.ctxs leaf c }
def Eng.updCtx (e : Eng) (leaf : Nat) (f : Ctx → Ctx) : Eng := e.setCtx leaf (f (e.ctx leaf))

/-- Context states (R488): 0 clean, 1 dirty, 2 sealing, 3 lagging, 4 degraded, 5 rebuilding. The state of a leaf, or the one that a
lagging leaf returns to (R122). -/
def Ctx.under (c : Ctx) : Nat := if c.st = 3 then c.lagged else c.st

/-- A leaf takes a state; one that lags shows it once it lags no more (R122, DESIGN CHOICE, log entry 96). -/
def Eng.setLeafState (e : Eng) (leaf st : Nat) : Eng :=
  e.updCtx leaf (fun c => if c.st = 3 then { c with lagged := st } else { c with st := st })
def Eng.isRebuilding (e : Eng) (leaf : Nat) : Bool := (e.ctx leaf).under == 5
def Eng.isDegraded (e : Eng) (leaf : Nat) : Bool := (e.ctx leaf).under == 4

/-- Parity of a stripe no longer matches the owner's leaf (R327, R329, R338): this engine's own parity leaf of the stripe is
marked degraded, and the stripe is remembered. The spec gives no message that tells another holder (DEDUCED, log entry 26). -/
def Eng.stripeLost (e : Eng) (r : Rgn) (row ring : Nat) : Eng :=
  let e := if e.isParityRow r row then e.setLeafState (r.leaf row) 4 else e
  if r.coded && !e.oldLost.contains (r.num, row, ring) then { e with oldLost := e.oldLost ++ [(r.num, row, ring)] } else e

/-- The 16 B of a context as the aperture shows them (R488). DEDUCED: log entry 79. -/
def Eng.ctxBytes (e : Eng) (leaf : Nat) : List Byte :=
  let c := e.ctx leaf
  let r := e.rgnAt (leaf * leafBytes)
  let cls := match r with | some r => r.cls | none => 5
  let num := match r with | some r => r.num | none => 0
  natLe 4 (c.heat * 2 ^ 24 + (if c.digest then 2 ^ 19 else 0) + c.st * 2 ^ 16 + cls * 2 ^ 12 + num)
    ++ natLe 4 c.stamp ++ natLe 4 c.seq ++ natLe 4 c.ring

/-! ### Holders (R42, R58, R111) -/

/-- The thickening host of a stripe, as this owner knows it. -/
def Eng.thickHost (e : Eng) (region row : Nat) : Option Nat :=
  (e.thickDests.find? (fun t => t.region == region && t.row == row)).map (·.host)

/-- Present holders of the parity rows of the stripe at a row, in ascending parity row, as (row j, position).
DEDUCED: log entry 34. -/
def Eng.holders (e : Eng) (row : Nat) : List (Nat × Nat) :=
  ((List.range e.m).map (fun j => (j, parityPos e.w e.k row j))).filter (fun jp => e.isPresent jp.2)

/-- A spare that grafts into a position takes a leaf's packets from this owner's snapshot for it on (R249). -/
def Eng.awaitsSnap (e : Eng) (region row p : Nat) : Bool :=
  (match look e.loss.grafts p with | some ph => ph < 6 | none => false) &&
  !(e.snaps.any (fun s => s.builder == p && !s.thick && s.region == region && s.row == row))

/-- Destinations of a packet of this owner's leaf: the present holders, then the thickening host (R111). -/
def Eng.destsOf (e : Eng) (region row : Nat) : List Dest :=
  ((e.holders row).filter (fun jp => !e.awaitsSnap region row jp.2)).map
    (fun jp => { pos := jp.2, thick := false, gone := false, resends := 0, missed := false })
    ++ (match e.thickHost region row with
        | some h => if e.isPresent h then [{ pos := h, thick := true, gone := false, resends := 0, missed := false }] else []
        | none => [])

/-- The row this engine hosts for thickening at a stripe. -/
def Eng.hostedRow (e : Eng) (region row : Nat) : Option Hosted :=
  e.hosted.find? (fun h => h.region == region && h.row == row)

/-- The parity row this engine applies a packet to: its own row by R43, or row m when the packet is THICK (R119). -/
def Eng.parityRowFor (e : Eng) (region row : Nat) (thick : Bool) : Option Nat :=
  if thick then (e.hostedRow region row).map (fun _ => e.m)
  else if e.k ≤ e.role row then some (e.role row - e.k) else none

/-- Any two regions of one number: replace a region's record. -/
def Eng.setRgn (e : Eng) (r : Rgn) : Eng :=
  { e with rgns := e.rgns.map (fun x => if x.num == r.num then r else x) }

end Sys2Proof.Machine
end

