-- ==== Sys2Proof/Machine/Link.lean ====
section
/-!
DEFINITION. Sys2Proof/Machine/Link.lean: the grove's wiring and routes (R60 to R64), flits (R286 to R288), credits, the send
queues of a port and their draining onto the link (R291 to R297, R307).
-/
namespace Sys2Proof.Machine

/-! ### Wiring and routes (R60, R61, R64) -/

/-- Chord partner of a position (R61). -/
def chordPartner (w p : Nat) : Option Nat :=
  if w % 2 = 0 then some ((p + w / 2) % w)
  else
    let h := (w - 1) / 2
    if p < h then some (p + h) else if p < 2 * h then some (p - h) else none

/-- The position that port n of position p is cabled to, for ports 0 to 2 (R60). -/
def farOf (w p n : Nat) : Option Nat :=
  match n with
  | 0 => some ((p + 1) % w)
  | 1 => some ((p + w - 1) % w)
  | 2 => chordPartner w p
  | _ => none

/-- The neighbours of a position, as GRV_WIRING shows them (R60, R61). -/
def Eng.wireUp (e : Eng) (w p : Nat) : Eng :=
  let chord := chordPartner w p
  let e := (e.flag Reg.GRV_WIRING_P2_VALID chord.isSome).wr Reg.GRV_WIRING_P2_NBR (chord.getD 0)
  (e.wr Reg.GRV_WIRING_P0_NBR ((p + 1) % w)).wr Reg.GRV_WIRING_P1_NBR ((p + w - 1) % w)

/-- Neighbours of a position over ports 0 to 2. -/
def neighbours (w p : Nat) : List Nat := ((List.range 3).filterMap (farOf w p)).eraseDups

/-- A port's link is present (R64): it is UP, LOW or waking, or under a link reset, which is neither exclusion nor
restoration. -/
def Eng.portUp (e : Eng) (p : Nat) : Bool :=
  let s := e.rd (Reg.GP_STAT_STATE p)
  (5 ≤ s && s ≤ 7) || (1 ≤ s && s ≤ 4 && (e.ports.getD p Port.reset).resetting)

/-- A position can be a node of a route on the grove plane: present, and not reached by the fabric alone (R254).
DESIGN CHOICE: log entry 12. -/
def Eng.onPlane (e : Eng) (p : Nat) : Bool := p < e.w && e.isPresent p && !e.loss.fabric.contains p

/-- One round of relaxation of hop distances to a destination; 99 stands for none. -/
def relaxDist (w : Nat) (ok : Nat → Nat → Bool) (d : List Nat) : List Nat :=
  (d.zipIdx).map (fun v => ((neighbours w v.2).filter (ok v.2)).foldl (fun a q => min a (d.getD q 99 + 1)) v.1)

/-- A link between two positions is present, as far as this engine knows: both ends are on the plane, it is not known to be
down, and where one end is this engine, one of its ports to the other is up (DESIGN CHOICE, log entry 12). -/
def Eng.linkOk (e : Eng) (a b : Nat) : Bool :=
  e.onPlane a && e.onPlane b && !e.linksDown.contains (min a b, max a b) &&
    (let own := fun q => (List.range 3).any (fun n => farOf e.w e.pos n == some q && e.portUp n)
     (a != e.pos || own b) && (b != e.pos || own a))

/-- Hop distances of every position to a destination (R64). DESIGN CHOICE: log entry 12. -/
def Eng.dists (e : Eng) (dst : Nat) : List Nat :=
  (List.range e.w).foldl (fun d _ => relaxDist e.w e.linkOk d) ((List.range e.w).map (fun p => if p = dst then 0 else 99))

/-- The port a packet leaves on: the up port of 0 to 2 whose far end is nearest the destination, ties to the lowest
(R64). DESIGN CHOICE: log entry 12. -/
def Eng.routePort (e : Eng) (dst : Nat) : Option Nat :=
  if !e.onPlane dst then none
  else
    let d := e.dists dst
    let c := (List.range 3).filterMap (fun n =>
      match farOf e.w e.pos n with
      | some q => if e.portUp n && e.onPlane q && d.getD q 99 < 99 then some (d.getD q 99, n) else none
      | none => none)
    match c with
    | [] => none
    | x :: xs => some (xs.foldl (fun a b => if b.1 < a.1 then b else a) x).2

/-! ### Ports -/

/-- What a port holds beside its registers. -/
def Eng.port (e : Eng) (p : Nat) : Port := e.ports.getD p Port.reset
def Eng.setPort (e : Eng) (p : Nat) (q : Port) : Eng := { e with ports := e.ports.set p q }
def Eng.updPort (e : Eng) (p : Nat) (f : Port → Port) : Eng := e.setPort p (f (e.port p))

/-- States of a port (GP_STAT.STATE). -/
def psDown : Nat := 0
def psDetect : Nat := 1
def psEqualise : Nat := 2
def psLock : Nat := 3
def psWidth : Nat := 4
def psUp : Nat := 5
def psLow : Nat := 6
def psWake : Nat := 7
def psExcluded : Nat := 8
def psHeld : Nat := 9
def psTest : Nat := 10

def Eng.portState (e : Eng) (p : Nat) : Nat := e.rd (Reg.GP_STAT_STATE p)

/-! ### Flits (R286, R287) -/

def ftIdle : Nat := 0
def ftData : Nat := 1
def ftCtrl : Nat := 2
def ftAbort : Nat := 3

/-- The 256 B of a flit: type, channel and class, FSEQ, offset of the first packet start, body. -/
def flitBytes (ftype vc cls fseq first : Nat) (body : List Byte) : List Byte :=
  let h := [byteOf ftype, byteOf (vc + 4 * cls)] ++ natLe 2 fseq ++ [byteOf first] ++ zeros 3 ++ padTo 240 body
  h ++ natLe 8 (crc64 h)

/-- A packet's length with its envelope, from its header (R107, R288). -/
def wireLen (bs : List Byte) : Nat := 64 + 64 * popcount (fieldAt bs 40 8) 64

/-- Flits a packet of a length takes. -/
def flitsOf (n : Nat) : Nat := (n + 239) / 240

/-! ### Control messages (R299) -/

/-- A control message as its 16 B stand in a CTRL body (R299). -/
def LinkMsg.bytes : LinkMsg → List Byte
  | .init port present attempt => padTo 16 ([1, byteOf port] ++ natLe 2 present ++ [byteOf attempt])
  | .id place pos noPos => padTo 16 ([2] ++ natLe 3 place ++ [byteOf (pos % 16 + (if noPos then 128 else 0))])
  | .width passing w used final => padTo 16 ([3] ++ natLe 2 passing ++ [byteOf w] ++ natLe 2 used ++ [if final then 1 else 0])
  | .retryReq fseq => padTo 16 ([4] ++ natLe 2 fseq)
  | .ack fseq => padTo 16 ([5] ++ natLe 2 fseq)
  | .credit vc cls freed => padTo 16 ([6, byteOf vc, byteOf cls] ++ natLe 2 freed)
  | .restripe used fseq => padTo 16 ([7] ++ natLe 2 used ++ natLe 2 fseq)
  | .lowReq => padTo 16 [8]
  | .lowAck => padTo 16 [9]
  | .lowNak => padTo 16 [10]
  | .wake => padTo 16 [11]
  | .beat low => padTo 16 [12, if low then 1 else 0]

/-- The CTRL flit that carries one control message (R286, R287, R299). -/
def ctrlFlit (m : LinkMsg) : List Byte := flitBytes ftCtrl 0 0 0 15 m.bytes

/-- Two messages of one kind. -/
def LinkMsg.sameKind (a b : LinkMsg) : Bool := a.bytes.head? == b.bytes.head?

/-! ### Credits (R295, R296) -/

/-- Buffer of a channel and class at a receiver, in flits. -/
def bufferOf (vc cls : Nat) : Nat :=
  if cls = 0 then (match vc with | 0 => 512 | 1 => 128 | _ => 256) else 18

/-- Key of a channel and class. -/
def credKey (vc cls : Nat) : Nat := 32 * vc + cls

/-- Credit that a sender has on a channel and class: flits freed there, as CREDIT messages told it, less flits sent, modulo
65,536. -/
def Port.credit (q : Port) (vc cls : Nat) : Nat :=
  let k := credKey vc cls
  ((look q.freedFar k).getD 0 + 65536 - (look q.used k).getD 0) % 65536

/-- The class in which a packet that takes n more flits may start (R296): the shared pool, else the free escape slot of its
remaining distance. -/
def Port.classFor (q : Port) (vc n d : Nat) : Option Nat :=
  if n ≤ q.credit vc 0 then some 0
  else if d < 16 && q.credit vc (1 + d) == 18 then some (1 + d)
  else none

/-! ### Draining a send queue -/

/-- The lane of the next flit (R290): the used lanes in ascending order, in turn; lane 0 alone in LOW and while the port has
no used lane (R278, R307). -/
def Eng.nextLane (e : Eng) (p : Nat) : Nat :=
  let used := (List.range 16).filter (fun l => bit (e.rd (Reg.GP_LANES_USED p)) l)
  if e.portState p == psLow then 0 else ((used.find? (fun l => (e.port p).lane ≤ l)).or used.head?).getD 0

/-- A flit goes on the next lane (R290). DESIGN CHOICE: log entry 13. -/
def Eng.onLane (e : Eng) (p : Nat) (a : Nat → Action) : Eng :=
  (e.updPort p (fun q => { q with lane := e.nextLane p + 1 })).emit (a (e.nextLane p))

/-- A control message goes out, in a CTRL flit (R290, R299). DESIGN CHOICE: log entry 13. -/
def Eng.ctl (e : Eng) (p : Nat) (m : LinkMsg) : Eng := e.onLane p (fun l => .link p l m (ctrlFlit m))

/-- A message of a kind has been answered, or is no longer asked: it is repeated no more (R299).
DESIGN CHOICE: log entry 13. -/
def Eng.answered (e : Eng) (p : Nat) (m : LinkMsg) : Eng :=
  e.updPort p (fun q => { q with asks := q.asks.filter (fun x => !x.sameKind m) })

/-- A message of a kind waits for its answer (R299). -/
def Eng.asking (e : Eng) (p : Nat) (m : LinkMsg) : Bool := (e.port p).asks.any (fun x => x.sameKind m)

/-- A control message goes out that is repeated until it is answered (R299). -/
def Eng.ask (e : Eng) (p : Nat) (m : LinkMsg) : Eng :=
  ((e.answered p m).updPort p (fun q => { q with asks := q.asks ++ [m] })).ctl p m

/-- Ports whose unanswered messages go again: the spec gives the repetition no period, so a free value says at each cycle of the
time clock which ports repeat theirs (R299, DESIGN CHOICE, log entry 13). DESIGN CHOICE: log entry 1. -/
def Eng.repeatAsks (e : Eng) : Eng :=
  if e.ports.all (fun q => q.asks.isEmpty) then e
  else
    let v := (Config.freeWord e.free).toNat
    (e.useFree 1).each ((List.range 4).filter (fun p => bit v p)) (fun p e => e.each (e.port p).asks (fun m e => e.ctl p m))

/-- The next sequenced flit leaves (R286, R290, R292). DESIGN CHOICE: log entry 13. -/
def Eng.sendFlit (e : Eng) (p ftype vc cls first : Nat) (body : List Byte) : Eng :=
  let q := e.port p
  let f := flitBytes ftype vc cls q.txFseq first body
  (e.setPort p { q with txFseq := (q.txFseq + 1) % 4096, replay := q.replay ++ [(q.txFseq, f)] }).onLane p (fun l => .flit p l f)

/-- A packet that may travel on lane 0 of a port in LOW (R307): channel 1, HEARTBEAT and LOSS_NOTICE. -/
def TxPkt.lowOk (t : TxPkt) : Bool := t.vc == 1 || (let ty := fieldAt t.bytes 16 1; ty == 0x10 || ty == 0x11)

/-- Weight of a channel in the round robin of R297. -/
def vcWeight (vc : Nat) : Nat := if vc = 3 then 1 else 2

/-- A flit taken from a stream has left its buffer: the count of its channel and class goes to the sender. The count starts at
the size of the buffer, so that the first advertisement is the whole of it (R278 step 5, R296).
DESIGN CHOICE: log entry 13. -/
def Port.freedOf (q : Port) (vc cls : Nat) : Nat := (look q.freed (credKey vc cls)).getD (bufferOf vc cls)

/-- DESIGN CHOICE: log entry 13. DEDUCED: log entry 58. -/
def Eng.freeFlit (e : Eng) (p vc cls : Nat) : Eng :=
  let n := ((e.port p).freedOf vc cls + 1) % 65536
  (e.updPort p (fun q => { q with freed := put q.freed (credKey vc cls) n })).ctl p (.credit vc cls n)

/-- One use of a flit in a receive buffer ends; with the last, its buffer is free (R296). -/
def Eng.unrefBuf (e : Eng) (p id : Nat) : Eng :=
  match (e.port p).bufs.find? (fun b => b.id == id) with
  | none => e
  | some b =>
    if b.refs ≤ 1 then
      (e.updPort p (fun q => { q with bufs := q.bufs.filter (fun x => x.id != id) })).freeFlit p b.vc b.cls
    else e.updPort p (fun q => { q with bufs := q.bufs.map (fun x => if x.id = id then { x with refs := x.refs - 1 } else x) })

/-- The flits that a relayed packet arrived in are let go, as far as `n` bytes of it (R291, R296). -/
def Eng.unmark (e : Eng) (t : TxPkt) (n : Nat) : Eng :=
  match t.relay with
  | some (rp, _, _) => e.each (t.marks.filter (fun m => m.1 ≤ n)) (fun m e => e.unrefBuf rp m.2)
  | none => e

/-- The class in which a packet that has not started may start, with `room` bytes left in the flit it starts in: its stream is
free and credit covers the flits it adds (R288, R296). -/
def Eng.startClass (e : Eng) (p : Nat) (q : Port) (t : TxPkt) (room : Nat) : Option Nat :=
  if e.portState p == psLow && !t.lowOk then none
  else
    let d := match farOf e.w e.pos p with
      | none => 0
      | some far => (e.dists t.dst).getD far 99
    (q.classFor t.vc (flitsOf (t.total - room)) d).filter (fun c => !q.txq.any (fun u => u.vc == t.vc && u.cls == some c))

/-- What a port can send next from one packet of its queue: the class it goes in, when a flit of it can leave. A packet that
has started sends each flit once its bytes are at hand; another starts where its stream is free and credit covers it.
DESIGN CHOICE: log entry 13. DEDUCED: log entry 58. -/
def Eng.canSend (e : Eng) (p : Nat) (q : Port) (t : TxPkt) : Option Nat :=
  if t.bytes.length < min 240 t.total || (e.boot.inReset && t.relay.isSome) then none
  else match t.cls with
    | some c => some c
    | none => e.startClass p q t 0

/-- Place of a packet within its channel: a started one, then relayed ones, then this engine's own (R291). -/
def TxPkt.rank (t : TxPkt) : Nat := if t.cls.isSome then 0 else if t.relay.isSome then 1 else 2

/-- The element of a list of least rank, the first of equals. -/
def leastBy {α : Type} (rank : α → Nat) : List α → Option α
  | [] => none
  | x :: xs => some (xs.foldl (fun a b => if rank b < rank a then b else a) x)

/-- The next packet to send from: channel 1 first, then the channels 0, 2 and 3 in turn, each for as many flits of a round as
its weight (R297). DESIGN CHOICE: log entry 13. -/
def Eng.pickTx (e : Eng) (p : Nat) : Option (Nat × TxPkt × Nat) :=
  let q := e.port p
  let turn := fun (vc : Nat) =>
    if vc = 1 then 0 else if (look q.served vc).getD 0 < vcWeight vc then 1 + vc else 5 + vc
  leastBy (fun (x : Nat × TxPkt × Nat) => turn x.2.1.vc * 8 + x.2.1.rank)
    (q.txq.zipIdx.filterMap (fun x => (e.canSend p q x.1).map (fun c => (x.2, x.1, c))))

/-- A packet packed behind another in a flit's body (R288): the next of its channel that has not started, where its bytes are
at hand and it may go in the same class. DESIGN CHOICE: log entry 13. -/
def Eng.pickNext (e : Eng) (p vc c room : Nat) : Option (Nat × TxPkt) :=
  let q := e.port p
  match leastBy (fun (x : TxPkt × Nat) => x.1.rank) (q.txq.zipIdx.filter (fun x => x.1.vc == vc && x.1.cls.isNone)) with
  | some (t, i) =>
    if min room t.total ≤ t.bytes.length && !(e.boot.inReset && t.relay.isSome) && e.startClass p q t room == some c then
      some (i, t)
    else none
  | none => none

/-- Bytes of a packet go into the body of the flit being made, which has room for so many. The credit of the flits it adds is
reserved with its first bytes (R296). A packet all of whose bytes have gone leaves the queue. -/
def Eng.takeBytes (e : Eng) (p i : Nat) (t : TxPkt) (c room : Nat) : Eng :=
  let q := e.port p
  let n := min room t.total
  let k := credKey t.vc c
  let adds := flitsOf (t.total - (if room < 240 then room else 0))
  let used := if t.cls.isNone then put q.used k (((look q.used k).getD 0 + adds) % 65536) else q.used
  let t' := { t with cls := some c, total := t.total - n, bytes := t.bytes.drop n, sent := t.sent + n,
                     marks := t.marks.filter (fun m => t.sent + n < m.1) }
  (e.setPort p { q with used := used, txq := if t'.total = 0 then q.txq.eraseIdx i else q.txq.set i t' }).unmark t t'.sent

/-- The rest of a flit's body: packets are packed into their stream back to back (R288). `first` is where the first packet
starts in the body, in 16 B units, 15 for none. -/
def Eng.fillBody : Nat → Eng → Nat → Nat → Nat → List Byte → Nat → Eng × List Byte × Nat
  | 0, e, _, _, _, body, first => (e, body, first)
  | fuel + 1, e, p, vc, c, body, first =>
    let room := 240 - body.length
    match (if room = 0 then none else e.pickNext p vc c room) with
    | none => (e, body, first)
    | some (i, t) =>
      Eng.fillBody fuel (e.takeBytes p i t c room) p vc c (body ++ t.bytes.take (min room t.total))
        (if first = 15 then body.length / 16 else first)

/-- A flit's service is noted in the round of R297; a round ends when only channels that have had their share can send. -/
def Port.serve (q : Port) (vc : Nat) : Port :=
  if vc = 1 then q
  else
    let n := (look q.served vc).getD 0
    { q with served := if n < vcWeight vc then put q.served vc (n + 1) else [(vc, 1)] }

/-- One flit leaves: bytes of a packet, and behind its end those of the packets that follow it on its stream (R288). -/
def Eng.sendFrom (e : Eng) (p i : Nat) (t : TxPkt) (c : Nat) : Eng :=
  let head := t.bytes.take (min 240 t.total)
  let (e, body, first) := Eng.fillBody 15 (e.takeBytes p i t c 240) p t.vc c head (if t.cls.isNone then 0 else 15)
  (e.updPort p (fun q => { q.serve t.vc with lowSent := q.lowSent && t.vc == 1 })).sendFlit p ftData t.vc c first body

/-- Flits leave while the link is up, fewer than 1,024 are unacknowledged and something can go: a packet that has been broken
off is ended by ABORT before another goes (R291, R292). -/
def Eng.pumpN : Nat → Nat → Eng → Eng
  | 0, _, e => e
  | fuel + 1, p, e =>
    let s := e.portState p
    if (s == psUp || s == psLow) && (e.port p).replay.length < 1024 then
      match (e.port p).aborts with
      | (vc, cls) :: rest =>
        Eng.pumpN fuel p ((e.updPort p (fun q => { q with aborts := rest })).sendFlit p ftAbort vc cls 15 [])
      | [] =>
        match e.pickTx p with
        | some (i, t, c) => Eng.pumpN fuel p (e.sendFrom p i t c)
        | none => e
    else e

/-- A port in LOW wakes (R308). -/
def Eng.toWake (e : Eng) (p : Nat) : Eng := (e.wr (Reg.GP_STAT_STATE p) psWake).flag (Reg.GP_PWR_LOW_NOW p) false

/-- This end wakes a port in LOW: WAKE on lane 0 (R308). -/
def Eng.startWake (e : Eng) (p : Nat) : Eng :=
  if e.portState p == psLow then (e.ask p .wake).toWake p else e

/-- Drain a port's send queue; a packet that may not travel in LOW wakes the port (R307). DESIGN CHOICE: log entry 13. -/
def Eng.pump (e : Eng) (p : Nat) : Eng :=
  let e := Eng.pumpN 2048 p e
  if e.portState p == psLow && (e.port p).txq.any (fun t => t.cls.isNone && !t.lowOk) then e.startWake p else e

/-- A packet of this engine joins a port's send queue. -/
def Eng.enqueue (e : Eng) (p dst vc : Nat) (bytes : List Byte) : Eng :=
  e.updPort p (fun q => { q with
    txq := q.txq ++ [{ dst := dst, vc := vc, relay := none, total := bytes.length, bytes := bytes, cls := none }] })

/-! ### What is queued at a port -/

/-- A packet on its way out ends here: what has left of it is to be ended by ABORT, the credit of what has not is kept, and
the flits it arrived in are let go (R291, R292, R296). -/
def Eng.abortTx (e : Eng) (p i : Nat) : Eng :=
  match (e.port p).txq[i]? with
  | none => e
  | some t =>
    let e := (e.updPort p (fun q => { q with txq := q.txq.eraseIdx i })).unmark t (t.sent + t.total)
    match t.cls with
    | none => e
    | some c =>
      let k := credKey t.vc c
      e.updPort p (fun q => { q with
        used := put q.used k (((look q.used k).getD 0 + 65536 - flitsOf t.total) % 65536), aborts := q.aborts ++ [(t.vc, c)] })

/-- Every packet of a port's send queue that a predicate names is ended. -/
def Eng.abortWhere (e : Eng) (p : Nat) (f : TxPkt → Bool) : Eng :=
  let n := ((e.port p).txq.filter f).length
  e.each (List.range n) (fun _ e =>
    match (e.port p).txq.findIdx? f with
    | some i => e.abortTx p i
    | none => e)

/-- Packets of this engine that have not left whole are not sent (R412). -/
def Eng.dropOwnTx (e : Eng) : Eng := e.each (List.range 4) (fun p e => (e.abortWhere p (fun t => t.relay.isNone)).pump p)

/-! ### Lanes and widths (R16, R279, R284, R285) -/

/-- Present lanes of a port, as a map. -/
def Eng.presentLanes (e : Eng) (p : Nat) : Nat := bits e.fuses.lanes (16 * p + 15) (16 * p)

/-- S of R279: lanes that have passed steps 2 and 3 at both ends, are not pruned and have not left service. -/
def Eng.laneSet (e : Eng) (p : Nat) : Nat :=
  let q := e.port p
  bitsWhere 16 (fun l => bit (e.presentLanes p) l && bit (e.rd (Reg.GP_LANES_TRAINED p)) l && bit q.farPassing l &&
    !bit (e.rd (Reg.GP_LANES_PRUNED p)) l && !bit q.lost l)

/-- The largest of 16, 8, 4 and 2 that does not exceed n; 0 below 2. -/
def widthFor (n : Nat) : Nat := if 16 ≤ n then 16 else if 8 ≤ n then 8 else if 4 ≤ n then 4 else if 2 ≤ n then 2 else 0

/-- The w lowest-numbered lanes of a set. -/
def lowestLanes (s w : Nat) : Nat := (((List.range 16).filter (fun l => bit s l)).take w).foldl setBit 0

/-- W of a port, under its ceiling. -/
def Eng.widthOfPort (e : Eng) (p : Nat) : Nat := widthFor (min (popcount (e.laneSet p) 16) (e.port p).ceiling)
def Eng.usedLanes (e : Eng) (p : Nat) : Nat := lowestLanes (e.laneSet p) (e.widthOfPort p)

/-- This member's nominal lanes: 16 for each of ports 0 to 2 that R60 and R61 connect (R284). -/
def nominalLanes (w p : Nat) : Nat := if w % 2 = 1 && p + 1 = w then 32 else 48
def Eng.nominal (e : Eng) : Nat := if e.on Reg.GRV_CFG_VALID then nominalLanes e.w e.pos else 48

/-- Used lanes of ports 0 to 2. -/
def Eng.ownLanes (e : Eng) : Nat := (List.range 3).foldl (fun a p => a + popcount (e.rd (Reg.GP_LANES_USED p)) 16) 0

/-- The plane registers follow the used lanes; during a job a fall below the floor raises PLANE_UNDER (R285). -/
def Eng.planeCheck (e : Eng) : Eng :=
  let floor := e.rd Reg.GRV_PLANE_CTL_FLOOR * e.nominal
  let was := 100 * e.rd Reg.GRV_PLANE_STAT_OWN_LANES
  let now := e.ownLanes
  let e := (e.wr Reg.GRV_PLANE_STAT_OWN_LANES now).wr Reg.GRV_PLANE_STAT_OWN_PCT (100 * now / e.nominal)
  if e.locked && floor ≤ was && 100 * now < floor then e.raise .PLANE_UNDER else e

/-- The used lanes and the width of a port. -/
def Eng.setUsed (e : Eng) (p used : Nat) : Eng :=
  ((e.wr (Reg.GP_LANES_USED p) used).wr (Reg.GP_STAT_WIDTH p) (popcount used 16)).planeCheck

/-- Relayed packets that came in at a port and are still arriving are ended on their way out (R291). -/
def Eng.abortInbound (e : Eng) (p : Nat) : Eng :=
  let e := e.each (List.range 4) (fun o e =>
    (e.abortWhere o (fun t => match t.relay with | some (rp, _, _) => rp == p && t.bytes.length < t.total | none => false)).pump o)
  e.updPort p (fun q => { q with rx := [] })

/-- A packet whose first flit has not left takes the route of the distances as they stand (R64, R296); one with no route is
discarded, and counted where it is relayed (R291). What is still to arrive of a relayed one follows it. -/
def Eng.reroute (e : Eng) (t : TxPkt) : Eng :=
  match e.routePort t.dst with
  | some n => (e.updPort n (fun q => { q with txq := q.txq ++ [t] })).pump n
  | none => if t.relay.isSome then (e.unmark t (t.sent + t.total)).bump Reg.GRV_RELAY_DROP_UNREACH else e

/-- Distances are computed anew (R64): what this engine knows of the links between two others is a free value (DESIGN CHOICE, log
entry 12), and every packet whose first flit has not left takes its route anew (R296). -/
def Eng.recompute (e : Eng) : Eng :=
  let far := (Config.farLinksDown e.free).filter (fun l => l.1 != e.pos && l.2 != e.pos)
  let e : Eng := { e.useFree 1 with linksDown := far }
  let waiting := e.ports.flatMap (fun q => q.txq.filter (fun t => t.cls.isNone))
  let e : Eng := { e with ports := e.ports.map (fun q => { q with txq := q.txq.filter (fun t => t.cls.isSome) }) }
  e.each waiting (fun t e => e.reroute t)

/-! ### Training (R278 to R283) -/

/-- Lanes pass nothing and the width is 0 while a port does not carry traffic. -/
def Eng.linkDown (e : Eng) (p st : Nat) : Eng :=
  let e := e.updPort p (fun q => { q with asks := [] })
  ((e.wr (Reg.GP_STAT_STATE p) st).flag (Reg.GP_PWR_LOW_NOW p) false).setUsed p 0

/-- A port that R280 holds down, or that software does. -/
def Eng.heldDown (e : Eng) (p : Nat) : Bool :=
  e.on (Reg.GP_CTL_HOLD p) || (p == 3 && e.rd Reg.GRV_WIRING_P3_ROLE == 0) ||
  (p == 2 && e.on Reg.GRV_CFG_VALID && e.w % 2 == 1 && e.pos + 1 == e.w)

/-- One training attempt begins: lane 0 sends INIT. -/
def Eng.startAttempt (e : Eng) (p n : Nat) : Eng :=
  let e := (e.linkDown p psDetect).bump (Reg.GP_STAT_ATTEMPTS p)
  let e := e.updPort p (fun q => { q with attempt := n, farPassing := 0, lost := 0, lowSent := false, retrying := false, farId := false })
  let e := e.updPort p (fun q => { q with asks := [], ackSeen := false })
  (e.wr (Reg.GP_LANES_TRAINED p) 0).ask p (.init p (e.presentLanes p) n)

/-- A first training, or a fresh series on an excluded port. -/
def Eng.trainPort (e : Eng) (p : Nat) : Eng :=
  (e.updPort p (fun q => { q with resetting := false })).startAttempt p 1

/-- A link reset (R283): equaliser settings, FSEQ state, replay buffers, credit and sessions are kept.
DESIGN CHOICE: log entry 37. -/
def Eng.linkReset (e : Eng) (p : Nat) : Eng :=
  let s := e.portState p
  if 1 ≤ s && s ≤ psWake then
    (e.updPort p (fun q => { q with resetting := true, kept := true, reqCount := 0, reqTimes := [] })).startAttempt p 1
  else e

/-- A port is excluded (R280, R281, R283): its packets take other routes, and what it was carrying is lost; when it trains
again its link layer starts anew (DEDUCED, log entry 36). -/
def Eng.excludePort (e : Eng) (p why : Nat) : Eng :=
  let e := (e.linkDown p psExcluded).wr (Reg.GP_STAT_EXCL p) why
  let e := e.abortInbound p
  let (waiting, begun) := (e.port p).txq.partition (fun t => t.cls.isNone)
  let e := e.each begun (fun t e => e.unmark t (t.sent + t.total))
  let e := e.updPort p (fun q => { Port.reset with ceiling := q.ceiling, kept := q.kept, bufNo := q.bufNo })
  ((e.each waiting (fun t e => e.reroute t)).recompute).raise .PORT_EXCLUDED

/-- A port leaves or enters HELD as R280 and GP_CTL.HOLD say, once the ports train at all (step 7 of R434). A held port does not
count as failed: one that had been excluded shows no cause any more. -/
def Eng.holdCheck (e : Eng) (p : Nat) : Eng :=
  let s := e.portState p
  if e.heldDown p then
    if s == psHeld || s == psTest then e
    else
      let e := if 5 ≤ s && s ≤ 7 then e.abortInbound p else e
      (e.linkDown p psHeld).wr (Reg.GP_STAT_EXCL p) 0
  else if s == psHeld && 7 ≤ e.rd Reg.GEN_BOOT_STAGE then e.trainPort p
  else e

end Sys2Proof.Machine
end

