-- ==== Sys2Proof/Machine/Sap.lean ====
section
/-!
DEFINITION. Sys2Proof/Machine/Sap.lean: thinning (R102 to R105), the SAP packet on the wire (R107, R108), sessions (R300 to
R305) and the sending of a packet (R254, R289).
-/
namespace Sys2Proof.Machine

/-! ### Packet types (R109, R83, R135, R142, R189, R238) -/

def tStreamDelta : Nat := 0x01
def tRingDelta : Nat := 0x02
def tDeltaAck : Nat := 0x03
def tDeltaRelease : Nat := 0x04
def tDeltaBusy : Nat := 0x05
def tHeartbeat : Nat := 0x10
def tLossNotice : Nat := 0x11
def tRbReq : Nat := 0x12
def tRbPart : Nat := 0x13
def tRbDone : Nat := 0x14
def tRbCredit : Nat := 0x15
def tGraftJoin : Nat := 0x16
def tGraftWelcome : Nat := 0x17
def tGraftCount : Nat := 0x18
def tGraftPhase : Nat := 0x19
def tSnapNote : Nat := 0x1A
def tThickNote : Nat := 0x1B
def tEvacData : Nat := 0x1C
def tHandover : Nat := 0x1D
def tHeatCopy : Nat := 0x1E
def tEvacState : Nat := 0x1F
def tLogData : Nat := 0x20
def tLogScalar : Nat := 0x21
def tLogAck : Nat := 0x22
def tLogRetire : Nat := 0x23
def tMirrorData : Nat := 0x24
def tMirrorDone : Nat := 0x25
def tMirrorAck : Nat := 0x26
def tMirrorTorn : Nat := 0x27
def tMirrorRead : Nat := 0x28
def tMirrorLines : Nat := 0x29
def tMirrorNone : Nat := 0x2A
def tClassProd : Nat := 0x2B
def tProdAck : Nat := 0x2C
def tSealVote : Nat := 0x30
def tVoteReq : Nat := 0x31
def tRollFetch : Nat := 0x32
def tRollData : Nat := 0x33
def tRollEnd : Nat := 0x34
def tRollNone : Nat := 0x35
def tPointReport : Nat := 0x38
def tPointDecide : Nat := 0x39
def tPointDone : Nat := 0x3A
def tPointSettled : Nat := 0x3B

/-- TYPE is defined (R109 and the chapters it names). -/
def typeDefined (t : Nat) : Bool :=
  (1 ≤ t && t ≤ 5) || (0x10 ≤ t && t ≤ 0x2C) || (0x30 ≤ t && t ≤ 0x35) || (0x38 ≤ t && t ≤ 0x3B)

/-- Virtual channel of a TYPE (R109, R295). -/
def vcOf (t : Nat) : Nat :=
  if t ≤ 2 then 0 else if t ≤ 5 then 1 else if t < 0x20 then 2 else if t < 0x30 then 3 else 1

/-! ### Thinning (R102 to R105) -/

/-- The plane-major form of a sector's delta (R103). -/
def planeMajor (w : Nat) (d : List Byte) : List Byte :=
  if w = 1 then d
  else (List.range w).flatMap (fun p => (d.zipIdx.filter (fun e => e.2 % w == p)).map (·.1))

/-- The inverse of `planeMajor` for a 4,096-byte sector. -/
def planeMinor (w : Nat) (pm : List Byte) : List Byte :=
  if w = 1 then pm
  else
    let planes := (List.range w).map (fun p => (pm.drop (p * (4096 / w))).take (4096 / w))
    (List.range (4096 / w)).flatMap (fun n => planes.map (fun pl => pl.getD n 0))

/-- The 64 plane lines of a delta, with their numbers. -/
def planeLines (w : Nat) (d : List Byte) : List (List Byte × Nat) :=
  (chunksOf 64 64 (planeMajor w d)).zipIdx

/-- LINE_MAP of a delta (R104). -/
def lineMapOf (w : Nat) (d : List Byte) : Nat :=
  ((planeLines w d).filter (fun l => !allZero l.1)).foldl (fun a l => a + 2 ^ l.2) 0

/-- PLANES that agrees with a line map (R104). -/
def planesOf (w map : Nat) : Nat :=
  bitsWhere w (fun p => bits map ((p + 1) * (64 / w) - 1) (p * (64 / w)) != 0)

/-- The payload of a delta (R104). -/
def thin (w : Nat) (d : List Byte) : List Byte :=
  ((planeLines w d).filter (fun l => !allZero l.1)).flatMap (·.1)

/-- The payload lines put back at their plane lines, absent lines zero (R105). -/
def fillLines (map : Nat) : List Nat → List Byte → List Byte
  | [], _ => []
  | t :: ts, pl => if bit map t then padTo 64 (pl.take 64) ++ fillLines map ts (pl.drop 64)
                   else zeros 64 ++ fillLines map ts pl

/-- The owner's delta recovered from a payload (R105). -/
def expand (w map : Nat) (payload : List Byte) : List Byte :=
  planeMinor w (fillLines map (List.range 64) payload)

/-! ### The packet on the wire (R107, R108) -/

/-- The 32 B header of a packet as it goes on the wire. -/
def sapHeader (typ : Nat) (p : SapPkt) : List Byte :=
  [byteOf typ, p.flags, p.gen, p.planes] ++ natLe 2 p.region.toNat ++ [p.sector, p.pos]
    ++ natLe 4 p.row.toNat ++ natLe 4 p.stamp.toNat ++ natLe 4 p.seq.toNat ++ natLe 4 p.release.toNat
    ++ natLe 8 p.lineMap.toNat

/-- The 96-bit IV (R301): sender position, generation, two zero bytes, COUNTER. -/
def sapIv (srcPos gen ctr : Nat) : List Byte := [byteOf srcPos, byteOf gen, 0, 0] ++ natLe 8 ctr

/-- Key of one direction of a session (R301, R397). -/
def sessionKey (jlk : List Byte) (sender receiver gen : Nat) : List Byte :=
  kdf jlk "SCE8 LINK" (natLe 4 sender ++ natLe 4 receiver ++ [byteOf gen])

/-- A packet as its sender puts it on the wire under a key and counter. -/
def sealPkt (key : List Byte) (ctr : Nat) (p : Pkt) : SapPkt :=
  let head : SapPkt :=
    { flags := byteOf p.flags, gen := byteOf p.gen, planes := byteOf p.planes, region := BitVec.ofNat 16 p.region,
      sector := byteOf p.sector, pos := byteOf (p.src % 16 + 16 * (p.dst % 16)), row := BitVec.ofNat 32 p.row,
      stamp := BitVec.ofNat 32 p.stamp, seq := BitVec.ofNat 32 p.seq, release := BitVec.ofNat 32 p.release,
      lineMap := BitVec.ofNat 64 p.lineMap, counter := BitVec.ofNat 64 ctr, hops := 0, body := [], tag := 0 }
  let (ct, tag) := gcmSeal key (sapIv (p.src % 16) p.gen ctr) (sapHeader p.typ head) p.payload
  { head with body := ct, tag := BitVec.ofNat 128 (beNat tag) }

/-- The fields of a packet on the wire, with a plaintext payload in place of its body. -/
def sapPlain (p : SapPkt) (typ : Nat) (payload : List Byte) : Pkt :=
  { typ := typ, flags := p.flags.toNat, gen := p.gen.toNat, src := p.pos.toNat % 16, dst := p.pos.toNat / 16,
    region := p.region.toNat, row := p.row.toNat, sector := p.sector.toNat, stamp := p.stamp.toNat,
    seq := p.seq.toNat, release := p.release.toNat, planes := p.planes.toNat, lineMap := p.lineMap.toNat,
    payload := payload }

/-- The envelope of R289 and the packet of R107 as one byte string. -/
def sapWire (p : SapPkt) (typ : Nat) : List Byte :=
  natLe 8 p.counter.toNat ++ [p.hops] ++ zeros 7 ++ sapHeader typ p ++ p.body ++ natBe 16 p.tag.toNat

/-- A byte string read as envelope and packet: its TYPE and fields; none when it is shorter than its headers. -/
def parseWire (bs : List Byte) : Option (Nat × SapPkt) :=
  if bs.length < 64 then none
  else
    let f := fun o w => fieldAt bs (16 + o) w
    some (f 0 1,
      { flags := byteOf (f 1 1), gen := byteOf (f 2 1), planes := byteOf (f 3 1), region := BitVec.ofNat 16 (f 4 2),
        sector := byteOf (f 6 1), pos := byteOf (f 7 1), row := BitVec.ofNat 32 (f 8 4), stamp := BitVec.ofNat 32 (f 12 4),
        seq := BitVec.ofNat 32 (f 16 4), release := BitVec.ofNat 32 (f 20 4), lineMap := BitVec.ofNat 64 (f 24 8),
        counter := BitVec.ofNat 64 (fieldAt bs 0 8), hops := byteOf (fieldAt bs 8 1),
        body := (bs.drop 48).take (bs.length - 64), tag := BitVec.ofNat 128 (beNat (bs.drop (bs.length - 16))) })

/-! ### Sessions -/

/-- This engine's position byte: 0x0F for a spare without a position (R301). DEDUCED: log entry 17. -/
def Eng.posByte (e : Eng) : Nat := if e.on Reg.GRV_MAP_CTL_STANDBY then 15 else e.pos

def Eng.sessAt (e : Eng) (place : Nat) : Option Sess := look e.sess place

/-- A session opens, or advances, at a generation: COUNTER starts at 1 (R302). -/
def Eng.openSess (e : Eng) (place gen : Nat) : Eng :=
  { e with sess := put e.sess place { gen := gen, st := 1, tx := 1, heard := false } }

/-- A session closes; it never reopens for the same place (R303). -/
def Eng.closeSess (e : Eng) (place : Nat) : Eng :=
  match e.sessAt place with
  | some s => { e with sess := put e.sess place { s with st := 2 } }
  | none => e

/-- The generation after one: 255 is followed by 1 (R304). -/
def nextGen (g : Nat) : Nat := if 255 ≤ g then 1 else g + 1

/-- Packets may go and come: come up, in service, not fenced, keys installed, the module not in its error state (R237, R406,
R435, R459). -/
def Eng.linked (e : Eng) : Bool := e.on Reg.GEN_BOOT_READY && e.serving && e.sec.jlk.isSome && !e.on Reg.SEC_STAT_ERROR

/-- Packets go and come, which they do not during a coding-core reset (R452). -/
def Eng.canTalk (e : Eng) : Bool := e.linked && !e.boot.inReset

/-- Between a place and this engine packets travel by the fabric route (R254, R267): the far position was grafted, or it is
a standby spare with no position, or this engine itself is a grafted spare. -/
def Eng.byFabric (e : Eng) (place dst : Nat) : Bool :=
  e.on Reg.GRV_MAP_CTL_GRAFT || e.loss.fabric.contains dst || !(e.present.any (fun p => e.placeOf p == place))

/-- The route and spill apertures in an engine's fabric window (R538). -/
def apDegraded : Nat := 0
def apSpill : Nat := 0x10000000000
def apRoute : Nat := 0x10000010000
def apMap : Nat := 0x10001000000
def apRollCall : Nat := 0x10003000000

/-- A sealed packet goes to its port's send queue, or by the fabric into the far engine's route aperture.
DESIGN CHOICE: log entry 93. -/
def Eng.dispatch (e : Eng) (place dst typ : Nat) (p : SapPkt) (fabric : Bool) : Eng :=
  if fabric then e.emit (.fabricWrite place apRoute 0 (e.rd Reg.RBD_ROUTE_KEY_KEY) (sapWire p typ))
  else
    match e.routePort dst with
    | none => e
    | some n => (e.enqueue n dst (vcOf typ) (sapWire p typ)).pump n

/-- Send a packet to a place under its session (R301, R302). A session that is advancing carries nothing but HEARTBEAT
(R305). A packet that cannot go is not sent; the end-to-end rules of its type recover it. -/
def Eng.sendPlace (e : Eng) (place : Nat) (p : Pkt) : Eng :=
  match e.sec.jlk, e.sessAt place with
  | some jlk, some s =>
    if (e.canTalk || (e.linked && p.typ == tHeartbeat)) && (s.st == 1 || (s.st == 3 && p.typ == tHeartbeat)) then
      let fab := e.byFabric place p.dst
      let q := { p with gen := s.gen, src := e.posByte, flags := if fab then p.flags ||| 1 else p.flags }
      let wire := sealPkt (sessionKey jlk e.place place s.gen) s.tx q
      let e1 := { e with sess := put e.sess place { s with tx := s.tx + 1 } }
      (e1.emit (.sap place q p.typ wire)).dispatch place p.dst p.typ wire fab
    else e
  | _, _ => e

/-- Types that an engine may have for itself: deltas for the thickening row that it hosts of a stripe it owns a leaf of, what
answers them, and what builds and fetches that row. -/
def loops (typ : Nat) : Bool := typ ≤ tDeltaRelease || typ == tSnapNote || (tRollFetch ≤ typ && typ ≤ tRollNone)

/-- Send a packet to a grove position; one for this engine itself is taken when the command settles. DEDUCED: log entry 92. -/
def Eng.send (e : Eng) (dst : Nat) (p : Pkt) : Eng :=
  if dst == e.pos && loops p.typ then
    if e.canTalk then { e with selfQ := e.selfQ ++ [{ p with src := e.posByte, dst := dst }] } else e
  else e.sendPlace (e.placeOf dst) { p with dst := dst }

/-- Spill a packet (R126): the same packet with SPILL set, written by the fabric into the destination's spill aperture with the
region's key. GRV_SPILL_BYTES counts the packet without its envelope. DESIGN CHOICE: log entry 19. -/
def Eng.sendSpill (e : Eng) (dst key : Nat) (p : Pkt) : Eng :=
  let place := e.placeOf dst
  match e.sec.jlk, e.sessAt place with
  | some jlk, some s =>
    if e.canTalk && s.st == 1 then
      let q := { p with dst := dst, gen := s.gen, src := e.posByte, flags := p.flags ||| 1 }
      let wire := sealPkt (sessionKey jlk e.place place s.gen) s.tx q
      let bytes := sapWire wire p.typ
      let e := { e with sess := put e.sess place { s with tx := s.tx + 1 } }
      ((e.emit (.sap place q p.typ wire)).emit (.fabricWrite place apSpill 0 key bytes)).bumpBy Reg.GRV_SPILL_BYTES_BYTES
        (bytes.length - 16)
    else e
  | _, _ => e

/-- Send at generation 0: GRAFT_JOIN and GRAFT_WELCOME only (R300). The header's GEN of a welcome carries the new
generation, which the key and the IV do not use (R253, DEDUCED, log entry 22). -/
def Eng.sendGen0 (e : Eng) (place dst : Nat) (p : Pkt) : Eng :=
  match e.sec.jlk with
  | some jlk =>
    if e.canTalk then
      let ctr := (look e.gen0 place).getD 1
      let q := { p with src := e.posByte, dst := dst, flags := p.flags ||| 1 }
      let key := sessionKey jlk e.place place 0
      let head := sealPkt key ctr { q with payload := [] }
      let (ct, tag) := gcmSeal key (sapIv (q.src % 16) 0 ctr) (sapHeader q.typ head) q.payload
      let wire := { head with body := ct, tag := BitVec.ofNat 128 (beNat tag) }
      let e1 := { e with gen0 := put e.gen0 place (ctr + 1) }
      (e1.emit (.sap place q p.typ wire)).dispatch place dst p.typ wire true
    else e
  | none => e

/-- Send one packet to every other present member. -/
def Eng.sendAll (e : Eng) (p : Pkt) : Eng := e.each e.peers (fun d e => e.send d p)

/-- PLANES and LINE_MAP for n whole payload lines that are not thinned (R135). -/
def wholeLines (p : Pkt) : Pkt :=
  let n := p.payload.length / 64
  if n = 0 then p else { p with planes := 1, lineMap := 2 ^ n - 1 }

/-- Authentication failures: counted, and the first in each millisecond of engine time raises AUTH_FAIL (R404).
DEDUCED: log entry 85. -/
def Eng.authFail (e : Eng) (f : Fld) : Eng :=
  let ms := e.now / 1000000
  let e := e.bump f
  if e.sec.authMs == some ms then e
  else ({ e with sec := { e.sec with authMs := some ms } }).raise .AUTH_FAIL

/-- A packet discarded as MALFORMED (R119). DEDUCED: log entry 61. -/
def Eng.malformed (e : Eng) : Eng := e.bump Reg.GRV_SAP_DROP_MALFORMED

end Sys2Proof.Machine
end

