-- ==== Sys2Proof/Machine/Mem.lean ====
section
/-!
DEFINITION. Sys2Proof/Machine/Mem.lean: what every write to local memory does beside storing its bytes: the heartwood cache
(R325), the quick digests (R368 to R372) and the dirty bitmaps of an evacuation (R334).
-/
namespace Sys2Proof.Machine

/-! ### Quick digests -/

/-- Multiply by x modulo the ECMA-182 polynomial. -/
def polyDouble (a : Nat) : Nat :=
  let s := (2 * a) % 2 ^ 64
  if a.testBit 63 then s ^^^ 0x42F0E1EBA9EA3693 else s

/-- Product of two polynomials of degree below 64, modulo the ECMA-182 polynomial; `n` bits of b are taken. -/
def polyMul : Nat → Nat → Nat → Nat
  | 0, _, _ => 0
  | n + 1, a, b => (if b % 2 = 1 then a else 0) ^^^ polyMul n (polyDouble a) (b / 2)

/-- x^(2^i · …): the power of x with exponent `e`, over `n` bits of the exponent. -/
def polyXPow : Nat → Nat → Nat
  | 0, _ => 1
  | n + 1, e =>
    let h := polyXPow n (e / 2)
    let s := polyMul 64 h h
    if e % 2 = 1 then polyDouble s else s

/-- A CRC register shifted past z zero bytes (R370). -/
def crcShift (c z : Nat) : Nat := if c = 0 then 0 else polyMul 64 c (polyXPow 32 (8 * z))

/-- A quick-digest entry that nothing has written. -/
def Dig.zero : Dig := { cur := 0, prior := 0, priorStamp := 0, current := false, priorValid := false }

def Eng.dig (e : Eng) (leaf : Nat) : Dig := (look e.digs leaf).getD Dig.zero

/-- Set an entry; the context's DIGEST bit mirrors CURRENT (R369). -/
def Eng.setDig (e : Eng) (leaf : Nat) (d : Dig) : Eng :=
  ({ e with digs := put e.digs leaf d }).updCtx leaf (fun c => { c with digest := d.current })

/-- The engine keeps a quick digest for the leaf of an address: a data leaf of classes 1 to 3, or a mirror leaf (R369). -/
def Eng.digLeaf (e : Eng) (a : Nat) : Bool :=
  match e.rgnAt a with
  | some r => r.mirror || (r.coded && !e.isParityRow r (r.rowOf a))
  | none => false

/-- Fold a change of bytes from an address on, within one leaf, into CUR (R370). -/
def Eng.foldDig (e : Eng) (a : Nat) (delta : List Byte) : Eng :=
  if e.digLeaf a then
    let leaf := a / leafBytes
    let d := e.dig leaf
    let z := leafBytes - a % leafBytes - delta.length
    e.setDig leaf { d with cur := d.cur ^^^ crcShift (crc64 delta) z }
  else e

/-- The quick digest of a leaf as it stands in memory, from its bytes. -/
def Eng.leafCrc (e : Eng) (leaf : Nat) : Nat :=
  (e.mem.filter (fun c => leaf * leafBytes ≤ c.1 && c.1 < (leaf + 1) * leafBytes)).foldl (fun s c =>
    s ^^^ crcShift (crcByte 0 c.2) ((leaf + 1) * leafBytes - 1 - c.1)) 0

/-- The line of the quick-digest table that holds a leaf's entry (R369). -/
def Eng.digLine (e : Eng) (leaf : Nat) : Nat := (e.journalBase + 32 * leaf) / 64

/-- Recompute a leaf that is not current: sets CURRENT, clears PRIOR_VALID, writes the entry's line, and is counted (R372); the ledger is told where
the leaf enters a weight digest (R384). DEDUCED: log entry 67. -/
def Eng.recomputeDig (e : Eng) (leaf : Nat) : Eng :=
  let streamed := match e.rgnAt (leaf * leafBytes) with | some r => r.streamed | none => false
  let e : Eng := if streamed then
      { e with keep := { e.keep with led := { e.keep.led with recomputed := true } } } else e
  let e : Eng := { e with unrep := e.unrep.filter (· != e.digLine leaf) }
  (e.setDig leaf { e.dig leaf with cur := e.leafCrc leaf, current := true, priorValid := false }).bump
    Reg.DIG_STAT_RECOMPUTED

/-- A use that needs a leaf's digest first recomputes one that is not current (R372). -/
def Eng.needDig (e : Eng) (leaf : Nat) : Eng := if (e.dig leaf).current then e else e.recomputeDig leaf

/-- A writing pass of a step has reached a streamed leaf that carries a later stamp than an earlier step, or no later one: what
stands in CUR is then of a step after t (R378). -/
def Eng.passedStep (e : Eng) (leaf t : Nat) : Bool :=
  precedes t (e.ctx leaf).stamp || (e.dig leaf).begun.any (precedes t)

/-- The copy of R371, before the first writing pass of a step writes any line of a streamed leaf. -/
def Eng.copyDig (e : Eng) (leaf step : Nat) : Eng :=
  if precedes (e.ctx leaf).stamp step && (e.dig leaf).begun != some step then
    let e := e.needDig leaf
    let d := e.dig leaf
    e.setDig leaf { d with prior := d.cur, priorStamp := (e.ctx leaf).stamp, priorValid := true, begun := some step }
  else e

/-! ### The heartwood cache -/

/-- Entries of the heartwood cache (R325). -/
def hwCacheSize : Nat := 16384

/-- Read-modify-write of an evicted entry into its heartwood line (R325). -/
def Eng.evictHw (e : Eng) : Eng :=
  match e.hwc with
  | [] => e
  | (n, h) :: t => ({ e with hwc := t }).memXor (e.hwBase + 64 * n) h

/-- A heartwood line as the engine takes it: the line in memory with any cache entry for it (R325); one that cannot be read is
recomputed from its sector (R329).
DESIGN CHOICE: log entry 69. -/
def Eng.hwLine (e : Eng) (n : Nat) : List Byte :=
  let m := e.memRead (e.hwBase + 64 * n) 64
  if e.unrep.contains ((e.hwBase + 64 * n) / 64) then heartwood (e.memRead (n * sectorBytes) sectorBytes)
  else match e.hwc.find? (fun x => x.1 == n) with
    | some x => xorBytes m x.2
    | none => m

/-- The change of a heartwood line that its cache entry holds. -/
def Eng.hwCached (e : Eng) (n : Nat) : List Byte := ((e.hwc.find? (fun x => x.1 == n)).map (·.2)).getD (zeros 64)

/-- The change of a sector's check bytes goes into the cache, evicting the least recently used entry where it is full. -/
def Eng.hwChange (e : Eng) (n : Nat) (h : List Byte) : Eng :=
  let old := ((e.hwc.find? (fun x => x.1 == n)).map (·.2)).getD (zeros 64)
  let e1 := { e with hwc := e.hwc.filter (fun x => x.1 != n) }
  let e2 := if hwCacheSize ≤ e1.hwc.length then e1.evictHw else e1
  { e2 with hwc := e2.hwc ++ [(n, xorBytes old h)] }

/-- A heartwood line recomputed from its sector's current contents, any cache entry dropped (R327, R329, R338). -/
def Eng.hwRecompute (e : Eng) (n : Nat) : Eng :=
  let e1 := { e with hwc := e.hwc.filter (fun x => x.1 != n), unrep := e.unrep.filter (· != (e.hwBase + 64 * n) / 64) }
  e1.memWrite (e.hwBase + 64 * n) (heartwood (e.memRead (n * sectorBytes) sectorBytes))

/-- A heartwood line that cannot be read is rewritten (R329). -/
def Eng.mendHw (e : Eng) (n : Nat) : Eng :=
  if e.unrep.contains ((e.hwBase + 64 * n) / 64) then e.hwRecompute n else e

/-- Where in local memory a line has a heartwood line: outside the heartwood area (R323). -/
def Eng.hasHeart (e : Eng) (a : Nat) : Bool := a < e.hwBase

/-! ### Writes -/

/-- An evacuation keeps dirty bitmaps in its copy and cutover phases (R334). -/
def Eng.bitmapsOn (e : Eng) : Bool := let p := e.rd Reg.RBD_EVAC_STAT_PHASE; 1 ≤ p && p ≤ 3

/-- Lines of the dirty bitmaps that the cache holds: 512 KiB of 64 B (R30, R334). -/
def bitmapCacheSize : Nat := 8192

/-- A line of the dirty bitmaps, those of two leaves: as the cache has it, or as memory has it at MEM_BITMAP_BASE; every bit of
one that cannot be read is set (R329, R334). -/
def Eng.bitmapLine (e : Eng) (i : Nat) : Nat :=
  (look e.evac.dirty i).getD
    (if e.unrep.contains (e.bitmapBase / 64 + i) then 2 ^ 512 - 1 else e.memNat (e.bitmapBase + 64 * i) 64)

/-- A line of the dirty bitmaps changes in the cache; beyond its size the line used least recently is written back (R334).
DESIGN CHOICE: log entry 91. -/
def Eng.setBitmapLine (e : Eng) (i v : Nat) : Eng :=
  match e.evac.dirty.filter (fun l => l.1 != i) ++ [(i, v)] with
  | [] => e
  | l :: ls =>
    if bitmapCacheSize ≤ ls.length then
      let e : Eng := { e with evac := { e.evac with dirty := ls } }
      let a := e.bitmapBase + 64 * l.1
      let e : Eng := { e with unrep := e.unrep.filter (· != a / 64) }
      (e.hwChange (a / sectorBytes) (heartChange (a % sectorBytes) (xorBytes (e.memRead a 64) (natLe 64 l.2)))).memWrite a (natLe 64 l.2)
    else { e with evac := { e.evac with dirty := l :: ls } }

/-- The dirty bit of a sector of a leaf (R334). -/
def Eng.isDirty (e : Eng) (leaf s : Nat) : Bool := bit (e.bitmapLine (leaf / 2)) (256 * (leaf % 2) + s)
def Eng.setDirty (e : Eng) (leaf s : Nat) (b : Bool) : Eng :=
  let i := 256 * (leaf % 2) + s
  let v := e.bitmapLine (leaf / 2)
  e.setBitmapLine (leaf / 2) (if b then setBit v i else clearBit v i)

/-- A write marks its sector dirty once that sector has been sent (R334). DESIGN CHOICE: log entry 69. -/
def Eng.markDirty (e : Eng) (a : Nat) : Eng :=
  let leaf := a / leafBytes
  let s := a % leafBytes / sectorBytes
  if e.bitmapsOn && bit ((look e.evac.sent leaf).getD 0) s then e.setDirty leaf s true else e

/-- A repair of the sector of some bytes learns that their lines have been written since it began (R326). -/
def Eng.noteWrote (e : Eng) (a n : Nat) : Eng :=
  if e.recons.isEmpty then e
  else
    let mine := fun (c : Recon) => c.why == .repair && (e.rgns.any (fun r => r.num == c.region &&
      (r.rowAddr c.row + c.first * sectorBytes) / sectorBytes == a / sectorBytes))
    let ls := (List.range 64).filter (fun l => a % sectorBytes < 64 * l + 64 && 64 * l < a % sectorBytes + n)
    { e with recons := e.recons.map (fun c => if mine c then { c with wrote := c.wrote ++ ls.filter (fun l => !c.wrote.contains l) } else c) }

/-- What a change of bytes within one sector does beside the store itself, whatever its source (R325, R334, R370). -/
def Eng.touch (e : Eng) (a : Nat) (delta : List Byte) : Eng :=
  let e := if e.hasHeart a then e.hwChange (a / sectorBytes) (heartChange (a % sectorBytes) delta) else e
  let e := e.noteWrote a delta.length
  (e.foldDig a delta).markDirty a

/-- Lines that a write replaces whole leave the list of unrepaired lines (R328). -/
def Eng.freshLines (e : Eng) (a n : Nat) : Eng :=
  { e with unrep := e.unrep.filter (fun l => !(a ≤ 64 * l && 64 * l + 64 ≤ a + n)) }

/-- A write of bytes within one sector: the store and what goes with it. -/
def Eng.storeIn (e : Eng) (a : Nat) (bs : List Byte) : Eng :=
  let delta := xorBytes (e.memRead a bs.length) bs
  ((e.memWrite a bs).touch a delta).freshLines a bs.length

/-- A string from an address on, cut at sector boundaries. -/
def cutSectors : Nat → Nat → List Byte → List (Nat × List Byte)
  | 0, _, _ => []
  | fuel + 1, a, bs =>
    if bs.isEmpty then []
    else
      let n := sectorBytes - a % sectorBytes
      (a, bs.take n) :: cutSectors fuel (a + n) (bs.drop n)

/-- An engine write to local memory. It forms no delta (R96); it keeps the heartwood code and the quick digests current
(R325, R370), but on an engine that has left service (R459). -/
def Eng.store (e : Eng) (a : Nat) (bs : List Byte) : Eng :=
  e.each (cutSectors (bs.length / sectorBytes + 2) a bs) (fun p e =>
    if e.oos then e.memWrite p.1 p.2 else e.storeIn p.1 p.2)

/-- An engine write that XORs a string into local memory. -/
def Eng.storeXor (e : Eng) (a : Nat) (bs : List Byte) : Eng := e.store a (xorBytes (e.memRead a bs.length) bs)

end Sys2Proof.Machine
end

