-- ==== Sys2Proof/Machine/Time.lean ====
section
/-!
DEFINITION. Sys2Proof/Machine/Time.lean: access to the register window (R10 to R13, R436, R438), engine time (R466 to R470), the
global count's loss (R472), sync objects and watches (R474 to R477), and the commands of the interrupt controller (R480 to
R484).
-/
namespace Sys2Proof.Machine

/-! ### Access to registers -/

/-- Registers of a domain answer: the always-on ones once step 1 of the power-on sequence has run, the others from the end
of step 4 (R436). -/
def Eng.answers (e : Eng) (d : Dom) : Bool :=
  match d with
  | .alwaysOn => 1 ≤ e.rd Reg.GEN_BOOT_STAGE
  | _ => 5 ≤ e.rd Reg.GEN_BOOT_STAGE

/-- An access to a register of a domain: an error response while the domain does not answer (R436); an access to a
coding-core or crypto register starts the fast clocks (R438). -/
def Eng.access (e : Eng) (d : Dom) (f : Eng → Eng) : Eng :=
  if e.answers d then
    f (if e.on Reg.GEN_PWR_ASLEEP && (d == .coding || d == .crypto) then e.startClocks else e)
  else e.emit .busError

/-- Every bit of a value that lies in no field of a register. -/
def strayBits (flds : List Fld) (v : Nat) : Bool :=
  (List.range 64).any (fun i => bit v i && !(flds.any (fun f => f.lo ≤ i && i < f.lo + f.width)))

/-- Non-zero written to a reserved field (R13). -/
def Eng.rsvdCheck (e : Eng) (flds : List Fld) (v : Nat) : Eng :=
  if strayBits flds v then e.flag Reg.GEN_ERR_RSVD_WR true else e

/-- A write to a register or area of a domain: the coding core takes none from its reset until the resumption, which loads the
shadow of those before (R450, R451). DEDUCED: log entry 41. -/
def Eng.change (e : Eng) (d : Dom) (f : Eng → Eng) : Eng :=
  e.access d (fun e => if d == .coding && e.boot.inReset then e else f e)

/-- A write that a command's own row describes: to a register of a domain, with its fields, and its effect. -/
def Eng.write (e : Eng) (d : Dom) (flds : List Fld) (v : Nat) (f : Eng → Eng) : Eng :=
  e.change d (fun e => f (e.rsvdCheck flds v))

/-- The bits of a written value that belong to a field. -/
def Fld.of (f : Fld) (v : Nat) : Nat := bits v (f.lo + f.width - 1) f.lo

/-- The value a software write stores in a field: clamped to the field's range (R11). -/
def Fld.clamp (f : Fld) (v : Nat) : Nat := min (max v f.cmin) f.cmax

/-- A software write to an RW field. -/
def Eng.sw (e : Eng) (f : Fld) (v : Nat) : Eng := e.wr f (f.clamp (f.of v))

/-- RWL fields, the region descriptors and the microprogram store take writes (R12, R494). -/
def Eng.rwlOpen (e : Eng) : Bool := !e.locked && !e.on Reg.GEN_START_BUSY

/-- A write to a locked field or area was ignored (R12). -/
def Eng.lockedWr (e : Eng) : Eng := e.flag Reg.GEN_ERR_LOCKED_WR true

/-! ### Engine time -/

/-- The alarm: engine time has reached TIM_ALARM, which is not 0 (R470). -/
def Eng.alarmCheck (e : Eng) : Eng :=
  let a := e.rd Reg.TIM_ALARM_NS
  if a != 0 && a ≤ e.now then (e.raise .TIME_ALARM).wr Reg.TIM_ALARM_NS 0 else e

/-- Set the accumulator. -/
def Eng.setAcc (e : Eng) (a : Nat) : Eng := { e with time := { e.time with acc := a % 2 ^ 96 } }

/-- Set the target path of a backward correction. -/
def Eng.setSlew (e : Eng) (p : Option Nat) : Eng := { e with time := { e.time with slew := p, half := false } }

/-- A correction with target T ns (R468). DEDUCED: log entry 9. -/
def Eng.correct (e : Eng) (t : Nat) : Eng :=
  let target := t * 2 ^ 32
  let a := e.time.acc
  let dist := if a ≤ target then target - a else a - target
  if e.rd Reg.TIM_CTL_MAX_STEP * 1000 * 2 ^ 32 < dist then
    (e.bump Reg.TIM_PPS_STAT_REJECT).raise .PPS_REJECT
  else if a ≤ target then ((e.setSlew none).setAcc target).alarmCheck
  else e.setSlew (some target)

/-- One cycle of the time clock (R466, R468): full rate, or half rate while a backward correction runs.
DESIGN CHOICE: log entry 1. -/
def Eng.tick (e : Eng) : Eng :=
  let inc := e.rd Reg.TIM_RATE_INC
  match e.time.slew with
  | none => (e.setAcc (e.time.acc + inc)).alarmCheck
  | some p =>
    let odd := if e.time.half then 1 else 0
    let step := (inc + odd) / 2
    let a := e.time.acc + step
    let p' := p + inc
    let e1 := { e with time := { e.time with acc := a % 2 ^ 96, half := (inc + odd) % 2 == 1 } }
    (if a ≤ p' then (e1.setSlew none).setAcc p' else { e1 with time := { e1.time with slew := some p' } }).alarmCheck

/-- Symbol errors of a test (R313): they come from the lanes and no row brings them, so a free value says how many each checked
lane of a port under test meets in a cycle. DESIGN CHOICE: log entry 37. DESIGN CHOICE: log entry 1. -/
def Eng.prbsErrors (p : Nat) (e : Eng) : Eng :=
  e.each ((List.range 16).filter (fun l => bit (e.fuses.lanes) (16 * p + l) && e.rd (Reg.GP_PRBS_ERR_COUNT p l) != 0xFFFFFFFF)) (fun l e =>
    let n := (Config.freeWord e.free).toNat % 256
    (e.useFree 1).wr (Reg.GP_PRBS_ERR_COUNT p l) (min (e.rd (Reg.GP_PRBS_ERR_COUNT p l) + n) 0xFFFFFFFE))

/-- The ports whose lanes are checked: RUN, in the modes 1, 2 and 4 (R312). -/
def Eng.checking (e : Eng) (p : Nat) : Bool :=
  let m := e.rd (Reg.GP_TEST_MODE p)
  e.on (Reg.GP_TEST_RUN p) && (m == 1 || m == 2 || m == 4)

def Eng.countPrbs (e : Eng) : Eng := e.each ((List.range 4).filter e.checking) Eng.prbsErrors

/-- What an engine with no command does: with power, one cycle of the time clock, with what comes at no row of its own: symbol
errors under test, and messages that are repeated (DESIGN CHOICE, log entry 1). -/
def Eng.idle (e : Eng) : Eng := if e.pins.pwrGood then (e.tick).countPrbs.repeatAsks else e

/-- TIME_CORRECTION: a write of TIM_SET (R468). -/
def execTimeCorrection (v : DWord) (s : State) : Host.Outcome State Fault Refusal :=
  .next (s.run (fun e => e.write .alwaysOn [Reg.TIM_SET_NS] v.toNat (fun e => e.correct v.toNat)))

/-- TIME_READ: a read of TIM_NOW returns engine time in ns and latches the fraction (R466). -/
def execTimeRead (s : State) : Host.Outcome State Fault Refusal :=
  .next (s.run (fun e => e.access .alwaysOn (fun e =>
    (e.wr Reg.TIM_FRAC_FRAC (bits e.time.acc 31 24)).emit (.answer e.now))))

/-- ALARM_SET: a write of TIM_ALARM (R470). -/
def execAlarmSet (v : DWord) (s : State) : Host.Outcome State Fault Refusal :=
  .next (s.run (fun e => e.write .alwaysOn [Reg.TIM_ALARM_NS] v.toNat (fun e =>
    (e.wr Reg.TIM_ALARM_NS v.toNat).alarmCheck)))

/-- Engine time goes on to a later value: during a backward correction at half the rate of the target's path, until the two meet
(R468). -/
def Eng.passTo (e : Eng) (a : Nat) : Eng :=
  let acc := e.time.acc
  if a ≤ acc then e
  else match e.time.slew with
    | none => e.setAcc a
    | some p =>
      if a < acc + (acc - p) then { e with time := { e.time with acc := a % 2 ^ 96, slew := some (p + 2 * (a - acc)) } }
      else (e.setSlew none).setAcc a

/-- TIME_ALARM: engine time reaches TIM_ALARM (R470). DEDUCED: log entry 9. -/
def execTimeAlarm (s : State) : Host.Outcome State Fault Refusal :=
  .next (s.run (fun e =>
    let a := e.rd Reg.TIM_ALARM_NS
    if a = 0 then e else (e.passTo (a * 2 ^ 32)).alarmCheck))

/-- TIME_SLEW_END: engine time, at half rate, meets its target's path and resumes full rate (R468). DEDUCED: log entry 9. -/
def execTimeSlewEnd (s : State) : Host.Outcome State Fault Refusal :=
  .next (s.run (fun e =>
    match e.time.slew with
    | none => e
    | some p => ((e.setSlew none).setAcc (e.time.acc + (e.time.acc - p))).alarmCheck))

/-- PPS_EDGE: a rising edge of pps_in (R469). -/
def Eng.ppsEdge (e : Eng) : Eng :=
  let now := e.now
  let glitch := match e.time.lastPps with
    | none => false
    | some t => now ≤ t + 500000000
  if glitch then e.bump Reg.TIM_PPS_STAT_GLITCH
  else
    let next := e.rd Reg.TIM_PPS_NEXT_NS
    let e := e.wr Reg.TIM_PPS_CAP_NS now
    let e := e.wr Reg.TIM_PPS_ERR_NS (now + 2 ^ 64 - next)
    let e := e.flag Reg.TIM_PPS_STAT_LOST false
    let e := if e.on Reg.TIM_CTL_ALIGN then e.correct next else e
    let e := e.wr Reg.TIM_PPS_NEXT_NS (next + 1000000000)
    { e with time := { e.time with lastPps := some e.now } }

def execPpsEdge (s : State) : Host.Outcome State Fault Refusal := .next (s.run (fun e => if e.pins.pwrGood then e.ppsEdge else e))

/-- PPS_LOST: 1.5 s without an accepted edge, with PPS_EN set (R469). -/
def execPpsLost (s : State) : Host.Outcome State Fault Refusal :=
  .next (s.run (fun e =>
    if e.pins.pwrGood && e.on Reg.TIM_CTL_PPS_EN && !e.on Reg.TIM_PPS_STAT_LOST then
      (e.flag Reg.TIM_PPS_STAT_LOST true).raise .PPS_LOST
    else e))

/-- GCNT_LOST: no new global count for 10 µs (R472). -/
def execGcntLost (s : State) : Host.Outcome State Fault Refusal :=
  .next (s.run (fun e =>
    if !e.pins.pwrGood || e.on Reg.TIM_GCNT_CTL_LOST then e
    else (e.flag Reg.TIM_GCNT_CTL_LOST true).raise .GCNT_LOST))

/-! ### Sync objects -/

/-- Value of a sync object (R474). -/
def Eng.sync (e : Eng) (n : Nat) : Nat := (look e.syncs n).getD 0

/-- An address where an engine write for software may land: usable memory outside regions of classes 1 to 4 and 6 (R476). -/
def Eng.mirrorable (e : Eng) (a : Nat) : Bool :=
  a < e.usableTop && (match e.rgnOver a with
    | some r => !(r.protectedCls || r.cls == 6)
    | none => true)

/-- The mirror write of an object, issued or skipped (R476). -/
def Eng.syncMirror (e : Eng) (n : Nat) : Eng :=
  if e.on Reg.SYN_MEM_EN then
    let a := e.rd Reg.SYN_MEM_BASE * 64 + 8 * n
    if e.mirrorable a then e.store a (natLe 8 (e.sync n)) else e.flag Reg.SYN_MEM_BAD true
  else e

/-- A watch's condition: the object's value is at or above the threshold, taken serially over 64 bits (R477). -/
def Eng.watchHolds (e : Eng) (i : Nat) : Bool :=
  let v := e.sync (e.rd (Reg.SYN_WATCH_CTL_OBJ i))
  let t := e.rd (Reg.SYN_WATCH_THR_THRESH i)
  (v + 2 ^ 64 - t) % 2 ^ 64 < 2 ^ 63

/-- An enabled watch whose condition holds hits: its bit in SYN_HIT, SYNC_HIT, EN cleared (R477). -/
def Eng.watchCheck (e : Eng) (i : Nat) : Eng :=
  if e.on (Reg.SYN_WATCH_CTL_EN i) && e.watchHolds i then
    ((e.wr Reg.SYN_HIT_HIT (setBit (e.rd Reg.SYN_HIT_HIT) i)).raise .SYNC_HIT).flag (Reg.SYN_WATCH_CTL_EN i) false
  else e

/-- A change of a sync object (R475 to R477). -/
def Eng.setSync (e : Eng) (n v : Nat) : Eng :=
  let m := v % 2 ^ 64
  let e := { e with syncs := if m = 0 then cut e.syncs n else put e.syncs n m }
  let e := e.syncMirror n
  e.each ((List.range 64).filter (fun i => e.rd (Reg.SYN_WATCH_CTL_OBJ i) == n)) (fun i e => e.watchCheck i)

/-- A signal: value + 1 (R475). -/
def Eng.signal (e : Eng) (n : Nat) : Eng := e.setSync n (e.sync n + 1)

/-- SYNC_SIGNAL: a write of SYN_SIGNAL (R475). -/
def execSyncSignal (v : Word) (s : State) : Host.Outcome State Fault Refusal :=
  .next (s.run (fun e => e.write .coding [Reg.SYN_SIGNAL_OBJ] v.toNat (fun e =>
    e.signal (Reg.SYN_SIGNAL_OBJ.of v.toNat))))

/-- SYNC_SET: a write of SYN_VAL sets the object that SYN_SEL names (R475). -/
def execSyncSet (v : DWord) (s : State) : Host.Outcome State Fault Refusal :=
  .next (s.run (fun e => e.write .coding [Reg.SYN_VAL_VALUE] v.toNat (fun e =>
    e.setSync (e.rd Reg.SYN_SEL_OBJ) v.toNat)))

/-- A write of SYN_WATCH_CTLn: enabling a watch whose condition already holds hits at once (R477). -/
def Eng.watchWrite (e : Eng) (n v : Nat) : Eng :=
  ((e.sw (Reg.SYN_WATCH_CTL_OBJ n) v).sw (Reg.SYN_WATCH_CTL_EN n) v).watchCheck n

/-- WATCH_ENABLE: a write of SYN_WATCH_CTLn (R477). -/
def execWatchEnable (n : Fin 64) (v : Word) (s : State) : Host.Outcome State Fault Refusal :=
  .next (s.run (fun e => e.write .coding [Reg.SYN_WATCH_CTL_OBJ n, Reg.SYN_WATCH_CTL_EN n] v.toNat (fun e =>
    e.watchWrite n v.toNat)))

/-! ### The interrupt controller's commands -/

/-- GROUP_COALESCE_TIMER: TIME µs have passed since the oldest unfired event of a group (R480). -/
def execGroupCoalesceTimer (g : Fin 64) (s : State) : Host.Outcome State Fault Refusal :=
  .next (s.run (fun e => e.coalesceExpiry g))

/-- HOLDOFF_END: a privileged group's hold-off ends (R480). -/
def execHoldoffEnd (g : Fin 8) (s : State) : Host.Outcome State Fault Refusal :=
  .next (s.run (fun e => e.holdoffExpiry g))

/-- Fields of INT_GRP_CFGg that software writes. -/
def grpCfgFields (g : Nat) : List Fld :=
  [Reg.INT_GRP_CFG_MASK g, Reg.INT_GRP_CFG_FIRED_PEND g, Reg.INT_GRP_CFG_COUNT g, Reg.INT_GRP_CFG_TIME g]

/-- A write of INT_GRP_CFGg: MASK written 0 delivers a recorded firing at once, and a COUNT that the unfired events have
reached fires the group (R480, R481). -/
def Eng.groupWrite (e : Eng) (g v : Nat) : Eng :=
  let e := (e.sw (Reg.INT_GRP_CFG_COUNT g) v).sw (Reg.INT_GRP_CFG_TIME g) v
  let e := if (Reg.INT_GRP_CFG_MASK g).of v = 1 then e.flag (Reg.INT_GRP_CFG_MASK g) true else e.unmask g
  let n := (e.unfiredIn g).length
  if 8 ≤ g && 0 < n && e.rd (Reg.INT_GRP_CFG_COUNT g) ≤ n then e.fire g else e

/-- GROUP_UNMASK: a write of INT_GRP_CFGg (R481). -/
def execGroupUnmask (g : Fin 64) (v : Word) (s : State) : Host.Outcome State Fault Refusal :=
  .next (s.run (fun e => e.write .alwaysOn (grpCfgFields g) v.toNat (fun e => e.groupWrite g v.toNat)))

/-- INTERRUPT_CLAIM: a read of INT_CLAIMt (R484). -/
def execInterruptClaim (t : Fin 2) (s : State) : Host.Outcome State Fault Refusal :=
  .next (s.run (fun e => e.access .alwaysOn (fun e => e.claim t)))

/-- INTERRUPT_COMPLETE: a write of INT_COMPLETEt (R484). -/
def execInterruptComplete (t : Fin 2) (v : Word) (s : State) : Host.Outcome State Fault Refusal :=
  .next (s.run (fun e => e.write .alwaysOn [Reg.INT_COMPLETE_SOURCE t] v.toNat (fun e =>
    e.completeSrc t ((Reg.INT_COMPLETE_SOURCE t).of v.toNat))))

end Sys2Proof.Machine
end

