-- ==== Sys2Proof/Machine/Program.lean ====
section
/-!
DEFINITION. Sys2Proof/Machine/Program.lean: microprograms: the store (R200, R201), the check (R202), the instruction set (R203 to
R205), its arithmetic (R206, R212) and contraction (R213).
-/
namespace Sys2Proof.Machine

/-! ### Instructions (R203) -/

/-- The fields of an instruction; `fused` marks one that R213 contracts with an earlier product: 1 FMA, 2 FNMA, 3 product
minus addend; the product's operands are then A and B and the other operand is C. -/
structure MicroOp where
  op : Nat
  p  : Nat
  d  : Nat
  a  : Nat
  b  : Nat
  c  : Nat
  x  : Nat
  fused : Nat := 0
  deriving DecidableEq, Repr

/-- An instruction word (R203). -/
def readMicro (w : Nat) : MicroOp :=
  { op := bits w 63 56, p := bits w 55 54, d := bits w 53 48, a := bits w 47 42, b := bits w 41 36, c := bits w 35 30,
    x := bits w 29 0 }

/-- Source operands that an opcode uses: A, B, C (R205). -/
def srcs (op : Nat) : Option (Bool × Bool × Bool) :=
  if op = 0x00 ∨ op = 0x0F then some (false, false, false)
  else if op = 0x04 ∨ op = 0x05 ∨ op = 0x0C then some (true, true, true)
  else if op ∈ [0x01, 0x02, 0x03, 0x06, 0x07, 0x0A, 0x0B, 0x10] then some (true, true, false)
  else if op ∈ [0x08, 0x09, 0x0D, 0x0E, 0x11, 0x12, 0x13, 0x14, 0x18, 0x19, 0x1A, 0x1B] then some (true, false, false)
  else none

/-- Opcodes with a destination register. -/
def hasDest (op : Nat) : Bool := op != 0 && op < 0x18

/-- Bits of X that an opcode uses. -/
def xBits (op : Nat) : Nat := if op = 0x0F then 8 else if op = 0x14 then 4 else if 0x18 ≤ op then 3 else 0

/-- Accumulator opcodes. -/
def isAcc (op : Nat) : Bool := op == 0x19 || op == 0x1A || op == 0x1B

/-- An operand code that is defined (R204). -/
def operandOk (c : Nat) : Bool := c < 0x3C

/-! ### The store (R200, R201) -/

def slotBytes : Nat := 8192

/-- Bytes of a slot. -/
def Eng.slotNat (e : Eng) (slot off w : Nat) : Nat := leNat (bytesAt e.progs (slot * slotBytes + off) w)

/-- Instruction i of a slot. -/
def Eng.microAt (e : Eng) (slot i : Nat) : MicroOp := readMicro (e.slotNat slot (0x40 + 8 * i) 8)

def Eng.slotValid (e : Eng) (slot : Nat) : Bool := e.slotNat slot 0 1 == 1

/-- Instruction counts of a slot: pass 1, mid section, writing pass. -/
def Eng.slotLens (e : Eng) (slot : Nat) : Nat × Nat × Nat := (e.slotNat slot 2 2, e.slotNat slot 4 2, e.slotNat slot 6 2)

/-- Part of a program that instruction i lies in: 0 pass 1, 1 mid section, 2 writing pass. -/
def partOf (l1 lm i : Nat) : Nat := if i < l1 then 0 else if i < l1 + lm then 1 else 2

/-- The first rule of R202 that an instruction breaks, by reason code. -/
def microFault (part nconst : Nat) (u : MicroOp) : Option Nat :=
  match srcs u.op with
  | none => some 0x01
  | some (ua, ub, uc) =>
    let unusedOp := (!ua && u.a != 0) || (!ub && u.b != 0) || (!uc && u.c != 0) || (!hasDest u.op && u.d != 0)
    if 2 ≤ u.p || unusedOp || 2 ^ xBits u.op ≤ u.x then some 0x01
    else if (ua && !operandOk u.a) || (ub && !operandOk u.b) || (uc && !operandOk u.c) || (hasDest u.op && 32 ≤ u.d) ||
        (u.op == 0x14 && 0x0D ≤ u.x) || (u.op == 0x18 && part != 1 && 5 < u.x) then some 0x02
    else if (part = 1 && (isAcc u.op || (u.op == 0x18 && 5 < u.x))) || (part = 2 && isAcc u.op) then some 0x04
    else if u.op == 0x0F && nconst ≤ u.x then some 0x05
    else if part = 1 && u.p != 1 then some 0x06
    else none

/-- The check of R202: the first failure as instruction and reason. -/
def Eng.progCheck (e : Eng) (slot : Nat) : Option (Nat × Nat) :=
  let (l1, lm, l2) := e.slotLens slot
  let nc := e.slotNat slot 8 2
  if 256 < l1 + lm + l2 || l2 = 0 || (0 < lm && l1 = 0) || 256 < nc then some (0, 0x03)
  else
    (List.range (l1 + lm + l2)).findSome? (fun i =>
      (microFault (partOf l1 lm i) nc (e.microAt slot i)).map (fun r => (i, r)))

/-- Reserved bytes of a slot (R200). -/
def slotReserved (o : Nat) : Bool := o == 1 || (0xA ≤ o && o < 0x10) || (0x20 ≤ o && o < 0x40) || 0x1040 ≤ o

/-- The check of a slot whose word 0 has been written with VALID at 1 (R201, R202). -/
def Eng.checkSlot (e : Eng) (slot : Nat) : Eng :=
  match e.progCheck slot with
  | none => { e with progs := splice e.progs (slot * slotBytes) [1] }
  | some (i, r) =>
    let e := { e with progs := splice e.progs (slot * slotBytes) [0] }
    if e.on Reg.UPD_PROG_CHECK_FAIL then e
    else (((e.wr Reg.UPD_PROG_CHECK_REASON r).wr Reg.UPD_PROG_CHECK_SLOT slot).wr Reg.UPD_PROG_CHECK_INSTR i).flag
      Reg.UPD_PROG_CHECK_FAIL true

/-- A write into the store at an offset (R13, R201, R494): its defined bytes are stored; a word 0 with VALID at 1 is
checked, any other write clears VALID. VALID's own bits above bit 0 are not stored. -/
def Eng.storeWrite (e : Eng) (off : Nat) (bs : List Byte) : Eng :=
  if !e.rwlOpen then e.lockedWr
  else
    let slot := off / slotBytes
    let so := off % slotBytes
    let mask := fun (i : Nat) (b : Byte) => if slotReserved (so + i) then (0 : Byte) else if so + i = 0 then b &&& 1 else b
    let kept := bs.zipIdx.map (fun b => mask b.2 b.1)
    let e := if kept != bs then e.flag Reg.GEN_ERR_RSVD_WR true else e
    let e := { e with progs := splice e.progs off kept }
    if so = 0 then
      if bit (fieldAt bs 0 1) 0 then e.checkSlot slot else e
    else { e with progs := splice e.progs (slot * slotBytes) [0] }

/-! ### Contraction (R213) -/

/-- Operand codes that an instruction reads. -/
def MicroOp.reads (u : MicroOp) : List Nat :=
  match srcs u.op with
  | some (ua, ub, uc) => (if ua then [u.a] else []) ++ (if ub then [u.b] else []) ++ (if uc || u.fused != 0 then [u.c] else [])
  | none => []

def MicroOp.writes (u : MicroOp) : Option Nat := if hasDest u.op then some u.d else none

/-- Where a product may be contracted: the index, after it, of its ADD or SUB. -/
def contractAt (mul : MicroOp) (later : List MicroOp) : Option Nat :=
  match later.findIdx? (fun v => v.reads.contains mul.d) with
  | none => none
  | some j =>
    match later[j]? with
    | none => none
    | some v =>
      let between := later.take j
      let kept := between.all (fun w => match w.writes with | some d => d != mul.d && !mul.reads.contains d | none => true)
      let once := (v.a == mul.d) != (v.b == mul.d)
      -- readers after the sum and before the destination is next written; the sum itself may write it
      let rest := later.drop (j + 1)
      let overwritten := v.writes == some mul.d
      let upTo := match rest.findIdx? (fun w => w.writes == some mul.d) with
        | some n => rest.take (n + 1)
        | none => rest
      let unread := overwritten || !(upTo.any (fun w => w.reads.contains mul.d))
      if (v.op == 0x01 || v.op == 0x02) && v.p == mul.p && v.fused == 0 && kept && once && unread then some j else none

/-- The sum of a contracted pair, as one operation. -/
def fuse (mul v : MicroOp) : MicroOp :=
  let minuend := v.a == mul.d
  { v with a := mul.a, b := mul.b, c := if minuend then v.b else v.a,
           fused := if v.op == 0x01 then 1 else if minuend then 3 else 2 }

/-- Contraction of one part of a program, in ascending order. -/
def contract : Nat → List MicroOp → List MicroOp
  | 0, us => us
  | _ + 1, [] => []
  | n + 1, u :: us =>
    if u.op == 0x03 && u.fused == 0 then
      match contractAt u us with
      | some j => contract n (us.set j (fuse u (us.getD j u)))
      | none => u :: contract n us
    else u :: contract n us

/-- A part of a slot's program as it runs in the mode in force. -/
def Eng.progPart (e : Eng) (slot part : Nat) : List MicroOp :=
  let (l1, lm, l2) := e.slotLens slot
  let us := match part with
    | 0 => (List.range l1).map (e.microAt slot)
    | 1 => (List.range lm).map (fun i => e.microAt slot (l1 + i))
    | _ => (List.range l2).map (fun i => e.microAt slot (l1 + lm + i))
  if e.on Reg.UPD_CTL_STRICT then us else contract us.length us

/-- The constants of a slot. -/
def Eng.progConst (e : Eng) (slot i : Nat) : Nat := e.slotNat slot (0x840 + 8 * i) 8

/-! ### Execution -/

/-- What an instruction reads beside the element registers: mode, scalars, inputs or accumulators, constants, column and
row flags. -/
structure LaneEnv where
  strict : Bool
  scal   : Nat → Num
  inp    : Nat → Num
  const  : Nat → Num
  col0   : Bool
  row0   : Bool

/-- What a lane holds as it runs: registers, the last value stored to each output, and the contributions to
accumulators in order. -/
structure Lane where
  f      : List Num
  stores : SMap Num
  accs   : List (Nat × Nat × Num)
  deriving DecidableEq, Repr

def Lane.start : Lane := { f := List.replicate 32 Num.zero, stores := [], accs := [] }

/-- An operand as an instruction of precision p reads it (R206, R212): converted, subnormals replaced in fast mode. -/
def operand (env : LaneEnv) (l : Lane) (p code : Nat) : Num :=
  let v :=
    if code < 32 then l.f.getD code Num.zero
    else if code < 0x30 then env.scal (code - 0x20)
    else if code < 0x38 then env.inp (code - 0x30)
    else if code = 0x39 then Num.one
    else if code = 0x3A then (if env.col0 then Num.one else Num.zero)
    else if code = 0x3B then (if env.row0 then Num.one else Num.zero)
    else Num.zero
  toPrec (p == 1) (!env.strict) v

/-- Sign of a value as −1, 0 or +1 (R205). -/
def signOf : Num → Num
  | .nan => .nan
  | v => if v.isZero then Num.zero else .fin v.isNeg 1 0

/-- The exact result of an arithmetic opcode from its operands, before rounding. -/
def exactOp (u : MicroOp) (a b c : Num) (k : Num) : Num :=
  match u.fused with
  | 1 => (a.mul b).add c
  | 2 => c.add (a.mul b).neg
  | 3 => (a.mul b).add c.neg
  | _ =>
    match u.op with
    | 0x01 => a.add b
    | 0x02 => a.add b.neg
    | 0x03 => a.mul b
    | 0x04 => (a.mul b).add c
    | 0x05 => c.add (a.mul b).neg
    | 0x06 => a.min b
    | 0x07 => a.max b
    | 0x08 => a.withSign false
    | 0x09 => a.neg
    | 0x0A => if a.lt b then Num.one else Num.zero
    | 0x0B => if a.eq b then Num.one else Num.zero
    | 0x0C => if c.isZero then b else a
    | 0x0D => signOf a
    | 0x0E => a
    | 0x0F => k
    | _ => a

/-- One instruction on one lane. -/
def runMicro (env : LaneEnv) (l : Lane) (u : MicroOp) : Lane :=
  let p64 := u.p == 1
  let a := operand env l u.p u.a
  let b := operand env l u.p u.b
  let c := operand env l u.p u.c
  let set := fun v => { l with f := l.f.set u.d v }
  let rcp := fun v => Num.div Num.one v
  match u.op with
  | 0x00 => l
  | 0x10 => set (approx env.strict p64 0x10 a b (a.div b))
  | 0x11 => set (approx env.strict p64 0x11 a Num.zero a.sqrt)
  | 0x12 =>
    if env.strict then set (toPrec p64 false (rcp (toPrec p64 false a.sqrt)))
    else set (approx false p64 0x12 a Num.zero (rcp a.sqrt))
  | 0x13 => set (approx env.strict p64 0x13 a Num.zero (rcp a))
  | 0x14 => set (toPrec p64 (!env.strict) (decodeFmt u.x (encodeFmt u.x .even true a).bits))
  | 0x18 => { l with stores := put l.stores u.x a }
  | 0x19 => { l with accs := l.accs ++ [(0x19, u.x, a)] }
  | 0x1A => { l with accs := l.accs ++ [(0x1A, u.x, a)] }
  | 0x1B => { l with accs := l.accs ++ [(0x1B, u.x, a)] }
  | _ => set (toPrec p64 (!env.strict) (exactOp u a b c (env.const u.x)))

/-- A part of a program on one element. -/
def runMicros (env : LaneEnv) (us : List MicroOp) : Lane := us.foldl (runMicro env) Lane.start

/-- A contribution added to an accumulator in FP64 (R205, R209). -/
def accStep (acc : Num) (c : Nat × Num) : Num :=
  match c.1 with
  | 0x19 => toPrec true false (acc.add c.2)
  | 0x1A => toPrec true false (acc.add (c.2.mul c.2))
  | _ => acc.max (c.2.withSign false)

/-! ### Commands of the store -/

/-- PROGRAM_STORE_WRITE: a register write into the microprogram store (R200, R201, R494). -/
def execProgramStoreWrite (off : Nat) (wide : Bool) (v : DWord) (s : State) : Host.Outcome State Fault Refusal :=
  let w := if wide then 8 else 4
  .next (s.run (fun e => e.change .coding (fun e =>
    if off % w != 0 || 16 * slotBytes < off + w then (e.bump Reg.GEN_ERR_BAD_ACC).emit .busError else e.storeWrite off (natLe w v.toNat))))

/-- PROGRAM_SLOT_VALID: a write of the word at slot offset 0 (R201, R202). -/
def execProgramSlotValid (slot : Fin 16) (v : Word) (s : State) : Host.Outcome State Fault Refusal :=
  .next (s.run (fun e => e.change .coding (fun e => e.storeWrite (slot * slotBytes) (natLe 4 v.toNat))))

end Sys2Proof.Machine
end

