-- ==== Sys2Proof/Machine/Cmd.lean ====
section
/-!
DEFINITION. Sys2Proof/Machine/Cmd.lean: the command side (R495 to R508): status codes, mailboxes, completion, descriptors as they
are read, and the fetching of descriptors.
-/
namespace Sys2Proof.Machine

/-! ### Status codes (R503) -/

def stOk : Nat := 0x0000
def stNotReady : Nat := 0x0001
def stPass1Done : Nat := 0x0002
def stBadUse : Nat := 0x0010
def stBadRegion : Nat := 0x0011
def stGeomBad : Nat := 0x0012
def stGroveRefused : Nat := 0x0013
def stRollTimeout : Nat := 0x0014
def stMixedStep : Nat := 0x0015
def stLate : Nat := 0x0020
def stBusy : Nat := 0x0021
def stSplit : Nat := 0x0022
def stRolledBack : Nat := 0x0023
def stRollGap : Nat := 0x0024
def stCancelled : Nat := 0x0025
def stGraftRefused : Nat := 0x0030
def stBeyondCode : Nat := 0x0031
def stMemError : Nat := 0x0040
def stStorageError : Nat := 0x0041
def stBadObject : Nat := 0x0042
def stNoTrailer : Nat := 0x0043
def stStructure : Nat := 0x0044
def stDigest : Nat := 0x0045
def stNoKey : Nat := 0x0046
def stTimeout : Nat := 0x0050
def stInternal : Nat := 0x0051
def stOutOfService : Nat := 0x0052
def stCryptoError : Nat := 0x0053

/-- Reasons of BAD_USE (R500). -/
def rsOpcode : Nat := 1
def rsReserved : Nat := 2
def rsNoLock : Nat := 3
def rsRule : Nat := 4

/-! ### Mailboxes (R504 to R507) -/

/-- The mailbox is empty (R504). -/
def Eng.mboxEmpty (e : Eng) (b : Nat) : Bool := (look e.q.mbox b).isNone

/-- A descriptor that names an empty mailbox has been fetched: the mailbox is open (R504). -/
def Eng.openMbox (e : Eng) (b opcode seq : Nat) : Eng :=
  let e := { e with q := { e.q with mbox := put e.q.mbox b .opened } }
  ((e.wr (Reg.MBX_HDR_OPCODE b) opcode).wr (Reg.MBX_HDR_SEQ b) seq).wr Reg.MBX_STAT_FREE (e.rd Reg.MBX_STAT_FREE - 1)

/-- A mailbox becomes empty (R504). -/
def Eng.emptyMbox (e : Eng) (b : Nat) : Eng :=
  let e := { e with q := { e.q with mbox := cut e.q.mbox b } }
  let e := ((e.wr (Reg.MBX_HDR_STATUS b) stNotReady).wr (Reg.MBX_HDR_READS b) 0).wr (Reg.MBX_HDR_OPCODE b) 0
  let e := ((e.wr (Reg.MBX_HDR_SEQ b) 0).wr (Reg.MBX_AUX_REASON b) 0).wr (Reg.MBX_AUX_ADDR b) 0
  let e := e.each (List.range 28) (fun n e => e.wr (Reg.MBX_DATA_WORD b n) 0)
  e.wr Reg.MBX_STAT_FREE (e.rd Reg.MBX_STAT_FREE + 1)

/-- The engine writes AUX, the result and then the header: the mailbox is ready (R504). -/
def Eng.readyMbox (e : Eng) (b status reason addr : Nat) (data : List Byte) : Eng :=
  let e := (e.wr (Reg.MBX_AUX_REASON b) reason).wr (Reg.MBX_AUX_ADDR b) addr
  let e := e.each (List.range 28) (fun n e => e.wr (Reg.MBX_DATA_WORD b n) (fieldAt data (4 * n) 4))
  let e := e.wr (Reg.MBX_HDR_STATUS b) status
  { e with q := { e.q with mbox := put e.q.mbox b .ready } }

/-! ### Completion -/

/-- The open command of an engine's own number. -/
def Eng.cmd (e : Eng) (id : Nat) : Option OpenCmd := e.q.opens.find? (fun c => c.id == id)

/-- A command completes. One that has completed already, with TIMEOUT say, writes nothing further (R502). Restores and adopts
that end with a status other than OK are counted in ANC_ERR. DEDUCED: log entry 14. -/
def Eng.completeWith (e : Eng) (id status reason addr : Nat) (data : List Byte) : Eng :=
  match e.cmd id with
  | none => e
  | some c =>
    let e := { e with q := { e.q with opens := e.q.opens.filter (fun x => x.id != id) } }
    let e := e.readyMbox c.mailbox status reason addr data
    let e := if status != stOk && (c.opcode == 0x41 || c.opcode == 0x43) then e.bump Reg.ANC_ERR_RESTORE_FAIL else e
    let e := (e.wr (Reg.CQ_STAT_OPEN c.queue) (e.rd (Reg.CQ_STAT_OPEN c.queue) - 1)).bump (Reg.CQ_STAT_DONE c.queue)
    if c.quiet then e else e.raise (.CMD_DONE c.queue)

/-- Completion with a status and a result. -/
def Eng.complete (e : Eng) (id status : Nat) (data : List Byte) : Eng := e.completeWith id status 0 0 data

/-- A refusal under R500: BAD_USE, with a reason and any reason record. -/
def Eng.refuse (e : Eng) (id reason : Nat) (data : List Byte) : Eng := e.completeWith id stBadUse reason 0 data

/-! ### Descriptors (R498 to R500) -/

/-- Default timeout of an opcode in ms: the image's, or the shipped image's (R499). -/
def Eng.defaultTimeout (e : Eng) (opcode : Nat) : Nat :=
  (look e.boot.timeouts opcode).getD
    (match opcode with
     | 0x00 => 1 | 0x01 => 100 | 0x02 => 10000 | 0x03 => 10000 | 0x04 => 60000 | 0x05 => 10000 | 0x10 => 60000
     | 0x20 => 600000 | 0x21 => 60000 | 0x22 => 3600000 | 0x30 => 3600000 | 0x40 => 3600000 | 0x41 => 3600000
     | 0x42 => 600000 | 0x43 => 600000 | _ => 600000)

/-- The opcode of an operation (R499). -/
def Op.code : Op → Nat
  | .nop => 0x00 | .ringOpen _ => 0x01 | .ringSeal _ _ => 0x02 | .ringCommit _ => 0x03 | .ringRollback _ _ => 0x04
  | .stepRetire _ => 0x05 | .updateRun _ => 0x10 | .graftBegin _ _ => 0x20 | .resumeSet _ _ => 0x21
  | .evacuate _ _ => 0x22 | .scrubRange _ _ _ => 0x30 | .anchorWrite _ => 0x40 | .anchorRestore _ => 0x41
  | .reLeaf _ _ _ => 0x42 | .adopt _ => 0x43 | .tensorDigest _ => 0x44

/-- The operation that an opcode and 48 B of operands spell, with the operand bytes it uses (R499). -/
def opOf (opcode : Nat) (b : List Byte) : Option (Op × List Nat) :=
  let f := fieldAt b
  match opcode with
  | 0x00 => some (.nop, [])
  | 0x01 => some (.ringOpen (f 0 4), List.range 4)
  | 0x02 => some (.ringSeal (f 0 4) (f 4 1), List.range 5)
  | 0x03 => some (.ringCommit (f 0 4), List.range 4)
  | 0x04 => some (.ringRollback (f 0 4) (f 4 4), List.range 8)
  | 0x05 => some (.stepRetire (f 0 4), List.range 4)
  | 0x10 => some (.updateRun (f 0 8), List.range 8)
  | 0x20 => some (.graftBegin (f 0 1) (f 1 1), List.range 2)
  | 0x21 => some (.resumeSet (f 0 8) (f 8 2), List.range 10)
  | 0x22 => some (.evacuate (f 0 1) (f 4 4), [0, 4, 5, 6, 7])
  | 0x30 => some (.scrubRange (f 0 8) (f 8 8) (f 16 4), List.range 20)
  | 0x40 => some (.anchorWrite (f 0 8), List.range 8)
  | 0x41 => some (.anchorRestore (f 0 8), List.range 8)
  | 0x42 => some (.reLeaf (f 0 2) (f 4 4) (f 8 4), [0, 1, 4, 5, 6, 7, 8, 9, 10, 11])
  | 0x43 => some (.adopt (f 0 8), List.range 8)
  | 0x44 => some (.tensorDigest (f 0 8), List.range 8)
  | _ => none

/-- A byte string whose bytes are zero but at the listed offsets. -/
def zeroBut (b : List Byte) (used : List Nat) : Bool := b.zipIdx.all (fun x => x.1 == 0 || used.contains x.2)

/-- A descriptor as it is read (R498, R500). -/
def readDesc (d : List Byte) : Fetched :=
  let opcode := fieldAt d 0 1
  let flags := fieldAt d 1 1
  let body := (d.drop 16).take 48
  let base : Fetched :=
    { opcode := opcode, flags := flags, mailbox := fieldAt d 2 2, seq := fieldAt d 4 4, timeout := fieldAt d 8 4,
      op := none, bad := rsOpcode, opened := false, counted := false }
  match opOf opcode body with
  | none => base
  | some (op, used) =>
    if 4 ≤ flags || fieldAt d 12 4 != 0 || !zeroBut body used then { base with bad := rsReserved }
    else { base with op := some op, bad := 0 }

/-- The descriptor that a command row states by its fields. -/
def hdrDesc (h : CmdHdr) (op : Op) : Fetched :=
  let f := h.flags.toNat
  { opcode := op.code, flags := f, mailbox := h.mailbox.toNat, seq := h.seq.toNat, timeout := h.timeout.toNat,
    op := if 4 ≤ f then none else some op, bad := if 4 ≤ f then rsReserved else 0, opened := false, counted := false }

/-! ### Fetching (R495 to R497) -/

/-- Entries of a queue. -/
def Eng.queueSize (e : Eng) (q : Nat) : Nat := 2 ^ e.rd (Reg.CQ_CTL_LOG2SIZE q)

/-- A queue has a descriptor to fetch, and may fetch it. -/
def Eng.fetchable (e : Eng) (q : Nat) : Bool :=
  e.on Reg.GEN_BOOT_READY && e.on (Reg.CQ_CTL_EN q) && !e.on (Reg.CQ_CTL_HALTED q) &&
  e.rd (Reg.CQ_HEAD_HEAD q) != e.rd (Reg.CQ_TAIL_TAIL q)

/-- The engine reads the descriptor at HEAD, once. -/
def Eng.fetchNext (e : Eng) (q : Nat) : Eng :=
  if e.fetchable q && (look e.q.fetched q).isNone && !e.q.asked.contains q then
    ({ e with q := { e.q with asked := e.q.asked ++ [q] } }).emit
      (.fetch q (64 * (e.rd (Reg.CQ_BASE_BASE q) + e.rd (Reg.CQ_HEAD_HEAD q))))
  else e

/-- A queue halts (R497). -/
def Eng.haltQueue (e : Eng) (q why : Nat) : Eng :=
  ((e.flag (Reg.CQ_CTL_HALTED q) true).wr (Reg.CQ_CTL_HALT_WHY q) why).setLevel (.CQ_HALT q) true

/-- The fetched descriptor of a queue is dropped; its mailbox returns to empty if the fetch had opened it (R497).
DEDUCED: log entry 43. -/
def Eng.dropFetched (e : Eng) (q : Nat) : Eng :=
  let e := { e with q := { e.q with asked := e.q.asked.filter (· != q) } }
  match look e.q.fetched q with
  | none => e
  | some f =>
    let e := { e with q := { e.q with fetched := cut e.q.fetched q } }
    if f.opened then e.emptyMbox f.mailbox else e

/-- HEAD advances past an accepted descriptor (R496). -/
def Eng.nextHead (e : Eng) (q : Nat) : Eng :=
  e.wr (Reg.CQ_HEAD_HEAD q) ((e.rd (Reg.CQ_HEAD_HEAD q) + 1) % e.queueSize q)

/-- The command of a descriptor is open: it takes the engine's next number. DEDUCED: log entry 14. -/
def Eng.openCmd (e : Eng) (q : Nat) (f : Fetched) : Eng :=
  let c : OpenCmd := { id := e.q.nextId, queue := q, mailbox := f.mailbox, quiet := bit f.flags 1, opcode := f.opcode,
                       seq := f.seq, timeout := if f.timeout = 0 then e.defaultTimeout f.opcode else f.timeout,
                       op := f.op.getD .nop }
  let e : Eng := { e with q := { e.q with opens := e.q.opens ++ [c], nextId := e.q.nextId + 1, fetched := cut e.q.fetched q } }
  (e.nextHead q).wr (Reg.CQ_STAT_OPEN q) (e.rd (Reg.CQ_STAT_OPEN q) + 1)

end Sys2Proof.Machine
end

