-- ==== Sys2Proof/Machine/Delta.lean ====
section
/-!
DEFINITION. Sys2Proof/Machine/Delta.lean: data-bearing packets at the owner (R111, R115 to R117, R121 to R123) and streamed packets
at the holder (R113, R114, R119, R120, R130).
-/
namespace Sys2Proof.Machine

/-- FLAGS of a packet (R108). -/
def flSpill : Nat := 1
def flRetry : Nat := 2
def flThick : Nat := 4
def Pkt.thick (p : Pkt) : Bool := bit p.flags 2

/-! ### The owner's journal copies (R111) -/

/-- Data-bearing packets unacknowledged towards a holder (R117). -/
def Eng.inFlight (e : Eng) (pos : Nat) : Nat :=
  ((e.sent.filter (fun s => s.typ ≤ 2)).map (fun s =>
    (s.dests.filter (fun d => d.pos == pos && d.gone)).length)).foldl (· + ·) 0

/-- The last point up to which every holder has acknowledged a leaf's streamed packets (R115). -/
def Eng.relPoint (e : Eng) (region row last : Nat) : Nat :=
  match e.sent.find? (fun s => s.typ == tStreamDelta && s.region == region && s.row == row) with
  | some s => (s.seq + 2 ^ 32 - 1) % 2 ^ 32
  | none => last

/-- A data-bearing packet may spill (R124, R125): software allows it, and the packet would go by a grove port. -/
def Eng.spillOpen (e : Eng) (s : Sent) (d : Dest) : Bool :=
  s.typ ≤ 2 && e.on Reg.GRV_SPILL_CTL_EXPERT && e.rd Reg.GRV_SPILL_CTL_SHARE != 0 && !e.byFabric (e.placeOf d.pos) d.pos &&
  (e.routePort d.pos).isSome

/-- A data-bearing packet goes by its route or, where it may spill, by the fabric if what R125 measures says so: credit of the
last 10 µs, use of the fabric port and its share of the last 100 µs are free. DESIGN CHOICE: log entry 19. -/
def Eng.sendOrSpill (e : Eng) (s : Sent) (d : Dest) (p : Pkt) : Eng :=
  if e.spillOpen s d then
    if (Config.freeWord e.free).toNat % 2 = 1 then
      (e.useFree 1).sendSpill d.pos (match e.rgn? s.region with | some r => r.key | none => 0) p
    else (e.useFree 1).send d.pos p
  else e.send d.pos p

/-- One transmission of a packet to one destination (R111, R123, R125). -/
def Eng.transmit (e : Eng) (s : Sent) (d : Dest) (retry : Bool) : Eng :=
  let p : Pkt :=
    { typ := s.typ, flags := (if d.thick then flThick else 0) + (if retry then flRetry else 0), region := s.region,
      row := s.row, sector := s.sector, stamp := s.stamp, seq := s.seq, release := s.release, planes := s.planes,
      lineMap := s.lineMap, payload := s.payload }
  let e := e.sendOrSpill s d p
  let e := if s.typ ≤ 2 then e.bump Reg.GRV_SAP_TX_COUNT else e
  if s.typ == tStreamDelta then
    { e with relSent := (e.relSent.filter (fun r => !(r.1 == s.region && r.2.1 == s.row && r.2.2.1 == d.pos)))
                ++ [(s.region, s.row, d.pos, s.release)] }
  else e

/-- A first transmission may be made to a destination: credit is left, and it has asked for no pause (R117). CLASS_PROD
takes no credit. DESIGN CHOICE: log entry 19. -/
def Eng.mayStart (e : Eng) (s : Sent) (d : Dest) : Bool :=
  !d.gone && (2 < s.typ || (!e.busy.contains d.pos && e.inFlight d.pos < e.rd Reg.GRV_ACK_CTL_CREDIT))

/-- First transmissions of one journal copy to the destinations that may have them, in order. -/
def Eng.startOne (e : Eng) (i : Nat) : Eng :=
  match e.sent[i]? with
  | none => e
  | some s =>
    e.each (List.range s.dests.length) (fun j e =>
      match e.sent[i]? with
      | none => e
      | some s =>
        match s.dests[j]? with
        | none => e
        | some d =>
          if e.mayStart s d then
            let e := { e with sent := e.sent.set i { s with dests := s.dests.set j { d with gone := true } } }
            e.transmit s d false
          else e)

/-- Every packet that was held back goes, oldest first, as credit and pauses allow (R117). -/
def Eng.transmitReady (e : Eng) : Eng := e.each (List.range e.sent.length) (fun i e => e.startOne i)

/-- A data-bearing packet enters the journal and is sent to its destinations; with none present it is not kept (R111). -/
def Eng.sendData (e : Eng) (s : Sent) : Eng :=
  if s.dests.isEmpty then e
  else
    let e := { e with sent := e.sent ++ [s] }
    let e := if s.typ ≤ 2 then
        (e.bumpBy Reg.GRV_SAP_RAW_BYTES 4096).bumpBy Reg.GRV_SAP_THIN_BYTES s.payload.length
      else e
    e.startOne (e.sent.length - 1)

/-- The streamed packet of one sector of an own leaf, with its delta (R98, R104, R112, R115). DESIGN CHOICE: log entry 19. -/
def Eng.sendStream (e : Eng) (r : Rgn) (row sector stamp : Nat) (delta : List Byte) : Eng :=
  if allZero delta then e
  else
    let leaf := r.leaf row
    let c := e.ctx leaf
    let seq := w32 (c.seq + 1)
    let wdt := elemWidth r.fmt
    let map := lineMapOf wdt delta
    let rel := e.relPoint r.num row c.seq
    let e := { e.setCtx leaf { c with seq := seq } with cuts := put e.cuts leaf (stamp, sector) }
    e.sendData { typ := tStreamDelta, region := r.num, row := row, sector := sector, stamp := stamp, seq := seq,
                 planes := planesOf wdt map, lineMap := map, payload := thin wdt delta, release := rel,
                 dests := e.destsOf r.num row }

/-- The limits of R116 let a leaf send one more streamed packet. -/
def Eng.windowOpen (e : Eng) (r : Rgn) (row : Nat) : Bool :=
  let c := e.ctx (r.leaf row)
  let q := w32 (c.seq + 1)
  let rel := e.relPoint r.num row c.seq
  let leaves := ((e.sent.filter (fun s => s.typ == tStreamDelta)).map (fun s => (s.region, s.row))).eraseDups
  (q + 2 ^ 32 - rel) % 2 ^ 32 ≤ e.rd Reg.GRV_WIN_CTL_DEPTH &&
  (leaves.contains (r.num, row) ||
    (e.destsOf r.num row).all (fun d =>
      (leaves.filter (fun l => (e.destsOf l.1 l.2).any (fun x => x.pos == d.pos))).length < e.rd Reg.GRV_WIN_CTL_OPEN))

/-! ### Lagging leaves (R121, R122) -/

def Eng.isLagging (e : Eng) (leaf : Nat) : Bool := (e.ctx leaf).st == 3

/-- A leaf is marked lagging; what it returns to may change meanwhile (R122, DESIGN CHOICE, log entry 96). -/
def Eng.markLag (e : Eng) (leaf : Nat) : Eng :=
  if e.isLagging leaf then e
  else (e.updCtx leaf (fun c => { c with lagged := c.st, st := 3 })).wr Reg.GRV_LAG_NOW_LEAVES (e.rd Reg.GRV_LAG_NOW_LEAVES + 1)

/-- A lagging leaf with no unacknowledged packet returns to its previous state. -/
def Eng.unlag (e : Eng) (r : Rgn) (row : Nat) : Eng :=
  let leaf := r.leaf row
  if e.isLagging leaf && !(e.sent.any (fun s => s.typ ≤ 2 && s.region == r.num && s.row == row)) then
    (e.updCtx leaf (fun c => { c with st := c.lagged })).wr Reg.GRV_LAG_NOW_LEAVES (e.rd Reg.GRV_LAG_NOW_LEAVES - 1)
  else e

/-- Journal copies that no destination still awaits are dropped, and their leaves leave the lagging state. -/
def Eng.purgeSent (e : Eng) : Eng :=
  let gone := (e.sent.filter (fun s => s.dests.isEmpty)).map (fun s => (s.region, s.row))
  let e := { e with sent := e.sent.filter (fun s => !s.dests.isEmpty) }
  e.each gone.eraseDups (fun l e => match e.rgn? l.1 with
    | some r => e.unlag r l.2
    | none => e)

/-- Take destinations out of journal copies that a test selects. -/
def Eng.dropDests (e : Eng) (sel : Sent → Dest → Bool) : Eng :=
  ({ e with sent := e.sent.map (fun s => { s with dests := s.dests.filter (fun d => !sel s d) }) } : Eng).purgeSent

/-- A DELTA_ACK at the owner (R114): for a streamed leaf it acknowledges every earlier SEQ too. -/
def Eng.takeAck (e : Eng) (p : Pkt) : Eng :=
  let ringed := match e.rgn? p.region with | some r => !r.streamed | none => false
  let e := e.dropDests (fun s d =>
    d.pos == p.src && d.thick == p.thick && d.gone && s.region == p.region && s.row == p.row &&
    (if ringed then s.typ == tRingDelta && s.stamp == p.stamp && s.seq == p.seq
     else s.typ == tStreamDelta && atOrBefore s.seq p.seq))
  e.transmitReady

/-- The journal copy that a key names and a destination still awaits (R111, R112). -/
def Eng.sentIdx (e : Eng) (k : PktKey) (pos : Nat) : Option Nat :=
  e.sent.findIdx? (fun s => s.dests.any (fun d => d.pos == pos) &&
    (if k.ring then s.typ == tRingDelta || s.typ == tClassProd else s.typ == tStreamDelta) &&
    s.region == k.region.toNat && s.row == k.row.toNat && s.stamp == k.stamp.toNat && s.seq == k.seq.toNat)

/-- The owner's journal copy of a packet cannot be read (R329). DESIGN CHOICE: log entry 89. -/
def Eng.deltaBad (e : Eng) (s : Sent) : Bool := s.typ ≤ 2 && e.journalBad 2 [s.typ, s.region, s.row, s.stamp, s.seq] 4096

/-- The owner's journal copy of a delta is lost: it goes to no holder any more, and the parity of its stripe misses it (R329,
R338). A lagging leaf of which no other packet waits lags no more (R122, DESIGN CHOICE, log entry 96). -/
def Eng.deltaLost (e : Eng) (s : Sent) : Eng :=
  let e : Eng := { e with sent := e.sent.erase s }
  match e.rgn? s.region with
  | some r => (e.stripeLost r s.row (if s.typ == tRingDelta then s.stamp else 0)).unlag r s.row
  | none => e

/-- A resend to one destination (R121, R123). -/
def Eng.resendTo (e : Eng) (i pos : Nat) : Eng :=
  match e.sent[i]? with
  | none => e
  | some s =>
    if e.deltaBad s then e.deltaLost s
    else e.each (List.range s.dests.length) (fun j e =>
      match e.sent[i]? with
      | none => e
      | some s =>
        match s.dests[j]? with
        | none => e
        | some d =>
          if d.pos == pos && d.gone then
            let n := d.resends + 1
            let e := { e with sent := e.sent.set i { s with dests := s.dests.set j { d with resends := n, missed := true } } }
            let e := e.transmit s d true
            if n = 8 && s.typ ≤ 2 then e.raise .SAP_STUCK else e
          else e)

/-- A destination has missed its acknowledgement deadline (R121). -/
def Eng.deadlineMiss (e : Eng) (i pos : Nat) : Eng :=
  match e.sent[i]? with
  | none => e
  | some s =>
    if s.dests.any (fun d => d.pos == pos && d.gone && !d.missed) then
      let e := if s.typ ≤ 2 then
          match e.rgn? s.region with
          | some r => ((e.markLag (r.leaf s.row)).bump Reg.GRV_LAG_CNT_COUNT).raise .DELTA_LAG
          | none => e
        else e
      e.resendTo i pos
    else e

/-- The release point of a leaf goes to a holder in a packet of its own (R115). -/
def Eng.sendRelease (e : Eng) (region row pos : Nat) : Eng :=
  match e.rgn? region with
  | none => e
  | some r =>
    let rel := e.relPoint region row (e.ctx (r.leaf row)).seq
    let told := (e.relSent.find? (fun x => x.1 == region && x.2.1 == row && x.2.2.1 == pos)).map (·.2.2.2)
    if r.streamed && told != some rel && ((e.destsOf region row).any (fun d => d.pos == pos)) && (told.isSome || rel != 0) then
      let e := e.each ((e.destsOf region row).filter (fun d => d.pos == pos)) (fun d e =>
        e.send pos { typ := tDeltaRelease, flags := if d.thick then flThick else 0, region := region, row := row, release := rel })
      { e with relSent := (e.relSent.filter (fun x => !(x.1 == region && x.2.1 == row && x.2.2.1 == pos)))
                ++ [(region, row, pos, rel)] }
    else e

/-! ### The holder -/

/-- The applied record of a source leaf; before any packet A is 0, with the cut of the encode step, which this holder's own
encoding left in the stamp of its leaf at that row (R130). -/
def Eng.appliedRec (e : Eng) (region row src : Nat) (thick : Bool) : Applied :=
  let step : Nat := match e.rgn? region with | some r => (e.ctx (r.leaf row)).stamp | none => 0
  (e.applied.find? (fun a => a.region == region && a.row == row && a.src == src && a.thick == thick)).getD
    { region := region, row := row, src := src, thick := thick, a := 0, aStamp := step, aSector := 255, rel := 0,
      relStamp := step, relSector := 255 }

def Eng.setApplied (e : Eng) (a : Applied) : Eng :=
  { e with applied := (e.applied.filter (fun x =>
      !(x.region == a.region && x.row == a.row && x.src == a.src && x.thick == a.thick))) ++ [a] }

/-- XOR a string into local memory line by line; a line of it that is all zero is not touched (R120). -/
def Eng.xorLines (e : Eng) (a : Nat) (bs : List Byte) : Eng :=
  e.each ((chunksOf 64 64 bs).zipIdx.filter (fun l => !allZero l.1)) (fun l e => e.storeXor (a + 64 * l.2) l.1)

/-- XOR a product into the parity sector that a packet names: its own parity leaf, or the hosted row (R49, R120, R58). -/
def Eng.foldParity (e : Eng) (r : Rgn) (row sector : Nat) (thick : Bool) (prod : List Byte) : Eng :=
  if thick then
    { e with hosted := e.hosted.map (fun h =>
        if h.region == r.num && h.row == row then
          { h with secs := put h.secs sector (xorBytes ((look h.secs sector).getD (zeros 4096)) prod) }
        else h) }
  else e.xorLines (r.rowAddr row + sector * 4096) prod

/-- The product that a packet's delta adds to this holder's row (R49, R119 step 8). -/
def Eng.productOf (e : Eng) (r : Rgn) (row src j lineMap : Nat) (payload : List Byte) : List Byte :=
  gfScale (coeff j ((src + e.w - row % e.w) % e.w)) (expand (elemWidth r.fmt) lineMap payload)

/-- An acknowledgement of a data-bearing packet: REGION, SECTOR, ROW, STAMP and SEQ copied (R114); THICK tells the
destination's two rows apart (DEDUCED, log entry 23). -/
def Eng.ackPkt (e : Eng) (p : Pkt) : Eng :=
  e.send p.src { typ := tDeltaAck, flags := if p.thick then flThick else 0, region := p.region, sector := p.sector,
                 row := p.row, stamp := p.stamp, seq := p.seq }

/-- Windows of a source leaf are freed up to a release point, but for the leaves of a lost member (R115, R140). -/
def Eng.takeRelease (e : Eng) (region row src : Nat) (thick : Bool) (rel : Nat) : Eng :=
  if !e.isPresent src then e
  else
    let a := e.appliedRec region row src thick
    if !precedes a.rel rel then e
    else
      let cut := if rel == a.a then (a.aStamp, a.aSector)
        else match e.window.find? (fun x => x.region == region && x.row == row && x.src == src && x.thick == thick && x.seq == rel) with
          | some x => (x.stamp, x.sector)
          | none => (a.relStamp, a.relSector)
      let e := e.setApplied { a with rel := rel, relStamp := cut.1, relSector := cut.2 }
      { e with window := e.window.filter (fun x =>
          !(x.region == region && x.row == row && x.src == src && x.thick == thick && atOrBefore x.seq rel)) }

/-- A parity row that a packet names is being built or rebuilt here, so its packets are held (R119 check 7). -/
def Eng.parityBusy (e : Eng) (r : Rgn) (row : Nat) (thick : Bool) : Bool :=
  if thick then (match e.hostedRow r.num row with | some h => !h.built && !h.provisional | none => false)
  else e.isRebuilding (r.leaf row)

/-- The packets of one source that this holder keeps unapplied (R113, R117). -/
def Eng.heldFrom (e : Eng) (src : Nat) : Nat := (e.waits.filter (fun p => p.src == src)).length

/-- A packet waits in the receive space of its source, or is discarded as sent beyond credit (R113).
DESIGN CHOICE: log entry 69. -/
def Eng.hold (e : Eng) (p : Pkt) : Eng :=
  if e.waits.any (fun q => q.typ == p.typ && q.region == p.region && q.row == p.row && q.src == p.src
      && q.stamp == p.stamp && q.seq == p.seq && q.thick == p.thick) then e
  else if e.rd Reg.GRV_ACK_CTL_CREDIT ≤ e.heldFrom p.src then e.bump Reg.GRV_SAP_DROP_REORDER
  else { e with waits := e.waits ++ [p] }

/-- Apply a streamed packet that is next in order: parity, the window, the applied record, the acknowledgement (R114, R115,
R120, R130). -/
def Eng.applyStream (e : Eng) (r : Rgn) (p : Pkt) (j : Nat) : Eng :=
  let e := e.foldParity r p.row p.sector p.thick (e.productOf r p.row p.src j p.lineMap p.payload)
  let a := e.appliedRec p.region p.row p.src p.thick
  let e := e.setApplied { a with a := p.seq, aStamp := p.stamp, aSector := p.sector }
  let x : WinPkt := { region := p.region, row := p.row, src := p.src, thick := p.thick, seq := p.seq, stamp := p.stamp,
                      sector := p.sector, lineMap := p.lineMap, payload := p.payload }
  let e := { e with window := e.window ++ [x] }
  (e.takeRelease p.region p.row p.src p.thick p.release).ackPkt p

/-- A streamed packet past check 5: ordering, check 7, application (R113, R119). The RELEASE of one that waits for its turn counts
once it is applied (R115, DESIGN CHOICE, log entry 96). -/
def Eng.orderStream (e : Eng) (r : Rgn) (p : Pkt) (j : Nat) : Eng :=
  let a := (e.appliedRec p.region p.row p.src p.thick).a
  if atOrBefore p.seq a then (e.bump Reg.GRV_SAP_DROP_DUP).ackPkt p
  else if p.seq == w32 (a + 1) && !e.parityBusy r p.row p.thick then e.applyStream r p j
  else e.hold p

/-- Held streamed packets that have become next in order are applied. -/
def Eng.drainStream : Nat → Eng → Eng
  | 0, e => e
  | fuel + 1, e =>
    match e.waits.find? (fun p => p.typ == tStreamDelta &&
        (match e.rgn? p.region with
         | some r => !e.parityBusy r p.row p.thick &&
             (p.seq == w32 ((e.appliedRec p.region p.row p.src p.thick).a + 1) ||
              atOrBefore p.seq (e.appliedRec p.region p.row p.src p.thick).a)
         | none => false)) with
    | none => e
    | some p =>
      let e := { e with waits := e.waits.erase p }
      match e.rgn? p.region with
      | some r =>
        match e.parityRowFor p.region p.row p.thick with
        | some j => Eng.drainStream fuel (e.orderStream r p j)
        | none => Eng.drainStream fuel e
      | none => e

/-- A THICK packet at a position that holds a parity row by R43 and hosts no thickening row goes to that row: check 5 of R119
admits it by its first alternative. -/
def Eng.asRow (e : Eng) (p : Pkt) : Pkt :=
  if p.thick && (e.hostedRow p.region p.row).isNone then { p with flags := clearBit p.flags 2 } else p

/-- A data-bearing packet has come from a source. With it the apply queue may pass 75 % of its depth, which is free: DELTA_BUSY
then goes to each source that has sent to this holder within the last 10 µs (R117). DESIGN CHOICE: log entry 19. -/
def Eng.noteData (e : Eng) (p : Pkt) : Eng :=
  let e := { e with dataAt := put e.dataAt p.src e.now }
  if (Config.freeWord e.free).toNat % 2 = 1 then
    (e.useFree 1).each (e.dataAt.filter (fun s => e.now ≤ s.2 + 10000)) (fun s e => e.send s.1 { typ := tDeltaBusy })
  else e.useFree 1

/-- Checks 4 and 5 of R119 for a data-bearing packet of a class: its region and the row of parity it goes to here. -/
def Eng.deltaTarget (e : Eng) (p : Pkt) (streamed : Bool) : Option (Rgn × Nat) :=
  match e.rgn? p.region with
  | none => none
  | some r =>
    if !(if streamed then r.streamed else r.ringed) || r.rows ≤ p.row || p.dst != e.pos then none
    else (e.parityRowFor p.region p.row p.thick).map (fun j => (r, j))

/-- A STREAM_DELTA that has passed checks 1 to 3 (R119). -/
def Eng.rxStreamDelta (e : Eng) (p : Pkt) : Eng :=
  let p := e.asRow p
  match e.deltaTarget p true with
  | none => e.malformed
  | some (r, j) => ((e.orderStream r p j).drainStream (e.waits.length + 1)).noteData p

/-- A DELTA_RELEASE (R115). -/
def Eng.rxRelease (e : Eng) (p : Pkt) : Eng := e.takeRelease p.region p.row p.src p.thick p.release

/-- A DELTA_BUSY: nothing new goes to its sender for 20 µs (R117). -/
def Eng.rxBusy (e : Eng) (p : Pkt) : Eng := if e.busy.contains p.src then e else { e with busy := e.busy ++ [p.src] }

end Sys2Proof.Machine
end

