-- ==== Sys2Proof/Machine/Ledger.lean ====
section
/-!
DEFINITION. Sys2Proof/Machine/Ledger.lean: the ledger of committed rings (R383 to R391): its records as they begin, finish and are
read, apart from the weight digest, which the update unit's leaves give.
-/
namespace Sys2Proof.Machine

def Eng.setKeep (e : Eng) (f : Keep → Keep) : Eng := { e with keep := f e.keep }
def Eng.setLed (e : Eng) (f : Ledger → Ledger) : Eng := e.setKeep (fun k => { k with led := f k.led })

/-- A graft in this grove began or ended: the next record to finish says so (R384). -/
def Eng.noteGraftEdge (e : Eng) (edge : Bool) : Eng := if edge then e.setLed (fun l => { l with graft := true }) else e

/-- The chain goes on from the record of an anchor's header, or anew (R388). -/
def Eng.setChain (e : Eng) (mac : List Byte) (new : Bool) : Eng := e.setLed (fun l => { l with prevMac := mac, chainNew := new })

/-- Records the ledger SRAM holds (R386). -/
def ledgerSize : Nat := 4096

def LedRec.pending (r : LedRec) : Bool := r.bytes.isNone && !r.lost

/-- The weight digest that belongs to a record, once it has been formed (R379). -/
def Eng.recWeight (e : Eng) (r : LedRec) : Option (List Byte) :=
  r.wstep.bind (look e.keep.led.weights)

/-- STATUS of a record (R384); WEIGHT_LATE belongs to one that is being finished. -/
def Eng.recStatus (e : Eng) (r : LedRec) (ends : Bool) : Nat :=
  let l := e.keep.led
  let f := fun (c : Bool) (i : Nat) => if c then 2 ^ i else 0
  let inp := e.on Reg.LED_CTL_INPUT_EN
  f r.isNew 0 + f r.wstep.isNone 1 + f (ends && r.wstep.isSome && (e.recWeight r).isNone) 2 + f (!inp) 3 +
  f (inp && (look e.inputs r.ring).isNone) 4 + f l.recomputed 5 + f l.gap 6 + f l.chainNew 7 +
  f e.sec.atk.isNone 8 + f l.graft 9

/-- Bytes 0x00 to 0xDF of a record (R383). -/
def Eng.recBody (e : Eng) (r : LedRec) (ends : Bool) : List Byte :=
  let mode := e.rd Reg.UPD_CTL_STRICT + 2 * e.rd Reg.UPD_INTAKE_CTL_B5 + 4 * e.rd Reg.ANC_RST_STAT_DIFF
  natLe 2 1 ++ natLe 2 256 ++ natLe 2 mode ++ natLe 2 (e.recStatus r ends)
    ++ natLe 4 r.ring ++ natLe 4 r.bnd.step ++ natLe 4 (r.wstep.getD 0) ++ natLe 4 e.place
    ++ natLe 8 r.time ++ natLe 8 r.bnd.count
    ++ natLe 4 (e.rd Reg.GEN_ID_FW_VERSION)
    ++ [byteOf e.pos, byteOf e.w, byteOf e.m, byteOf r.bnd.kind]
    ++ natLe 8 (e.rd Reg.UPD_UPROG_DIGEST_DIGEST) ++ natLe 8 (e.rd Reg.GRV_RGN_DIGEST_DIGEST)
    ++ (List.range 4).flatMap (fun n => natLe 8 (e.rd (Reg.LED_PROGRAM_DIGEST n)))
    ++ padTo 32 ((e.recWeight r).getD [])
    ++ (if e.on Reg.LED_CTL_INPUT_EN then padTo 32 ((look e.inputs r.ring).getD []) else zeros 32)
    ++ (List.range 4).flatMap (fun n => natLe 8 (e.rd (Reg.LED_FUSE_DIGEST n)))
    ++ padTo 32 e.keep.led.prevMac

/-- A record with its MAC (R383, R387). -/
def Eng.recBytes (e : Eng) (r : LedRec) : List Byte :=
  let b := e.recBody r true
  b ++ (match e.sec.atk with | some k => hmacSha3 k b | none => zeros 32)

/-- MAC of a record's bytes. -/
def macOf (b : List Byte) : List Byte := (b.drop 0xE0).take 32

/-- LED_LAST follows the records held. -/
def Eng.ledLast (e : Eng) : Eng :=
  let rs := e.keep.led.recs
  let e := match (rs.filter (fun r => r.bytes.isSome)).getLast? with
    | some r => e.wr Reg.LED_LAST_NEWEST r.ring
    | none => e
  match rs.head? with
  | some r => e.wr Reg.LED_LAST_OLDEST r.ring
  | none => e

/-- A record finishes: its bytes, its place in the chain, and the flags it has taken; the anchor of its ring takes the record
(R385, R387, R390). -/
def Eng.finishRec (e : Eng) (r : LedRec) : Eng :=
  let b := e.recBytes r
  let e := e.setLed (fun l => { l with
    recs := l.recs.map (fun x => if x == r then { x with bytes := some b } else x), prevMac := macOf b,
    recomputed := false, gap := false, chainNew := false, graft := false })
  let e := e.setKeep (fun k => { k with anchor := k.anchor.map (fun a =>
    if a.cut && a.ring == r.ring then { a with ledger := some b } else a) })
  e.ledLast

/-- Pending records finish in ascending ring order as they become ready (R385). DEDUCED: log entry 84. -/
def Eng.finishRecs : Nat → Eng → Eng
  | 0, e => e
  | fuel + 1, e =>
    match e.keep.led.recs.find? LedRec.pending with
    | none => e
    | some r =>
      if r.applied && (!r.isNew || (e.recWeight r).isSome) then Eng.finishRecs fuel (e.finishRec r) else e

/-- Every pending record is looked at. -/
def Eng.finishReady (e : Eng) : Eng := e.finishRecs (e.keep.led.recs.length + 1)

/-- WEIGHT_NEW of a record that goes without its digest passes to the first record of its step that is still pending, or to the
next one (R386). DEDUCED: log entry 84. -/
def Eng.passNew (e : Eng) (r : LedRec) : Eng :=
  if !(r.isNew && (e.recWeight r).isNone) then e
  else match e.keep.led.recs.findIdx? (fun x => x.pending && x.wstep == r.wstep && x != r) with
    | some i => e.setLed (fun l => { l with recs := l.recs.modify i (fun x => { x with isNew := true }) })
    | none => e.setLed (fun l => { l with lateNew := true })

/-- The oldest record makes room for a new one; a pending one is finished first, with WEIGHT_LATE where its digest is
missing (R386). DEDUCED: log entry 84. -/
def Eng.ledRoom (e : Eng) : Eng :=
  match e.keep.led.recs with
  | [] => e
  | r :: _ =>
    if e.keep.led.recs.length < ledgerSize then e
    else
      let e := if r.pending then (e.finishRec r).passNew r else e
      e.setLed (fun l => { l with recs := l.recs.drop 1 })

/-- RING_COMMIT for a ring has been accepted: its record begins (R379, R385). -/
def Eng.beginRecord (e : Eng) (ring : Nat) (b : Bnd) (wstep : Option Nat) : Eng :=
  let e := e.ledRoom
  let w := if e.rgns.any (fun r => r.streamed) then wstep else none
  let l := e.keep.led
  let fresh := w.isSome && (l.lastW != w || l.lateNew)
  let r : LedRec := { ring := ring, bnd := b, wstep := w, time := e.now, isNew := fresh, applied := false, bytes := none,
                      lost := false }
  let e := e.setLed (fun l => { l with recs := l.recs ++ [r], lastW := if w.isSome then w else l.lastW,
                                       owed := l.owed ++ (w.toList.filter (fun s =>
                                         l.lastW != w && !l.owed.contains s && (look l.weights s).isNone)),
                                       lateNew := l.lateNew && !fresh })
  e.ledLast

/-- The apply of a ring has ended (R180, R385). -/
def Eng.recApplied (e : Eng) (ring : Nat) : Eng :=
  (e.setLed (fun l => { l with recs := l.recs.map (fun x => if x.ring == ring then { x with applied := true } else x) })).finishReady

/-- Weight steps of committed rings whose digests have not been formed yet, the earliest first (R379, R380). -/
def Eng.openWeights (e : Eng) : List Nat := e.keep.led.owed

/-- A weight digest has been formed: it is kept beside those that pending records still wait to carry (R379). -/
def Eng.keepWeight (e : Eng) (w : Nat) (d : List Byte) : Eng :=
  e.setLed (fun l => { l with
    owed := l.owed.filter (· != w)
    weights := put (l.weights.filter (fun x => l.recs.any (fun r => r.pending && r.wstep == some x.1))) w d })

/-- An uncorrectable word in ledger SRAM loses the record in a slot; the chain then goes on from the newest intact finished record
(R389), and where none is left from nothing. DEDUCED: log entry 84. -/
def Eng.loseRecord (e : Eng) (n : Nat) : Eng :=
  match e.keep.led.recs[n]? with
  | none => e
  | some r =>
    if r.lost then e
    else
      let e := if r.pending then e.passNew r else e
      let rs := e.keep.led.recs.modify n (fun x => { x with lost := true, bytes := none })
      let prev := match (rs.filter (fun r => r.bytes.isSome)).getLast? with
        | some r => macOf (r.bytes.getD [])
        | none => []
      e.setLed (fun l => { l with recs := rs, gap := true, prevMac := if r.bytes.isSome then prev else l.prevMac })

/-- LEDGER_LATCH: a write to LED_SEL.RING latches that ring's record (R391). -/
def Eng.latchRecord (e : Eng) (ring : Nat) : Eng :=
  let e := e.wr Reg.LED_SEL_RING ring
  let (st, b) := match (e.keep.led.recs.filter (fun r => r.ring == w32 ring)).getLast? with
    | none => (2, zeros 256)
    | some r =>
      if r.lost then (3, zeros 256)
      else match r.bytes with
        | some b => (0, b)
        | none => (1, e.recBody r false ++ zeros 32)
  let e := e.wr Reg.LED_SEL_STATE st
  e.each (List.range 64) (fun n e => e.wr (Reg.LED_DATA_WORD n) (fieldAt b (4 * n) 4))

/-- LEDGER_LATCH (R391). -/
def execLedgerLatch (v : DWord) (s : State) : Host.Outcome State Fault Refusal :=
  .next (s.run (fun e => e.write .coding [Reg.LED_SEL_STATE, Reg.LED_SEL_RING] v.toNat (fun e => e.latchRecord (v.toNat % 2 ^ 32))))

end Sys2Proof.Machine
end

