-- ==== Sys2Proof/Machine/Ring.lean ====
section
/-!
DEFINITION. Sys2Proof/Machine/Ring.lean: rings, their boundaries and seals (R155 to R175), staging and the apply of a commit (R166,
R167, R177 to R180), and rollback (R181 to R187), as operations that the commands of those rules use.
-/
namespace Sys2Proof.Machine

/-! ### Operations of the tier manager and transfers at the memory-side ports -/

/-- Ask the tier manager for an operation (R161, R230). DEDUCED: log entry 83. -/
def Eng.askTier (e : Eng) (what : TierOp) (why : TierWhy) : Eng :=
  ({ e with tier := e.tier ++ [{ op := e.tierNo, what := what, why := why }], tierNo := e.tierNo + 1 } : Eng).emit
    (.tier e.tierNo what)

/-- An operation names up to 16 ranges (R333); more ranges take more operations, and none at all still takes one. -/
def Eng.askRanges (e : Eng) (mk : List (Nat × Nat) → TierOp) (why : TierWhy) (rs : List (Nat × Nat)) : Eng :=
  if rs.isEmpty then e.askTier (mk []) why
  else e.each (chunksOf 16 (rs.length / 16 + 1) rs) (fun g e => if g.isEmpty then e else e.askTier (mk g) why)

/-- Some operation asked for a reason is still unanswered. DEDUCED: log entry 83. -/
def Eng.tierWaits (e : Eng) (why : TierWhy) : Bool := e.tier.any (fun t => t.why == why)

/-- The memory-side port of an address. DESIGN CHOICE: log entry 80. -/
def portOf (a : Nat) : Nat := Config.stackOf a % 8

/-- The next transfer's tag (10 bits, R317). -/
def Eng.takeTag (e : Eng) : Nat × Eng := (e.xferNo, { e with xferNo := (e.xferNo + 1) % 1024 })

def Eng.setHealth (e : Eng) (f : Health → Health) : Eng := { e with health := f e.health }

/-- A transfer's next operation: its address and its size of at most 256 B (R317). -/
def Xfer.pos (x : Xfer) : Nat := x.addr + x.off
def Xfer.size (x : Xfer) : Nat := min 256 (x.len - x.off)

/-- A transfer's operation is issued under its tag (R317); one that has not been answered is issued again (R179, R453). -/
def Eng.askAgain (e : Eng) (x : Xfer) : Eng :=
  match x.kind with
  | .applyWrite => e.emit (.memWrite (portOf x.pos) x.tag x.pos ((x.data.drop x.off).take x.size))
  | .cwrite => e.emit (.memCwrite (portOf x.pos) x.tag x.pos x.data x.read)
  | _ => e.emit (.memRead (portOf x.pos) x.tag x.pos x.size)

/-- Bytes that a port may move in a 1 µs window (R318). DEDUCED: log entry 68. -/
def Eng.portBudget (e : Eng) : Nat := e.rd Reg.MEM_SHARE_NOW * e.rd Reg.MEM_SHARE_NOMINAL * 5 / 4

/-- A port may issue a request of a class: what it has issued in the window and what earlier windows are owed leave some of
its budget, or the class is exempt (R318, R320). DEDUCED: log entry 68. -/
def Eng.portOpen (e : Eng) (p cls : Nat) : Bool :=
  cls == 1 || decide ((look e.health.spent p).getD 0 + (look e.health.debt p).getD 0 < e.portBudget)

/-- Place of a request in its port's order: class 1, then the class that has waited 1 ms, then the others (R319). -/
def Eng.portRank (e : Eng) (p : Nat) (x : Xfer) : Nat :=
  if x.cls = 1 then 0 else if look e.health.first p == some x.cls then 1 else 1 + x.cls

/-- A request leaves its port's queue. -/
def Eng.issueXfer (e : Eng) (x : Xfer) : Eng :=
  let p := portOf x.pos
  let e : Eng := { e with xfers := e.xfers.map (fun y => if y == x then { x with out := true } else y) }
  (e.setHealth (fun h => { h with spent := put h.spent p ((look h.spent p).getD 0 + x.size) })).askAgain x

/-- A port serves its queue in the order of R319, within the budget (R318). -/
def Eng.servePort : Nat → Nat → Eng → Eng
  | 0, _, e => e
  | fuel + 1, p, e =>
    match leastBy (e.portRank p) (e.xfers.filter (fun x => !x.out && portOf x.pos == p && e.portOpen p x.cls)) with
    | some x => Eng.servePort fuel p (e.issueXfer x)
    | none => e

/-- A transfer joins its port's queue. DESIGN CHOICE: log entry 91. -/
def Eng.queueXfer (e : Eng) (a n : Nat) (bs : List Byte) (k : XferKind) (cls : Nat) : Eng :=
  let (t, e) := e.takeTag
  let x : Xfer := { tag := t, addr := a, len := n, data := bs, kind := k, cls := cls, since := e.now, out := false }
  Eng.servePort 1024 (portOf a) { e with xfers := e.xfers ++ [x] }

/-- A tagged read, in the class of R319: mirror copies 5, anchors 6. A tensor digest, which R319 does not place, goes with the
anchors (DESIGN CHOICE, log entry 91). -/
def Eng.askRead (e : Eng) (a n : Nat) (k : XferKind) : Eng :=
  e.queueXfer a n [] k (match k with | .mirrorRead _ _ => 5 | _ => 6)

/-- A tagged write; its bytes are in memory once the controller has accepted it. -/
def Eng.askWrite (e : Eng) (a : Nat) (bs : List Byte) (k : XferKind) (cls : Nat) : Eng := e.queueXfer a bs.length bs k cls

/-- An operation of a transfer has been answered and more are to go: the next one queues at its port (R317). -/
def Eng.nextPiece (e : Eng) (x : Xfer) (bads : List LineRead) : Eng :=
  let y : Xfer := { x with off := x.off + x.size, bads := x.bads ++ bads, since := e.now, out := false }
  Eng.servePort 1024 (portOf y.pos) { e with xfers := e.xfers.map (fun z => if z == x then y else z) }

/-- A CWRITE of a line, behind a READ of it that it names (R317). -/
def Eng.askCwrite (e : Eng) (a : Nat) (bs : List Byte) (cls : Nat) : Eng :=
  let n := e.xferNo
  let e := e.queueXfer a 64 [] .lineRead cls
  let (t, e) := e.takeTag
  let x : Xfer := { tag := t, addr := a, len := bs.length, data := bs, kind := .cwrite, cls := cls, since := e.now, out := false, read := n }
  Eng.servePort 1024 (portOf a) { e with xfers := e.xfers ++ [x] }

/-! ### Rings -/

def Eng.setRings (e : Eng) (f : Rings → Rings) : Eng := { e with rings := f e.rings }

def Eng.base (e : Eng) : Nat := e.rd Reg.GRV_RING_STAT_BASE
def Eng.committed (e : Eng) : Nat := e.rd Reg.GRV_RING_STAT_COMMITTED
def Eng.closed (e : Eng) : Bool := e.on Reg.GRV_RING_STATE_CLOSED
def Eng.rolling (e : Eng) : Bool := e.on Reg.GRV_RING_STATE_ROLLING

/-- The record of a ring; a ring with none is free (R188). -/
def Eng.ring? (e : Eng) (n : Nat) : Option RingRec := e.rings.recs.find? (fun r => r.num == n)
def Eng.ringSt (e : Eng) (n : Nat) : RingState := match e.ring? n with | some r => r.st | none => .free

def Eng.setRingSt (e : Eng) (n : Nat) (st : RingState) : Eng :=
  e.setRings (fun g => { g with recs := g.recs.map (fun r => if r.num == n then { r with st := st } else r) })

/-- The ring whose commit was accepted last, its apply ended or not (R177, R181). -/
def Eng.lastCommit (e : Eng) : Nat := match e.rings.commits.getLast? with | some c => c.2.1 | none => e.committed

/-- Code of a ring's state (R188). -/
def ringCode : RingState → Nat
  | .free => 0 | .opened => 1 | .flushing => 2 | .sending => 3 | .localSealed => 4 | .groveSealed => 5
  | .committed => 6 | .split => 7 | .rolled => 8

/-- The engine has sealed the ring locally, or gone further with it. -/
def sealedLocally (st : RingState) : Bool := st == .localSealed || st == .groveSealed || st == .committed

/-- The same, or split since: a SPLIT ring was sealed locally before (R169, R188). -/
def wasSealed (st : RingState) : Bool := sealedLocally st || st == .split

/-- The open ring, if there is one. -/
def Eng.openRing? (e : Eng) : Option Nat := (e.rings.recs.find? (fun r => r.st == .opened)).map (·.num)

/-- The ring that a tap pair delivered now belongs to, and whether its entries are held until it opens (R99, R156, R164). -/
def Eng.tapRing (e : Eng) : Nat × Bool :=
  match e.rings.recs.find? (fun r => r.st == .opened || r.st == .flushing) with
  | some r => (r.num, false)
  | none => (w32 ((match e.rings.recs.getLast? with | some r => r.num | none => e.lastCommit) + 1), true)

/-- A region whose tap deltas are staged as ringed ones (R74, R93). -/
def Eng.stagedRgn (e : Eng) (r : Rgn) : Bool :=
  r.ringed || (r.mirror && e.advs.any (fun a => a.region == r.num && a.switch == 2))

/-- A mirror region that the advisor may switch towards coded at a seal (R92). -/
def Eng.maySwitch (e : Eng) (r : Rgn) : Bool :=
  r.mirror && e.on Reg.GRV_ADV_CTL_EXPERT && bit r.auto 0 && bit r.auto 2

/-- The ring before a ring has ended its flush and has not been sealed by the grove, so what that seal decides is still to
come (R93). -/
def Eng.undecided (e : Eng) (n : Nat) : Bool :=
  e.rings.recs.any (fun x => w32 (x.num + 1) == n && (x.st == .sending || x.st == .localSealed))

/-- A region whose tap pairs are captured: a staged one, or one that the seal of the ring before may switch towards coded, whose
deltas are kept from that ring's flush on until the seal decides (R93). DEDUCED: log entry 70. -/
def Eng.captured (e : Eng) (r : Rgn) : Bool := e.stagedRgn r || (e.maySwitch r && e.undecided e.tapRing.1)

/-- Ranges of every coded-ringed region (R182). -/
def Eng.ringedRanges (e : Eng) : List (Nat × Nat) := (e.rgns.filter (·.ringed)).map (fun r => (r.base, r.len))

/-- Ranges of every coded-ringed and mirror region (R161). -/
def Eng.ringRanges (e : Eng) : List (Nat × Nat) :=
  (e.rgns.filter (fun r => r.ringed || r.mirror)).map (fun r => (r.base, r.len))

/-! ### Results (R508) -/

/-- Result of a ring command: RING, STEP, COUNT stamp, GAP leaves. With no boundary to name, STEP and COUNT are values that
the spec leaves open. DESIGN CHOICE: log entry 87. -/
def Eng.ringResult (e : Eng) (n : Nat) (b : Option Bnd) (gap : Nat) : List Byte :=
  natLe 4 n ++ (match b with
    | some x => natLe 4 x.step ++ natLe 8 x.count
    | none => e.freeBytes 12) ++ natLe 4 gap

/-- Complete a ring command. DESIGN CHOICE: log entry 87. -/
def Eng.completeRing (e : Eng) (id status n : Nat) (b : Option Bnd) (gap : Nat) : Eng :=
  (e.complete id status (e.ringResult n b gap)).useFree (if b.isSome then 0 else 12)

/-! ### Capture (R99 to R101) -/

/-- The next SEQ of a leaf in a ring (R112). -/
def Eng.nextRingSeq (e : Eng) (region row ring : Nat) : Nat :=
  match e.rings.seqs.find? (fun s => s.region == region && s.row == row && s.ring == ring) with
  | some s => w32 (s.last + 1)
  | none => 1

def Eng.setRingSeq (e : Eng) (region row ring v : Nat) : Eng :=
  e.setRings (fun g => { g with seqs :=
    (g.seqs.filter (fun s => !(s.region == region && s.row == row && s.ring == ring)))
      ++ [{ region := region, row := row, ring := ring, last := v }] })

/-- Thinned bytes of a region's tap pairs in a ring, for the class advisor (R91). -/
def Eng.advBytes (e : Eng) (region ring n : Nat) : Eng :=
  { e with advs := e.advs.map (fun a =>
      if a.region == region then { a with bytes := put a.bytes ring ((look a.bytes ring).getD 0 + n) } else a) }

/-- A capture entry closes: it is thinned and sent, unless it is all zero (R100, R104, R111, R112). -/
def Eng.closeEntry (e : Eng) (c : Capture) : Eng :=
  let e := { e with caps := e.caps.erase c }
  match e.rgn? c.region with
  | none => e
  | some r =>
    if allZero c.delta then e
    else
      let wdt := elemWidth r.fmt
      let map := lineMapOf wdt c.delta
      let pay := thin wdt c.delta
      let e := e.advBytes r.num c.ring pay.length
      let seq := e.nextRingSeq c.region c.row c.ring
      let e := e.setRingSeq c.region c.row c.ring seq
      e.sendData { typ := tRingDelta, region := c.region, row := c.row, sector := c.sector, stamp := c.ring, seq := seq,
                   planes := planesOf wdt map, lineMap := map, payload := pay, release := 0,
                   dests := e.destsOf c.region c.row }

/-- An entry may close: its ring has opened (R164), and its region's deltas are sent (R93). DEDUCED: log entry 82. -/
def Eng.mayClose (e : Eng) (c : Capture) : Bool :=
  (e.ring? c.ring).isSome && (match e.rgn? c.region with | some r => e.stagedRgn r | none => true)

/-! ### Staging at the holder (R166, R167) -/

def Stage.same (s : Stage) (ring region row src : Nat) (thick : Bool) : Bool :=
  s.ring == ring && s.region == region && s.row == row && s.src == src && s.thick == thick

def Eng.stage? (e : Eng) (ring region row src : Nat) (thick : Bool) : Option Stage :=
  e.rings.stages.find? (fun s => s.same ring region row src thick)

/-- Highest SEQ staged of a source leaf in a ring. -/
def Eng.stagedTo (e : Eng) (ring region row src : Nat) (thick : Bool) : Nat :=
  match e.stage? ring region row src thick with | some s => s.ah | none => 0

/-- The staging of a source leaf has had an uncorrectable error: one of its staging sectors cannot be read (R190, R329).
DESIGN CHOICE: log entry 89. -/
def Eng.stageBad (e : Eng) (s : Stage) : Bool :=
  !s.usable || s.secs.any (fun x =>
    e.journalBad 0 [s.ring, s.region, s.row, s.src, if s.thick then 1 else 0, x.1] sectorBytes)

/-- Stage a packet that is next in order (R167). -/
def Eng.stagePkt (e : Eng) (r : Rgn) (p : Pkt) : Eng :=
  let d := expand (elemWidth r.fmt) p.lineMap p.payload
  let s : Stage := (e.stage? p.stamp p.region p.row p.src p.thick).getD
    { ring := p.stamp, region := p.region, row := p.row, src := p.src, thick := p.thick, ah := 0, secs := [], usable := true }
  let d' := match look s.secs p.sector with | some old => xorBytes old d | none => d
  let bad := e.stageBad s
  let s' := { s with ah := p.seq, secs := put s.secs p.sector d', usable := !bad }
  let e := e.setRings (fun g => { g with stages :=
    (g.stages.filter (fun x => !x.same p.stamp p.region p.row p.src p.thick)) ++ [s'] })
  e.ackPkt p

/-- A ring after the governing target of a freeze (R166, R183). -/
def Eng.frozenPast (e : Eng) (ring : Nat) : Bool := match e.rings.frozen with | some c => precedes c ring | none => false

/-- What R166 does with a packet by its ring: 0 staged now, 1 held for a slot, 2 discarded. -/
def Eng.ringGate (e : Eng) (ring : Nat) : Nat :=
  if e.frozenPast ring then 2
  else if ring == e.base || ring == w32 (e.base + 1) then 0
  else if ring == w32 (e.base + 2) then 1
  else 2

/-- A ringed packet past check 5 (R166, R113, R119). -/
def Eng.orderRing (e : Eng) (r : Rgn) (p : Pkt) : Eng :=
  match e.ringGate p.stamp with
  | 2 => e.bump Reg.GRV_RING_DROP_COUNT
  | 1 => e.hold p
  | _ =>
    let a := e.stagedTo p.stamp p.region p.row p.src p.thick
    if atOrBefore p.seq a then (e.bump Reg.GRV_SAP_DROP_DUP).ackPkt p
    else if p.seq == w32 (a + 1) && !e.parityBusy r p.row p.thick then e.stagePkt r p
    else e.hold p

/-- A held ringed packet that can go on now. A frozen holder keeps those of the rings after the target until RING_OPEN
(R183). -/
def Eng.ringReady (e : Eng) (p : Pkt) : Bool :=
  p.typ == tRingDelta && !e.frozenPast p.stamp && e.ringGate p.stamp != 1 &&
  (match e.rgn? p.region with
   | some r => e.ringGate p.stamp == 2 ||
      (!e.parityBusy r p.row p.thick &&
        atOrBefore p.seq (w32 (e.stagedTo p.stamp p.region p.row p.src p.thick + 1)))
   | none => true)

/-- Held ringed packets are resumed in order as their slot, their context and the gap before them allow (R113, R166). -/
def Eng.drainRing : Nat → Eng → Eng
  | 0, e => e
  | fuel + 1, e =>
    match e.waits.find? e.ringReady with
    | none => e
    | some p =>
      let e := { e with waits := e.waits.erase p }
      match e.rgn? p.region with
      | some r => Eng.drainRing fuel (e.orderRing r p)
      | none => Eng.drainRing fuel e

/-- Every packet held here is offered again. -/
def Eng.drainWaits (e : Eng) : Eng :=
  let n := e.waits.length + 1
  (e.drainStream n).drainRing n

/-- A RING_DELTA that has passed checks 1 to 3 (R119, R166). A holder discards one of a region that is mirror by now (R93). -/
def Eng.rxRingDelta (e : Eng) (p : Pkt) : Eng :=
  let p := e.asRow p
  match e.rgn? p.region with
  | none => e.malformed
  | some r =>
    if r.mirror && !e.stagedRgn r then e
    else if !e.stagedRgn r || r.rows ≤ p.row || p.dst != e.pos || (e.parityRowFor p.region p.row p.thick).isNone then e.malformed
    else ((e.orderRing r p).drainRing (e.waits.length + 1)).noteData p

/-! ### Votes and seals (R169 to R173) -/

/-- Pad records to whole lines with unused ones. -/
def padRecords (w : Nat) (unused bs : List Byte) : List Byte :=
  let n := bs.length / w
  let per := 64 / w
  bs ++ (List.replicate ((per - n % per) % per) unused).flatten

/-- The parts of a vote's payload: the boundary's line and then the records, 63 lines to a part. -/
def voteParts (b : Bnd) (recs : List Byte) : List (List Byte) :=
  let head := padTo 64 (natLe 4 b.step ++ [byteOf b.kind] ++ zeros 3 ++ natLe 8 b.count)
  let body := padRecords 4 [0xFF, 0xFF, 0, 0] recs
  let cs := chunksOf 4032 (body.length / 4032 + 1) body
  match cs with
  | [] => [head]
  | c :: rest => (head ++ c) :: rest.filter (fun x => !x.isEmpty)

def Eng.vote? (e : Eng) (ring pos : Nat) : Option Vote := e.rings.votes.find? (fun v => v.ring == ring && v.pos == pos)
def Eng.setVote (e : Eng) (v : Vote) : Eng :=
  e.setRings (fun g => { g with votes := (g.votes.filter (fun x => !(x.ring == v.ring && x.pos == v.pos))) ++ [v] })

/-- A vote of which every part is held (R170). -/
def Vote.complete (v : Vote) : Bool := v.parts.length == v.count

/-- The local-seal conditions of R169 for a ring in SENDING. A ring waits for the grove seal before it where that may switch a mirror
region, whose captures it then sends (R93, DEDUCED, log entry 70). -/
def Eng.canLocalSeal (e : Eng) (n : Nat) : Bool :=
  e.ringSt n == .sending &&
  !(e.caps.any (fun c => c.ring == n)) &&
  !(e.sent.any (fun s => s.typ == tRingDelta && s.stamp == n)) &&
  !(e.sent.any (fun s => s.typ == tClassProd && w32 (s.stamp + 1) == n)) &&
  !(e.advs.any (fun a => a.switch == 2 && w32 (a.ring + 1) == n && a.queued)) &&
  !(e.undecided n && e.rgns.any (fun r => e.maySwitch r)) &&
  e.rings.recs.all (fun r => !precedes r.num n || wasSealed r.st)

/-! ### Flush and opening (R161, R162, R174) -/

/-- A wait for a staging slot ends, and is added to GRV_RING_STALL (R175). -/
def Eng.endStall (e : Eng) : Eng :=
  let e := match e.rings.stallAt with
    | some t => e.bumpBy Reg.GRV_RING_STALL_MICROS ((e.now - t) / 1000)
    | none => e
  e.setRings (fun g => { g with stallAt := none, stallRaised := false })

/-- A ring opens (R162, R174, R186). -/
def Eng.openRing (e : Eng) (n : Nat) : Eng :=
  let e := e.setRings (fun g => { g with recs := g.recs ++ [{ num := n, st := .opened, bnd := none, wstep := none }], highest := some n })
  let e := e.endStall
  e.signal (e.rd Reg.GRV_RING_SYNC_OPEN_OBJ)

/-- Uncommitted rings that hold a staging slot. -/
def Eng.slotsUsed (e : Eng) : Nat := (e.rings.recs.filter (fun r => r.st != .committed)).length

/-- The next ring opens where no ring is open and a slot is free; else the wait for one begins (R162, R174). -/
def Eng.openNext (e : Eng) : Eng :=
  if e.closed || (e.rings.recs.any (fun r => r.st == .opened || r.st == .flushing)) then e
  else
    match e.rings.recs.getLast? with
    | none => e
    | some r =>
      if e.slotsUsed < 2 then e.openRing (w32 (r.num + 1))
      else if e.rings.stallAt.isSome then e
      else e.setRings (fun g => { g with stallAt := some e.now, stallRaised := false })

/-- The open ring enters FLUSHING at a selected boundary (R161). -/
def Eng.startFlush (e : Eng) (n : Nat) (b : Bnd) : Eng :=
  let w := if e.rings.seenStep then some (e.rd Reg.GRV_BND_LAST_LAST_STEP) else none
  let e := e.setRings (fun g => { g with recs := g.recs.map (fun r =>
    if r.num == n then { r with st := .flushing, bnd := some b, wstep := w } else r) })
  e.askRanges .flush .ringFlush e.ringRanges

/-- Every capture entry of a ring closes (R162), but those of a region whose switch is still to be decided (R93). -/
def Eng.closeRing (e : Eng) (n : Nat) : Eng :=
  e.each (e.caps.filter (fun c => c.ring == n && e.mayClose c)) (fun c e => e.closeEntry c)

/-! ### Boundaries (R157, R158) -/

/-- A boundary is qualifying (R158). DEDUCED: log entry 48. -/
def Eng.qualifying (e : Eng) (kind : Nat) : Bool :=
  e.on Reg.GRV_SEAL_CTL_EN &&
  ((bit kind 0 && e.on Reg.GRV_SEAL_CTL_KIND_STEP) || (bit kind 1 && e.on Reg.GRV_SEAL_CTL_KIND_TSTEP))

/-- The sequence of a boundary's KIND: 0 step, 1 time step (R157). -/
def seqOf (kind : Nat) : Nat := if bit kind 0 then 0 else 1

/-- A RING_SEAL request completes LATE (R158). -/
def Eng.reqLate (e : Eng) (q : SealReq) : Eng :=
  let e := e.setRings (fun g => { g with reqs := g.reqs.filter (fun x => x.cmd != q.cmd) })
  e.completeRing q.cmd stLate (match e.openRing? with | some n => n | none => e.base) none 0

/-- What a declared boundary does to the rings: requests that missed it end LATE, and a qualifying boundary that a request
selects ends the open ring (R158, R161); with GRV_SEAL_CTL.EN at 0, requests stay pending. `pick`: an anchor request selects
the boundary (R342). DEDUCED: log entry 48. -/
def Eng.boundaryRing (e : Eng) (b : Bnd) (pick : Bool) : Eng :=
  let mine := e.rings.reqs.filter (fun q => q.ring.isNone && q.seq == seqOf b.kind)
  let late := mine.filter (fun q => precedes q.step b.step)
  let hit := mine.filter (fun q => q.step == b.step)
  if !e.on Reg.GRV_SEAL_CTL_EN then e
  else
    let e := e.each late (fun q e => e.reqLate q)
    match e.openRing? with
    | none => e.each hit (fun q e => e.reqLate q)
    | some n =>
      if !e.qualifying b.kind then e.each hit (fun q e => e.reqLate q)
      else
        let sched := e.on Reg.GRV_SEAL_CTL_SCHED_ARM && e.rd Reg.GRV_SEAL_AT_COUNT ≤ b.count
        if hit.isEmpty && !sched && !pick then e
        else
          let e := if sched then e.flag Reg.GRV_SEAL_CTL_SCHED_ARM false else e
          let e := e.setRings (fun g => { g with
            reqs := g.reqs.map (fun q => if hit.any (fun h => h.cmd == q.cmd) then { q with ring := some n } else q),
            lateRaised := if sched then false else g.lateRaised })
          e.startFlush n b

/-! ### Commit (R177 to R180) -/

/-- Sectors that a ring's staging touches in one parity leaf. -/
def stagedSectors (ss : List Stage) : List Nat := ((ss.flatMap (fun s => s.secs.map (·.1))).mergeSort (· ≤ ·)).eraseDups

/-- The sectors to apply of a ring, leaf by leaf (R178). -/
def Eng.applyJobs (e : Eng) (n : Nat) : List ApplyJob :=
  let ss := e.rings.stages.filter (fun s => s.ring == n)
  let leaves := (ss.map (fun s => (s.region, s.row, s.thick))).eraseDups
  leaves.flatMap (fun l =>
    let mine := ss.filter (fun s => s.region == l.1 && s.row == l.2.1 && s.thick == l.2.2)
    (stagedSectors mine).map (fun x => { ring := n, region := l.1, row := l.2.1, sector := x, thick := l.2.2 }))

/-- The staging of a committed ring that an error has made unusable: each parity leaf concerned is marked degraded, a hosted row is
to be built again, and the rest of the ring is not applied to it (R190). -/
def Eng.dropBad (e : Eng) (n : Nat) (bad : List Stage) : Eng :=
  let e := e.each bad (fun s e => match e.rgn? s.region with
    | some r =>
      if s.thick then
        { e with hosted := e.hosted.map (fun h => if h.region == s.region && h.row == s.row then { h with built := false } else h) }
      else e.setLeafState (r.leaf s.row) 4
    | none => e)
  let hit := fun (ring region row : Nat) (thick : Bool) =>
    ring == n && bad.any (fun b => b.region == region && b.row == row && b.thick == thick)
  e.setRings (fun g => { g with stages := g.stages.filter (fun s => !hit s.ring s.region s.row s.thick),
                                applies := g.applies.filter (fun j => !hit j.ring j.region j.row j.thick) })

/-- The staging of a ring that cannot be read at its commit (R190). -/
def Eng.dropUnusable (e : Eng) (n : Nat) : Eng := e.dropBad n (e.rings.stages.filter (fun s => s.ring == n && e.stageBad s))

/-- Contexts of this engine's own ringed leaves take a committed ring (R180). -/
def Eng.commitOwn (e : Eng) (n : Nat) (parity : Bool) : Eng :=
  e.each (e.rgns.filter (fun r => r.ringed)) (fun r e =>
    e.each ((List.range r.rows).filter (fun s => e.isParityRow r s == parity)) (fun s e =>
      e.updCtx (r.leaf s) (fun c => { c with ring := n })))

/-- One ring's commit is accepted: it enters COMMITTED and its apply starts (R177, R178). DEDUCED: log entry 81. -/
def Eng.commitOne (e : Eng) (cmd : Option Nat) (n : Nat) : Eng :=
  let b := match e.ring? n with | some r => r.bnd | none => none
  let e := e.beginRecord n (b.getD { step := 0, kind := 0, count := 0 }) ((e.ring? n).bind (·.wstep))
  let e := e.setRingSt n .committed
  let e := e.dropUnusable n
  let e := e.commitOwn n false
  let jobs := e.applyJobs n
  let e := e.setRings (fun g => { g with
    commits := g.commits ++ [(cmd, n, b.getD { step := 0, kind := 0, count := 0 })], applies := g.applies ++ jobs })
  let e := if e.on Reg.GRV_APPLY_STAT_ACTIVE then e else (e.flag Reg.GRV_APPLY_STAT_ACTIVE true).wr Reg.GRV_APPLY_STAT_RING n
  e.wr Reg.GRV_APPLY_STAT_LEAVES
    ((e.rings.applies.map (fun j => (j.region, j.row, j.thick))).eraseDups.length)

/-- The XOR of products that a ring's staging adds to one parity sector (R178). -/
def Eng.applySum (e : Eng) (j : ApplyJob) (row : Nat) : List Byte :=
  (e.rings.stages.filter (fun s => s.ring == j.ring && s.region == j.region && s.row == j.row && s.thick == j.thick)).foldl
    (fun acc s => match look s.secs j.sector with
      | some d => xorBytes acc (gfScale (coeff row ((s.src + e.w - j.row % e.w) % e.w)) d)
      | none => acc) (zeros 4096)

/-- A sector's staged bits are cleared (R178). -/
def Eng.clearStaged (e : Eng) (j : ApplyJob) : Eng :=
  e.setRings (fun g => { g with
    stages := g.stages.map (fun s =>
      if s.ring == j.ring && s.region == j.region && s.row == j.row && s.thick == j.thick then
        { s with secs := cut s.secs j.sector } else s),
    applies := g.applies.erase j })

/-- The count of leaves still to apply. -/
def Eng.applyLeaves (e : Eng) : Eng :=
  e.wr Reg.GRV_APPLY_STAT_LEAVES ((e.rings.applies.map (fun j => (j.region, j.row, j.thick))).eraseDups.length)

/-- Staging that an apply job needs and that cannot be read (R190). -/
def Eng.badStages (e : Eng) (j : ApplyJob) : List Stage :=
  e.rings.stages.filter (fun s => s.ring == j.ring && s.region == j.region && s.row == j.row && s.thick == j.thick && e.stageBad s)

/-- The next sector whose context is not rebuilding is read, folded and written; a sector of a hosted row is folded in the
journal (R178). One write is outstanding at a time. Staging that cannot be read ends its leaf's part of the apply (R190). -/
def Eng.issueApply : Nat → Eng → Eng
  | 0, e => e
  | fuel + 1, e =>
    if e.xfers.any (fun x => x.kind == .applyWrite) then e
    else
      match e.rings.applies.find? (fun j => match e.rgn? j.region with
          | some r => !e.parityBusy r j.row j.thick
          | none => true) with
      | none => e
      | some j =>
        if !(e.badStages j).isEmpty then Eng.issueApply fuel (e.dropBad j.ring (e.badStages j)).applyLeaves
        else
        match e.rgn? j.region, e.parityRowFor j.region j.row j.thick with
        | some r, some row =>
          let sum := e.applySum j row
          if j.thick then Eng.issueApply fuel ((e.foldParity r j.row j.sector true sum).clearStaged j).applyLeaves
          else
            let a := r.rowAddr j.row + j.sector * 4096
            -- the job in hand goes to the head of the list, where its write's response finds it
            let e := e.setRings (fun g => { g with applies := j :: g.applies.erase j })
            e.askWrite a (xorBytes (e.memRead a 4096) sum) .applyWrite 5
        | _, _ => Eng.issueApply fuel (e.clearStaged j).applyLeaves

/-- The controller has accepted the write of the sector at the cursor (R179). The fold is one step with respect to every other
write of the engine's to the sector, whenever that came (R51). -/
def Eng.applyWritten (e : Eng) (x : Xfer) : Eng :=
  match e.rings.applies with
  | [] => e
  | j :: _ =>
    let row := (e.parityRowFor j.region j.row j.thick).getD 0
    (((e.storeXor x.addr (e.applySum j row)).clearStaged j).applyLeaves).issueApply 4096

/-! ### Rollback (R181 to R187) -/

/-- The holder that a fetch asks next: the present holder of the lowest parity row not yet tried, a thickening row last
(R184, R185). -/
def Eng.nextHolder (e : Eng) (region row : Nat) (tried : List Nat) : Option (Nat × Bool) :=
  match (e.destsOf region row).find? (fun d => !tried.contains (d.pos + (if d.thick then 16 else 0))) with
  | some d => some (d.pos, d.thick)
  | none => none

/-- Fetches that may start, up to ROLL_PAR in flight (R184). -/
def Eng.startFetches (e : Eng) : Eng :=
  match e.rings.roll with
  | none => e
  | some ro =>
    let live := (ro.fetches.filter (fun f => f.live && !f.ended)).length
    let room := e.rd Reg.GRV_RING_CTL_ROLL_PAR - live
    let go := (ro.fetches.filter (fun f => !f.live)).take room
    let fs := ro.fetches.map (fun f => if go.contains f then { f with live := true } else f)
    let e := e.setRings (fun g => { g with roll := some { ro with fetches := fs } })
    e.each go (fun f e => e.send f.holder { typ := tRollFetch, region := f.region, row := f.row, stamp := f.ring, release := ro.target })

/-- A leaf that cannot return to the target: degraded, counted, reported; its fetches end (R185). -/
def Eng.rollGap (e : Eng) (region row : Nat) : Eng :=
  match e.rings.roll with
  | none => e
  | some ro =>
    if ro.gaps.contains (region, row) then e
    else
      let e := e.setRings (fun g => { g with roll := some { ro with
        gaps := ro.gaps ++ [(region, row)], fetches := ro.fetches.filter (fun f => !(f.region == region && f.row == row)) } })
      let e := match e.rgn? region with | some r => e.setLeafState (r.leaf row) 4 | none => e
      (e.bump Reg.GRV_ROLL_STAT_GAP).raise .ROLL_GAP

/-- A fetch goes to the next present holder as `Eng.startFetches` has room for it (R184), or its leaf cannot return (R185). -/
def Eng.refetch (e : Eng) (f : Fetch) : Eng :=
  match e.rings.roll with
  | none => e
  | some ro =>
    let tried := f.tried ++ [f.holder + (if f.thick then 16 else 0)]
    match e.nextHolder f.region f.row tried with
    | none => e.rollGap f.region f.row
    | some (h, t) =>
      let f' := { f with holder := h, thick := t, tried := tried, got := [], ah := 0, ended := false, live := false }
      e.setRings (fun g => { g with roll := some { ro with fetches := ro.fetches.map (fun x => if x == f then f' else x) } })

/-- A leaf all of whose fetches have ended takes its sectors and its owner's unacknowledged copies (R184). -/
def Eng.returnLeaf (e : Eng) (region row : Nat) : Eng :=
  match e.rings.roll, e.rgn? region with
  | some ro, some r =>
    let mine := ro.fetches.filter (fun f => f.region == region && f.row == row)
    if !mine.isEmpty && mine.all (fun f => f.ended) then
      let e := e.each mine (fun f e =>
        let e := e.each f.got (fun x e => e.storeXor (r.rowAddr row + x.1 * 4096) x.2)
        e.each (ro.copies.filter (fun s => s.region == region && s.row == row && s.stamp == f.ring && precedes f.ah s.seq)) (fun s e =>
          e.storeXor (r.rowAddr row + s.sector * 4096) (expand (elemWidth r.fmt) s.lineMap s.payload)))
      let fs := ro.fetches.filter (fun f => !(f.region == region && f.row == row))
      e.setRings (fun g => { g with roll := some { ro with fetches := fs } })
    else e
  | _, _ => e

/-- Leaves still to roll back, as the register shows them. -/
def Eng.rollLeaves (e : Eng) : Eng :=
  match e.rings.roll with
  | none => e.wr Reg.GRV_ROLL_STAT_LEAVES 0
  | some ro => e.wr Reg.GRV_ROLL_STAT_LEAVES ((ro.fetches.map (fun f => (f.region, f.row))).eraseDups.length)

/-- A rollback completes once every leaf has been handled and the tier's discard is done (R186). -/
def Eng.rollDone (e : Eng) : Eng :=
  match e.rings.roll with
  | none => e
  | some ro =>
    if ro.fetches.isEmpty && !e.tierWaits .rollDiscard then
      let e := (e.wr Reg.GRV_ROLL_STAT_TARGET ro.target).flag Reg.GRV_RING_STATE_ROLLING false
      let e := e.setRings (fun g => { g with roll := none })
      e.completeRing ro.cmd (if ro.gaps.isEmpty then stOk else stRollGap) ro.target e.rings.lastBnd ro.gaps.length
    else e

/-- Fetches of a rollback go on: ended leaves return, others start, the end is looked for. -/
def Eng.rollStep (e : Eng) : Eng :=
  match e.rings.roll with
  | none => e
  | some ro =>
    let e := e.each ((ro.fetches.map (fun f => (f.region, f.row))).eraseDups) (fun l e => e.returnLeaf l.1 l.2)
    e.startFetches.rollLeaves.rollDone

end Sys2Proof.Machine
end

