-- ==== Sys2Proof/Machine/Agree.lean ====
section
/-!
DEFINITION. Sys2Proof/Machine/Agree.lean: agreeing the reconstruction point of a lost owner's leaves (R139 to R148), and the replay
log between an owner and its partners (R132 to R138).
-/
namespace Sys2Proof.Machine

/-! ### Records (R143) -/

/-- A point record: region, row, cut, and whether a thickening host sent it. -/
structure PointRec where
  region : Nat
  row    : Nat
  thick  : Bool
  cut    : Cut
  deriving DecidableEq, Repr

/-- The 16 B of a record. -/
def PointRec.bytes (r : PointRec) : List Byte :=
  natLe 2 r.region ++ [byteOf r.cut.sector, if r.thick then 1 else 0] ++ natLe 4 r.row ++ natLe 4 r.cut.seq
    ++ natLe 4 r.cut.stamp

/-- An unused record. -/
def unusedRec : List Byte := [0xFF, 0xFF] ++ zeros 14

/-- The records of a payload, unused ones left out. -/
def pointRecs (bs : List Byte) : List PointRec :=
  (chunksOf 16 (bs.length / 16 + 1) bs).filterMap (fun b =>
    let f := fieldAt b
    if b.length < 16 || f 0 2 == 0xFFFF then none
    else some { region := f 0 2 % 4096, row := f 4 4 % 2 ^ 20, thick := bit (f 3 1) 0,
                cut := { seq := f 8 4, stamp := f 12 4, sector := f 2 1 } })

def recBefore (a b : PointRec) : Bool := a.region < b.region || (a.region == b.region && a.row ≤ b.row)

/-- Send records about a lost position to one member, at most 256 to a packet, in ascending region and row (R143). -/
def Eng.sendRecs (e : Eng) (dst typ x : Nat) (rs : List PointRec) : Eng :=
  let rs := rs.mergeSort recBefore
  e.each (chunksOf 256 (rs.length / 256 + 1) rs) (fun g e =>
    if g.isEmpty then e
    else e.send dst (wholeLines { typ := typ, row := x, stamp := e.rd Reg.GRV_PT_STAT_LOSSES,
                                  payload := padRecords 16 unusedRec (g.flatMap PointRec.bytes) }))

/-! ### What this engine holds of a stripe -/

/-- Rows of parity that this engine holds of a stripe: its own, then the thickening row. -/
def Eng.rowsHeld (e : Eng) (region row : Nat) : List Bool :=
  (if (e.parityRowFor region row false).isSome then [false] else []) ++
  (if (e.hostedRow region row).isSome then [true] else [])

/-- The cut of A for a source leaf at one of this engine's rows (R130). -/
def Eng.ownCut (e : Eng) (region row x : Nat) (thick : Bool) : Cut :=
  let a := e.appliedRec region row x thick
  { seq := a.a, stamp := a.aStamp, sector := a.aSector }

/-- The cut that comes first serially. -/
def leastCut : List Cut → Option Cut
  | [] => none
  | c :: cs => some (cs.foldl (fun a b => if precedes b.seq a.seq then b else a) c)

/-- A window packet lies in a line that cannot be read. DESIGN CHOICE: log entry 89. -/
def Eng.windowBad (e : Eng) (w : WinPkt) : Bool :=
  e.journalBad 1 [w.region, w.row, w.src, if w.thick then 1 else 0, w.seq] 4096

/-- An applied record lies in a line that cannot be read. DESIGN CHOICE: log entry 89. -/
def Eng.appliedBad (e : Eng) (region row x : Nat) (thick : Bool) : Bool :=
  e.journalBad 5 [region, row, x, if thick then 1 else 0] 64

/-- Strip one row to q: the window packets from q + 1 to A are applied once more (R144). With one of them or
the applied record unreadable, the parity of the stripe is degraded instead (R329). -/
def Eng.strip (e : Eng) (region row x : Nat) (q : Cut) (thick : Bool) : Eng :=
  match e.rgn? region, e.parityRowFor region row thick with
  | some r, some j =>
    let a := e.appliedRec region row x thick
    if !precedes q.seq a.a then e
    else
      let mine := fun (w : WinPkt) => w.region == region && w.row == row && w.src == x && w.thick == thick
        && precedes q.seq w.seq && atOrBefore w.seq a.a
      let ws := e.window.filter mine
      let e := if ws.any e.windowBad || e.appliedBad region row x thick then e.stripeLost r row 0 else e
      let e := e.each ws (fun w e => e.foldParity r row w.sector thick (e.productOf r row x j w.lineMap w.payload))
      let e := { e with window := e.window.filter (fun w => !mine w) }
      let e := e.setApplied { a with a := q.seq, aStamp := q.stamp, aSector := q.sector }
      e.bumpBy Reg.GRV_PT_STRIP_PACKETS ws.length
  | _, _ => e

/-- Strip every row held of a stripe. -/
def Eng.stripAll (e : Eng) (region row x : Nat) (q : Cut) : Eng :=
  e.each (e.rowsHeld region row) (fun t e => e.strip region row x q t)

/-! ### Rounds (R141, R144, R146) -/

def Agree.is (a : Agree) (x region row : Nat) : Bool := a.x == x && a.region == region && a.row == row

def Eng.setAgree (e : Eng) (a : Agree) : Eng :=
  { e with agrees := e.agrees.map (fun b => if b.is a.x a.region a.row then a else b) }

/-- The record of a decision: THICK where this engine has a part in the stripe only as its thickening host (R143). -/
def Eng.decideRec (e : Eng) (a : Agree) : Option PointRec :=
  a.q.map (fun q => { region := a.region, row := a.row, thick := e.rowsHeld a.region a.row == [true], cut := q })

/-- The records of a stripe stripped to q, one for each row held of it (R143). -/
def Eng.doneRecs (e : Eng) (region row : Nat) (q : Cut) : List PointRec :=
  (e.rowsHeld region row).map (fun t => { region := region, row := row, thick := t, cut := q })

/-- This engine's reports for a lost position go to each coordinator (R144 step 1). -/
def Eng.sendReports (e : Eng) (x : Nat) (sel : Agree → Bool) : Eng :=
  let mine := e.agrees.filter (fun a => a.x == x && !a.coord && sel a)
  e.each (mine.map (·.chief)).eraseDups (fun c e =>
    e.sendRecs c tPointReport x ((mine.filter (fun a => a.chief == c)).flatMap (fun a =>
      (e.rowsHeld a.region a.row).map (fun t =>
        { region := a.region, row := a.row, thick := t, cut := e.ownCut a.region a.row x t }))))

/-- A coordinator with every report decides q and strips its own parity (R144 step 2). -/
def Eng.decideOne (e : Eng) (a : Agree) : Eng :=
  if a.coord && a.q.isNone && a.awaited.all (fun p => a.reports.any (fun r => r.1 == p)) then
    let own := (e.rowsHeld a.region a.row).map (fun t => e.ownCut a.region a.row a.x t)
    match leastCut (own ++ a.reports.map (·.2)) with
    | none => e
    | some q =>
      let e := e.stripAll a.region a.row a.x q
      e.setAgree { a with q := some q, settled := a.awaited.isEmpty }
  else e

/-- Decisions of a position go to the reporters of each stripe. -/
def Eng.sendDecisions (e : Eng) (x : Nat) (as : List Agree) : Eng :=
  e.each (as.flatMap (fun a => a.awaited ++ a.reports.map (·.1))).eraseDups (fun p e =>
    e.sendRecs p tPointDecide x ((as.filter (fun a => a.awaited.contains p || a.reports.any (fun r => r.1 == p))).filterMap e.decideRec))

/-- The cuts of x's leaves that this engine has decided go to the spare that grafts into x (R149, DESIGN CHOICE, log entry 31). -/
def Eng.sendCuts (e : Eng) (x : Nat) : Eng :=
  let mine := e.agrees.filter (fun a => a.x == x && a.coord)
  if e.isPresent x && mine.all (·.settled) then
    e.sendRecs x tPointDecide x (mine.filterMap e.decideRec)
  else e

/-- POINT_SETTLED once every stripe this engine coordinates for x is settled (R144 step 4). -/
def Eng.sendSettled (e : Eng) (x : Nat) : Eng :=
  let mine := e.agrees.filter (fun a => a.x == x && a.coord)
  if !mine.isEmpty && mine.all (·.settled) then
    (e.sendAll { typ := tPointSettled, row := x, stamp := e.rd Reg.GRV_PT_STAT_LOSSES }).sendCuts x
  else e

/-- Every stripe of x that can be decided is decided, and the decisions are sent. -/
def Eng.decideAll (e : Eng) (x : Nat) : Eng :=
  let before := (e.agrees.filter (fun a => a.x == x && a.coord && a.q.isNone))
  let e := e.each before (fun a e => e.decideOne a)
  let now := e.agrees.filter (fun a => a.x == x && a.coord && a.q.isSome && before.any (fun b => b.is a.x a.region a.row))
  if now.isEmpty then e else (e.sendDecisions x now).sendSettled x

/-- The present engine that hosts a stripe's thickening row, as far as this one knows (R58, R265). -/
def Eng.rowHost (e : Eng) (region row : Nat) : Option Nat :=
  match e.hostedRow region row with
  | some h => if h.built && !h.releasing then some e.pos else none
  | none => (e.thickHost region row).bind (fun h => if e.isPresent h then some h else none)

/-- The coordinator and the reporters of a stripe (R141): its present holders by ascending row, a thickening row as row m. -/
def Eng.agreeRoles (e : Eng) (region row : Nat) : Option (Nat × List Nat) :=
  match (((e.holders row).map (·.2)) ++ (e.rowHost region row).toList).eraseDups with
  | [] => none
  | h :: t => some (h, t)

/-- A new entry for one stripe of a lost position, or a new round for an unsettled one (R141, R146). -/
def Eng.agreeEntry (e : Eng) (x region row round : Nat) : Agree :=
  match e.agreeRoles region row with
  | some (c, rs) =>
    { x := x, region := region, row := row, round := round, coord := c == e.pos, chief := c,
      awaited := if c == e.pos then rs.filter (· != e.pos) else [], reports := [], q := none, dones := [], settled := false }
  | none =>
    { x := x, region := region, row := row, round := round, coord := true, chief := e.pos, awaited := [], reports := [],
      q := none, dones := [], settled := false }

/-- The coordinator of a stripe among some present positions (R141). -/
def Eng.coordAmong (e : Eng) (ps : List Nat) (region row : Nat) : Option Nat :=
  let own := (e.hostedRow region row).bind (fun h => if h.built && !h.releasing then some e.pos else none)
  let thick := (own <|> e.thickHost region row).toList
  ((List.range e.m).map (fun j => parityPos e.w e.k row j) ++ thick).find? ps.contains

/-- Stripes of streamed regions in which x held a data leaf and this engine holds a row. -/
def Eng.agreeStripes (e : Eng) (x : Nat) : List (Nat × Nat) :=
  (e.rgns.filter (fun r => r.streamed)).flatMap (fun r =>
    ((List.range r.rows).filter (fun s => roleOf e.w x s < e.k && !(e.rowsHeld r.num s).isEmpty)).map (fun s => (r.num, s)))

/-- The coordinator of a stripe as it is chosen now; this engine where it knows of none. -/
def Eng.chiefNow (e : Eng) (a : Agree) : Nat :=
  match e.agreeRoles a.region a.row with | some r => r.1 | none => e.pos

/-- A settled stripe in a new round: its coordinator is chosen again, and it is not reopened (R146). -/
def Eng.keepSettled (e : Eng) (a : Agree) (round : Nat) : Agree :=
  { a with round := round, dones := [], coord := e.chiefNow a == e.pos, chief := e.chiefNow a, awaited := [] }

/-- The rounds of a newly declared loss: new ones for x, restarted ones for stripes not yet settled. Of a stripe settled here
whose coordinator is another one now, that one is told, since it may have missed the settlement (R144, R146). -/
def Eng.startRounds (e : Eng) (x : Nat) : Eng :=
  let round := e.rd Reg.GRV_PT_STAT_LOSSES
  let old := e.agrees.filter (fun a => !a.settled)
  let e := if old.isEmpty then e else e.bump Reg.GRV_PT_STAT_RESTARTS
  let moved := e.agrees.filter (fun (a : Agree) => a.settled && e.chiefNow a != a.chief)
  let tells := fun (a : Agree) => !a.settled || moved.any (fun b => b.is a.x a.region a.row)
  let kept : List Agree := e.agrees.map (fun (a : Agree) =>
    if a.settled then e.keepSettled a round else e.agreeEntry a.x a.region a.row round)
  let more : List Agree := (e.agreeStripes x).map (fun s => e.agreeEntry x s.1 s.2 round)
  let e : Eng := { e with agrees := kept ++ more }
  e.each ((e.agrees.filter tells).map (·.x)).eraseDups (fun y e => (e.sendReports y tells).decideAll y)

/-! ### Messages (R142, R144, R148) -/

/-- Where an agreement packet stands by its round: below (discarded), at, or above (kept). -/
def Eng.roundGate (e : Eng) (p : Pkt) (f : Eng → Eng) : Eng :=
  let now := e.rd Reg.GRV_PT_STAT_LOSSES
  if p.stamp < now then e
  else if now < p.stamp then { e with early := e.early ++ [p] }
  else f e

/-- A POINT_REPORT at the coordinator. -/
def Eng.rxReport (e : Eng) (p : Pkt) : Eng :=
  let x := p.row % 16
  let rs := pointRecs p.payload
  let known := rs.filterMap (fun r => (e.agrees.find? (fun a => a.is x r.region r.row && a.coord)).map (fun a => (a, r)))
  let e := e.each known (fun ar e =>
    match e.agrees.find? (fun a => a.is x ar.2.region ar.2.row) with
    | some a =>
      if a.q.isSome then e
      else e.setAgree { a with reports := a.reports ++ [(p.src, ar.2.cut)] }
    | none => e)
  let again := known.filterMap (fun ar => e.decideRec ar.1)
  let e := e.sendRecs p.src tPointDecide x again.eraseDups
  e.decideAll x

/-- A POINT_DECIDE at a reporter: strip to q and return POINT_DONE (R144 step 3). A stripe that stands settled here is stripped
no further, and its DONE goes once in a round (R146). -/
def Eng.rxDecide (e : Eng) (p : Pkt) : Eng :=
  let x := p.row % 16
  let rs := (pointRecs p.payload).filter (fun r =>
    e.agrees.any (fun a => a.is x r.region r.row && !a.coord && (!a.settled || !a.dones.contains e.pos)))
  let e := e.each rs (fun r e =>
    match e.agrees.find? (fun a => a.is x r.region r.row) with
    | some a =>
      if a.settled then e.setAgree { a with dones := [e.pos] }
      else (e.stripAll r.region r.row x r.cut).setAgree { a with q := some r.cut }
    | none => e)
  e.sendRecs p.src tPointDone x (rs.flatMap (fun r => e.doneRecs r.region r.row r.cut)).eraseDups

/-- A POINT_DONE at the coordinator: for a stripe already settled the decision goes again (R146). -/
def Eng.rxDone (e : Eng) (p : Pkt) : Eng :=
  let x := p.row % 16
  let rs := (pointRecs p.payload).filter (fun r => e.agrees.any (fun a => a.is x r.region r.row && a.coord))
  let was := rs.filter (fun r => e.agrees.any (fun a => a.is x r.region r.row && a.settled))
  let e := e.each rs (fun r e =>
    match e.agrees.find? (fun a => a.is x r.region r.row) with
    | some a =>
      let ds := if a.dones.contains p.src then a.dones else a.dones ++ [p.src]
      e.setAgree { a with dones := ds, settled := a.settled || (a.q.isSome && a.awaited.all ds.contains) }
    | none => e)
  let e := e.sendRecs p.src tPointDecide x (was.filterMap (fun r =>
    (e.agrees.find? (fun a => a.is x r.region r.row)).bind e.decideRec)).eraseDups
  e.sendSettled x

/-- A POINT_SETTLED: every stripe that its sender coordinates for x is settled. -/
def Eng.rxSettled (e : Eng) (p : Pkt) : Eng :=
  let x := p.row % 16
  let told := e.loss.settledBy
  let new := (x, p.src, e.present)
  let told := if told.contains new then told else told ++ [new]
  { e with loss := { e.loss with settledBy := told },
           agrees := e.agrees.map (fun a => if a.x == x && !a.coord && a.chief == p.src then { a with settled := true } else a) }

/-- One agreement packet at its round. -/
def Eng.rxPoint (e : Eng) (p : Pkt) : Eng :=
  e.roundGate p (fun e =>
    if p.typ == tPointReport then e.rxReport p
    else if p.typ == tPointDecide then e.rxDecide p
    else if p.typ == tPointDone then e.rxDone p
    else e.rxSettled p)

/-- Packets kept for a later round are processed as if they had just arrived (R142). -/
def Eng.replayEarly (e : Eng) : Eng :=
  let ps := e.early
  ({ e with early := [] } : Eng).each ps (fun p e => e.rxPoint p)

/-- A round has not settled within GRV_PT_CTL.TIMEOUT: counted, raised, and the outstanding messages go again (R148). -/
def Eng.pointTimeout (e : Eng) (x : Nat) : Eng :=
  let open_ := e.agrees.filter (fun a => a.x == x && !a.settled)
  if open_.isEmpty then e
  else
    let e := (e.bump Reg.GRV_PT_STAT_STUCK).raise .POINT_STUCK
    let undone := open_.filter (fun a => a.coord && a.q.isSome)
    let e := e.each (undone.flatMap (·.awaited)).eraseDups (fun p e =>
      e.sendRecs p tPointDecide x ((undone.filter (fun a => a.awaited.contains p && !a.dones.contains p)).filterMap e.decideRec))
    let e := e.sendSettled x
    let e := e.sendReports x (fun a => !a.settled && a.q.isNone)
    let mine := open_.filter (fun a => !a.coord && a.q.isSome)
    e.each (mine.map (·.chief)).eraseDups (fun c e =>
      e.sendRecs c tPointDone x ((mine.filter (fun a => a.chief == c)).flatMap (fun a =>
        match a.q with | some q => e.doneRecs a.region a.row q | none => [])))

/-- A stripe is settled for every lost owner of a data leaf in it (R147). -/
def Eng.stripeSettled (e : Eng) (region row : Nat) : Bool :=
  e.agrees.all (fun a => !(a.region == region && a.row == row) || a.settled)

/-- This engine's data leaf of a stripe is drained: its release point equals its sequence (R147). -/
def Eng.drained (e : Eng) (r : Rgn) (row : Nat) : Bool :=
  !(e.sent.any (fun s => s.typ == tStreamDelta && s.region == r.num && s.row == row))

/-! ### The replay log (R132 to R138) -/

/-- The newest step that this engine has heard of: of a slice, a run or a retirement. -/
def Eng.newestStep (e : Eng) : Nat :=
  (e.upd.slices.map (·.step) ++ e.upd.runs.map (fun u => fieldAt u.desc 4 4) ++ e.upd.lastStep.map (·.2)).foldl
    (fun a b => if precedes a b then b else a) (e.rd Reg.GRV_LOG_STAT_RETIRED)

/-- A position serves as a log partner for a step: a grafted one from the first step that starts after its graft (R132). -/
def Eng.servesLog (e : Eng) (t p : Nat) : Bool :=
  match e.loss.fresh.find? (fun f => f.1 == p) with
  | none => true
  | some (_, none) => false
  | some (_, some s) => precedes s t

/-- The log partners of a position for a step (R132). -/
def Eng.partnersOf (e : Eng) (p t : Nat) : List Nat :=
  let p1 := e.nextPresent p 1 (e.servesLog t)
  let p2 := if e.rd Reg.GRV_LOG_CTL_COPIES == 2 then e.nextPresent p (e.w - 1) (fun x => some x != p1 && e.servesLog t x) else none
  p1.toList ++ p2.toList

/-- This engine's log partners for a step. -/
def Eng.partners (e : Eng) (t : Nat) : List Nat := e.partnersOf e.pos t

/-- STEP_SIZE in bytes, and the log reservation of a partner (R136). -/
def Eng.stepSize (e : Eng) : Nat := e.rd Reg.GRV_LOG_CTL_STEP_SIZE * 64 * 2 ^ 20
def Eng.logRoom (e : Eng) : Nat := e.rd Reg.GRV_LOG_CTL_COPIES * 2 * e.stepSize

/-- Bytes of a table of chunks. -/
def chunkBytes (m : SMap (List Byte)) : Nat := (m.map (fun c => c.2.length)).foldl (· + ·) 0

/-- Bytes this partner holds for the owners that it serves. -/
def Eng.logUsed (e : Eng) : Nat :=
  ((e.log.held.filter (fun h => h.via.isNone)).map (fun h => chunkBytes h.chunks)).foldl (· + ·) 0

/-- Bytes logged of a step of an owner grow; passing STEP_SIZE, and passing a whole reservation, raise LOG_OVER (R137). -/
def Eng.logCount (e : Eng) (owner stamp n : Nat) : Eng :=
  let k := owner * 2 ^ 32 + stamp
  let old := (look e.log.bytes k).getD 0
  let e := { e with log := { e.log with bytes := put e.log.bytes k (old + n) } }
  let pass := fun (e : Eng) lim =>
    if old ≤ lim && lim < old + n then (e.flag Reg.GRV_LOG_STAT_OVER true).raise .LOG_OVER else e
  pass (pass e e.stepSize) e.logRoom

def LogOut.is (o : LogOut) (partner : Nat) (scalar : Bool) (stamp row : Nat) : Bool :=
  o.partner == partner && o.scalar == scalar && o.stamp == stamp && o.row == row

def Eng.setOut (e : Eng) (o : LogOut) : Eng :=
  { e with log := { e.log with outs := e.log.outs.map (fun x => if x.is o.partner o.scalar o.stamp o.row then o else x) } }

/-- Some chunks of a slice, or scalar packets of a pass, go to a partner, in order (R133 to R135, R137). The packets of one pass
share STAMP and ROW, and each is acknowledged for itself (DESIGN CHOICE, log entry 27). -/
def Eng.sendLog (e : Eng) (o : LogOut) (cs : List Nat) : Eng :=
  let e := e.setOut { o with pend := o.pend ++ cs, refused := o.refused.filter (fun c => !cs.contains c) }
  e.each (o.chunks.filter (fun c => cs.contains c.1)) (fun c e =>
    e.send o.partner (wholeLines {
      typ := (if o.scalar then tLogScalar else tLogData), stamp := o.stamp, region := (if o.scalar then 0 else o.region), row := o.row,
      seq := (if o.scalar then 0 else c.1),
      release := (if o.scalar then 0 else o.lines), payload := c.2 }))

/-- A partner's answer to the packet sent to it first of those not answered: held, with the count it holds, or refused. An
answer names no packet of the slice, so answers are taken in the order of the packets; one to no packet sent is for the
whole slice, which the collective units delivered. DESIGN CHOICE: log entry 27. -/
def LogOut.answered (o : LogOut) (seq : Nat) (ok : Bool) : LogOut :=
  let now := if o.pend.isEmpty then o.chunks.map (·.1) else o.pend.take 1
  let o := { o with pend := o.pend.drop 1 }
  if !ok then { o with refused := o.refused ++ now.filter (fun c => !o.refused.contains c) }
  else { o with held := if o.scalar then min (o.held + 1) o.chunks.length else max o.held seq }

/-- Answers that came before their slice was complete here count for it now (R133, R135). -/
def Eng.earlyAcks (e : Eng) (o : LogOut) : Eng :=
  let mine := fun (a : EarlyAck) => a.partner == o.partner && a.stamp == o.stamp && a.row == o.row
  let o := (e.log.early.filter mine).foldl (fun o a => o.answered a.seq a.ok) o
  { e.setOut o with log := { (e.setOut o).log with early := e.log.early.filter (fun a => !mine a) } }

/-- A completed slice or a pass's scalars are logged at every partner (R133, R134). With SRC at 1 the collective units
deliver slices to the partners themselves. DESIGN CHOICE: log entry 69. -/
def Eng.logOut (e : Eng) (scalar : Bool) (stamp row region : Nat) (bytes : List Byte) : Eng :=
  let data := bytes ++ zeros ((64 - bytes.length % 64) % 64)
  let chunks := (chunksOf 4096 (data.length / 4096 + 1) data).zipIdx.filterMap (fun c =>
    if c.1.isEmpty then none else some (c.2, c.1))
  let e := e.logCount e.pos stamp data.length
  e.each (e.partners stamp) (fun p e =>
    let o : LogOut := { partner := p, scalar := scalar, stamp := stamp, row := row, region := region,
                        lines := data.length / 64, chunks := chunks, held := 0, pend := [], refused := [] }
    let e := { e with log := { e.log with outs := e.log.outs ++ [o] } }
    if !scalar && e.on Reg.GRV_LOG_CTL_SRC then e.earlyAcks o else e.sendLog o (chunks.map (·.1)))

/-- Every partner has returned LOG_ACK for the whole of a slice or scalar packet (R133). -/
def LogOut.done (o : LogOut) : Bool := o.chunks.length ≤ o.held

/-- A slice's or packet's log is complete at every partner. -/
def Eng.logged (e : Eng) (scalar : Bool) (stamp row : Nat) : Bool :=
  e.log.outs.all (fun o => !(o.scalar == scalar && o.stamp == stamp && o.row == row) || o.done)

/-- LOGGED: the newest step whose slices are all logged. Its low 30 bits are all that is kept, and they are compared as they
stand: the spec does not say how "newest" is told across their wrap. DESIGN CHOICE: log entry 27. -/
def Eng.noteLogged (e : Eng) : Eng :=
  let steps := ((e.log.outs.filter (fun o => !o.scalar)).map (·.stamp)).eraseDups
  let full := steps.filter (fun t => e.log.outs.all (fun o => o.stamp != t || o.done))
  e.each full (fun t e =>
    if (e.rd Reg.GRV_LOG_STAT_LOGGED) < t % 2 ^ 30 || e.rd Reg.GRV_LOG_STAT_LOGGED == 0 then e.wr Reg.GRV_LOG_STAT_LOGGED (t % 2 ^ 30)
    else e)

/-- An acknowledgement of a log packet: SECTOR as R135 states it, and the count held. -/
def Eng.sendLogAck (e : Eng) (dst stamp row count : Nat) (scalar : Bool) (what : Nat) : Eng :=
  e.send dst { typ := tLogAck, stamp := stamp, row := row, seq := count, sector := (if scalar then 1 else 0) + 2 * what }

/-- What a partner hands on of the log it kept for the position that this spare grafts into (R149). It is no log of an owner that
the spare serves: it takes no room and is not acknowledged (DESIGN CHOICE, log entry 31). -/
def Eng.takeHanded (e : Eng) (x : Nat) (p : Pkt) : Eng :=
  let scalar := p.typ == tLogScalar
  let isIt := fun (h : LogHeld) => h.owner == x && h.scalar == scalar && h.stamp == p.stamp && h.row == p.row && h.via == some p.src
  let h : LogHeld := (e.log.held.find? isIt).getD
    { owner := x, scalar := scalar, stamp := p.stamp, row := p.row, region := p.region,
      lines := if scalar then p.payload.length / 64 else p.release, chunks := [], via := some p.src }
  let h := { h with chunks := put h.chunks (if scalar then h.chunks.length else p.seq) p.payload }
  { e with log := { e.log with held := (e.log.held.filter (fun y => !isIt y)) ++ [h] } }

/-- A LOG_DATA or LOG_SCALAR at a partner (R135, R137). DESIGN CHOICE: log entry 27. -/
def Eng.keepLog (e : Eng) (p : Pkt) : Eng :=
  let scalar := p.typ == tLogScalar
  let owner := p.src
  let isIt := fun (h : LogHeld) => h.owner == owner && h.scalar == scalar && h.stamp == p.stamp && h.row == p.row && h.via.isNone
  let old := e.log.held.find? isIt
  let have_ := match old with | some h => !scalar && (look h.chunks p.seq).isSome | none => false
  let count := match old with | some h => h.chunks.length | none => 0
  if have_ then e.sendLogAck p.src p.stamp p.row (if scalar then 1 else count) scalar 0
  else if e.logRoom < e.logUsed + p.payload.length then
    let rs := if e.log.refused.contains p.src then e.log.refused else e.log.refused ++ [p.src]
    let e := { e with log := { e.log with refused := rs } }
    e.sendLogAck p.src p.stamp p.row count scalar 1
  else
    let h : LogHeld := old.getD { owner := owner, scalar := scalar, stamp := p.stamp, row := p.row, region := p.region,
                                  lines := if scalar then p.payload.length / 64 else p.release, chunks := [] }
    let h' := { h with chunks := put h.chunks (if scalar then h.chunks.length else p.seq) p.payload }
    let e := { e with log := { e.log with held := (e.log.held.filter (fun x => !isIt x)) ++ [h'] } }
    let e := e.logCount owner p.stamp p.payload.length
    e.sendLogAck p.src p.stamp p.row (if scalar then 1 else h'.chunks.length) scalar 0

/-- A slice that the collective units have delivered to this engine for an owner that it serves (R133, R135): it is kept as
that owner's log, under the index of its completion here, and acknowledged whole, or refused for lack of room (R137). -/
def Eng.keepDelivered (e : Eng) (owner stamp region : Nat) (bytes : List Byte) : Eng :=
  let key := owner * 2 ^ 32 + stamp
  let row := (look e.log.nextRow key).getD 0
  let e := { e with log := { e.log with nextRow := put e.log.nextRow key (row + 1) } }
  let data := bytes ++ zeros ((64 - bytes.length % 64) % 64)
  let chunks := (chunksOf 4096 (data.length / 4096 + 1) data).zipIdx.filterMap (fun c =>
    if c.1.isEmpty then none else some (c.2, c.1))
  if e.logRoom < e.logUsed + data.length then
    let rs := if e.log.refused.contains owner then e.log.refused else e.log.refused ++ [owner]
    ({ e with log := { e.log with refused := rs } } : Eng).sendLogAck owner stamp row 0 false 1
  else
    let h : LogHeld := { owner := owner, scalar := false, stamp := stamp, row := row, region := region, lines := data.length / 64,
                         chunks := chunks }
    let e := { e with log := { e.log with held := e.log.held ++ [h] } }
    (e.logCount owner stamp data.length).sendLogAck owner stamp row chunks.length false 0

/-- A LOG_RETIRE at a partner: its sender's log up to t is freed, and with room freed so, the owners refused for lack of room
hear of it (R137, R138). -/
def Eng.rxLogRetire (e : Eng) (p : Pkt) : Eng :=
  let held := e.log.held.filter (fun h => !(h.owner == p.src && h.via.isNone && atOrBefore h.stamp p.stamp))
  if held.length == e.log.held.length then e
  else
  let rs := e.log.refused
  let e := { e with log := { e.log with held := held } }
  let e := { e with log := { e.log with refused := [] } }
  e.each rs (fun o e => e.sendLogAck o 0 0 0 false 2)

/-- A LOG_ACK at the owner (R135, R137). With SRC at 1 a partner's slice can be complete before the owner's: its answer waits for
that (R133). DESIGN CHOICE: log entry 27. -/
def Eng.rxLogAck (e : Eng) (p : Pkt) : Eng :=
  let scalar := bit p.sector 0
  match bits p.sector 2 1 with
  | 2 =>
    e.each (e.log.outs.filter (fun o => o.partner == p.src && !o.refused.isEmpty)) (fun o e =>
      e.sendLog o (o.refused.mergeSort (· ≤ ·)))
  | what =>
    match e.log.outs.find? (fun o => o.is p.src scalar p.stamp p.row) with
    | some o => (e.setOut (o.answered p.seq (what == 0))).noteLogged
    | none =>
      if !scalar && e.on Reg.GRV_LOG_CTL_SRC && (e.partners p.stamp).contains p.src && precedes (e.rd Reg.GRV_LOG_STAT_RETIRED) p.stamp then
        let a : EarlyAck := { partner := p.src, stamp := p.stamp, row := p.row, seq := p.seq, ok := what == 0 }
        { e with log := { e.log with early := e.log.early ++ [a] } }
      else e

/-- A lost partner leaves this owner's steps that are not retired without a copy, unless COPIES is 2 (R139). -/
def Eng.partnerLost (e : Eng) (x : Nat) : Eng :=
  let steps := ((e.log.outs.filter (fun o => o.partner == x)).map (·.stamp)).eraseDups
  let e := { e with log := { e.log with outs := e.log.outs.filter (fun o => o.partner != x), early := e.log.early.filter (fun a => a.partner != x) } }
  if e.rd Reg.GRV_LOG_CTL_COPIES != 2 && !steps.isEmpty then
    let newest := (e.log.exposed.toList ++ steps).foldl (fun a b => if precedes a b then b else a) (steps.headD 0)
    (({ e with log := { e.log with exposed := some newest } } : Eng).flag Reg.GRV_LOG_STAT_EXPOSED true).raise .LOG_EXPOSED
  else e

/-- Steps up to t are retired at this owner: its partners free their log, the register names t (R138, R139).
DEDUCED: log entry 77. -/
def Eng.retireTo (e : Eng) (t : Nat) : Eng :=
  let ps := (e.partners t ++ (e.log.outs.filter (fun o => atOrBefore o.stamp t)).map (·.partner)).eraseDups
  let e := e.each (ps.filter e.isPresent) (fun p e => e.send p { typ := tLogRetire, stamp := t })
  let e := e.wr Reg.GRV_LOG_STAT_RETIRED t
  let e := { e with log := { e.log with
    outs := e.log.outs.filter (fun o => !atOrBefore o.stamp t),
    early := e.log.early.filter (fun a => !atOrBefore a.stamp t),
    bytes := e.log.bytes.filter (fun b => !(b.1 / 2 ^ 32 == e.pos && atOrBefore (b.1 % 2 ^ 32) t)) } }
  match e.log.exposed with
  | some n => if atOrBefore n t then
      ({ e with log := { e.log with exposed := none } } : Eng).flag Reg.GRV_LOG_STAT_EXPOSED false else e
  | none => e

end Sys2Proof.Machine
end

