-- ==== Sys2Proof/Machine/Heart.lean ====
section
/-!
DEFINITION. Sys2Proof/Machine/Heart.lean: what the engine does with lines that local memory does not return CLEAN (R322 to R324,
R328): confirmation of corrections, decoding by the heartwood code, and the list of unrepaired lines.
-/
namespace Sys2Proof.Machine

/-- A conditional write of a line at its port (R317). -/
def Eng.cwrite (e : Eng) (line : Nat) (bs : List Byte) (cls : Nat := 2) : Eng := e.askCwrite (64 * line) bs cls

/-- Errors of a unit, keyed 128 × kind + number, count towards its next wear sample (R423). -/
def Eng.unitErr (e : Eng) (key n : Nat) : Eng :=
  { e with health := { e.health with errs := put e.health.errs key ((look e.health.errs key).getD 0 + n) } }

/-- The minute in progress takes a count (R417). -/
def Eng.minute (e : Eng) (f : Bucket → Bucket) : Eng := { e with health := { e.health with now := f e.health.now } }

/-- A CORRECTED report of a line's stack is counted (R321, R416, R423). -/
def Eng.barkCount (e : Eng) (line : Nat) : Eng :=
  let s := portOf (64 * line)
  ((e.bump (Reg.MEM_CODE_STAT_BARK s)).unitErr s 1).minute (fun b => { b with bark := b.bark + 1 })

/-- A sector that the heartwood code corrected is counted for its stack (R324, R416, R423). -/
def Eng.heartCount (e : Eng) (sector : Nat) : Eng :=
  let s := portOf (sectorBytes * sector)
  ((e.bump (Reg.MEM_CODE_STAT_HEARTWOOD s)).unitErr s 1).minute (fun b => { b with hw := b.hw + 1 })

/-- Sector number and place in its sector of a line. -/
def sectorOf (line : Nat) : Nat := line / 64
def slotOf (line : Nat) : Nat := line % 64

/-- The bytes of one line of a sector. -/
def lineOf (sector : List Byte) (l : Nat) : List Byte := (sector.drop (64 * l)).take 64

/-- A sector as memory holds it, with some of its lines as the bark decoder passes them on. -/
def Eng.sectorWith (e : Eng) (n : Nat) (ls : List (Nat × List Byte)) : List Byte :=
  ls.foldl (fun s l => overlay s (64 * slotOf l.1) l.2) (e.memRead (sectorBytes * n) sectorBytes)

/-- Every syndrome of a sector is zero (R324). -/
def heartClean (sector check : List Byte) : Bool :=
  (List.range 32).all (fun i => syndromes (codeword sector check i) == (0, 0))

/-- Erasure decoding of one line of its sector, the others as memory holds them (R324). -/
def Eng.eraseLine (e : Eng) (line : Nat) : List Byte :=
  let n := sectorOf line
  lineOf (heartErasure (e.memRead (sectorBytes * n) sectorBytes) (e.hwLine n) (slotOf line)) (slotOf line)

/-- A line restored by erasure is written back (R326). -/
def Eng.restoreLine (e : Eng) (line : Nat) : Eng := (e.heartCount (sectorOf line)).cwrite line (e.eraseLine line) 1

/-- A miscorrection of the bark code is counted and raised with its line address (R322). -/
def Eng.miscorrected (e : Eng) (line : Nat) : Eng :=
  (({ e with miscorr := some (64 * line) } : Eng).bump Reg.MEM_ERR_EVT_MISCORR).raise .BARK_MISCORRECT

/-- A line as it stands after the confirmation of its correction (R322). -/
def Eng.confirmed (e : Eng) (line : Nat) (c : List Byte) : List Byte :=
  let s := e.sectorWith (sectorOf line) [(line, c)]
  let h := e.hwLine (sectorOf line)
  if !e.hasHeart (64 * line) || heartClean s h then c
  else match heartError s h with
    | some s' => lineOf s' (slotOf line)
    | none => e.eraseLine line

/-- Bytes that a read of the engine's own uses: lines that were corrected as their confirmation leaves them, and a sector's only line
that is not, restored (R322, R326). -/
def Eng.readAs (e : Eng) (bads : List LineRead) (a n : Nat) : List Byte :=
  bads.foldl (fun bs b =>
    let l := b.line.toNat
    if 64 * l < a || a + n < 64 * l + 64 then bs
    else match b.bark with
      | .clean => bs
      | .corrected => overlay bs (64 * l - a) (e.confirmed l (lineBytes b.data))
      | .uncorrectable => if e.hasHeart (64 * l) then overlay bs (64 * l - a) (e.eraseLine l) else bs) (e.memRead a n)

/-- The confirmation of a bark correction (R322): what the engine writes back and reports. A line of the heartwood area has
no heartwood line, so its correction stands (R323). DESIGN CHOICE: log entry 24. -/
def Eng.confirm (e : Eng) (line : Nat) (c : List Byte) : Eng :=
  let n := sectorOf line
  if !e.hasHeart (64 * line) then e.cwrite line c
  else
    let e := e.mendHw n
    let s := e.sectorWith n [(line, c)]
    let h := e.hwLine n
    if heartClean s h then e.cwrite line c
    else
      match heartError s h with
      | some s' =>
        let e := e.heartCount n
        let x := lineOf s' (slotOf line)
        if x == c then e else (e.cwrite line x).miscorrected line
      | none => e.restoreLine line

/-- A line is listed as unrepaired. -/
def Eng.isUnrep (e : Eng) (line : Nat) : Bool := e.unrep.contains line

/-- A line of the quick-digest table cannot be read: the two leaves whose entries it holds are no longer current (R369, R372). -/
def Eng.tableLost (e : Eng) (line : Nat) : Eng :=
  let n := (64 * line - e.journalBase) / 32
  if e.journalBase ≤ 64 * line && n < e.memSize / leafBytes then
    e.each ((e.digs.filter (fun d => d.1 / 2 == n / 2)).map (·.1)) (fun l e => e.setDig l { e.dig l with current := false, priorValid := false })
  else e

/-- A line is found unrepaired (R328); a listed one only costs its table entries anew (R372). -/
def Eng.unrepaired (e : Eng) (line : Nat) : Eng :=
  if e.isUnrep line then e.tableLost line
  else
    let e := (e.bump Reg.MEM_UNREP_COUNT).wr Reg.MEM_UNREP_LAST_LINE line
    let e := if e.on Reg.MEM_UNREP_FIRST_VALID then e
      else (e.wr Reg.MEM_UNREP_FIRST_LINE line).flag Reg.MEM_UNREP_FIRST_VALID true
    let l := e.unrep ++ [line]
    (({ e with unrep := l.drop (l.length - 256) } : Eng).tableLost line).raise .MEM_UNREPAIRED

/-- Unrepaired lines listed in a sector. -/
def Eng.unrepIn (e : Eng) (n : Nat) : List Nat := e.unrep.filter (fun l => sectorOf l == n)

/-- A sector that both codes fail can be repaired from the grove: it lies in a leaf of a class from 1 to 3 (R326), and the
engine is in service, locked and not fenced (R237). -/
def Eng.groveRepairable (e : Eng) (n : Nat) : Bool :=
  e.serving && (match e.rgnAt (sectorBytes * n) with | some r => r.coded | none => false)

/-- An engine read found a line of its own to be CORRECTED or UNCORRECTABLE (R322, R326): the correction is confirmed, or
the line restored by erasure where it is the sector's only one. -/
def Eng.mendRead (e : Eng) (bads : List LineRead) : Eng :=
  e.each bads (fun b e =>
    let line := b.line.toNat
    match b.bark with
    | .clean => e
    | .corrected => (e.barkCount line).confirm line (lineBytes b.data)
    | .uncorrectable =>
      let same := bads.filter (fun x => x.bark == .uncorrectable && sectorOf x.line.toNat == sectorOf line)
      if same.length = 1 && e.hasHeart (64 * line) then e.restoreLine line else e)

/-- Lines of an engine read that stay unreadable after R326: two or more of one sector. DEDUCED: log entry 33. -/
def deadLines (bads : List LineRead) : List Nat :=
  (bads.filter (fun b => b.bark == .uncorrectable &&
    1 < (bads.filter (fun x => x.bark == .uncorrectable && sectorOf x.line.toNat == sectorOf b.line.toNat)).length)).map
    (fun b => b.line.toNat)

/-- A report is taken up for confirmation, or counted as UNCONFIRMED where 256 wait: of those that came within the last 20 µs, the
bound of a confirmation, a free value says whether they still wait (R322). DESIGN CHOICE: log entry 24. -/
def Eng.report (e : Eng) (line : Nat) (c : List Byte) : Eng :=
  let e := e.barkCount line
  let live := e.health.confirms.filter (fun t => e.now ≤ t + 20000)
  let full := decide (256 ≤ live.length)
  let waits := full && (Config.freeWord e.free).toNat % 2 == 1
  let e := if full then e.useFree 1 else e
  if waits then e.bump Reg.MEM_ERR_EVT_UNCONFIRMED
  else ({ e with health := { e.health with confirms := live ++ [e.now] } } : Eng).confirm line c

/-- BARK_CORRECTED_REPORT: a controller reports a CORRECTED read (R321, R322). -/
def execBarkCorrectedReport (line : BitVec 34) (corrected : Line) (s : State) : Host.Outcome State Fault Refusal :=
  .next (s.run (fun e =>
    if e.oos then e else e.report line.toNat (lineBytes corrected)))

end Sys2Proof.Machine
end

