-- ==== Sys2Proof/Machine/Mirror.lean ====
section
/-!
DEFINITION. Sys2Proof/Machine/Mirror.lean: mirror copies (R79 to R83) at their sender and at their receivers, and the products of
a class switch towards coded (R83, R93).
-/
namespace Sys2Proof.Machine

/-- Checks 4 and 5 of R119 for the mirror types. DESIGN CHOICE: log entry 71. -/
def Eng.mirrorTarget (e : Eng) (p : Pkt) : Option Rgn :=
  match e.rgn? p.region with
  | none => none
  | some r => if r.mirrorEligible && p.row < r.rows && p.dst == e.pos then some r else none

/-! ### The sender (R79 to R81) -/

/-- Present receivers of this engine's copies of a region: copy index and position (R79). -/
def Eng.receivers (e : Eng) (r : Rgn) : List (Nat × Nat) :=
  let p := e.pos
  ([(0, (p + 1) % e.w), (1, (p + e.w - 1) % e.w)] ++ (if r.mirrorN = 3 then [(2, (p + 2) % e.w)] else [])).filter
    (fun x => e.isPresent x.2)

def MirrorTx.is (m : MirrorTx) (region copy : Nat) : Bool := m.region == region && m.copy == copy

def Eng.mtx? (e : Eng) (region copy : Nat) : Option MirrorTx := e.mtx.find? (fun m => m.is region copy)
def Eng.setMtx (e : Eng) (m : MirrorTx) : Eng := { e with mtx := e.mtx.map (fun x => if x.is m.region m.copy then m else x) }
def Eng.dropMtx (e : Eng) (region copy : Nat) : Eng := { e with mtx := e.mtx.filter (fun m => !m.is region copy) }

/-- Quick digest of a string of `len` bytes that is zero but for one line at an offset (R368). -/
def lineDigest (len off : Nat) (l : List Byte) : Nat := crcShift (crc64 l) (len - off - 64)

/-- Send lines of one sector of a copy to its receivers (R80, R83). `lines` lists line in the sector and bytes, ascending. -/
def Eng.sendMirror (e : Eng) (r : Rgn) (m : MirrorTx) (off : Nat) (lines : List (Nat × List Byte)) : Eng :=
  if lines.isEmpty then e
  else
    let map := lines.foldl (fun a l => a + 2 ^ l.1) 0
    let so := off / sectorBytes * sectorBytes
    let dig := lines.foldl (fun d l => d ^^^ lineDigest r.len (so + 64 * l.1) l.2) m.dig
    let e := e.setMtx { m with dig := dig, sentN := m.sentN + lines.length }
    e.each m.waiting (fun w e => e.send w.2 {
      typ := tMirrorData, region := r.num, row := off / leafBytes, sector := off % leafBytes / sectorBytes,
      stamp := m.bnd.step, seq := m.copy, release := w.1, planes := 1, lineMap := map,
      payload := lines.flatMap (·.2) })

/-- The completion record of a copy (R81, R83). -/
def MirrorTx.record (m : MirrorTx) (index : Nat) : List Byte :=
  padTo 64 (natLe 2 m.region ++ [byteOf index, 0] ++ natLe 4 m.copy ++ natLe 4 m.bnd.step ++ natLe 4 m.ring
    ++ natLe 8 m.bnd.count ++ natLe 8 m.sentN ++ natLe 8 m.dig)

/-- The next 256 B behind the cursor are read, or the copy's completion records go (R80, R81). -/
def Eng.mirrorNext (e : Eng) (region copy : Nat) : Eng :=
  match e.rgn? region, e.mtx? region copy with
  | some r, some m =>
    if m.cursor < r.len then e.askRead (r.base + m.cursor) 256 (.mirrorRead region copy)
    else
      let e := e.setMtx { m with done := true }
      e.each m.waiting (fun w e => e.send w.2 {
        typ := tMirrorDone, region := region, stamp := m.bnd.step, seq := copy, release := w.1, planes := 1, lineMap := 1,
        payload := m.record w.1 })
  | _, _ => e

/-- A copy of a region is taken at a boundary (R80). The ledger's input region is hashed as it stood there (R381). -/
def Eng.startCopy (e : Eng) (r : Rgn) (b : Bnd) (ring : Nat) : Eng :=
  let rs := e.receivers r
  if rs.isEmpty then e
  else
    let copy := w32 ((look e.mcopy r.num).getD 0 + 1)
    let hash := if e.on Reg.LED_CTL_INPUT_EN && e.rd Reg.LED_CTL_INPUT_REGION == r.num then
        some (sha3_256 (e.memRead r.base r.len)) else none
    let m : MirrorTx := { region := r.num, copy := copy, bnd := b, ring := ring, cursor := 0, recorded := [], sentN := 0,
                          dig := 0, hash := hash, waiting := rs, done := false }
    ({ e with mtx := e.mtx ++ [m], mcopy := put e.mcopy r.num copy } : Eng).mirrorNext r.num copy

/-- A copy is abandoned: its receivers discard what they hold (R80). -/
def Eng.tearCopy (e : Eng) (m : MirrorTx) : Eng :=
  let e := e.each m.waiting (fun w e => e.send w.2 { typ := tMirrorTorn, region := m.region, seq := m.copy })
  (((e.dropMtx m.region m.copy).bump Reg.GRV_MIRROR_TORN_COUNT).raise .MIRROR_TORN)

/-- A read behind a copy's cursor has completed: its lines go but those recorded (R80); one that cannot be read tears the
copy. -/
def Eng.mirrorReadDone (e : Eng) (region copy : Nat) (x : Xfer) (bads : List LineRead) : Eng :=
  match e.rgn? region, e.mtx? region copy with
  | some r, some m =>
    let off := x.addr - r.base
    let e := e.mendRead bads
    if !(deadLines bads).isEmpty then
      (e.each (deadLines bads) (fun l e => e.unrepaired l)).tearCopy m
    else
      let ls := ((List.range (x.len / 64)).filter (fun i => !m.recorded.contains ((off + 64 * i) / 64))).map (fun i =>
        ((off + 64 * i) % sectorBytes / 64, e.readAs bads (x.addr + 64 * i) 64))
      let e := e.sendMirror r m off ls
      match e.mtx? region copy with
      | some m => (e.setMtx { m with cursor := off + x.len }).mirrorNext region copy
      | none => e
  | _, _ => e

/-- The tap delivers a write to a line that a copy has not sent: the old line goes first and is recorded; the 4,097th
recorded line tears the copy (R80). -/
def Eng.mirrorTap (e : Eng) (r : Rgn) (a : Nat) (old : List Byte) : Eng :=
  e.each (e.mtx.filter (fun m => m.region == r.num && !m.done)) (fun m e =>
    let off := a - r.base
    if off < m.cursor || m.recorded.contains (off / 64) then e
    else if 4096 ≤ m.recorded.length then e.tearCopy m
    else
      let e := e.setMtx { m with recorded := m.recorded ++ [off / 64] }
      match e.mtx? m.region m.copy with
      | some m => e.sendMirror r m off [(off % sectorBytes / 64, old)]
      | none => e)

/-- Receivers that a test selects no longer have to answer; a copy that none has still to answer is done with. -/
def Eng.dropReceiver (e : Eng) (sel : MirrorTx → Nat → Bool) : Eng :=
  let ms := e.mtx.map (fun (m : MirrorTx) => { m with waiting := m.waiting.filter (fun w => !sel m w.2) })
  { e with mtx := ms.filter (fun m => !m.waiting.isEmpty) }

/-- A MIRROR_ACK (R83): status 1 counts the copy as torn there; the first complete copy gives the ledger its input digest
(R381). -/
def Eng.rxMirrorAck (e : Eng) (p : Pkt) : Eng :=
  match e.mirrorTarget p, e.mtx? p.region p.seq with
  | none, _ => e.malformed
  | some _, none => e
  | some _, some m =>
    if !(m.waiting.any (fun w => w.2 == p.src)) then e
    else
      let e := if p.sector = 1 then e.bump Reg.GRV_MIRROR_TORN_COUNT
        else match m.hash with
          | some h => { e with inputs := put e.inputs m.ring h }
          | none => e
      e.dropReceiver (fun x w => x.is p.region p.seq && w == p.src)

/-- No MIRROR_ACK within GRV_SEAL_CTL.TIMEOUT (R83). -/
def Eng.mirrorAckTimeout (e : Eng) (region copy dst : Nat) : Eng :=
  match e.mtx? region copy with
  | none => e
  | some m =>
    if m.done && m.waiting.any (fun w => w.2 == dst) then
      let e := e.send dst { typ := tMirrorTorn, region := region, seq := copy }
      (e.bump Reg.GRV_MIRROR_TORN_COUNT).dropReceiver (fun x w => x.is region copy && w == dst)
    else e

/-! ### Products of a switch towards coded (R83, R93) -/

def Eng.adv? (e : Eng) (region : Nat) : Option Advisor := e.advs.find? (fun a => a.region == region)
def Eng.setAdv (e : Eng) (a : Advisor) : Eng := { e with advs := e.advs.map (fun x => if x.region == a.region then a else x) }

def MirrorRx.is (m : MirrorRx) (src region copy : Nat) : Bool := m.src == src && m.region == region && m.copy == copy

/-- The newest complete copy of a sender's region held here that a test admits (R83). -/
def Eng.bestCopy (e : Eng) (src region : Nat) (ok : MirrorRx → Bool) : Option MirrorRx :=
  match e.mrx.filter (fun m => m.src == src && m.region == region && m.complete && ok m) with
  | [] => none
  | c :: cs => some (cs.foldl (fun a b => if precedes a.copy b.copy then b else a) c)

/-- One sector of a copy held here. -/
def MirrorRx.sector (m : MirrorRx) (row sector : Nat) : List Byte :=
  (List.range 64).flatMap (fun l => padTo 64 ((look m.lines (row * 16384 + sector * 64 + l)).getD []))

/-- Lines of a sector that are not all zero: their map, and their bytes. -/
def nonZeroLines (s : List Byte) : Nat × List Byte :=
  let ls := ((chunksOf 64 64 s).zipIdx).filter (fun l => !allZero l.1)
  (ls.foldl (fun a l => a + 2 ^ l.2) 0, ls.flatMap (·.1))

/-- The sector that a map of lines and their bytes give (R83). -/
def linesSector (map : Nat) (payload : List Byte) : List Byte := fillLines map (List.range 64) payload

/-- Parity rows of a stripe and their present holders, a thickening row as row m. -/
def Eng.rowsOf (e : Eng) (region row : Nat) : List (Nat × Dest) :=
  (e.destsOf region row).map (fun d =>
    (if d.thick then e.m else ((e.holders row).find? (fun jp => jp.2 == d.pos)).elim 0 (·.1), d))

/-- The products of one source leaf of the copy (R93): one packet per non-zero sector and parity row, numbered from 1. -/
def Eng.leafProds (e : Eng) (r : Rgn) (m : MirrorRx) (row ring : Nat) : Eng :=
  let i := roleOf e.w m.src row
  let secs := ((List.range 256).map (fun s => (s, m.sector row s))).filter (fun s => !allZero s.2)
  e.each secs.zipIdx (fun sn e =>
    e.each (e.rowsOf r.num row) (fun jd e =>
      let prod := gfScale (coeff jd.1 i) sn.1.2
      if jd.2.pos == e.pos then e.foldParity r row sn.1.1 jd.2.thick prod
      else
        let (map, pay) := nonZeroLines prod
        e.sendData { typ := tClassProd, region := r.num, row := row, sector := sn.1.1, stamp := ring, seq := sn.2 + 1,
                     planes := 1, lineMap := map, payload := pay, release := 0, dests := [jd.2] }))

/-- This copy-0 receiver sends the products of its source's copy of a region that switches towards coded, once it holds
that copy (R93). -/
def Eng.sendProds (e : Eng) (region : Nat) : Eng :=
  match e.rgn? region, e.adv? region with
  | some r, some a =>
    if a.switch == 2 && a.queued then
      let src := (e.pos + e.w - 1) % e.w
      match e.bestCopy src region (fun m => m.ring == a.ring) with
      | none => e
      | some m =>
        let rows := (List.range r.rows).filter (fun s => roleOf e.w src s < e.k)
        (e.each rows (fun s e => e.leafProds r m s a.ring)).setAdv { a with queued := false }
    else e
  | _, _ => e

/-- A CLASS_PROD at a parity holder: applied once, acknowledged each time (R83). One that comes before this holder has
itself decided the switch is left to its resend (DEDUCED, log entry 25). DEDUCED: log entry 23. -/
def Eng.rxProd (e : Eng) (p : Pkt) : Eng :=
  let p := e.asRow p
  match e.rgn? p.region with
  | none => e.malformed
  | some r =>
    if !r.mirrorEligible || r.rows ≤ p.row || p.dst != e.pos || (e.parityRowFor p.region p.row p.thick).isNone then e.malformed
    else
      let k : ProdKey := { region := p.region, row := p.row, src := p.src, thick := p.thick, ring := p.stamp, seq := p.seq }
      let ack := fun (e : Eng) => e.send p.src {
        typ := tProdAck, flags := if p.thick then flThick else 0, region := p.region, row := p.row, sector := p.sector,
        seq := p.seq }
      if e.prods.contains k then ack e
      else if (match e.adv? p.region with | some a => a.switch == 2 && a.ring == p.stamp | none => false) then
        let e := e.foldParity r p.row p.sector p.thick (linesSector p.lineMap p.payload)
        ack { e with prods := e.prods ++ [k] }
      else e

/-- A PROD_ACK at the copy-0 receiver (R83). -/
def Eng.rxProdAck (e : Eng) (p : Pkt) : Eng :=
  if (e.mirrorTarget p).isNone then e.malformed
  else e.dropDests (fun s d => s.typ == tClassProd && s.region == p.region && s.row == p.row && s.sector == p.sector &&
    s.seq == p.seq && d.pos == p.src && d.thick == p.thick)

/-! ### The receiver (R81, R83) -/

def Eng.mrx? (e : Eng) (src region copy : Nat) : Option MirrorRx := e.mrx.find? (fun m => m.is src region copy)
def Eng.setMrx (e : Eng) (m : MirrorRx) : Eng :=
  { e with mrx := (e.mrx.filter (fun x => !x.is m.src m.region m.copy)) ++ [m] }

/-- The copies of a sender's region that stay when a new one completes: the three newest complete, and the incomplete. -/
def Eng.keepThree (e : Eng) (src region : Nat) : Eng :=
  let done := e.mrx.filter (fun m => m.src == src && m.region == region && m.complete)
  if done.length ≤ 3 then e
  else
    match done with
    | [] => e
    | c :: cs =>
      let old := cs.foldl (fun a b => if precedes b.copy a.copy then b else a) c
      { e with mrx := e.mrx.filter (fun m => !m.is src region old.copy) }

/-- A copy held here is looked at: complete, discarded for its digest, or still coming (R81, R83). -/
def Eng.checkCopy (e : Eng) (r : Rgn) (m : MirrorRx) : Eng :=
  match m.dig with
  | none => e.setMrx m
  | some d =>
    if m.lines.length < m.count then e.setMrx m
    else
      let got := m.lines.foldl (fun s l => s ^^^ lineDigest r.len (64 * l.1) l.2) 0
      let ack := fun (e : Eng) st => e.send m.src { typ := tMirrorAck, region := m.region, seq := m.copy, sector := st }
      if got == d then
        let e := (e.setMrx { m with complete := true }).keepThree m.src m.region
        (ack e 0).sendProds m.region
      else ack { e with mrx := e.mrx.filter (fun x => !x.is m.src m.region m.copy) } 1

/-- A copy not seen before. -/
def newCopy (src region copy index : Nat) : MirrorRx :=
  { src := src, region := region, copy := copy, index := index, stamp := 0, ring := 0, count := 0, lines := [], dig := none,
    complete := false }

/-- A MIRROR_DATA (R83). -/
def Eng.rxMirrorData (e : Eng) (p : Pkt) : Eng :=
  match e.mirrorTarget p with
  | none => e.malformed
  | some r =>
    let m := (e.mrx? p.src p.region p.seq).getD (newCopy p.src p.region p.seq (p.release % 4))
    if m.complete then e
    else
      let at_ := (List.range 64).filter (fun l => bit p.lineMap l)
      let ls := (at_.zip (chunksOf 64 64 p.payload)).foldl (fun ls x =>
        put ls (p.row * 16384 + p.sector * 64 + x.1) x.2) m.lines
      e.checkCopy r { m with lines := ls, stamp := p.stamp }

/-- A MIRROR_DONE (R83). -/
def Eng.rxMirrorDone (e : Eng) (p : Pkt) : Eng :=
  match e.mirrorTarget p with
  | none => e.malformed
  | some r =>
    let f := fieldAt p.payload
    let m := (e.mrx? p.src p.region p.seq).getD (newCopy p.src p.region p.seq (p.release % 4))
    if m.complete then e.send p.src { typ := tMirrorAck, region := m.region, seq := m.copy, sector := 0 }
    else e.checkCopy r { m with stamp := f 8 4, ring := f 12 4, count := f 24 8, dig := some (f 32 8) }

/-- A MIRROR_TORN (R80, R83). -/
def Eng.rxMirrorTorn (e : Eng) (p : Pkt) : Eng :=
  match e.mirrorTarget p with
  | none => e.malformed
  | some _ => { e with mrx := e.mrx.filter (fun m => !m.is p.src p.region p.seq) }

/-- A line of a sector of a copy cannot be read. DESIGN CHOICE: log entry 89. -/
def Eng.copyBad (e : Eng) (m : MirrorRx) (row sector : Nat) : Bool :=
  (List.range 64).any (fun l => e.journalBad 4 [m.src, m.region, m.copy, row * 16384 + sector * 64 + l] 64)

/-- The copy that a read of one of its sectors is answered from: the newest that a test admits. A copy that cannot be read is
discarded, and the next one is tried (R247, R329). -/
def Eng.readCopy : Nat → Nat → Nat → (MirrorRx → Bool) → Nat → Nat → Eng → Eng × Option MirrorRx
  | 0, _, _, _, _, _, e => (e, none)
  | fuel + 1, src, region, ok, row, sector, e =>
    match e.bestCopy src region ok with
    | none => (e, none)
    | some m =>
      if e.copyBad m row sector then
        Eng.readCopy fuel src region ok row sector { e with mrx := e.mrx.filter (fun x => !x.is src region m.copy) }
      else (e, some m)

/-- A MIRROR_READ (R83). -/
def Eng.rxMirrorRead (e : Eng) (p : Pkt) : Eng :=
  match e.mirrorTarget p with
  | none => e.malformed
  | some _ =>
    let id := bits p.release 31 16
    let ok := fun (m : MirrorRx) => if bit p.release 8 then m.ring == p.stamp else m.stamp == p.stamp
    match e.readCopy (e.mrx.length + 1) (p.release % 16) p.region ok p.row p.sector with
    | (e, some m) => e.send p.src {
        typ := tMirrorLines, region := p.region, row := p.row, sector := p.sector, stamp := m.stamp, seq := m.copy,
        release := id * 65536, planes := 1, lineMap := 2 ^ 64 - 1, payload := m.sector p.row p.sector }
    | (e, none) => e.send p.src { typ := tMirrorNone, region := p.region, release := id * 65536 }

/-- Copies of a region are released (R93). -/
def Eng.dropCopies (e : Eng) (region : Nat) : Eng :=
  { e with mrx := e.mrx.filter (fun m => m.region != region), mtx := e.mtx.filter (fun m => m.region != region) }

end Sys2Proof.Machine
end

