-- ==== Sys2Proof/Machine/Tap.lean ====
section
/-!
DEFINITION. Sys2Proof/Machine/Tap.lean: the tap path (R20, R21, R44, R75 to R77, R96, R99 to R101, R164, R165, R316, R325, R327,
R334, R370).
-/
namespace Sys2Proof.Machine

/-! ### Withholding -/

/-- Leaf index of an address. -/
def leafOf (a : Nat) : Nat := a / leafBytes

/-- Open capture entries of the quadrant that holds a leaf's context (R23, R99). DEDUCED: log entry 82. -/
def Eng.quadCaps (e : Eng) (leaf : Nat) : List Capture :=
  e.caps.filter (fun c => match e.rgn? c.region with | some r => r.leaf c.row % 4 == leaf % 4 | none => false)

/-- A tap pair needs a new entry in a quadrant all of whose 128 entries are held for a ring that has not opened (R164).
DEDUCED: log entry 82. -/
def Eng.capsHeld (e : Eng) (r : Rgn) (a : Nat) : Bool :=
  let row := r.rowOf a
  let sector := a % leafBytes / sectorBytes
  let ring := e.tapRing.1
  let q := e.quadCaps (leafOf a)
  128 ≤ q.length && !(q.any (fun c => e.mayClose c)) &&
  !(e.caps.any (fun c => c.region == r.num && c.row == row && c.sector == sector && c.ring == ring))

/-- A ringed stripe of this owner stands in a reconstruction that withholds its tap pairs: a repair of the sector (R247), or
a row being built from the leaf (R249). -/
def Eng.chainHolds (e : Eng) (r : Rgn) (a : Nat) : Bool :=
  r.ringed && (
    e.chains.any (fun c => c.prio == 2 && c.region == r.num && c.row == r.rowOf a && c.first == a % leafBytes / sectorBytes) ||
    e.recons.any (fun c => c.why == .repair && c.region == r.num && c.row == r.rowOf a && c.first == a % leafBytes / sectorBytes) ||
    e.snaps.any (fun s => s.live && s.region == r.num && s.row == r.rowOf a))

/-- Acceptance of a non-engine tap pair is withheld: during a coding-core reset (R452), for a leaf being rebuilt (R260), for
a reconstruction (R247, R249), or for want of a capture entry (R164). An engine that is fenced or out of service withholds
none (R237, R459). DEDUCED: log entry 18. -/
def Eng.tapBlocked (e : Eng) (a : Nat) : Bool :=
  e.serving && (e.boot.inReset ||
    (match e.rgnAt a with
     | some r => e.isRebuilding (leafOf a) || e.chainHolds r a || (e.captured r && !e.closed && e.capsHeld r a)
     | none => false))

/-! ### What goes wrong -/

/-- The old line is written back (R44): memory, check bytes and digest are as before the pair. DEDUCED: log entry 18. -/
def Eng.undoTap (e : Eng) (a : Nat) (old : List Byte) : Eng :=
  ((e.memWrite a old).markDirty a).freshLines a 64

/-- Sources of a pair as GRV_WRITER_ADDR.SOURCE and the WRITER bits number them (R67, R76). -/
def srcCode : WrSource → Nat
  | .engine => 0 | .tier => 1 | .fabric => 2 | .storage => 3 | .other => 4

/-! ### Capture (R99 to R101) -/

/-- A pair merges into the capture entry of its sector and ring, or opens one; where its quadrant's entries are all open,
the least recently merged one that may close does (R99, R100). DEDUCED: log entry 82. -/
def Eng.capture (e : Eng) (r : Rgn) (a : Nat) (delta : List Byte) : Eng :=
  let row := r.rowOf a
  let sector := a % leafBytes / sectorBytes
  let ring := e.tapRing.1
  let at_ := a % sectorBytes
  match e.caps.find? (fun c => c.region == r.num && c.row == row && c.sector == sector && c.ring == ring) with
  | some c =>
    let d := overlay c.delta at_ (xorBytes ((c.delta.drop at_).take 64) delta)
    { e with caps := (e.caps.erase c) ++ [{ c with delta := d, stamp := e.now }] }
  | none =>
    let q := e.quadCaps (leafOf a)
    let e := if 128 ≤ q.length then
        match q.find? (fun c => e.mayClose c) with
        | some c => e.closeEntry c
        | none => e
      else e
    { e with caps := e.caps ++ [{ region := r.num, row := row, sector := sector, ring := ring,
                                  delta := overlay (zeros 4096) at_ delta, stamp := e.now }] }

/-- A mirror region's pair is thinned for measurement; one delivered while no ring is open or about to open is no ring's (R91,
R156). -/
def Eng.measure (e : Eng) (r : Rgn) (a : Nat) (delta : List Byte) : Eng :=
  let d := overlay (zeros 4096) (a % sectorBytes) delta
  if e.closed then e
  else e.advBytes r.num e.tapRing.1 (thin (elemWidth r.fmt) d).length

/-! ### A pair that is accepted -/

/-- What a pair does once its old line is known and its new line stands (R77, R80, R91, R96, R99, R325, R334, R370). -/
def Eng.tapEffect (e : Eng) (t : HeldTap) (old : List Byte) : Eng :=
  let a := 64 * t.line
  let delta := xorBytes old t.new
  let e := ((e.memWrite a t.new).touch a delta).freshLines a 64
  if e.fenced || t.src == .engine then e
  else
    match e.rgnAt a with
    | none => e
    | some r =>
      let e := if r.protectedCls then e.mirrorTap r a old else e
      let e := if r.mirror && !e.captured r then e.measure r a delta else e
      if e.captured r then e.capture r a delta else e

/-- The rule that a non-engine pair breaks, in the order of R76: reserved area, stray parity write, writer violation,
closed-ring write; with what it counts and records. DEDUCED: log entry 18. -/
def Eng.tapCheck (e : Eng) (t : HeldTap) : Option (Eng → Eng) :=
  let a := 64 * t.line
  if t.src == .engine then none
  else if e.on Reg.MEM_FILL_DONE && e.journalBase ≤ a then
    some (fun e => ((e.bump Reg.MEM_ERR_EVT_RSVD_WR).wr Reg.GRV_STRAY_ADDR_LINE t.line).raise .RESERVED_WR)
  else if e.fenced then none
  else
    match e.rgnAt a with
    | none => none
    | some r =>
      if e.isParityRow r (r.rowOf a) then
        some (fun e => ((e.bump Reg.GRV_STRAY_CNT_COUNT).wr Reg.GRV_STRAY_ADDR_LINE t.line).raise .STRAY_PARITY_WR)
      else if r.protectedCls && !bit r.writer (srcCode t.src - 1) then
        some (fun e => (((e.bump Reg.GRV_WRITER_CNT_COUNT).wr Reg.GRV_WRITER_ADDR_SOURCE (srcCode t.src)).wr
          Reg.GRV_WRITER_ADDR_LINE t.line).raise .WRITER_VIOLATION)
      else if r.ringed && e.closed then
        some (fun e => ((e.bump Reg.GRV_RING_CLOSED_WR_COUNT).wr Reg.GRV_STRAY_ADDR_LINE t.line).raise .RING_WRITE_CLOSED)
      else none

/-- A tap pair whose old line cannot be recovered (R327, R372): the new line stands, no delta is sent. A rule that the pair
breaks is counted, recorded and raised all the same (R44). A copy in progress that has yet to send the line sends the new one
(R80, DESIGN CHOICE, log entry 95). DEDUCED: log entry 26. -/
def Eng.tapOldLost (e : Eng) (t : HeldTap) : Eng :=
  let a := 64 * t.line
  let e := ((e.memWrite a t.new).markDirty a).freshLines a 64
  let e := if e.hasHeart a then e.hwRecompute (sectorOf t.line) else e
  let e := if e.digLeaf a then e.setDig (leafOf a) { e.dig (leafOf a) with current := false } else e
  let e := match e.rgnAt a with
    | some r => if e.fenced then e else e.stripeLost r (r.rowOf a) e.tapRing.1
    | none => e
  let e := match e.tapCheck t with
    | some f => f e
    | none => e
  (e.bump Reg.MEM_ERR_EVT_TAP_OLD_LOST).raise .TAP_OLD_LOST

/-- The old line of a pair (R321, R327): as delivered, or by erasure decode where it reads UNCORRECTABLE and no other line
of its sector is known to fail. -/
def Eng.tapOld (e : Eng) (t : HeldTap) : Option (List Byte) :=
  if t.bark != .uncorrectable then some t.old
  else if e.hasHeart (64 * t.line) && (e.unrepIn (sectorOf t.line)).all (· == t.line) then some (e.eraseLine t.line)
  else none

/-- A pair with its old line known: checked, undone or taken. -/
def Eng.tapWith (e : Eng) (t : HeldTap) (old : List Byte) : Eng :=
  match e.tapCheck t with
  | some f => f (e.undoTap (64 * t.line) old)
  | none => e.tapEffect t old

/-- A repair of a pair's sector from the grove is under way (R246, R327). -/
def Eng.repairing (e : Eng) (n : Nat) : Bool :=
  e.recons.any (fun c => c.why == .repair && (match e.rgn? c.region with
    | some r => (r.rowAddr c.row + c.first * sectorBytes) / sectorBytes == n
    | none => false))

/-- Acceptance of a tap pair. While its sector is repaired from the grove, a pair whose old line could not be read waits for that: a
second line of the sector has failed, so an erasure decode cannot give it (R326, R327). An engine out of service takes no action on it (R459). A pair of the engine's own write finds
the write's effects already made, so it is taken against memory as it stands. DEDUCED: log entry 18. -/
def Eng.acceptTap (e : Eng) (t : HeldTap) : Eng :=
  let a := 64 * t.line
  if e.oos then (e.memWrite a t.new).freshLines a 64
  else if t.src == .engine then e.tapEffect t (e.memRead a 64)
  else
    if t.bark == .uncorrectable && e.repairing (sectorOf t.line) then
      let e := ((e.memWrite a t.new).markDirty a).noteWrote a 64
      { e with taps := e.taps ++ [{ t with landed := true }] }
    else match e.tapOld t with
      | some old => e.tapWith t old
      | none => e.tapOldLost t

/-- Pairs withheld that may be accepted now are, in their order. DEDUCED: log entry 18. -/
def Eng.retryTaps (e : Eng) : Eng :=
  e.each e.taps (fun t e =>
    if t.landed || e.tapBlocked (64 * t.line) then e
    else ({ e with taps := e.taps.erase t } : Eng).acceptTap t)

/-- TAP_PAIR: a controller delivers the old and new line of a write-back (R20, R21, R99). DEDUCED: log entry 86. -/
def execTapPair (line : BitVec 34) (old new : Line) (src : WrSource) (obark : Bark) (s : State) :
    Host.Outcome State Fault Refusal :=
  if s.eng.memSize ≤ 64 * line.toNat then .fault .outsideMemory
  else .next (s.run (fun e =>
    let e := if e.on Reg.GEN_PWR_ASLEEP then e.startClocks else e
    let t : HeldTap := { landed := false, line := line.toNat, old := lineBytes old, new := lineBytes new, src := src,
                         bark := obark }
    if src != .engine && (e.tapBlocked (64 * line.toNat) || e.taps.any (fun x => x.line == t.line && !x.landed)) then
      ({ e with taps := e.taps ++ [t] } : Eng).emit .withheld
    else e.acceptTap t))

/-- CAPTURE_IDLE_CLOSE: no pair has merged into an entry for GRV_TAP_CTL.IDLE (R100). An entry held for a ring that has not
opened stays (R164). -/
def execCaptureIdleClose (region : BitVec 12) (row : BitVec 20) (sector : Byte) (ring : Word) (s : State) :
    Host.Outcome State Fault Refusal :=
  .next (s.run (fun e =>
    match e.caps.find? (fun c => c.region == region.toNat && c.row == row.toNat && c.sector == sector.toNat &&
        c.ring == ring.toNat) with
    | some c => if e.mayClose c then (e.closeEntry c).retryTaps else e
    | none => e))

end Sys2Proof.Machine
end

