-- ==== Sys2Proof/Machine/Seal.lean ====
section
/-!
DEFINITION. Sys2Proof/Machine/Seal.lean: sealing (R162, R169 to R175), the class advisor (R91 to R94), and the ring commands: open,
seal, commit and rollback (R156, R158, R177 to R187), with their packets (R183 to R185, R189).
-/
namespace Sys2Proof.Machine

/-! ### Advice (R427) -/

/-- Advice of a loop: its bit, its code, its port and its wish, and its event, at most once a second, each of the two events of the
thickening loop for itself (R422, R427).
DEDUCED: log entry 46. -/
def Eng.advise (e : Eng) (loop port wish : Nat) (f : Fld) (src : Src) : Eng :=
  let e := (((e.flag f true).wr Reg.HLT_ADVICE_VAL_LOOP loop).wr Reg.HLT_ADVICE_VAL_PORT port).wr Reg.HLT_ADVICE_VAL_WISH wish
  let key := if src == .EVAC_ADVICE then 16 + loop else loop
  let due : Bool := match look e.advised key with | some t => t + 1000000000 ≤ e.now | none => true
  if due then ({ e with advised := put e.advised key e.now } : Eng).raise src else e

/-! ### The class advisor (R91 to R94) -/

/-- u of a region in a ring, in units of 1/65,536, saturating (R91). -/
def advU (bytes len : Nat) : Nat := min 65535 (bytes * 65536 / len)

/-- u_s + (u − u_s)/8, rounded toward zero (R91). -/
def smooth (us u : Nat) : Nat := (7 * us + u) / 8

/-- At the seal of a ring every advisor takes the ring's u (R91). -/
def Eng.advMeasure (e : Eng) (ring : Nat) : Eng :=
  let f := fun (a : Advisor) =>
    match e.rgn? a.region with
    | some r => { a with us := smooth a.us (advU ((look a.bytes ring).getD 0) r.len), bytes := cut a.bytes ring }
    | none => a
  { e with advs := e.advs.map f }

/-- The grove mean of u_s for a region over the votes of a ring, rounded down (R91). DEDUCED: log entry 70. -/
def Eng.advMean (e : Eng) (ring region : Nat) : Nat :=
  let us := (e.rings.votes.filter (fun v => v.ring == ring)).filterMap (fun v => look v.us region)
  if us.isEmpty then 0 else us.foldl (· + ·) 0 / us.length

/-- The boundary of a ring that has ended, with the step that a copy taken there carries: the newest of the step sequence, 0 where
none has been declared (R83, DESIGN CHOICE, log entry 95). -/
def RingRec.copyBnd (r : RingRec) : Bnd :=
  let b := r.bnd.getD { step := 0, kind := 0, count := 0 }
  { b with step := if bit b.kind 0 then b.step else r.wstep.getD 0 }

/-- A switch begins at the seal of ring r (R92, R93). Towards mirror, the copy of ring r + 1 is taken now where that ring has
ended its flush before. Towards coded, the region's parity leaves are zeroed, its copy-0 receiver sends the products, and the
entries of ring r + 1 close where that ring has ended its flush. DEDUCED: log entry 70. -/
def Eng.beginSwitch (e : Eng) (a : Advisor) (r : Rgn) (ring : Nat) : Eng :=
  let next := e.rings.recs.find? (fun x => x.num == w32 (ring + 1) && x.st != .opened && x.st != .flushing)
  if r.ringed then
    let e := e.setAdv { a with switch := 1, ring := ring, queued := false, streak := 0 }
    match next with
    | some x => e.startCopy r x.copyBnd x.num
    | none => e
  else
    let e := e.setAdv { a with switch := 2, ring := ring, queued := true, streak := 0 }
    let rows := (List.range r.rows).filter (fun s => e.k ≤ e.role s)
    let e := e.each rows (fun s e => e.store (r.rowAddr s) (zeros leafBytes))
    let hs := e.hosted.map (fun (h : Hosted) => if h.region == r.num then { h with secs := [] } else h)
    let e := ({ e with hosted := hs } : Eng).sendProds r.num
    match next with
    | some x => e.each (e.caps.filter (fun c => c.ring == x.num && c.region == r.num)) (fun c e => e.closeEntry c)
    | none => e

/-- One advisor at the seal of a ring, and how many switches have begun at it (R92). DEDUCED: log entry 70. -/
def Eng.advDecide (e : Eng) (ring : Nat) (region begun : Nat) : Eng × Nat :=
  match e.adv? region, e.rgn? region with
  | some a, some r =>
    let mean := e.advMean ring region
    if a.switch != 0 then (e.setAdv { a with mean := mean }, begun)
    else
      let past := if r.ringed then r.rateUp ≤ mean else mean ≤ r.rateDown
      let streak := if past then min 255 (a.streak + 1) else 0
      let want := if r.ringed then 1 else 2
      let full := r.streak ≤ streak && past
      let a := { a with mean := mean, streak := streak, propose := if full || a.queued then want else 0 }
      if !(full || a.queued) then (e.setAdv a, begun)
      else if e.on Reg.GRV_ADV_CTL_EXPERT && bit r.auto 0 && bit r.auto (if r.ringed then 1 else 2) then
        if begun < 8 then (e.beginSwitch a r ring, begun + 1)
        else (e.setAdv { a with streak := 0, queued := true }, begun)
      else ((e.setAdv { a with streak := 0, queued := false }).advise 5 0 (if r.ringed then 4 else 2)
              Reg.HLT_ADVICE_CLASS .CLASS_ADVICE, begun)
  | _, _ => (e, begun)

/-- Capture entries end unsent; their pairs count in u (R91). -/
def Eng.dropCaps (e : Eng) (sel : Capture → Bool) : Eng :=
  let e := e.each (e.caps.filter sel) (fun c e => match e.rgn? c.region with
    | some r => e.advBytes c.region c.ring (thin (elemWidth r.fmt) c.delta).length
    | none => e)
  { e with caps := e.caps.filter (fun c => !sel c) }

/-- Entries of the ring after a sealed one in regions that its seal did not switch are dropped (R93). -/
def Eng.dropUndecided (e : Eng) (ring : Nat) : Eng :=
  e.dropCaps (fun c => c.ring == w32 (ring + 1) && (match e.rgn? c.region with | some r => !e.stagedRgn r | none => false))

/-- The advisor's work at the seal of a ring, in ascending region (R92). -/
def Eng.advisorSeal (e : Eng) (ring : Nat) : Eng :=
  ((e.advs.map (·.region)).foldl (fun (x : Eng × Nat) region => x.1.advDecide ring region x.2) (e, 0)).1.dropUndecided ring

/-- The engine rewrites CLASS in a descriptor and, with it, in the region's contexts (R70, R94). -/
def Eng.setClass (e : Eng) (r : Rgn) (cls : Nat) : Eng :=
  let e := e.setRgn { r with cls := cls }
  { e with descs := splice e.descs (64 * r.num + 0x10) [byteOf cls] }

/-- A region that has become mirror keeps no deltas of later rings: its open entries count in u and end, and its packets on
their way are taken back (R91, R93). -/
def Eng.dropRingDeltas (e : Eng) (region : Nat) : Eng :=
  let e := e.dropCaps (fun c => c.region == region)
  { e with waits := e.waits.filter (fun p => p.region != region),
           sent := e.sent.filter (fun s => s.typ != tRingDelta || s.region != region) }

/-- The switches that the commit of a ring completes (R93, R94). DEDUCED: log entry 70. -/
def Eng.classSwitch (e : Eng) (ring : Nat) : Eng :=
  e.each (e.advs.filter (fun a => a.switch != 0 && w32 (a.ring + 1) == ring)) (fun a e =>
    match e.rgn? a.region with
    | none => e
    | some r =>
      let e := e.setAdv { a with switch := 0, propose := 0, streak := 0, queued := false }
      if a.switch == 1 then
        let e := (e.setClass r 4).dropRingDeltas r.num
        e.setRings (fun g => { g with stages := g.stages.filter (fun s => s.region != r.num),
                                      applies := g.applies.filter (fun j => j.region != r.num) })
      else (e.setClass r 2).dropCopies r.num)

/-- Switches under way are abandoned: at a loss (R94), and where the ring that would carry them out is rolled back.
DEDUCED: log entry 70. -/
def Eng.dropSwitches (e : Eng) (sel : Advisor → Bool) : Eng :=
  let off := e.advs.filter (fun a => a.switch != 0 && sel a)
  let e := e.each off (fun a e => e.setAdv { a with switch := 0, propose := 0, streak := 0, queued := false })
  let e := e.each (off.filter (fun a => a.switch == 2)) (fun a e =>
    e.setRings (fun g => { g with stages := g.stages.filter (fun s => s.region != a.region) }))
  let gone := fun (s : Sent) => off.any (fun a => a.switch == 2 && a.region == s.region)
  let e := e.dropCaps (fun c => off.any (fun a => a.switch == 2 && a.region == c.region))
  e.dropDests (fun s _ => gone s)

/-! ### Votes (R169 to R173) -/

/-- Send this engine's vote for a ring, as it was made, to one member (R169, R173, R189). -/
def Eng.sendVote (e : Eng) (dst : Nat) (v : Vote) : Eng :=
  let recs := v.us.flatMap (fun u => natLe 2 u.1 ++ natLe 2 u.2)
  let parts := voteParts v.bnd recs
  e.each parts.zipIdx (fun x e =>
    e.send dst (wholeLines { typ := tSealVote, stamp := v.ring, seq := x.2, release := parts.length, payload := x.1 }))

/-- RING_SEAL commands for a ring complete with a status. -/
def Eng.endSeals (e : Eng) (n status : Nat) : Eng :=
  let qs := e.rings.reqs.filter (fun q => q.ring == some n)
  let e := e.setRings (fun g => { g with reqs := g.reqs.filter (fun q => q.ring != some n) })
  let b := match e.ring? n with | some r => r.bnd | none => none
  e.each qs (fun q e => e.completeRing q.cmd status n b 0)

/-- The grove seal of a ring (R172). -/
def Eng.groveSeal (e : Eng) (n : Nat) : Eng :=
  let e := e.setRingSt n .groveSealed
  let e := (e.signal (e.rd Reg.GRV_RING_SYNC_SEALED_OBJ)).raise .RING_SEALED
  (e.endSeals n stOk).advisorSeal n

/-- Votes of a locally sealed ring are compared with this engine's own: disagreement splits the ring (R171), agreement of
every position of the map seals it (R170). DEDUCED: log entry 81. -/
def Eng.compareVotes (e : Eng) (n : Nat) : Eng :=
  if e.ringSt n != .localSealed then e
  else
    match e.vote? n e.pos with
    | none => e
    | some own =>
      let known := e.rings.votes.filter (fun v => v.ring == n && v.parts.contains 0)
      if known.any (fun v => v.bnd != own.bnd) then ((e.setRingSt n .split).raise .SEAL_SPLIT).endSeals n stSplit
      else if (List.range e.w).all (fun p => match e.vote? n p with | some v => v.complete | none => false) then e.groveSeal n
      else e

/-- The engine is locally sealed for a ring: it votes (R169). -/
def Eng.sealLocally (e : Eng) (n : Nat) : Eng :=
  let e := (e.setRingSt n .localSealed).advMeasure n
  match e.ring? n with
  | some { bnd := some b, .. } =>
    let us := e.advs.foldl (fun m a => put m a.region a.us) ([] : SMap Nat)
    let v : Vote := { ring := n, pos := e.pos, bnd := b, count := 1, parts := [0], us := us }
    let e := e.setVote v
    (e.each e.peers (fun p e => e.sendVote p v)).compareVotes n
  | _ => e

/-- Every ring that now meets the conditions of R169 is locally sealed, oldest first. -/
def Eng.trySeal (e : Eng) : Eng :=
  e.each (e.rings.recs.map (·.num)) (fun n e => if e.canLocalSeal n then e.sealLocally n else e)

/-- A SEAL_VOTE (R170, R189): one part of a position's vote. A ring at or before the committed ring needs none.
DEDUCED: log entry 81. -/
def Eng.rxVote (e : Eng) (p : Pkt) : Eng :=
  if !e.isPresent p.src then e.malformed
  else if atOrBefore p.stamp e.lastCommit || e.ringSt p.stamp == .rolled then e
  else
    let f := fieldAt p.payload
    let v := (e.vote? p.stamp p.src).getD
      { ring := p.stamp, pos := p.src, bnd := { step := 0, kind := 0, count := 0 }, count := p.release, parts := [], us := [] }
    if v.parts.contains p.seq then e
    else
      let recs := if p.seq = 0 then p.payload.drop 64 else p.payload
      let us := (chunksOf 4 (recs.length / 4 + 1) recs).foldl (fun m r =>
        if fieldAt r 0 2 == 0xFFFF then m else put m (fieldAt r 0 2) (fieldAt r 2 2)) v.us
      let b : Bnd := if p.seq = 0 then { step := f 0 4, kind := f 4 1, count := f 8 8 } else v.bnd
      (e.setVote { v with bnd := b, count := p.release, parts := v.parts ++ [p.seq], us := us }).compareVotes p.stamp

/-- A VOTE_REQ: the vote goes again (R173). -/
def Eng.rxVoteReq (e : Eng) (p : Pkt) : Eng :=
  if !e.isPresent p.src then e.malformed
  else
    match e.vote? p.stamp e.pos with
    | some v => e.sendVote p.src v
    | none => e

/-- VOTE_REQ to every present position whose vote for a ring is missing (R173). -/
def Eng.askVotes (e : Eng) (n : Nat) : Eng :=
  e.each (e.peers.filter (fun p => match e.vote? n p with | some v => !v.complete | none => true)) (fun p e =>
    e.send p { typ := tVoteReq, stamp := n })

/-- A ring has stood for GRV_SEAL_CTL.TIMEOUT (R173). -/
def Eng.sealTimeout (e : Eng) (n : Nat) : Eng :=
  match e.ringSt n with
  | .localSealed => (e.askVotes n).raise .SEAL_STUCK
  | .flushing => e.raise .SEAL_STUCK
  | .sending => e.raise .SEAL_STUCK
  | _ => e

/-! ### Flush end (R162) -/

/-- The flush of the ring in FLUSHING has completed: its entries close, the next ring opens if it may, it enters SENDING
(R162), and the copies that its seal takes begin (R80, R93). `stepCopies`: regions that copy at step boundaries too. -/
def Eng.flushEndRing (e : Eng) : Eng :=
  match e.rings.recs.find? (fun r => r.st == .flushing) with
  | none => e
  | some r =>
    let e := e.closeRing r.num
    let e := (e.setRingSt r.num .sending).openNext
    let b := r.copyBnd
    let copies := e.rgns.filter (fun g =>
      (g.mirror && (!bit g.sync 0 || bit b.kind 0)) ||
      (g.ringed && e.advs.any (fun a => a.region == g.num && a.switch == 1 && w32 (a.ring + 1) == r.num)))
    (e.each copies (fun g e => e.startCopy g b r.num)).retryTaps.trySeal

/-! ### RING_OPEN (R156, R186) -/

/-- The number that RING_OPEN may name: after a rollback the N it carried, else one that follows the committed ring, and every
ring opened since the start lock, serially (R155, R156, R186). DEDUCED: log entry 16. -/
def Eng.mayOpen (e : Eng) (n : Nat) : Bool :=
  match e.rings.nextN with
  | some m => n == m
  | none => precedes e.lastCommit n && (match e.rings.highest with | some h => precedes h n | none => true)

/-- RING_OPEN with N. -/
def Eng.ringOpen (e : Eng) (cmd n : Nat) : Eng :=
  if !e.closed || e.rolling || !e.mayOpen n then e.refuse cmd rsRule []
  else
    let c := match e.rings.frozen with | some c => c | none => e.lastCommit
    let past := fun (x : Nat) => e.rings.nextN.isSome && precedes c x
    let e := { e with waits := e.waits.filter (fun p => !(p.typ == tRingDelta && past p.stamp)) }
    let e := e.setRings (fun g => { g with
      recs := g.recs.filter (fun r => r.st != .rolled),
      stages := g.stages.filter (fun s => !past s.ring),
      votes := g.votes.filter (fun v => v.pos == e.pos || !past v.ring || !precedes v.ring n),
      seqs := g.seqs.filter (fun s => !past s.ring),
      frozen := none, nextN := none })
    let e := (e.flag Reg.GRV_RING_STATE_CLOSED false).wr Reg.GRV_RING_STAT_BASE n
    ((e.openRing n).completeRing cmd stOk n none 0).drainWaits

/-! ### RING_SEAL (R158) -/

/-- A RING_SEAL is accepted: it waits for its boundary, or that has passed (R158). -/
def Eng.ringSeal (e : Eng) (cmd step seq : Nat) : Eng :=
  if 1 < seq then e.refuse cmd rsRule []
  else
    let seen := if seq = 0 then e.rings.seenStep else e.rings.seenTstep
    let last := if seq = 0 then e.rd Reg.GRV_BND_LAST_LAST_STEP else e.rd Reg.GRV_BND_LAST_LAST_TSTEP
    let q : SealReq := { cmd := cmd, step := step, seq := seq, ring := none }
    if seen && atOrBefore step last then e.reqLate q
    else e.setRings (fun g => { g with reqs := g.reqs ++ [q] })

/-! ### RING_COMMIT (R177 to R180) -/

/-- A ring up to r stands in SPLIT. -/
def Eng.splitTo (e : Eng) (r : Nat) : Bool := e.rings.recs.any (fun x => x.st == .split && atOrBefore x.num r)

/-- Rings from the oldest uncommitted to r, ascending. -/
def Eng.toCommit (e : Eng) (r : Nat) : List Nat :=
  (e.rings.recs.filter (fun x => x.st != .committed && atOrBefore x.num r)).map (·.num)

/-- A commit of r would be accepted (R177). -/
def Eng.committable (e : Eng) (r : Nat) : Bool :=
  (r == e.base || r == w32 (e.base + 1)) && sealedLocally (e.ringSt r) && e.ringSt r != .committed && !e.splitTo r

/-- Every ring up to r is committed, in ascending order (R177). -/
def Eng.commitRings (e : Eng) (cmd : Option Nat) (r : Nat) : Eng :=
  e.each (e.toCommit r) (fun n e => (e.commitOne (if n == r then cmd else none) n).dropUndecided n)

/-- Every ring up to r is committed; the next ring opens if it waited for a slot (R174, R177). -/
def Eng.commitTo (e : Eng) (cmd : Option Nat) (r : Nat) : Eng :=
  ((e.commitRings cmd r).openNext.issueApply 4096).retryTaps

/-- RING_COMMIT for ring r (R177). -/
def Eng.ringCommit (e : Eng) (cmd r : Nat) : Eng :=
  if atOrBefore r e.lastCommit then
    e.completeRing cmd stOk r (if r == e.committed then e.rings.lastBnd else none) 0
  else if e.committable r then e.commitTo (some cmd) r
  else e.refuse cmd rsRule []

/-- The apply of the oldest committed ring has ended (R180, R94). -/
def Eng.applyEnd (e : Eng) : Eng :=
  match e.rings.commits with
  | [] => e
  | (cmd, n, b) :: rest =>
    if e.rings.applies.any (fun j => j.ring == n) then e
    else
      let e := e.commitOwn n true
      let next := match e.rings.recs.find? (fun r => r.num != n && r.st != .rolled) with
        | some r => r.num
        | none => w32 (n + 1)
      let e := (e.wr Reg.GRV_RING_STAT_COMMITTED n).wr Reg.GRV_RING_STAT_BASE next
      let e := e.setRings (fun g => { g with
        commits := rest, lastBnd := some b, recs := g.recs.filter (fun r => r.num != n),
        stages := g.stages.filter (fun s => s.ring != n), votes := g.votes.filter (fun v => v.pos == e.pos || !atOrBefore v.ring n),
        seqs := g.seqs.filter (fun s => s.ring != n) })
      let e := match rest with
        | [] => e.flag Reg.GRV_APPLY_STAT_ACTIVE false
        | (_, n', _) :: _ => e.wr Reg.GRV_APPLY_STAT_RING n'
      let hs := e.hosted.map (fun (h : Hosted) =>
        let rs := h.rings.filter (fun x => x != n)
        { h with rings := rs, provisional := h.provisional && !rs.isEmpty })
      let e : Eng := { e with hosted := hs }
      let e := (e.classSwitch n).recApplied n
      let e := match cmd with
        | some c => e.completeRing c stOk n (some b) 0
        | none => e
      e.openNext.drainWaits.retryTaps.trySeal

/-! ### RING_ROLLBACK (R181 to R186) -/

/-- The rings after a target are rolled back on this engine (R182, R184 step 1). DEDUCED: log entry 81. -/
def Eng.startRoll (e : Eng) (cmd c n : Nat) : Eng :=
  let after := fun (x : Nat) => precedes c x
  let e := ((e.flag Reg.GRV_RING_STATE_CLOSED true).flag Reg.GRV_RING_STATE_ROLLING true).endStall
  let ends := fun (q : SealReq) => match q.ring with | some r => after r | none => false
  let reqs := e.rings.reqs.filter ends
  let e := e.setRings (fun g => { g with
    recs := g.recs.map (fun r => if after r.num && r.st != .committed then { r with st := .rolled } else r),
    reqs := g.reqs.filter (fun q => !ends q), frozen := some c, nextN := some n })
  let e := e.each reqs (fun q e => e.completeRing q.cmd stRolledBack
    (match q.ring with | some r => r | none => w32 (c + 1)) none 0)
  let e := e.retryTaps
  let caps := e.caps.filter (fun x => after x.ring)
  let e := { e with caps := e.caps.filter (fun x => !after x.ring) }
  let ringed := fun (n : Nat) => (e.rgn? n).any (·.ringed)
  let e := e.each (caps.filter (fun x => ringed x.region)) (fun x e => match e.rgn? x.region with
    | some r => e.storeXor (r.rowAddr x.row + x.sector * sectorBytes) x.delta
    | none => e)
  let mine := e.sent.filter (fun s => s.typ == tRingDelta && after s.stamp)
  let e := e.dropDests (fun s _ => s.typ == tRingDelta && after s.stamp)
  let e := e.dropSwitches (fun a => after (w32 (a.ring + 1)))
  let leaves := e.rings.seqs.filter (fun s => after s.ring && ringed s.region)
  let lost := (e.oldLost.filter (fun l => after l.2.2)).map (fun l => (l.1, l.2.1))
  let mk := fun (s : RingSeq) => match e.nextHolder s.region s.row [] with
    | some (h, t) => ({ region := s.region, row := s.row, ring := s.ring, holder := h, thick := t, tried := [], got := [],
                        ah := 0, live := false, ended := false } : Fetch)
    | none => ({ region := s.region, row := s.row, ring := s.ring, holder := 16, thick := false, tried := [], got := [],
                 ah := 0, live := false, ended := false } : Fetch)
  let fs := leaves.map mk
  let none_ := ((fs.filter (fun f => f.holder == 16)).map (fun f => (f.region, f.row)) ++ lost).eraseDups
  let e := (e.wr Reg.GRV_ROLL_STAT_GAP 0).askRanges .discard .rollDiscard e.ringedRanges
  let e := e.setRings (fun g => { g with roll := some { target := c, cmd := cmd, fetches := fs, copies := mine, gaps := [] } })
  (e.each none_ (fun l e => e.rollGap l.1 l.2)).rollStep

/-- RING_ROLLBACK with target c and next ring N (R181). -/
def Eng.ringRollback (e : Eng) (cmd c n : Nat) : Eng :=
  let fresh := match e.rings.highest with | some h => precedes h n | none => precedes c n
  if !fresh then e.refuse cmd rsRule []
  else if e.rings.nextN.isSome && c == e.rd Reg.GRV_ROLL_STAT_TARGET then
    (e.setRings (fun g => { g with nextN := some n })).completeRing cmd stOk c (if c == e.committed then e.rings.lastBnd else none) 0
  else if c == e.lastCommit then e.startRoll cmd c n
  else if precedes e.lastCommit c && sealedLocally (e.ringSt c) && !e.splitTo c then
    ((e.commitRings none c).startRoll cmd c n).issueApply 4096
  else e.refuse cmd rsRule []

/-! ### Rollback packets (R183 to R185, R189) -/

/-- REGION and ROW of a rollback packet name a row of a coded-ringed region. -/
def Eng.rollTarget (e : Eng) (p : Pkt) : Option Rgn :=
  match e.rgn? p.region with
  | some r => if r.ringed && p.row < r.rows then some r else none
  | none => none

/-- A ROLL_FETCH at a holder (R183, R184, R251). -/
def Eng.rxRollFetch (e : Eng) (p : Pkt) : Eng :=
  match e.rollTarget p with
  | none => e.malformed
  | some r =>
    let own := (e.parityRowFor p.region p.row false).isSome
    let host := e.hostedRow p.region p.row
    if !(roleOf e.w p.src p.row < e.k) || !(own || host.isSome) then e.malformed
    else
      let e := if e.rings.frozen.isSome then e else e.setRings (fun g => { g with frozen := some p.release })
      let none_ := fun (e : Eng) => e.send p.src { typ := tRollNone, region := p.region, row := p.row, stamp := p.stamp }
      if e.rings.frozen != some p.release then none_ e
      else if own && e.builds.any (fun b => b.region == p.region && b.row == p.row && !b.thick) then none_ e
      else if !own && (match host with | some h => h.provisional || !h.built | none => true) then none_ e
      else
        match e.stage? p.stamp p.region p.row p.src (!own) with
        | none => e.send p.src { typ := tRollEnd, region := p.region, row := p.row, stamp := p.stamp }
        | some s =>
          if e.stageBad s then none_ e
          else
            let wdt := elemWidth r.fmt
            let e := e.each s.secs (fun x e =>
              let map := lineMapOf wdt x.2
              e.send p.src { typ := tRollData, region := p.region, row := p.row, sector := x.1, stamp := p.stamp, seq := s.ah,
                             planes := planesOf wdt map, lineMap := map, payload := thin wdt x.2 })
            e.send p.src { typ := tRollEnd, region := p.region, row := p.row, stamp := p.stamp, seq := s.ah,
                           release := s.secs.length }

/-- The outstanding fetch that a holder's answer belongs to. -/
def Eng.fetchFor (e : Eng) (p : Pkt) : Option (Rgn × Roll × Fetch) :=
  match e.rollTarget p, e.rings.roll with
  | some r, some ro =>
    (ro.fetches.find? (fun f => f.region == p.region && f.row == p.row && f.ring == p.stamp && f.holder == p.src && f.live &&
      !f.ended)).map (fun f => (r, ro, f))
  | _, _ => none

def Eng.setFetch (e : Eng) (f f' : Fetch) : Eng :=
  e.setRings (fun g => { g with roll := g.roll.map (fun ro => { ro with fetches := ro.fetches.map (fun x => if x == f then f' else x) }) })

/-- A ROLL_DATA at the owner (R184). -/
def Eng.rxRollData (e : Eng) (p : Pkt) : Eng :=
  match e.fetchFor p with
  | none => e.malformed
  | some (r, _, f) => e.setFetch f { f with got := put f.got p.sector (expand (elemWidth r.fmt) p.lineMap p.payload), ah := p.seq }

/-- A ROLL_END at the owner: with every sector in, the fetch has ended (R184); with some missing, its timeout fetches
again (R189). -/
def Eng.rxRollEnd (e : Eng) (p : Pkt) : Eng :=
  match e.fetchFor p with
  | none => e.malformed
  | some (_, _, f) =>
    if f.got.length < p.release then e
    else (e.setFetch f { f with ah := p.seq, ended := true }).rollStep

/-- A ROLL_NONE at the owner (R185). -/
def Eng.rxRollNone (e : Eng) (p : Pkt) : Eng :=
  match e.fetchFor p with
  | none => e.malformed
  | some (_, _, f) => (e.refetch f).rollStep

/-- A fetch has had no end within GRV_SEAL_CTL.TIMEOUT: it is asked again of the same holder (R189). -/
def Eng.rollTimeout (e : Eng) (region row ring : Nat) : Eng :=
  match e.rings.roll with
  | none => e
  | some ro =>
    match ro.fetches.find? (fun f => f.region == region && f.row == row && f.ring == ring && f.live && !f.ended) with
    | none => e
    | some f => (e.setFetch f { f with got := [], ah := 0 }).send f.holder
        { typ := tRollFetch, region := region, row := row, stamp := ring, release := ro.target }

/-- A member is lost: fetches asked of it go to the next holder (R185), the switches under way are abandoned whose ring has not
committed (R94). -/
def Eng.ringLoss (e : Eng) (x : Nat) : Eng :=
  let e := match e.rings.roll with
    | some (ro : Roll) => (e.each (ro.fetches.filter (fun (f : Fetch) => f.holder == x && !f.ended)) (fun f e => e.refetch f)).rollStep
    | none => e
  (e.dropSwitches (fun a => !e.rings.commits.any (fun c => c.2.1 == w32 (a.ring + 1)))).trySeal

/-! ### Commands of the seal's timers -/

/-- FLUSH_LATE: the flush has not completed within GRV_SEAL_CTL.FLUSH_WARN (R161). -/
def execFlushLate (s : State) : Host.Outcome State Fault Refusal :=
  .next (s.run (fun e => if e.rings.recs.any (fun r => r.st == .flushing) then e.raise .FLUSH_LATE else e))

/-- LOCAL_SEAL: the conditions of R169 hold. -/
def execLocalSeal (s : State) : Host.Outcome State Fault Refusal := .next (s.run Eng.trySeal)

/-- SEAL_TIMEOUT (R173). DESIGN CHOICE: log entry 2. -/
def execSealTimeout (ring : Word) (s : State) : Host.Outcome State Fault Refusal :=
  .next (s.run (fun e => e.sealTimeout ring.toNat))

/-- COMMIT_LATE: ring BASE has been grove-sealed for GRV_RING_CTL.COMMIT_MAX without a commit (R175). -/
def execCommitLate (s : State) : Host.Outcome State Fault Refusal :=
  .next (s.run (fun e => if e.ringSt e.base == .groveSealed then e.raise .COMMIT_LATE else e))

/-- RING_STALL: the wait for a staging slot has reached GRV_SEAL_CTL.STALL_WARN (R175). DEDUCED: log entry 81. -/
def execRingStall (s : State) : Host.Outcome State Fault Refusal :=
  .next (s.run (fun e =>
    if e.rings.stallAt.isSome && !e.rings.stallRaised then
      (e.setRings (fun g => { g with stallRaised := true })).raise .RING_STALL
    else e))

/-- ROLL_FETCH_TIMEOUT (R189). -/
def execRollFetchTimeout (region : BitVec 12) (row : BitVec 20) (ring : Word) (s : State) : Host.Outcome State Fault Refusal :=
  .next (s.run (fun e => e.rollTimeout region.toNat row.toNat ring.toNat))

/-- HELD_PACKET_RESUME: held packets whose slot, context or gap no longer stands in the way go on in order (R113, R166). -/
def execHeldPacketResume (s : State) : Host.Outcome State Fault Refusal := .next (s.run Eng.drainWaits)

end Sys2Proof.Machine
end

