-- ==== Sys2Proof/Machine/Streams.lean ====
section
/-!
DEFINITION. Sys2Proof/Machine/Streams.lean: run descriptors and stream descriptors (R193, R194), the elements they address (R85,
R86, R194, R197, R199), and the leaves, spans and sectors that a run writes (R97, R225).
-/
namespace Sys2Proof.Machine

/-! ### Stream descriptors (R194) -/

/-- A stream descriptor. `num` is its number among inputs or outputs. -/
structure Stream where
  num    : Nat
  kind   : Nat
  fmt    : Nat
  mode   : Nat
  round  : Nat
  region : Nat
  scale  : Nat
  offset : Nat
  deriving DecidableEq, Repr

/-- The 16 B of a stream descriptor. -/
def readStream (num : Nat) (b : List Byte) : Stream :=
  let f := fieldAt b
  { num := num, kind := f 0 1, fmt := f 1 1, mode := f 2 1, round := f 3 1, region := f 4 2, scale := f 6 2, offset := f 8 8 }

def Stream.used (s : Stream) : Bool := s.kind != 0
def Stream.intake (s : Stream) : Bool := s.kind == 3
/-- Region streams: KIND 1, and KIND 2, the SPLIT32 pair. -/
def Stream.bulk (s : Stream) : Bool := s.kind == 1 || s.kind == 2
def Stream.split (s : Stream) : Bool := s.kind == 2
def Stream.sat (s : Stream) : Bool := bit s.round 2
def Stream.tier (s : Stream) : Bool := bit s.round 3
def Stream.scaled (s : Stream) : Bool := s.scale != 0xFFFF
/-- Format of the values: FP32 for SPLIT32 and intake. -/
def Stream.format (s : Stream) : Nat := if s.kind == 1 then s.fmt else 0x01
/-- Tensor tag and first element of an intake stream. -/
def Stream.tag (s : Stream) : Nat := s.offset % 2 ^ 32
def Stream.first (s : Stream) : Nat := if s.intake then 1024 * (s.offset / 2 ^ 32) else s.offset

/-! ### Run descriptors (R193) -/

def Run.fld (r : Run) (o w : Nat) : Nat := fieldAt r.desc o w
def Run.slot (r : Run) : Nat := r.fld 0 1
def Run.ext (r : Run) : Bool := bit (r.fld 1 1) 0
def Run.step (r : Run) : Nat := r.fld 4 4
def Run.count (r : Run) : Nat := r.fld 8 8
def Run.rows (r : Run) : Nat := r.fld 0x10 4
def Run.cols (r : Run) : Nat := r.fld 0x14 4
def Run.syncObj (r : Run) : Nat := r.fld 0x18 2
def Run.ins (r : Run) : List Stream := (List.range 8).map (fun i => readStream i ((r.desc.drop (0xA0 + 16 * i)).take 16))
def Run.outs (r : Run) : List Stream := (List.range 6).map (fun i => readStream i ((r.desc.drop (0x120 + 16 * i)).take 16))

/-- Chunks of 1,024 run elements (R209, R223). -/
def Run.nchunks (r : Run) : Nat := (r.count + 1023) / 1024
def Run.chunkTop (r : Run) (c : Nat) : Nat := min r.count (1024 * c + 1024)

/-- The intake stream of a run, if it has one. -/
def Run.intake? (r : Run) : Option Stream := r.ins.find? (·.intake)

/-! ### Elements (R85, R86, R194, R199) -/

/-- How many stream elements a mode addresses, and the element that serves run element e. -/
def Run.extent (r : Run) (mode : Nat) : Nat :=
  if mode = 0 then r.count
  else if mode = 1 ∨ mode = 4 ∨ mode = 6 then r.rows
  else if mode = 2 ∨ mode = 5 ∨ mode = 7 then r.cols
  else 1
def Run.index (r : Run) (mode x : Nat) : Nat :=
  if mode = 0 then x
  else if mode = 1 ∨ mode = 4 ∨ mode = 6 then x / r.cols
  else if mode = 2 ∨ mode = 5 ∨ mode = 7 then x % r.cols
  else 0

/-- Bit ranges, in a region's data bytes, that n elements from stream element x on occupy: by region, first bit and number of
bits. A SPLIT32 pair has one in each half. -/
def Eng.bitSpans (e : Eng) (s : Stream) (x n : Nat) : List (Nat × Nat × Nat) :=
  if s.kind == 1 then [(s.region, x * fmtBits s.fmt, n * fmtBits s.fmt)]
  else if s.split then
    [(s.region, 16 * x, 16 * n), (match e.rgn? s.region with | some g => g.partner | none => s.region, 16 * x, 16 * n)]
  else []

/-- The block scales of n elements from stream element x on (R199). -/
def Stream.scaleSpan (s : Stream) (x n : Nat) : List (Nat × Nat × Nat) :=
  if s.scaled then
    let b := fun y => s.first / 32 + (y - s.first) / 32
    [(s.scale, 8 * b x, 8 * (b (x + n - 1) + 1 - b x))]
  else []

/-- The block scales that an intake input uses for run elements from x0 up to x1 (R199). -/
def Stream.intakeScales (s : Stream) (x0 x1 : Nat) : List (Nat × Nat × Nat) :=
  if s.intake && x0 < x1 then s.scaleSpan (s.first + x0) (x1 - x0) else []

/-- Bits a stream addresses for run elements from x0 up to x1: its elements and its block scales. -/
def Eng.streamBits (e : Eng) (r : Run) (s : Stream) (x0 x1 : Nat) : List (Nat × Nat × Nat) :=
  if x1 ≤ x0 then []
  else
    let lo := if s.mode = 2 ∨ s.mode = 5 ∨ s.mode = 7 then (if r.cols ≤ x1 - x0 then 0 else min (r.index s.mode x0) (r.index s.mode (x1 - 1)))
      else r.index s.mode x0
    let hi := if s.mode = 2 ∨ s.mode = 5 ∨ s.mode = 7 then (if r.cols ≤ x1 - x0 then r.cols - 1 else max (r.index s.mode x0) (r.index s.mode (x1 - 1)))
      else r.index s.mode (x1 - 1)
    e.bitSpans s (s.first + lo) (hi + 1 - lo) ++ s.scaleSpan (s.first + lo) (hi + 1 - lo)

/-- Data leaves, by region and data-leaf number, that bit ranges touch. -/
def leavesOf (bs : List (Nat × Nat × Nat)) : List (Nat × Nat) :=
  (bs.flatMap (fun b =>
    if b.2.2 = 0 then []
    else
      let a := b.2.1 / 8 / leafBytes
      let z := (b.2.1 + b.2.2 - 1) / 8 / leafBytes
      (List.range (z + 1 - a)).map (fun i => (b.1, a + i)))).eraseDups

/-- Leaves that a run writes, and all that it reads or writes, for run elements from x0 up to x1. -/
def Eng.writtenIn (e : Eng) (r : Run) (x0 x1 : Nat) : List (Nat × Nat) :=
  leavesOf ((r.outs.filter (·.bulk)).flatMap (fun s => e.streamBits r s x0 x1))
def Eng.touchedBy (e : Eng) (r : Run) : List (Nat × Nat) :=
  leavesOf ((r.outs.filter (·.bulk) ++ r.ins.filter (·.bulk)).flatMap (fun s => e.streamBits r s 0 r.count) ++
    r.ins.flatMap (fun s => s.intakeScales 0 r.count))
def Eng.writtenBy (e : Eng) (r : Run) : List (Nat × Nat) := e.writtenIn r 0 r.count

/-- Row of a data leaf. -/
def Eng.leafRow (e : Eng) (l : Nat × Nat) : Option (Rgn × Nat) :=
  (e.rgn? l.1).bind (fun g => (e.dataRow g l.2).map (fun row => (g, row)))

/-- The streamed leaves among a list, by region and row. -/
def Eng.streamedOf (e : Eng) (ls : List (Nat × Nat)) : List (Rgn × Nat) :=
  (ls.filterMap e.leafRow).filter (fun l => l.1.streamed)

/-! ### Spans (R225) -/

/-- The ELEMENT output with the most elements per leaf. -/
def Run.widest (r : Run) : Option Stream :=
  let bitsOf := fun (s : Stream) => if s.split then 16 else fmtBits s.fmt
  match r.outs.filter (fun s => s.bulk && s.mode == 0) with
  | [] => none
  | s :: ss => some (ss.foldl (fun a b => if bitsOf b < bitsOf a then b else a) s)

/-- Span of a run element: the leaf of the widest output that it falls in. -/
def Run.spanOf (r : Run) (x : Nat) : Nat :=
  match r.widest with
  | none => 0
  | some s =>
    let b := if s.split then 16 else fmtBits s.fmt
    (s.offset + x) * b / 8 / leafBytes - s.offset * b / 8 / leafBytes

/-- Run elements of the spans that a chunk lies in: from the first element of the first to the end of the last. -/
def Run.spanRange (r : Run) (c : Nat) : Nat × Nat :=
  match r.widest with
  | none => (0, r.count)
  | some s =>
    let b := if s.split then 16 else fmtBits s.fmt
    let leaf := fun x => (s.offset + x) * b / 8 / leafBytes
    let lo := (leaf (1024 * c) * leafBytes * 8 + b - 1) / b - s.offset
    let hi := ((leaf (r.chunkTop c - 1) + 1) * leafBytes * 8 + b - 1) / b - s.offset
    (lo, min r.count hi)

/-! ### Sectors (R97, R224) -/

/-- An output whose values are gathered and stored when the pass ends: a block-scaled ROWPUT or COLPUT, whose blocks draw
on many chunks (R199). -/
def Stream.late (s : Stream) : Bool := s.scaled && (s.mode == 6 || s.mode == 7)

/-- Chunks that write into a bit range of a region's data bytes; the pass's end counts as one more. -/
def Eng.chunksInto (e : Eng) (r : Run) (region b0 b1 : Nat) : List Nat :=
  let hits := fun (s : Stream) x0 x1 => (e.streamBits r s x0 x1).any (fun x =>
    x.1 == region && x.2.1 < b1 && b0 < x.2.1 + x.2.2 && 0 < x.2.2)
  (List.range r.nchunks).filter (fun c =>
    (r.outs.filter (fun s => s.bulk && !s.late && s.mode != 4 && s.mode != 5)).any (fun s => hits s (1024 * c) (r.chunkTop c)))
  ++ (if (r.outs.filter (fun s => s.bulk && s.late)).any (fun s => hits s 0 r.count) then [r.nchunks] else [])

/-- Sectors of one data leaf that a run writes, ascending. -/
def Eng.sectorsIn (e : Eng) (r : Run) (l : Nat × Nat) : List Nat :=
  let bs := ((r.outs.filter (·.bulk)).flatMap (fun s => e.streamBits r s 0 r.count)).filter (fun b => b.1 == l.1 && 0 < b.2.2)
  (List.range 256).filter (fun s =>
    let lo := 8 * (l.2 * leafBytes + s * sectorBytes)
    bs.any (fun b => b.2.1 < lo + 8 * sectorBytes && lo < b.2.1 + b.2.2))

/-- A sector's delta is complete: every chunk that writes into it is done (R97). DEDUCED: log entry 75. -/
def Eng.sectorDone (e : Eng) (r : Run) (l : Nat × Nat) (s : Nat) : Bool :=
  let lo := 8 * (l.2 * leafBytes + s * sectorBytes)
  (e.chunksInto r l.1 lo (lo + 8 * sectorBytes)).all (fun c => r.done.contains c)

/-- A writing pass still has sectors of a leaf to write; before the pass it has them all (R227). -/
def Eng.runOwes (e : Eng) (r : Run) (l : Nat × Nat) : Bool :=
  match r.phase with
  | .tier => false
  | .ended => false
  | .writing => (e.sectorsIn r l).any (fun s => !e.sectorDone r l s)
  | _ => !(e.sectorsIn r l).isEmpty

/-- A run still has sectors of any streamed leaf to write (R138, R379). -/
def Eng.runOwesAny (e : Eng) (r : Run) : Bool :=
  (e.writtenBy r).any (fun l => (match e.rgn? l.1 with | some g => g.streamed | none => false) && e.runOwes r l)

end Sys2Proof.Machine
end

