-- ==== Sys2Proof/Machine/Anchor.lean ====
section
/-!
DEFINITION. Sys2Proof/Machine/Anchor.lean: anchors (R339 to R358): the cut, the saving of leaves, the object and its writing, and
what an unsaved leaf holds back.
-/
namespace Sys2Proof.Machine

def Eng.setAnchor (e : Eng) (f : Anchor → Anchor) : Eng := e.setKeep (fun k => { k with anchor := k.anchor.map f })

/-! ### Anchored leaves (R339, R348) -/

def Rgn.anchored (r : Rgn) : Bool := (1 ≤ r.cls && r.cls ≤ 4) || r.cls == 6

/-- Classes in the order in which leaves that are not urgent are saved. -/
def saveOrder : List Nat := [4, 2, 6, 1, 3]

/-- Anchored leaves in that order, as leaf indices. -/
def Eng.anchoredLeaves (e : Eng) : List Nat :=
  saveOrder.flatMap (fun c => (e.rgns.filter (fun r => r.cls == c)).flatMap (fun r => (e.dataRows r).map r.leaf))

/-- Region and row of a leaf index. -/
def Eng.leafAt (e : Eng) (leaf : Nat) : Option (Rgn × Nat) :=
  (e.rgnOver (leaf * leafBytes)).map (fun r => (r, r.rowOf (leaf * leafBytes)))

/-- A leaf is unsaved (R345). -/
def Eng.unsaved (e : Eng) (leaf : Nat) : Bool :=
  match e.keep.anchor with | some a => a.unsaved.contains leaf | none => false

/-- A leaf is unhashed (R377). -/
def Eng.unhashed (e : Eng) (leaf : Nat) : Bool := e.keep.hashes.any (fun h => h.todo.contains leaf || h.reading == some leaf)

/-- STEP_RETIRE has been accepted for a step or later (R347, R379). -/
def Eng.retireAsked (e : Eng) (t : Nat) : Bool := e.log.asked.any (fun x => atOrBefore t x)

/-- A streamed leaf may be saved: its steps up to t are retired and no accepted run owes it a sector (R347). -/
def Eng.maySave (e : Eng) (a : Anchor) (leaf : Nat) : Bool :=
  match e.leafAt leaf, a.bnd with
  | some (r, row), some b =>
    !r.streamed || (e.retireAsked b.step &&
      e.upd.runs.all (fun u => !atOrBefore u.step b.step ||
        (e.writtenBy u).all (fun l => e.dataRow r l.2 != some row || l.1 != r.num || !e.runOwes u l)))
  | _, _ => false

/-- RETIRE_WAIT and LEAVES follow the anchor. -/
def Eng.ancView (e : Eng) : Eng :=
  match e.keep.anchor with
  | none => (e.wr Reg.ANC_STAT_LEAVES 0).flag Reg.ANC_STAT_RETIRE_WAIT false
  | some a =>
    let wait := a.cut && (match a.bnd with | some b => !e.retireAsked b.step | none => false) &&
      a.unsaved.any (fun l => match e.leafAt l with | some (r, _) => r.streamed | none => false)
    (e.wr Reg.ANC_STAT_LEAVES a.unsaved.length).flag Reg.ANC_STAT_RETIRE_WAIT wait

/-! ### The object (R350 to R355) -/

/-- The key of an anchor (R397). -/
def Eng.anchorKey (e : Eng) (num place : Nat) : Option (List Byte) :=
  e.sec.amk.map (fun k => kdf k "SCE8 ANCH" (natLe 8 num ++ natLe 4 place))

/-- TOFF and TLEN of a region with some data rows (R341). -/
def Anchor.shardOf (a : Anchor) (x : Rgn × List Nat) : Nat × Nat :=
  match a.shards.find? (fun s => s.1 == x.1.num) with
  | some s => (s.2.1, s.2.2)
  | none => (0, leafBytes * x.2.length)

/-- The class that a region had at the cut. -/
def Anchor.clsOf (a : Anchor) (n : Nat) : Nat := ((a.regions.find? (fun x => x.1.num == n)).map (fun x => x.1.cls)).getD 0

def tensorChunk : Nat := 4194304

/-- Whole chunks of a region's data bytes in tensor coordinates (R354). -/
def wholeChunks (toff len : Nat) : List Nat :=
  let a := (toff + tensorChunk - 1) / tensorChunk
  (List.range ((toff + len) / tensorChunk - a)).map (· + a)

/-- Piece digest (R373). -/
def pieceDigest (toff : Nat) (bs : List Byte) : List Byte := sha3_256 (natLe 8 toff ++ natLe 8 bs.length ++ bs)

/-- The manifest (R352). -/
def Anchor.manifest (a : Anchor) : List Byte :=
  a.regions.flatMap (fun x =>
    let r := x.1
    let (toff, tlen) := a.shardOf x
    natLe 2 r.num ++ [byteOf r.cls, byteOf r.fmt, byteOf r.layout] ++ zeros 3 ++ natLe 4 r.tag
      ++ natLe 4 x.2.length ++ natLe 8 r.len ++ natLe 8 toff ++ natLe 8 tlen
      ++ natLe 4 (wholeChunks toff (leafBytes * x.2.length)).length ++ zeros 20)

/-- The header of a leaf record (R353). -/
def recordHead (s : SavedLeaf) : List Byte :=
  natLe 4 s.leaf ++ natLe 2 s.region ++ [if allZero s.data then 1 else 0, 0] ++ natLe 4 s.row ++ natLe 4 s.stamp
    ++ sha3_256 s.data

/-- A leaf record: header, encrypted leaf and tag (R353). -/
def leafRecord (key : List Byte) (index : Nat) (s : SavedLeaf) : List Byte :=
  let h := recordHead s
  let (ct, tag) := gcmSeal key (natLe 8 index ++ zeros 4) h (if allZero s.data then [] else s.data)
  h ++ ct ++ tag

/-- Data bytes of a region as the anchor saved them (R354). -/
def Anchor.savedData (a : Anchor) (x : Rgn × List Nat) : List Byte :=
  x.2.flatMap (fun row => match a.saved.find? (fun s => s.region == x.1.num && s.row == row) with
    | some s => s.data
    | none => zeros leafBytes)

/-- The chunk table (R354). -/
def Anchor.chunkTable (a : Anchor) : List Byte :=
  a.regions.flatMap (fun x =>
    let r := x.1
    let (toff, _) := a.shardOf x
    let d := a.savedData x
    (wholeChunks toff d.length).flatMap (fun c =>
      natLe 2 r.num ++ zeros 2 ++ natLe 4 r.tag ++ natLe 8 c
        ++ pieceDigest (tensorChunk * c) ((d.drop (tensorChunk * c - toff)).take tensorChunk)))

/-- Layout digest of the accepted grove map (R441). -/
def Eng.layoutDigest (e : Eng) : List Byte := (List.range 4).flatMap (fun n => natLe 8 (e.rd (Reg.GRV_LAYOUT_DIGEST n)))

/-- The object header (R351). -/
def Eng.ancHeader (e : Eng) (a : Anchor) : List Byte :=
  let n := a.regions.length
  padTo 4096 (ascii "SCE8ANCH" ++ natLe 2 1 ++ natLe 2 4096 ++ zeros 4 ++ natLe 8 a.num ++ natLe 4 (match a.bnd with | some b => b.step | none => 0)
    ++ natLe 4 a.ring ++ natLe 4 e.place ++ [byteOf e.pos, byteOf e.w, byteOf e.m, byteOf (e.rd Reg.UPD_CTL_STRICT)]
    ++ e.layoutDigest ++ natLe 8 (e.rd Reg.GRV_RGN_DIGEST_DIGEST) ++ natLe 8 (e.rd Reg.UPD_UPROG_DIGEST_DIGEST)
    ++ natLe 4 (e.rd Reg.GEN_ID_FW_VERSION) ++ natLe 2 n ++ zeros 2 ++ natLe 8 (4096 + 64 * n) ++ natLe 8 a.saved.length
    ++ zeros 16 ++ padTo 1024 (a.ledger.getD []))

/-- Bytes of the object before its trailer, in ascending offset. -/
def Anchor.bytes (a : Anchor) : List Byte := (a.object.mergeSort (fun x y => x.1 ≤ y.1)).flatMap (·.2)

/-- Where the next record, the chunk table or the trailer begins. -/
def Anchor.tail (a : Anchor) : Nat := (a.object.map (fun x => x.1 + x.2.length)).foldl max (4096 + 64 * a.regions.length)

/-- The trailer (R355). -/
def ancTrailer (a : Anchor) (chunkOff nchunks : Nat) (key : List Byte) : List Byte :=
  let b := ascii "SCE8TAIL" ++ natLe 8 a.num ++ natLe 8 a.saved.length ++ natLe 8 chunkOff ++ natLe 8 nchunks
    ++ sha3_256 a.bytes ++ zeros 40
  b ++ (gcmSeal key (List.replicate 12 0xFF) b []).2

/-- Chunk-table entries of an anchor. -/
def Anchor.chunks (a : Anchor) : Nat :=
  (a.regions.map (fun x => (wholeChunks (a.shardOf x).1 (leafBytes * x.2.length)).length)).foldl (· + ·) 0

/-! ### Ending -/

/-- Every access held at a memory-side port that nothing holds any longer is released (R260, R534, R535). `stays` says which
still are held. -/
def Eng.releaseWhere (e : Eng) (stays : HeldAccess → Bool) : Eng :=
  let go := e.held.filter (fun h => !stays h)
  let keys := (go.map (fun h => (h.port, h.leaf))).eraseDups
  ({ e with held := e.held.filter stays } : Eng).each keys (fun k e => e.emit (.release k.1 k.2))

/-- An access is held: its leaf is being rebuilt, or it writes an unsaved leaf of a class that R346 names, or an unhashed
leaf (R260, R346, R377). -/
def Eng.holds (e : Eng) (leaf : Nat) (wr : Bool) : Bool :=
  e.isRebuilding leaf ||
  (wr && (e.unhashed leaf ||
    (e.unsaved leaf && (match e.leafAt leaf with | some (r, _) => r.ringed || r.mirror || r.cls == 6 | none => false))))

/-- The level ms<s>_hold_act: high while any leaf may be named for holding, or an access is still held (R534, R535). -/
def Eng.holdAct (e : Eng) : Bool := !e.held.isEmpty || (List.range (2 ^ 20)).any (fun leaf => e.holds leaf true)

def Eng.releaseHeld (e : Eng) : Eng := e.releaseWhere (fun h => e.holds h.leaf h.wr)

/-- The anchor in progress aborts (R358). Its seal request stands, as R358 withdraws none. DEDUCED: log entry 64. -/
def Eng.abortAnchor (e : Eng) (status addr : Nat) : Eng :=
  match e.keep.anchor with
  | none => e
  | some a =>
    let e := e.setKeep (fun k => { k with anchor := none })
    let e := { e with xfers := e.xfers.filter (fun x => match x.kind with | .anchorRead _ => false | _ => true) }
    let e := ((e.bump Reg.ANC_ERR_ABORTS).raise .ANCHOR_ABORT).wr Reg.ANC_STAT_PHASE 6
    (e.ancView.completeWith a.cmd status 0 addr []).releaseHeld

/-- Whether a reason of R344 holds: boundaries, minutes, risk. -/
def Eng.dueHolds (e : Eng) (i : Nat) : Bool :=
  let steps := e.rd Reg.ANC_DUE_CTL_STEPS
  let mins := e.rd Reg.ANC_DUE_CTL_MINUTES
  let risk := e.rd Reg.ANC_DUE_CTL_RISK
  match i with
  | 0 => steps != 0 && steps ≤ e.keep.due.boundaries
  | 1 => mins != 0 && e.keep.due.at_ + mins * 60000000000 ≤ e.now
  | _ => risk != 0 && risk ≤ e.rd Reg.HLT_RISK_RISK

/-- ANC_DUE_STAT shows which reasons hold (R344). -/
def Eng.dueFlags (e : Eng) : Eng :=
  ((e.flag Reg.ANC_DUE_STAT_STEPS (e.dueHolds 0)).flag Reg.ANC_DUE_STAT_TIME (e.dueHolds 1)).flag Reg.ANC_DUE_STAT_RISK (e.dueHolds 2)

/-- A reason that holds raises ANCHOR_DUE once until the next completed anchor (R344). -/
def Eng.dueReason (e : Eng) (i : Nat) : Eng :=
  if e.dueHolds i && !e.keep.due.raised.contains i then
    let e := e.setKeep (fun k => { k with due := { k.due with raised := k.due.raised ++ [i] } })
    (e.flag Reg.ANC_DUE_STAT_DUE true).raise .ANCHOR_DUE
  else e

/-- The three reasons of R344 are looked at. -/
def Eng.dueCheck (e : Eng) : Eng := e.dueFlags.each (List.range 3) (fun i e => e.dueReason i)

/-- The anchor has completed (R357, R344). -/
def Eng.anchorDone (e : Eng) (a : Anchor) : Eng :=
  let step := match a.bnd with | some b => b.step | none => 0
  let dig := match a.object.getLast? with | some t => (t.2.drop 0x28).take 8 | none => []
  let e := e.setKeep (fun k => { k with anchor := none, due := { num := some a.num, raised := [], boundaries := k.due.boundaries - a.cutB, at_ := a.cutAt } })
  let e := ((e.wr Reg.ANC_LAST_STEP step).wr Reg.ANC_LAST_ANCHOR (a.num % 2 ^ 32)).wr Reg.ANC_STAT_PHASE 5
  (e.dueCheck.ancView).complete a.cmd stOk (natLe 8 a.num ++ natLe 4 step ++ natLe 4 a.ring ++ natLe 8 a.saved.length
    ++ natLe 8 a.tail ++ natLe 4 a.nUrgent ++ zeros 4 ++ dig)

/-! ### Saving (R345 to R348) -/

/-- Room in the anchor buffer: leaves copied or being copied and not yet in the object (R349). -/
def Eng.ancRoom (e : Eng) (a : Anchor) : Bool :=
  a.saved.length - a.sent + a.reading.length < 64 * e.rd Reg.ANC_CTL_BUF

/-- The copy of a leaf begins. -/
def Eng.readLeaf (e : Eng) (leaf : Nat) : Eng :=
  (e.setAnchor (fun a => { a with reading := a.reading ++ [leaf] })).askRead (leaf * leafBytes) leafBytes (.anchorRead leaf)

/-- Urgent leaves are copied in order while the buffer has room; the others wait for it, each counted once (R348). -/
def Eng.readUrgent (e : Eng) : Eng :=
  match e.keep.anchor with
  | none => e
  | some a =>
    e.each (a.urgent.filter (fun l => !a.reading.contains l)) (fun l e =>
      match e.keep.anchor with
      | some a =>
        if !e.maySave a l then e
        else if e.ancRoom a then e.readLeaf l
        else if a.waited.contains l then e
        else (e.setAnchor (fun a => { a with waited := a.waited ++ [l] })).bump Reg.ANC_HOLD_WAITS
      | none => e)

/-- A leaf becomes urgent for what needs it: an anchor, a tensor digest (R346, R348, R377). -/
def Eng.makeUrgent (e : Eng) (leaf : Nat) : Eng :=
  let e := e.setKeep (fun k => { k with hashes := k.hashes.map (fun h =>
    if h.todo.contains leaf && !h.urgent.contains leaf then { h with urgent := h.urgent ++ [leaf] } else h) })
  match e.keep.anchor with
  | some a =>
    if a.unsaved.contains leaf && !a.urgent.contains leaf then
      (e.setAnchor (fun a => { a with urgent := a.urgent ++ [leaf] })).readUrgent
    else e
  | none => e

/-- A part of the object is written. -/
def Eng.writePart (e : Eng) (off : Nat) (bs : List Byte) : Eng :=
  let e := e.setAnchor (fun a => { a with writing := some (off, bs), retries := 0 })
  match e.keep.anchor with
  | some a => e.emit (.storageWrite a.handle off bs)
  | none => e

/-- The leaf that is saved next: the first urgent one that may be saved; else the first of the others, in the order of R348,
where a leaf that may not be saved yet holds those behind it. DEDUCED: log entry 64. -/
def Anchor.nextLeaf (a : Anchor) (may : Nat → Bool) : Option Nat :=
  match a.urgent.find? may with
  | some l => some l
  | none => (a.unsaved.find? (fun l => !a.urgent.contains l)).filter may

/-- The next thing an anchor does once nothing of it is being written (R348, R356). -/
def Eng.anchorNext : Nat → Eng → Eng
  | 0, e => e
  | fuel + 1, e =>
    match e.keep.anchor with
    | none => e
    | some a =>
      if !a.cut || a.writing.isSome then e
      else match e.anchorKey a.num e.place with
        | none => e.abortAnchor stNoKey 0
        | some key =>
          match a.part with
          | .manifest => e.writePart 4096 a.manifest
          | .records =>
            match a.saved[a.sent]? with
            | some s => e.writePart a.tail (leafRecord key a.sent s)
            | none =>
              if a.unsaved.isEmpty then
                Eng.anchorNext fuel (e.setAnchor (fun a => { a with part := .chunks }))
              else if !a.reading.isEmpty then e
              else match a.nextLeaf (e.maySave a) with
                | some l => e.readLeaf l
                | none => e
          | .chunks =>
            if a.chunks = 0 then Eng.anchorNext fuel (e.setAnchor (fun a => { a with part := .header }))
            else (e.writePart a.tail a.chunkTable).wr Reg.ANC_STAT_PHASE 4
          | .header =>
            if a.ledger.isSome then (e.writePart 0 (e.ancHeader a)).wr Reg.ANC_STAT_PHASE 4 else e.wr Reg.ANC_STAT_PHASE 3
          | .trailer =>
            let n := a.chunks
            e.writePart a.tail (ancTrailer a (a.tail - 48 * n) n key)

/-- An anchor goes on: urgent copies, the next part, its registers. -/
def Eng.anchorStep (e : Eng) : Eng := ((e.readUrgent.anchorNext 3).readUrgent).ancView

/-- The flush of the anchor's ring has completed: the cut (R345). -/
def Eng.anchorCut (e : Eng) : Eng :=
  match e.keep.anchor with
  | none => e
  | some a =>
    let st := e.ringSt a.ring
    if a.cut || a.bnd.isNone || st == .opened || st == .flushing then e
    else
      let rs := (e.rgns.filter (·.anchored)).map (fun r => (r, e.dataRows r))
      let e := e.setAnchor (fun a => { a with
        cut := true, regions := rs, unsaved := e.anchoredLeaves, cutB := e.keep.due.boundaries, cutAt := e.now })
      (e.wr Reg.ANC_STAT_PHASE 2).anchorStep

/-- The read of a leaf being saved has completed (R345, R353, R358). -/
def Eng.anchorReadDone (e : Eng) (leaf : Nat) (bads : List LineRead) : Eng :=
  match e.keep.anchor, e.leafAt leaf with
  | some a, some (r, row) =>
    let e := e.mendRead bads
    match deadLines bads ++ ((List.range 16384).map (fun i => leaf * 16384 + i)).filter e.isUnrep with
    | l :: ls =>
      let e := e.each (l :: ls) (fun x e => e.unrepaired x)
      e.abortAnchor stMemError (64 * l)
    | [] =>
      let stamp := if r.streamed then (e.ctx leaf).stamp else if a.clsOf r.num == 2 then a.ring else 0
      let s : SavedLeaf := { leaf := leaf, region := r.num, row := row, stamp := stamp, data := e.readAs bads (leaf * leafBytes) leafBytes }
      let e := e.setAnchor (fun a => { a with
        saved := a.saved ++ [s], unsaved := a.unsaved.filter (· != leaf), reading := a.reading.filter (· != leaf),
        nUrgent := a.nUrgent + (if a.urgent.contains leaf then 1 else 0), urgent := a.urgent.filter (· != leaf) })
      (if a.urgent.contains leaf then e.bump Reg.ANC_HOLD_URGENT else e).anchorStep.releaseHeld
  | _, _ => e

/-! ### The storage path (R356, R358) -/

/-- The part being written is persistent, or its write has failed. -/
def Eng.storageDone (e : Eng) (ok : Bool) : Eng :=
  match e.keep.anchor with
  | none => e
  | some a =>
    match a.writing with
    | none => e
    | some w =>
      if !ok then
        if a.retries < 3 then e else e.abortAnchor stStorageError 0
      else
        let a' := { a with object := a.object ++ [w], writing := none }
        match a.part with
        | .trailer => (e.setAnchor (fun _ => a')).anchorDone a'
        | p =>
          let next : Anchor := match p with
            | .manifest => { a' with part := .records }
            | .records => { a' with sent := a.sent + 1 }
            | .chunks => { a' with part := .header }
            | _ => { a' with part := .trailer }
          (e.setAnchor (fun _ => next)).anchorStep

/-- The 1 ms after a failed write have passed: the write goes again, at most three times. -/
def Eng.storageRetry (e : Eng) : Eng :=
  match e.keep.anchor with
  | none => e
  | some a =>
    match a.writing with
    | none => e
    | some w =>
      if 3 ≤ a.retries then e
      else
        let e := (e.setAnchor (fun a => { a with retries := a.retries + 1 })).bump Reg.ANC_ERR_RETRIES
        e.emit (.storageWrite a.handle w.1 w.2)

/-- STORAGE_WRITE_COMPLETE (R356 to R358). -/
def execStorageWriteComplete (ok : Bool) (s : State) : Host.Outcome State Fault Refusal :=
  .next (s.run (fun e => e.storageDone ok))

/-- STORAGE_RETRY (R358). -/
def execStorageRetry (s : State) : Host.Outcome State Fault Refusal := .next (s.run Eng.storageRetry)

end Sys2Proof.Machine
end

