-- ==== Sys2Proof/Machine/Descriptors.lean ====
section
/-!
DEFINITION. Sys2Proof/Machine/Descriptors.lean: the region-descriptor space (R67 to R73): writes, the VALID-write checks and the
region-table digest.
-/
namespace Sys2Proof.Machine

/-- Bytes of a descriptor. -/
def descBytes : Nat := 64

/-- Bits of a descriptor byte that are defined (R67). -/
def descMask (o : Nat) : Byte :=
  if o = 0x12 then 0x03
  else if o = 0x14 then 0x0F
  else if o = 0x15 then 0x07
  else if o = 0x2D ∨ o = 0x3C then 0x01
  else if 0x2E ≤ o then 0
  else 0xFF

/-- A number of a descriptor. -/
def Eng.descNat (e : Eng) (n o w : Nat) : Nat := leNat (bytesAt e.descs (descBytes * n + o) w)

/-- CTL.VALID of a descriptor. -/
def Eng.descValid (e : Eng) (n : Nat) : Bool := e.descNat n 0x3C 1 == 1

/-- The region that a descriptor states (R67). -/
def Eng.readRgn (e : Eng) (n : Nat) : Rgn :=
  let f := e.descNat n
  { num := n, base := f 0x00 8, len := f 0x08 8, cls := f 0x10 1, fmt := f 0x11 1, layout := f 0x12 1,
    mirrorN := f 0x13 1, writer := f 0x14 1, auto := f 0x15 1, partner := f 0x16 2, key := f 0x18 4, tag := f 0x1C 4,
    layoutDg := f 0x20 8, rateUp := f 0x28 2, rateDown := f 0x2A 2, streak := f 0x2C 1, sync := f 0x2D 1 }

/-- A failure of R71 is reported: the first since FAIL was last clear. -/
def Eng.rgnCheckFail (e : Eng) (reason n : Nat) : Eng :=
  if e.on Reg.GRV_RGN_CHECK_FAIL then e
  else ((e.wr Reg.GRV_RGN_CHECK_REASON reason).wr Reg.GRV_RGN_CHECK_REGION n).flag Reg.GRV_RGN_CHECK_FAIL true

/-- WRITER suits the class (R75). -/
def Rgn.writerOk (r : Rgn) : Bool :=
  if r.cls = 1 ∨ r.cls = 3 then r.writer == 0
  else if r.cls = 2 ∨ r.cls = 4 then r.writer != 0
  else true

/-- MIRROR_N, the length limit and MIRROR_AT suit the region (R71, R79). -/
def Rgn.mirrorOk (r : Rgn) : Bool :=
  (if r.mirrorEligible then (r.mirrorN == 2 || r.mirrorN == 3) && r.len ≤ 256 * leafBytes else r.mirrorN == 0) &&
  (r.sync == 0 || (r.cls == 4 && !bit r.auto 2))

/-- AUTO, the rates and STREAK suit the class (R71). -/
def Rgn.autoOk (r : Rgn) : Bool :=
  if r.cls = 2 ∨ r.cls = 4 then r.rateDown < r.rateUp && r.streak != 0 else r.auto == 0

/-- LAYOUT suits the class and format (R71). -/
def Rgn.layoutOk (r : Rgn) : Bool := r.layout == 0 || (r.layout != 3 && r.cls == 1 && r.fmt == 0x02)

/-- The VALID-write checks, in the order of R71: the reason code of the first that fails. -/
def Eng.validCheck (e : Eng) (r : Rgn) : Option Nat :=
  if r.base % leafBytes ≠ 0 ∨ r.len % leafBytes ≠ 0 ∨ r.len = 0 then some 0x01
  else if e.usableTop < r.base + r.len then some 0x02
  else if e.rgns.any (fun x => x.base < r.base + r.len && r.base < x.base + x.len) then some 0x03
  else if r.cls = 0 ∨ 6 < r.cls then some 0x04
  else if 0x0C < r.fmt ∧ r.fmt ≠ 0xFF then some 0x05
  else if !r.writerOk then some 0x06
  else if !r.mirrorOk then some 0x07
  else if !r.autoOk then some 0x08
  else if r.protectedCls && r.key == 0 then some 0x09
  else if !r.layoutOk then some 0x0A
  else none

/-- The region enters the list of valid regions, which stands in ascending number. -/
def insertRgn (r : Rgn) (rs : List Rgn) : List Rgn :=
  rs.filter (fun x => x.num < r.num) ++ r :: rs.filter (fun x => r.num < x.num)

/-- CTL.VALID is written from 0 to 1 (R69). -/
def Eng.makeValid (e : Eng) (n : Nat) : Eng :=
  let r := e.readRgn n
  match e.validCheck r with
  | some why => e.rgnCheckFail why n
  | none => { e with descs := splice e.descs (descBytes * n + 0x3C) [1], rgns := insertRgn r e.rgns }

/-- CTL.VALID is cleared (R70). -/
def Eng.makeInvalid (e : Eng) (n : Nat) : Eng :=
  { e with descs := splice e.descs (descBytes * n + 0x3C) [0], rgns := e.rgns.filter (fun x => x.num != n) }

/-- A write to a descriptor (R13, R69, R70). `o` is the offset in it of the first byte. -/
def Eng.descWrite (e : Eng) (n o : Nat) (bs : List Byte) : Eng :=
  if !e.rwlOpen then e.lockedWr
  else
    let at_ := bs.zipIdx.map (fun b => (o + b.2, b.1))
    let e := if at_.any (fun b => b.2 &&& descMask b.1 != b.2) then e.flag Reg.GEN_ERR_RSVD_WR true else e
    let body := (at_.filter (fun b => b.1 < 0x3C)).map (fun b => b.2 &&& descMask b.1)
    let ctl := (at_.find? (fun b => b.1 == 0x3C)).map (fun b => bit b.2.toNat 0)
    let valid := e.descValid n
    let old := bytesAt e.descs (descBytes * n + o) body.length
    let e := if valid then (if body != old then e.rgnCheckFail 0x0B n else e)
             else { e with descs := splice e.descs (descBytes * n + o) body }
    match ctl with
    | none => e
    | some true => if valid then e else e.makeValid n
    | some false => if valid then e.makeInvalid n else e

/-- DESCRIPTOR_WRITE: a register write into the descriptor space, at an offset from its start (R70). -/
def execDescriptorWrite (off : Nat) (wide : Bool) (v : DWord) (s : State) : Host.Outcome State Fault Refusal :=
  let w := if wide then 8 else 4
  .next (s.run (fun e => e.change .coding (fun e =>
    if off % w != 0 || 4096 * descBytes < off + w then (e.bump Reg.GEN_ERR_BAD_ACC).emit .busError
    else e.descWrite (off / descBytes) (off % descBytes) (natLe w v.toNat))))

/-- DESCRIPTOR_VALID: a write of 1 to CTL.VALID (R69). -/
def execDescriptorValid (n : BitVec 12) (s : State) : Host.Outcome State Fault Refusal :=
  .next (s.run (fun e => e.change .coding (fun e => e.descWrite n.toNat 0x3C (natLe 4 1))))

/-- The region-table digest (R73). -/
def Eng.rgnDigest (e : Eng) : Nat :=
  let part := fun (r : Rgn) => natLe 2 r.num ++ bytesAt e.descs (descBytes * r.num) 0x1C
    ++ bytesAt e.descs (descBytes * r.num + 0x28) 6
  leNat ((sha3_256 ((e.rgns.filter Rgn.protectedCls).flatMap part)).take 8)

end Sys2Proof.Machine
end

