-- ==== Sys2Proof/Machine/Runs.lean ====
section
/-!
DEFINITION. Sys2Proof/Machine/Runs.lean: what a chunk of a run computes (R196 to R199, R203 to R215): its inputs, its outputs as
they are stored, its accumulators and sums, and the reductions over chunks (R209).
-/
namespace Sys2Proof.Machine

/-! ### Reading (R85, R86, R194, R197, R223) -/

/-- A data byte of a region as a run sees it: as it stood before the run's writing pass wrote it (R223). -/
def Eng.runByte (e : Eng) (u : Run) (g : Rgn) (i : Nat) : Byte :=
  match e.dataAddr g i with
  | some a => (look u.old a).getD (e.memByte a)
  | none => 0

/-- A field of bits of a region's data bytes, element order as R197 packs it. -/
def Eng.runBits (e : Eng) (u : Run) (region pos n : Nat) : Nat :=
  match e.rgn? region with
  | none => 0
  | some g =>
    let b0 := pos / 8
    let b1 := (pos + n + 7) / 8
    bits (leNat ((List.range (b1 - b0)).map (fun i => e.runByte u g (b0 + i)))) (pos % 8 + n - 1) (pos % 8)

/-- The complete slice that holds an element of a run's gradient (R217, R219). -/
def Eng.sliceFor (e : Eng) (u : Run) (s : Stream) (y : Nat) : Option Slice :=
  e.upd.slices.find? (fun c => c.tag == s.tag && c.step == u.step && c.full && c.eoff ≤ y && y < c.eoff + c.count)

/-- The stream's pattern at one of its elements, as a value (R194, R196). -/
def Eng.rawInput (e : Eng) (u : Run) (s : Stream) (y : Nat) : Num :=
  if s.intake then
    match e.sliceFor u s y with
    | some c => ofF32 (c.sum.getD (y - c.eoff) 0)
    | none => Num.zero
  else if s.split then
    let low := match e.rgn? s.region with | some g => g.partner | none => s.region
    ofF32 (e.runBits u s.region (16 * y) 16 * 65536 + e.runBits u low (16 * y) 16)
  else decodeFmt s.fmt (e.runBits u s.region (y * fmtBits s.fmt) (fmtBits s.fmt))

/-- Element of the scale region for a stream element (R199). -/
def Stream.scaleAt (s : Stream) (y : Nat) : Nat := s.first / 32 + (y - s.first) / 32

/-- The element of a stream that serves run element x; an intake stream's is e + 1,024 × base whatever its MODE (R194). -/
def Run.elemOf (u : Run) (s : Stream) (x : Nat) : Nat := s.first + if s.intake then x else u.index s.mode x

/-- A value of a stream's element with its block scale applied (R199). -/
def Eng.scaleBy (e : Eng) (u : Run) (s : Stream) (y : Nat) (v : Num) : Num :=
  if s.scaled then
    let k := e.runBits u s.scale (8 * s.scaleAt y) 8
    if k = 255 then .nan else v.mul (.fin false 1 ((k : Int) - 127))
  else v

/-- A stream's value at one of its elements, its block scale applied (R199). -/
def Eng.scaledInput (e : Eng) (u : Run) (s : Stream) (y : Nat) : Num := e.scaleBy u s y (e.rawInput u s y)

/-! ### Running the program -/

/-- What a run's program reads for one element, from a reading of its streams (R194, R199). With COLS at 0 the spec gives an element
no row or column, so COL0 and ROW0 are then free. DESIGN CHOICE: log entry 74. -/
def Eng.envBy (e : Eng) (u : Run) (read : Stream → Nat → Num) (x : Nat) : LaneEnv :=
  let ins := u.ins
  { strict := e.on Reg.UPD_CTL_STRICT, scal := fun i => ofF64 (u.scal.getD i 0),
    inp := fun i => match ins[i]? with | some s => if s.used then read s (u.elemOf s x) else Num.zero | none => Num.zero,
    const := fun i => ofF64 (e.progConst u.slot i),
    col0 := if u.cols = 0 then Config.noColumn u.step x 0 else x % u.cols == 0,
    row0 := if u.cols = 0 then Config.noColumn u.step x 1 else x / u.cols == 0 }

/-- What a run's program reads for one element. -/
def Eng.envAt (e : Eng) (u : Run) (x : Nat) : LaneEnv := e.envBy u (e.scaledInput u) x

/-- A part of the program on one element. -/
def Eng.laneAt (e : Eng) (u : Run) (us : List MicroOp) (x : Nat) : Lane := runMicros (e.envAt u x) us

/-- Run elements of a chunk, ascending. -/
def Run.elems (u : Run) (c : Nat) : List Nat := (List.range (u.chunkTop c - 1024 * c)).map (· + 1024 * c)

/-! ### Pass 1 (R207, R209) -/

/-- Sums of a chunk so far: by output and row or column. -/
def addSum (m : List (Nat × Nat × Num)) (o i : Nat) (v : Num) : List (Nat × Nat × Num) :=
  match m.find? (fun s => s.1 == o && s.2.1 == i) with
  | some old => m.map (fun s => if s.1 == o && s.2.1 == i then (o, i, toPrec true false (old.2.2.add v)) else s)
  | none => m ++ [(o, i, toPrec true false (Num.zero.add v))]

/-- What one chunk of pass 1 contributes (R205, R209). -/
def Eng.passOne (e : Eng) (u : Run) (c : Nat) : ChunkPart :=
  let us := e.progPart u.slot 0
  let outs := u.outs
  let lanes := (u.elems c).map (fun x => (x, e.laneAt u us x))
  let accs : SMap Num := lanes.foldl (fun m l => l.2.accs.foldl (fun m a =>
    put m a.2.1 (accStep ((look m a.2.1).getD Num.zero) (a.1, a.2.2))) m) []
  let sums : List (Nat × Nat × Num) := lanes.foldl (fun m l => l.2.stores.foldl (fun m st =>
    match outs[st.1]? with
    | some s => addSum m st.1 (u.index s.mode l.1) st.2
    | none => m) m) []
  { chunk := c, accs := accs.map (fun a => (a.1, toF64 a.2)), sums := sums.map (fun s => (s.1, s.2.1, toF64 s.2.2)) }

/-- One level of the pairwise tree: partial 2h with 2h + 1 (R209). -/
def pairUp (f : Num → Num → Num) : List Num → List Num
  | a :: b :: t => f a b :: pairUp f t
  | l => l

/-- The pairwise tree over the partials of ascending chunks (R209). -/
def tree (f : Num → Num → Num) : Nat → List Num → Num
  | _, [] => Num.zero
  | _, [a] => a
  | 0, a :: _ => a
  | n + 1, l => tree f n (pairUp f l)

def sum64 (a b : Num) : Num := toPrec true false (a.add b)

/-- How an accumulator is used by pass 1: as a sum, as a maximum. -/
def Eng.accUse (e : Eng) (u : Run) (i : Nat) : Bool × Bool :=
  let us := (e.progPart u.slot 0).filter (fun m => isAcc m.op && m.x == i)
  (us.any (fun m => m.op != 0x1B), us.any (fun m => m.op == 0x1B))

/-- An accumulator at the end of pass 1, as an FP64 pattern. R209 gives no way to combine chunks of one that is used both as
a sum and as a maximum: its value is then free. DESIGN CHOICE: log entry 74. -/
def Eng.accEnd (e : Eng) (u : Run) (parts : List ChunkPart) (i : Nat) : Nat :=
  let ps := parts.filterMap (fun p => (look p.accs i).map ofF64)
  match e.accUse u i with
  | (true, true) => if 1 < ps.length then Config.mixedAcc (ps.map toF64) % 2 ^ 64 else toF64 (tree sum64 64 ps)
  | (_, true) => toF64 (tree Num.max 64 ps)
  | _ => toF64 (tree sum64 64 ps)

/-- The sums of an output by row or column, ascending (R209). The partials are those of the chunks that contribute.
DESIGN CHOICE: log entry 74. -/
def sumsOf (parts : List ChunkPart) (o n : Nat) : List (Nat × Num) :=
  (List.range n).map (fun i =>
    (i, tree sum64 64 (parts.filterMap (fun p => (p.sums.find? (fun s => s.1 == o && s.2.1 == i)).map (fun s => ofF64 s.2.2)))))

/-! ### The mid section (R207) -/

/-- Scalars after the mid section: ST to output n writes s(10 + n). DESIGN CHOICE: log entry 74. -/
def Eng.midSection (e : Eng) (u : Run) (accs : List Nat) : List Nat :=
  let us := e.progPart u.slot 1
  let env : LaneEnv :=
    { strict := e.on Reg.UPD_CTL_STRICT, scal := fun i => ofF64 (u.scal.getD i 0), inp := fun i => ofF64 (accs.getD i 0),
      const := fun i => ofF64 (e.progConst u.slot i), col0 := Config.noColumn u.step (2 ^ 36) 0,
      row0 := Config.noColumn u.step (2 ^ 36) 1 }
  (runMicros env us).stores.foldl (fun sc st => sc.set (10 + st.1) (toF64 st.2)) u.scal

/-! ### Storing (R198, R199, R215) -/

/-- A field of bits to write into a region's data bytes. -/
structure BitWrite where
  region : Nat
  pos    : Nat
  width  : Nat
  val    : Nat

/-- Rounding of an output for a stored element (R194, R215). -/
def Eng.rounding (e : Eng) (u : Run) (s : Stream) (x : Nat) : Rnd :=
  match s.round % 4 with
  | 1 => .stoch (draw (match e.rgn? s.region with | some g => g.key | none => 0) u.step x s.num)
  | 2 => .zero
  | _ => .even

/-- The bits of one stored element. -/
def Eng.putBits (e : Eng) (s : Stream) (y v : Nat) : List BitWrite :=
  if s.split then
    let low := match e.rgn? s.region with | some g => g.partner | none => s.region
    [⟨s.region, 16 * y, 16, v / 65536⟩, ⟨low, 16 * y, 16, v % 65536⟩]
  else [⟨s.region, y * fmtBits s.fmt, fmtBits s.fmt, v⟩]

/-- emax of a block-scaled format (R199). -/
def emaxOf : Nat → Option Int
  | 0x04 => some 8 | 0x05 => some 15 | 0x06 => some 4 | 0x07 => some 2 | 0x08 => some 2 | _ => none

/-- X of a block (R199): floor(log2 amax) − emax, limited. A format for which R199 gives no emax takes a free one, and a block
with a NaN a free X. DESIGN CHOICE: log entry 74. -/
def blockX (fmt : Nat) (vs : List Num) : Int :=
  let lim := fun (x : Int) => if x < -127 then -127 else if 127 < x then 127 else x
  if vs.any (· == .nan) then (Config.nanBlockX (vs.map toF64) % 255 : Nat) - 127 else
  match vs.foldl (fun a v => a.max (v.withSign false)) Num.zero with
  | .inf _ => 127
  | .nan => -127
  | .fin _ m ex =>
    if m = 0 then -127
    else lim (floorLog2 m ex - (emaxOf fmt).getD (Config.emaxOther fmt % 256 : Nat))

/-- The values that an output stores, by stream element counted from OFFSET, as bit writes with the counts of saturations
and of non-finite stores. `key` is the element index of stochastic rounding. DESIGN CHOICE: log entry 74. -/
def Eng.encodeOut (e : Eng) (u : Run) (s : Stream) (key : Nat → Nat) (vals : List (Nat × Num)) :
    List BitWrite × Nat × Nat :=
  let one := fun (v : Num) (i : Nat) (sat : Bool) => encodeFmt s.format (e.rounding u s (key i)) sat v
  let stored : List (Nat × Stored) × List BitWrite :=
    if s.scaled then
      let blocks := (vals.map (fun v => v.1 / 32)).eraseDups
      blocks.foldl (fun acc k =>
        let mine := vals.filter (fun v => v.1 / 32 == k)
        let at_ : BitWrite := ⟨s.scale, 8 * s.scaleAt (s.first + 32 * k), 8, 0⟩
        let x := blockX s.format (mine.map (·.2))
        let nan := mine.any (fun v => v.2 == .nan)
        (acc.1 ++ mine.map (fun v => (v.1, one (v.2.mul (.fin false 1 (-x))) v.1 true)),
         acc.2 ++ [{ at_ with val := if nan then 255 else (x + 127).toNat }])) ([], [])
    else (vals.map (fun v => (v.1, one v.2 v.1 s.sat)), [])
  (stored.1.flatMap (fun v => e.putBits s (s.first + v.1) v.2.bits) ++ stored.2,
   (stored.1.filter (fun v => v.2.sat)).length, (stored.1.filter (fun v => v.2.nonf)).length)

/-- What a chunk of the writing pass stores to an output: elements counted from OFFSET, with their values. -/
def chunkVals (u : Run) (s : Stream) (lanes : List (Nat × Lane)) : List (Nat × Num) :=
  lanes.filterMap (fun l =>
    let here := if s.mode = 6 then u.cols = 0 ∨ l.1 % u.cols = 0 else if s.mode = 7 then u.cols = 0 ∨ l.1 / u.cols = 0 else True
    if here then (look l.2.stores s.num).map (fun v => (u.index s.mode l.1, v)) else none)

/-- One bit field written: byte by byte, keeping what the run overwrites (R223). -/
def Eng.writeField (e : Eng) (b : BitWrite) (keepOld : Bool) (old : SMap Byte) : Eng × SMap Byte :=
  match e.rgn? b.region with
  | none => (e, old)
  | some g =>
    let b0 := b.pos / 8
    let n := (b.pos + b.width + 7) / 8 - b0
    let addrs := (List.range n).filterMap (fun i => e.dataAddr g (b0 + i))
    let cur := leNat (addrs.map e.memByte)
    let sh := b.pos % 8
    let new := cur - bits cur (sh + b.width - 1) sh * 2 ^ sh + (b.val % 2 ^ b.width) * 2 ^ sh
    let bytes := natLe addrs.length new
    let old := if keepOld then addrs.foldl (fun o a => if (look o a).isSome then o else put o a (e.memByte a)) old else old
    ((addrs.zip bytes).foldl (fun e ab => e.store ab.1 [ab.2]) e, old)

def Eng.writeFields (e : Eng) (bs : List BitWrite) (keepOld : Bool) (old : SMap Byte) : Eng × SMap Byte :=
  bs.foldl (fun eo b => eo.1.writeField b keepOld eo.2) (e, old)

end Sys2Proof.Machine
end

