-- ==== Sys2Proof/Machine/Update.lean ====
section
/-!
DEFINITION. Sys2Proof/Machine/Update.lean: gradient intake (R217 to R222) and the runs of the update unit: their checks (R195),
chunks and spans (R223 to R229), log (R133, R134, R210), deltas (R97, R224, R227), hand-off and completion (R230 to R232).
-/
namespace Sys2Proof.Machine

def Eng.setUpd (e : Eng) (f : Update → Update) : Eng := { e with upd := f e.upd }

/-- Accepted runs that have not completed (R192). -/
def Eng.liveRuns (e : Eng) : List Run := e.upd.runs.filter (fun u => u.phase != .ended)
def Eng.run? (e : Eng) (h : Nat) : Option Run := e.liveRuns.find? (fun u => u.handle == h)
/-- The record of a run is replaced; only a live run is looked for, since a handle is free once its run has ended. -/
def Eng.setRun (e : Eng) (u : Run) : Eng :=
  e.setUpd (fun d => { d with runs := d.runs.map (fun x => if x.handle == u.handle && x.phase != .ended then u else x) })
def Eng.runCount (e : Eng) : Eng := e.wr Reg.UPD_RUN_STAT_ACTIVE e.liveRuns.length

/-! ### Intake (R217 to R222) -/

/-- The region whose TENSOR_TAG is a tag, by class test. -/
def Eng.tagged (e : Eng) (tag : Nat) (p : Rgn → Bool) : Option Rgn := e.rgns.find? (fun r => r.tag == tag && p r)

/-- The coded-streamed region that a logged slice feeds: for SPLIT32, the high half (R133). -/
def Eng.logRegion (e : Eng) (tag : Nat) : Option Rgn := e.tagged tag (fun r => r.streamed && r.layout != 2)

/-- Bytes of the intake buffer in use, and its length. -/
def Eng.intakeUsed (e : Eng) : Nat :=
  (e.upd.slices.map (fun s => 4 * s.count * (1 + s.early.length))).foldl (· + ·) 0
def Eng.intakeLen (e : Eng) : Nat := e.rd Reg.UPD_INTAKE_LEN_LEN * 2 ^ 20
def intakeReserve : Nat := 67108864

def Slice.is (s : Slice) (tag step eoff count : Nat) : Bool :=
  s.tag == tag && s.step == step && s.eoff == eoff && s.count == count

/-- A contribution as R217 states it: tag, step, first element, count, index, how many there are, and its values. -/
structure Contribution where
  tag   : Nat
  step  : Nat
  eoff  : Nat
  index : Nat
  n     : Nat
  vals  : List Nat
  /-- The payload does not hold COUNT elements, or COUNT is 0 or too large (R218, R222). -/
  short : Bool := false

def Contribution.count (c : Contribution) : Nat := c.vals.length

def Eng.sliceOf (e : Eng) (c : Contribution) : Option Slice := e.upd.slices.find? (fun s => s.is c.tag c.step c.eoff c.count)

/-- A contribution's own faults (R218): its range or NCONTRIB disagrees with its slice, it has come already, or its step has
passed. DEDUCED: log entry 73. DEDUCED: log entry 76. -/
def Eng.badContribution (e : Eng) (c : Contribution) : Bool :=
  c.short || c.n = 0 || 1024 < c.n || c.n ≤ c.index ||
  e.upd.slices.any (fun s => s.tag == c.tag && s.step == c.step && s.eoff < c.eoff + c.count && c.eoff < s.eoff + s.count &&
    (!s.is c.tag c.step c.eoff c.count || s.n != c.n || s.added.contains c.index || (look s.early c.index).isSome)) ||
  (match look e.upd.lastStep c.tag with | some t => precedes c.step t | none => false)

/-- Bytes that a contribution adds to the buffer: a slice's first, or one that waits for an earlier one (R219). -/
def Eng.intakeNeed (e : Eng) (c : Contribution) : Nat :=
  match e.sliceOf c with
  | none => if e.on Reg.UPD_CTL_STRICT && c.index != 0 then 8 * c.count else 4 * c.count
  | some s => if e.on Reg.UPD_CTL_STRICT && c.index != s.added.length then 4 * c.count else 0

/-- FP32 sums of a slice. -/
def addVals (a b : List Nat) : List Nat := List.zipWith (fun x y => toF32 (toPrec false false ((ofF32 x).add (ofF32 y)))) a b

/-- Contributions of a strict slice that have become next in order are added (R219). -/
def absorb : Nat → Slice → Slice
  | 0, s => s
  | fuel + 1, s =>
    match look s.early s.added.length with
    | none => s
    | some v => absorb fuel { s with sum := addVals s.sum v, added := s.added ++ [s.added.length],
                                     early := cut s.early s.added.length }

/-- A contribution is added to its slice, or waits in it (R219). -/
def addTo (strict : Bool) (s : Slice) (c : Contribution) : Slice :=
  if strict && c.index != s.added.length then { s with early := put s.early c.index c.vals }
  else
    let sum := if s.added.isEmpty then c.vals else addVals s.sum c.vals
    let s := { s with sum := sum, added := s.added ++ [c.index] }
    if strict then absorb 1024 s else s

/-- With GRV_LOG_CTL.SRC at 1: the owner that this engine serves as log partner and that a delivered slice belongs to (R133).
DESIGN CHOICE: log entry 90. -/
def Eng.deliveredFor (e : Eng) (s : Slice) : Option Nat :=
  let p := Config.sliceOwner s.tag s.step s.eoff % e.w
  if e.on Reg.GRV_LOG_CTL_SRC && p != e.pos && e.isPresent p && (e.partnersOf p s.step).contains e.pos then some p else none

/-- A slice that has become complete is logged where R133 asks for it; one delivered for an owner that this engine serves leaves
the intake for that owner's log. -/
def Eng.sliceFull (e : Eng) (s : Slice) : Eng :=
  match e.logRegion s.tag, e.deliveredFor s with
  | none, _ => e
  | some r, some p =>
    (e.setUpd (fun d => { d with slices := d.slices.filter (fun x => !x.is s.tag s.step s.eoff s.count) })).keepDelivered
      p s.step r.num (s.sum.flatMap (natLe 4))
  | some r, none =>
    let row := (look e.upd.nextSlice s.step).getD 0
    let e := e.setUpd (fun d => { d with
      nextSlice := put d.nextSlice s.step (row + 1),
      slices := d.slices.map (fun x => if x.is s.tag s.step s.eoff s.count then { x with row := some row } else x) })
    (e.logOut false s.step row r.num (s.sum.flatMap (natLe 4))).noteLogged

/-- A contribution that stands is taken in. DEDUCED: log entry 76. -/
def Eng.takeIn (e : Eng) (c : Contribution) : Eng :=
  let strict := e.on Reg.UPD_CTL_STRICT
  let s0 : Slice := (e.sliceOf c).getD
    { tag := c.tag, step := c.step, eoff := c.eoff, count := c.count, n := c.n, sum := [], added := [], early := [],
      full := false, row := none }
  let s := addTo strict s0 c
  let s := { s with full := s.added.length == s.n }
  let has := (e.sliceOf c).isSome
  let slices := if has then e.upd.slices.map (fun x => if x.is c.tag c.step c.eoff c.count then s else x)
    else e.upd.slices ++ [s]
  let e := e.setUpd (fun d => { d with slices := slices })
  if s.full then e.sliceFull s else e

/-- One contribution under the last three cases of R218: discarded and counted, or kept. -/
def Eng.screen (e : Eng) (c : Contribution) : Eng × Bool :=
  if (e.tagged c.tag (·.frozen)).isSome then (e.bump Reg.UPD_INTAKE_STAT_FROZEN, false)
  else if (e.tagged c.tag (fun _ => true)).isNone then ((e.bump Reg.UPD_INTAKE_STAT_UNKNOWN).raise .INTAKE_UNKNOWN, false)
  else if e.badContribution c then ((e.bump Reg.UPD_INTAKE_STAT_BAD).raise .INTAKE_BAD, false)
  else (e, true)

def Eng.intakeBad (e : Eng) : Eng := (e.bump Reg.UPD_INTAKE_STAT_BAD).raise .INTAKE_BAD

/-- An entry of the bucket index table (R221). -/
structure Piece where
  bucket : Nat
  fmt    : Nat
  tag    : Nat
  boff   : Nat
  count  : Nat
  eoff   : Nat

/-- The bucket index table (R221). -/
def Eng.pieces (e : Eng) : List Piece :=
  (List.range (e.rd Reg.UPD_B5_COUNT_ENTRIES)).map (fun i =>
    let b := e.memRead (32 * e.rd Reg.UPD_B5_TABLE_BASE + 32 * i) 32
    let f := fieldAt b
    { bucket := f 0 2, fmt := f 2 1, tag := f 4 4, boff := f 8 4, count := f 0x0C 4, eoff := f 0x10 8 })

/-- Little-endian words of a byte string. -/
def wordsOf (w : Nat) (bs : List Byte) : List Nat := (chunksOf w (bs.length / w + 1) bs).filterMap (fun c =>
  if c.length = w then some (leNat c) else none)

/-- The contributions that a record brings, once its header is sound: one for a native record, one per table entry for a
bucket (R217, R222). DEDUCED: log entry 76. -/
def Eng.contributions (e : Eng) (hdr payload : List Byte) : Option (List Contribution) :=
  let f := fieldAt hdr
  let count := f 0x18 4
  let bucket := bit (f 1 1) 0
  let resv := f 1 1 / 2 != 0 || f 0x0E 2 != 0 || f 0x1C 4 != 0 || (bucket && f 4 4 / 65536 != 0)
  let bytes := if bucket then count else 4 * count
  if resv || count = 0 || 67108864 < bytes || payload.length != bytes || bucket != e.on Reg.UPD_INTAKE_CTL_B5 then none
  else if bucket then
    match e.pieces.filter (fun p => p.bucket == f 4 4) with
    | [] => none
    | ps => some (ps.map (fun p =>
        let w := if p.fmt = 1 then 4 else 2
        let ws := wordsOf w ((payload.drop p.boff).take (w * p.count))
        { tag := p.tag, step := f 8 4, eoff := p.eoff, index := f 2 2, n := f 0x0C 2,
          vals := if p.fmt = 1 then ws else ws.map (· * 65536),
          short := p.count = 0 || 16777216 < p.count || ws.length < p.count }))
  else some [{ tag := f 4 4, step := f 8 4, eoff := f 0x10 8, index := f 2 2, n := f 0x0C 2, vals := wordsOf 4 payload }]

/-- A record under R218 to R222: the engine after it, or none where its acceptance is withheld for want of room (R220).
DEDUCED: log entry 76. -/
def Eng.tryIntake (e : Eng) (hdr payload : List Byte) : Option Eng :=
  let native := !bit (fieldAt hdr 1 1) 0
  let tag := fieldAt hdr 4 4
  if !e.on Reg.UPD_INTAKE_CTL_EN || !e.locked then some e.intakeBad
  else if fieldAt hdr 0 1 != e.upd.gen % 256 then some (e.bump Reg.UPD_INTAKE_STAT_STALE)
  else if native && !e.on Reg.UPD_INTAKE_CTL_B5 && (e.tagged tag (·.frozen)).isSome then
    some (e.bump Reg.UPD_INTAKE_STAT_FROZEN)
  else if native && !e.on Reg.UPD_INTAKE_CTL_B5 && (e.tagged tag (fun _ => true)).isNone then
    some ((e.bump Reg.UPD_INTAKE_STAT_UNKNOWN).raise .INTAKE_UNKNOWN)
  else match e.contributions hdr payload with
    | none => some e.intakeBad
    | some cs =>
      let good := cs.filter (fun c => (e.screen c).2)
      let need := (good.map e.intakeNeed).foldl (· + ·) 0
      let used := e.intakeUsed
      let first := e.upd.slices.find? (fun s => !s.full)
      let joins := good.any (fun c => match first with | some s => s.is c.tag c.step c.eoff c.count | none => false)
      if need = 0 || used + need + intakeReserve ≤ e.intakeLen || (joins && used + need ≤ e.intakeLen) then
        some (e.each cs (fun c e =>
          match e.screen c with
          | (e, true) => e.takeIn c
          | (e, false) => e))
      else none

/-- Update-clock cycles from an engine time to now: the update clock runs at 1.1 GHz. DEDUCED: log entry 76. -/
def Eng.updCycles (e : Eng) (since : Nat) : Nat := (e.now - since) * 11 / 10

/-- The cycles of withholding are counted up to now (R220). DEDUCED: log entry 76. -/
def Eng.countIntake (e : Eng) : Eng :=
  if e.upd.held.isEmpty then e
  else (e.bumpBy Reg.UPD_INTAKE_WAIT_CYCLES (e.updCycles e.upd.heldAt)).setUpd (fun d => { d with heldAt := e.now })

/-- Records withheld that may be accepted now are, in their order (R220, R452). DEDUCED: log entry 76. -/
def Eng.retryIntake (e : Eng) : Eng :=
  if e.boot.inReset || e.upd.held.isEmpty then e
  else
    let e := e.countIntake
    e.each e.upd.held (fun r e =>
      match e.tryIntake r.1 r.2 with
      | none => e
      | some e' => e'.setUpd (fun d => { d with held := d.held.erase r }))

/-- An intake record arrives. Out of service every record is discarded uncounted (R459). -/
def Eng.intake (e : Eng) (hdr payload : List Byte) : Eng :=
  let wait := fun (e : Eng) =>
    (e.setUpd (fun d => { d with held := d.held ++ [(hdr, payload)], heldAt := if d.held.isEmpty then e.now else d.heldAt })).emit
      .withheld
  if e.oos then e
  else if e.boot.inReset then wait e
  else match e.tryIntake hdr payload with
    | some e => e
    | none => wait e

/-! ### The checks of R195 -/

/-- The streams that a program reads and stores: input numbers, outputs of pass 1, outputs of the writing pass. -/
def Eng.progStreams (e : Eng) (slot : Nat) : List Nat × List Nat × List Nat :=
  let p1 := e.progPart slot 0
  let p2 := e.progPart slot 2
  let ins := ((p1 ++ p2).flatMap (·.reads)).filterMap (fun c => if 0x30 ≤ c ∧ c < 0x38 then some (c - 0x30) else none)
  let st := fun (us : List MicroOp) => (us.filter (fun m => m.op == 0x18)).map (·.x)
  (ins.eraseDups, (st p1).eraseDups, (st p2).eraseDups)

/-- A used stream has a reserved bit set or a reserved code. -/
def streamReserved (out : Bool) (s : Stream) : Bool :=
  3 < s.kind || 16 ≤ s.round || s.round % 4 == 3 || 7 < s.mode || (s.kind == 1 && 0x0C < s.fmt && s.fmt != 0xFF) ||
  (if out then s.intake || (1 ≤ s.mode && s.mode ≤ 3) else 4 ≤ s.mode) || (s.intake && s.region != 0)

/-- Elements that a region holds of a stream's format (R85). DEDUCED: log entry 73. -/
def Eng.holdsElems (e : Eng) (s : Stream) : Nat :=
  match e.rgn? s.region with
  | none => 0
  | some g => e.dataLen g * 8 / (if s.split then 16 else fmtBits s.fmt)

/-- A bit range meets another in one region. -/
def meets (a b : Nat × Nat × Nat) : Bool := a.1 == b.1 && a.2.1 < b.2.1 + b.2.2 && b.2.1 < a.2.1 + a.2.2

/-- Regions that a stream's elements lie in: both halves of a SPLIT32 pair (R86, R194). -/
def Eng.halves (e : Eng) (s : Stream) : List Nat :=
  s.region :: (if s.split then (match e.rgn? s.region with | some g => [g.partner] | none => []) else [])

/-- Stream elements whose block scales a stream uses: those of its mode, or the run's, in order, for an intake stream (R194). -/
def Run.scaleLen (u : Run) (s : Stream) : Nat := if s.intake then u.count else u.extent s.mode

/-- The first row of R195 that refuses a new run, by code. DEDUCED: log entry 73. -/
def Eng.runFault (e : Eng) (u : Run) : Option Nat :=
  let ins := u.ins.filter (·.used)
  let outs := u.outs.filter (·.used)
  let bulk := (ins ++ outs).filter (·.bulk)
  let shaped := (ins ++ outs).any (fun s => s.mode == 1 || s.mode == 2 || (4 ≤ s.mode && s.mode ≤ 7))
  let (ri, s1, s2) := e.progStreams u.slot
  let isUsed := fun (l : List Stream) (n : Nat) => l.any (fun s => s.num == n)
  let outRgns := (outs.filter (·.bulk)).flatMap (fun s => (e.streamBits u s 0 u.count).map (·.1))
  let streams := outRgns.any (fun n => match e.rgn? n with | some g => g.streamed | none => false)
  let written := e.streamedOf (e.writtenBy u)
  if 16 ≤ u.slot || !e.slotValid u.slot then some 0x01
  else if shaped && u.rows * u.cols != u.count then some 0x02
  else if ri.any (fun n => !isUsed ins n) || (s1 ++ s2).any (fun n => !isUsed outs n) ||
      ins.any (streamReserved false) || outs.any (streamReserved true) ||
      outs.any (fun s => (s1.contains s.num && !(s.mode == 4 || s.mode == 5)) ||
                         (s2.contains s.num && (s.mode == 4 || s.mode == 5))) then some 0x03
  else if u.count = 0 || 2 ^ 36 < u.count || bulk.any (fun s => e.holdsElems s < s.offset + u.extent s.mode) then some 0x04
  else if outRgns.any (fun n => match e.rgn? n with | some g => !(g.streamed || g.cls == 5) | none => false) ||
      outs.any (fun s => (s.mode == 4 || s.mode == 5) && (match e.rgn? s.region with | some g => g.cls != 5 | none => false)) ||
      bulk.any (fun s => (s.kind == 1 && s.fmt == 0xFF) ||
        (s.split && (match e.rgn? s.region with | some g => g.layout != 1 | none => false))) then some 0x05
  else if streams && ins.any (fun s => s.bulk && s.mode == 0 &&
      !((e.halves s).all (fun n => outs.any (fun o =>
        o.bulk && o.mode == 0 && o.offset == s.offset && (e.halves o).contains n)))) then some 0x06
  else if outs.any (fun a => outs.any (fun b => a.num < b.num &&
      (e.streamBits u a 0 u.count).any (fun x => (e.streamBits u b 0 u.count).any (meets x)))) then some 0x07
  else if 1 < (ins.filter (·.intake)).length || (ins.any (·.intake) && !e.on Reg.UPD_INTAKE_CTL_EN) ||
      (streams && ins.any (fun s => s.intake && (e.tagged s.tag (·.streamed)).isNone)) then some 0x08
  else if written.any (fun l => atOrBefore u.step (e.ctx (l.1.leaf l.2)).stamp) ||
      (streams && (atOrBefore u.step (e.rd Reg.GRV_LOG_STAT_RETIRED) ||
        e.liveRuns.any (fun r => r.step == u.step && (e.streamedOf (e.writtenBy r)).any (fun l =>
          written.any (fun x => x.1.num == l.1.num && x.2 == l.2) && !r.stamped.contains (l.1.num, l.2))))) then some 0x09
  else if (ins ++ outs).any (fun s => s.scaled && (s.first % 32 != 0 ||
      match e.rgn? s.scale with
       | some g => g.fmt != 0x0C || e.dataLen g < s.first / 32 + (u.scaleLen s + 31) / 32
       | none => true)) || outs.any (fun s => s.kind == 1 && s.tier && (match e.rgn? s.region with | some g => g.layout == 2 | none => false))
    then some 0x0B
  else if outs.any (fun s => (s.round % 4 == 1 && (s.kind == 1 && (s.fmt == 0 || s.fmt == 1))) ||
      (s.split && s.round % 4 != 0)) then some 0x0C
  else none

/-- DESCRIPTOR of R195: a reserved bit or byte, CANCEL without RESUME, a handle without RESUME. DEDUCED: log entry 73. -/
def badRunDesc (d : List Byte) : Bool :=
  let f := fieldAt d
  8 ≤ f 1 1 || f 0x1A 6 != 0 || !allZero ((d.drop 0x180).take 128) || (bit (f 1 1) 2 && !bit (f 1 1) 1) ||
  (f 2 2 != 0 && !bit (f 1 1) 1)

/-- The result record of UPDATE_RUN (R232). -/
def runRecord (handle pass reason step elems nonf sat : Nat) (accs : List Nat) : List Byte :=
  natLe 2 handle ++ [byteOf pass, byteOf reason] ++ natLe 4 step ++ natLe 8 elems ++ natLe 4 nonf ++ natLe 4 sat ++ zeros 8
    ++ (List.range 8).flatMap (fun i => natLe 8 (accs.getD i 0))

/-- The next handle (R192). -/
def Eng.nextHandle (e : Eng) : Nat :=
  let used := e.liveRuns.map (·.handle)
  ((List.range 65535).map (fun i => (e.upd.last + i) % 65535 + 1)).find? (fun h => !used.contains h) |>.getD 1

/-! ### Blocking (R116, R147, R225, R240, R249, R346, R377, R380) -/

/-- A reconstruction keeps an own streamed leaf from being written: from RB_REQ to RB_DONE (R240), or under a snapshot
(R249). -/
def Eng.chainBlocks (e : Eng) (r : Rgn) (row : Nat) : Bool :=
  r.streamed && (e.chains.any (fun c => c.region == r.num && c.row == row) ||
    e.recons.any (fun c => c.why == .repair && c.asked && c.region == r.num && c.row == row) ||
    e.snaps.any (fun s => s.live && s.region == r.num && s.row == row))

/-- The weight digest that a committed ring waits for would be lost by the copy that a run's pass makes (R380).
DEDUCED: log entry 75. -/
def Eng.digestBlocks (e : Eng) (u : Run) (r : Rgn) (row : Nat) : Bool :=
  let leaf := r.leaf row
  let d := e.dig leaf
  r.streamed && d.begun != some u.step && e.openWeights.any (fun w =>
    atOrBefore (w32 (w + 2)) u.step && e.passedStep leaf w && d.priorValid && atOrBefore d.priorStamp w)

/-- A leaf that an anchor or a tensor digest needs as it stands (R346, R377). An anchor holds back only passes after its
step: those up to it must end before the leaf is saved (R347). DEDUCED: log entry 75. -/
def Eng.imageBlocks (e : Eng) (u : Run) (leaf : Nat) : Bool :=
  e.unhashed leaf || (e.unsaved leaf && (match e.keep.anchor.bind (·.bnd) with | some b => !atOrBefore u.step b.step | none => false))

/-- A leaf that a span writes is blocked. -/
def Eng.leafBlocked (e : Eng) (u : Run) (l : Nat × Nat) : Bool :=
  match e.leafRow l with
  | none => false
  | some (r, row) =>
    let leaf := r.leaf row
    e.isRebuilding leaf || e.imageBlocks u leaf ||
    (r.streamed && (!e.windowOpen r row || e.draining.contains (r.num, row) || e.chainBlocks r row || e.digestBlocks u r row))

/-- Leaves of the spans a chunk lies in that are blocked. -/
def Eng.chunkBlocks (e : Eng) (u : Run) (c : Nat) : List (Nat × Nat) :=
  let (x0, x1) := u.spanRange c
  (e.writtenIn u x0 x1).filter (e.leafBlocked u)

/-! ### Issue (R219, R223 to R226) -/

/-- Every slice that covers a chunk's intake elements is complete and, where R133 asks, logged. -/
def Eng.chunkFed (e : Eng) (u : Run) (c : Nat) : Bool :=
  match u.intake? with
  | none => true
  | some s => (u.elems c).all (fun x =>
      match e.sliceFor u s (u.elemOf s x) with
      | some sl => (match sl.row with | some row => e.logged false sl.step row | none => true)
      | none => false)

/-- A run waits for earlier runs whose outputs share a leaf with it (R226). -/
def Eng.runWaits (e : Eng) (u : Run) : Bool :=
  let mine := e.touchedBy u
  (e.liveRuns.takeWhile (fun r => r.handle != u.handle)).any (fun r => (e.writtenBy r).any (fun l => mine.contains l))

/-- Clusters that can take a chunk: present, not pruned, idle. -/
def Eng.freeCluster (e : Eng) : Option Nat :=
  (List.range 64).find? (fun c => bit (e.rd Reg.GEN_FLOOR_CLU_PRESENT) c && !bit (e.rd Reg.GEN_HOLE_CLU_PRUNED) c &&
    !(e.upd.runs.any (fun u => u.issued.any (fun i => i.2 == c))))

/-- The 2 MiB of staging for completed deltas is full (R224). -/
def Eng.stagingFull (e : Eng) : Bool := 512 ≤ (e.upd.runs.map (fun u => u.ready.length)).foldl (· + ·) 0

/-- Chunks of a run's pass still to issue, ascending. -/
def Run.left (u : Run) : List Nat :=
  if u.phase == .pass1 || u.phase == .writing then (List.range u.nchunks).filter (fun c => !u.done.contains c && !(u.issued.any (fun i => i.1 == c)))
  else []

/-- The next chunk of a run that may go, if any: in ascending order, past blocked spans in the writing pass. -/
def Eng.nextChunk (e : Eng) (u : Run) : Option Nat :=
  let c := if u.phase == .writing then u.left.find? (fun c => (e.chunkBlocks u c).isEmpty) else u.left.head?
  c.bind (fun c => if e.chunkFed u c then some c else none)

/-- Blocked spans that a run passes over make the leaves urgent that an anchor, a tensor digest or a graft must see to first (R225,
R260, R346, R377). -/
def Eng.urgeBlocked (e : Eng) (u : Run) : Eng :=
  if u.phase != .writing then e
  else
    let passed := match u.left.find? (fun c => (e.chunkBlocks u c).isEmpty) with
      | some c => u.left.filter (· < c)
      | none => u.left
    e.each ((passed.flatMap (e.chunkBlocks u)).eraseDups) (fun l e =>
      match e.leafRow l with
      | some (r, row) =>
        let leaf := r.leaf row
        let e := if e.imageBlocks u leaf then e.makeUrgent leaf else e
        if e.isRebuilding leaf then
          { e with graft := e.graft.map (fun g =>
              if g.urgent.contains (r.num, row) then g else { g with urgent := g.urgent ++ [(r.num, row)] }) }
        else e
      | none => e)

/-- Chunks of one run are issued while there is a cluster for them. -/
def Eng.issueRun : Nat → Nat → Eng → Eng
  | 0, _, e => e
  | fuel + 1, h, e =>
    match e.run? h with
    | none => e
    | some u =>
      if !(u.phase == .pass1 || u.phase == .writing) || e.stagingFull || 1 ≤ e.evac.step then e
      else match e.nextChunk u, e.freeCluster with
        | some c, some k =>
          Eng.issueRun fuel h ((e.setRun { u with issued := u.issued ++ [(c, k)] }).emit (.chunk k h c))
        | _, _ => e

/-! ### Deltas (R97, R98, R224, R227) -/

/-- The delta of a sector of a run's writing pass: its bytes before against its bytes now. -/
def Eng.runDelta (e : Eng) (u : Run) (a : Nat) : List Byte :=
  (List.range sectorBytes).map (fun i => match look u.old (a + i) with
    | some b => b ^^^ e.memByte (a + i)
    | none => 0)

/-- Sectors of the writing pass that have become complete: their deltas wait for release; a leaf all of whose sectors are
complete takes the step stamp (R97, R227). -/
def Eng.noteSectors (e : Eng) (u : Run) : Eng × Run :=
  ((e.writtenBy u).filterMap (fun l => (e.leafRow l).map (fun x => (l, x)))).foldl (fun eu lx =>
    let (l, r, row) := lx
    if !r.streamed then eu
    else
      let (e, u) := eu
      let secs := e.sectorsIn u l
      let new := secs.filter (fun s => !u.made.contains (r.num, row, s) && e.sectorDone u l s)
      let u := { u with made := u.made ++ new.map (fun s => (r.num, row, s)),
                        ready := u.ready ++ new.map (fun s => ((r.num, row, s), e.runDelta u (r.rowAddr row + s * sectorBytes))) }
      if secs.all (fun s => u.made.contains (r.num, row, s)) && !u.stamped.contains (r.num, row) then
        (e.updCtx (r.leaf row) (fun c => { c with stamp := u.step }), { u with stamped := u.stamped ++ [(r.num, row)] })
      else (e, u)) (e, u)

/-- The first waiting delta of a run that may go: every lower sector of its leaf has gone, no earlier run has one waiting for
the leaf, and the window is open (R116, R128, R224). -/
def Eng.nextDelta (e : Eng) (before : List Run) (u : Run) : Option ((Nat × Nat × Nat) × List Byte) :=
  u.ready.find? (fun d =>
    let (rg, row, s) := d.1
    match e.rgn? rg with
    | none => true
    | some r =>
      let ln := (e.dataRows r).findIdx (· == row)
      !(u.ready.any (fun x => x.1.1 == rg && x.1.2.1 == row && x.1.2.2 < s)) &&
      !(before.any (fun b => b.ready.any (fun x => x.1.1 == rg && x.1.2.1 == row))) &&
      (u.phase == .ended || u.phase == .tier || (e.sectorsIn u (rg, ln)).all (fun x => s ≤ x || u.made.contains (rg, row, x))) &&
      (allZero d.2 || (e.windowOpen r row && !e.draining.contains (rg, row))))

/-- Deltas of the run at a place of the list go while they may; an ended run with none left leaves the list. -/
def Eng.releaseAt : Nat → Nat → Eng → Eng
  | 0, _, e => e
  | fuel + 1, i, e =>
    match e.upd.runs[i]? with
    | none => e
    | some u =>
      match e.nextDelta (e.upd.runs.take i) u with
      | none => e
      | some d =>
        let e := e.setUpd (fun x => { x with runs := x.runs.set i { u with ready := u.ready.erase d } })
        match e.rgn? d.1.1 with
        | some r => Eng.releaseAt fuel i (e.sendStream r d.1.2.1 d.1.2.2 u.step d.2)
        | none => Eng.releaseAt fuel i e

def Eng.releaseDeltas (e : Eng) : Eng :=
  let e := e.each (List.range e.upd.runs.length) (fun i e => e.releaseAt ((e.upd.runs.map (fun u => u.ready.length)).foldl (· + ·) 1) i)
  e.setUpd (fun d => { d with runs := d.runs.filter (fun u => u.phase != .ended || !u.ready.isEmpty) })

/-! ### Parts of a run (R207 to R210, R230 to R232) -/

/-- A pass reaches leaves for the first time: their heat, and the copy of R371 for streamed ones. -/
def Eng.beginLeaves (e : Eng) (u : Run) (ls : List (Nat × Nat)) (writing : Bool) : Eng × Run :=
  (ls.filterMap e.leafRow).foldl (fun eu x =>
    let (e, u) := eu
    let (r, row) := x
    if u.begun.contains (r.num, row) then (e, u)
    else
      let leaf := r.leaf row
      let e := e.updCtx leaf (fun c => { c with heat := min 255 (c.heat + 1) })
      let e := if writing && r.streamed then e.copyDig leaf u.step else e
      (e, { u with begun := u.begun ++ [(r.num, row)] })) (e, u)

/-- Values stored to outputs go to memory, with the counts of R198 and R206. `elem` marks ELEMENT outputs. -/
def Eng.storeOut (e : Eng) (u : Run) (s : Stream) (key : Nat → Nat) (vals : List (Nat × Num)) (keepOld : Bool) : Eng × Run :=
  let (ws, sat, nonf) := e.encodeOut u s key vals
  let nf := if s.mode = 0 then nonf else 0
  let (e, old) := e.writeFields ws keepOld u.old
  (((e.bumpBy Reg.UPD_NUM_STAT_SATURATED sat).bumpBy Reg.UPD_NUM_STAT_NONFINITE nf),
   { u with old := old, sat := u.sat + sat, nonf := u.nonf + nf })

/-- Address ranges, whole lines, of a bit range of a region's data bytes. -/
def Eng.bitAddrs (e : Eng) (b : Nat × Nat × Nat) : List (Nat × Nat) :=
  match e.rgn? b.1 with
  | none => []
  | some g =>
    let b0 := b.2.1 / 8
    let b1 := (b.2.1 + b.2.2 + 7) / 8
    let rows := (List.range ((b1 + leafBytes - 1) / leafBytes - b0 / leafBytes)).map (· + b0 / leafBytes)
    let parts := rows.filterMap (fun n => (e.dataRow g n).map (fun row =>
      let lo := max b0 (n * leafBytes)
      let hi := min b1 ((n + 1) * leafBytes)
      let a := (g.rowAddr row + lo % leafBytes) / 64 * 64
      (a, (g.rowAddr row + lo % leafBytes + (hi - lo) + 63) / 64 * 64 - a)))
    parts.foldl (fun acc p => match acc.getLast? with
      | some q => if q.1 + q.2 = p.1 then acc.dropLast ++ [(q.1, q.2 + p.2)] else acc ++ [p]
      | none => [p]) []

/-- Ranges that an output has written (R230): its elements and its block scales; of a SPLIT32 pair the high half alone. -/
def Eng.tierRanges (e : Eng) (u : Run) (s : Stream) : List (Nat × Nat) :=
  let n := u.extent s.mode
  ((e.bitSpans s s.first n).take 1 ++ s.scaleSpan s.first n).flatMap e.bitAddrs

/-- The operations of R230 for some outputs: one per written range. -/
def Eng.askTierFor (e : Eng) (u : Run) (outs : List Stream) : Eng :=
  e.each (outs.filter (fun s => s.bulk && s.tier)) (fun s e =>
    e.each (e.tierRanges u s) (fun r e =>
      e.askTier (if e.on Reg.UPD_CTL_TIER_OP then .invalidate [r] else .refresh [r]) (.run u.handle)))

/-- Slices that a run has read go when no other accepted run reads them (R220). DEDUCED: log entry 75. -/
def Eng.freeSlices (e : Eng) (u : Run) : Eng :=
  match u.intake? with
  | none => e
  | some s =>
    let reads := fun (r : Run) (c : Slice) => match r.intake? with
      | some t => t.tag == c.tag && r.step == c.step && c.eoff < t.first + r.count && t.first < c.eoff + c.count
      | none => false
    let others := e.liveRuns.filter (fun r => r.handle != u.handle)
    let e := e.setUpd (fun d => { d with
      slices := d.slices.filter (fun c => !reads u c || others.any (fun r => reads r c)),
      lastStep := put d.lastStep s.tag u.step })
    e.retryIntake

/-- A run leaves the update unit: its handle is free, its slices go, its command completes (R192, R231, R232).
DEDUCED: log entry 75. -/
def Eng.endRun (e : Eng) (u : Run) (status elems addr : Nat) : Eng :=
  let e := e.setRun { u with phase := .ended, issued := [] }
  let e := ((e.freeSlices u).bump Reg.UPD_RUN_STAT_DONE).runCount
  match u.cmd with
  | some c => e.completeWith c status 0 addr (runRecord u.handle 2 0 u.step elems u.nonf u.sat u.accs)
  | none => e

/-- A run completes (R231). -/
def Eng.runDone (e : Eng) (u : Run) : Eng :=
  let e := if bit u.syncObj 15 then e else e.signal (u.syncObj % 2 ^ 15)
  e.endRun u stOk u.count 0

/-- Scalar registers that a run's writing pass reads, ascending (R210). -/
def Eng.scalarRegs (e : Eng) (u : Run) : List Nat :=
  let cs := (e.progPart u.slot 2).flatMap (·.reads)
  (List.range 16).filter (fun i => cs.contains (0x20 + i))

/-- Two streams read one region's elements alike: one logged value serves both. -/
def Stream.alike (a b : Stream) : Bool :=
  a.region == b.region && a.kind == b.kind && a.format == b.format && a.scale == b.scale && (!a.scaled || a.first == b.first)

/-- Stream elements that R210 has a run log, in the order of its records: region by region, what inputs read in ROW, COL or SCALAR
mode, then the ROWSUM and COLSUM results that pass 1 stores, each once. -/
def Eng.scalarKeys (e : Eng) (u : Run) : List (Stream × Nat) :=
  let stored := (e.progStreams u.slot).2.1
  let ss := u.ins.filter (fun s => s.bulk && 1 ≤ s.mode && s.mode ≤ 3) ++
    u.outs.filter (fun s => s.bulk && (s.mode == 4 || s.mode == 5) && stored.contains s.num)
  let ks : List (Stream × Nat) := ss.foldl (fun acc s =>
    acc ++ ((List.range (u.extent s.mode)).filter (fun i =>
      !acc.any (fun a => a.1.alike s && a.2 == s.first + i))).map (fun i => (s, s.first + i))) []
  ((ks.map (·.1.region)).eraseDups).flatMap (fun rg => ks.filter (fun k => k.1.region == rg))

/-- The scalar records of a run (R134, R210): its scalar registers, then its stream values, a record to one region. A record of
scalar registers names no region: the spec gives it none, and replay reads none. DEDUCED: log entry 75. -/
def Eng.scalarRecords (e : Eng) (u : Run) : List Byte :=
  let pack := fun (rg : List Byte) (vs : List Nat) => rg ++ [byteOf vs.length] ++ zeros 5 ++ padTo 56 (vs.flatMap (natLe 8))
  let full := fun (g : List Nat) => !g.isEmpty
  let srecs := (chunksOf 7 3 ((e.scalarRegs u).map (fun i => u.scal.getD i 0))).filter full
  let keys := e.scalarKeys u
  srecs.flatMap (pack (e.freeBytes 2)) ++
  ((keys.map (·.1.region)).eraseDups).flatMap (fun rg =>
    let vs := (keys.filter (fun k => k.1.region == rg)).map (fun k => toF64 (e.scaledInput u k.1 k.2))
    ((chunksOf 7 (vs.length / 7 + 1) vs).filter full).flatMap (pack (natLe 2 rg)))

/-- The writing pass may begin once the run's scalars are logged (R210). -/
def Eng.startLogging (e : Eng) (u : Run) : Eng :=
  let streams := !(e.streamedOf (e.writtenBy u)).isEmpty
  if streams then
    let row := (look e.upd.nextPass u.step).getD 0
    let bytes := e.scalarRecords u
    let e := (e.setUpd (fun d => { d with nextPass := put d.nextPass u.step (row + 1) })).useFree 2
    let e := e.setRun { u with phase := .logging, logRow := some row, done := [], issued := [], old := [], begun := [] }
    if bytes.isEmpty then e else e.logOut true u.step row 0 bytes
  else e.setRun { u with phase := .writing, done := [], issued := [], old := [], begun := [] }

/-- Pass 1 has ended over every element: sums are written, and the run is held or goes on (R207 to R209). -/
def Eng.endPassOne (e : Eng) (u : Run) : Eng :=
  let parts := u.parts.mergeSort (fun a b => a.chunk ≤ b.chunk)
  let accs := (List.range 8).map (fun i => e.accEnd u parts i)
  let outs := u.outs.filter (fun s => s.bulk && (s.mode == 4 || s.mode == 5))
  let used := (e.progStreams u.slot).2.1
  let outs := outs.filter (fun s => used.contains s.num)
  let (e, u) := outs.foldl (fun eu s =>
    let (e, u) := eu
    let (e, u) := e.beginLeaves u (leavesOf (e.streamBits u s 0 u.count)) false
    e.storeOut u s (fun i => i) (sumsOf parts s.num (u.extent s.mode)) false) (e, { u with accs := accs })
  let e := e.askTierFor u outs
  if u.ext then
    let rec1 := runRecord u.handle 1 0 u.step 0 u.nonf u.sat accs
    let e := e.setRun { u with phase := .held, cmd := none }
    match u.cmd with
    | some c => e.complete c stPass1Done rec1
    | none => e
  else
    let (_, lm, _) := e.slotLens u.slot
    let u := if lm = 0 then u else { u with scal := e.midSection u accs }
    e.startLogging u

/-- The writing pass has run every chunk: late outputs are stored, their sectors noted, the tier is asked (R199, R230). -/
def Eng.endWriting (e : Eng) (u : Run) : Eng :=
  let us := e.progPart u.slot 2
  let late := u.outs.filter (fun s => s.bulk && s.late)
  let lanes := if late.isEmpty then [] else (List.range u.count).map (fun x => (x, e.laneAt u us x))
  let (e, u) := late.foldl (fun eu s =>
    let (e, u) := eu
    let (e, u) := e.beginLeaves u (leavesOf (e.streamBits u s 0 u.count)) true
    e.storeOut u s (fun i => s.first + i) (chunkVals u s lanes) true) (e, u)
  let (e, u) := e.noteSectors { u with done := u.done ++ [u.nchunks] }
  let e := (e.setRun { u with phase := .tier }).releaseDeltas
  e.askTierFor u (u.outs.filter (fun s => s.mode != 4 && s.mode != 5 && (e.progStreams u.slot).2.2.contains s.num))

/-- One step of a run's progress between its parts; none when it has none to make. -/
def Eng.runPart (e : Eng) (u : Run) : Option Eng :=
  let all := (List.range u.nchunks).all (fun c => u.done.contains c)
  match u.phase with
  | .pass1 => if (e.slotLens u.slot).1 = 0 then some (e.startLogging u) else if all then some (e.endPassOne u) else none
  | .logging =>
    if (match u.logRow with | some row => e.logged true u.step row | none => true) then some (e.setRun { u with phase := .writing }) else none
  | .writing => if all then some (e.endWriting u) else none
  | .tier => if e.tierWaits (.run u.handle) then none else some (e.runDone u)
  | _ => none

/-- A run goes through its parts as far as it can, and issues chunks. -/
def Eng.runGo : Nat → Nat → Eng → Eng
  | 0, _, e => e
  | fuel + 1, h, e =>
    match e.run? h with
    | none => e
    | some u =>
      if e.runWaits u then e
      else match e.runPart u with
        | some e => Eng.runGo fuel h e
        | none => (e.urgeBlocked u).issueRun 64 h

/-- No chunk can go because every leaf with work left is blocked, whatever rule blocks it (R116, DESIGN CHOICE, log entry 96). -/
def Eng.winBlocked (e : Eng) : Bool :=
  let us := e.liveRuns.filter (fun u => u.phase == .writing && !u.left.isEmpty && !e.runWaits u)
  !us.isEmpty && us.all (fun u => u.left.all (fun c => !(e.chunkBlocks u c).isEmpty))

/-- No chunk can go because each that otherwise could waits for log space or a LOG_ACK (R133, R137). -/
def Eng.logBlocked (e : Eng) : Bool :=
  !e.stagingFull && e.liveRuns.any (fun u => !e.runWaits u && (u.phase == .logging ||
    u.left.any (fun c => (u.phase == .pass1 || (e.chunkBlocks u c).isEmpty) && !e.chunkFed u c &&
      (match u.intake? with | some s => (u.elems c).all (fun x => (e.sliceFor u s (u.elemOf s x)).isSome) | none => false))))

/-- The waits of R116 and R137 are counted up to now, and noted where they go on; while a chunk is in a cluster neither
runs. -/
def Eng.noteWaits (e : Eng) : Eng :=
  let upTo := fun (t : Option Nat) => match t with | some t => e.updCycles t | none => 0
  let idle := e.liveRuns.all (fun u => u.issued.isEmpty)
  let e := (e.bumpBy Reg.HLT_WIN_WAIT_CYCLES (upTo e.upd.winWait)).bumpBy Reg.GRV_LOG_WAIT_CYCLES (upTo e.upd.logWait)
  e.setUpd (fun d => { d with winWait := if idle && e.winBlocked then some e.now else none,
                              logWait := if idle && e.logBlocked then some e.now else none })

/-- Every run goes on as far as it can, in order of acceptance (R223). -/
def Eng.pumpRuns (e : Eng) : Eng :=
  if e.boot.inReset || !e.serving then e
  else (e.each (e.liveRuns.map (·.handle)) (fun h e => e.runGo 8 h)).releaseDeltas.noteWaits

/-! ### Chunks -/

/-- Lines of a run's input or output that stand unrepaired: the first of them, for a chunk (R329). -/
def Eng.chunkDead (e : Eng) (u : Run) (c : Nat) : Option Nat :=
  let ss := (u.ins ++ u.outs).filter (·.bulk)
  let bs := ss.flatMap (fun s => e.streamBits u s (1024 * c) (u.chunkTop c)) ++
    u.ins.flatMap (fun s => s.intakeScales (1024 * c) (u.chunkTop c))
  (bs.flatMap (fun b => match e.rgn? b.1 with
    | none => []
    | some g => (List.range ((b.2.1 + b.2.2 + 511) / 512 - b.2.1 / 512)).filterMap (fun i =>
        (e.dataAddr g (64 * (b.2.1 / 512 + i))).map (· / 64)))).find? e.isUnrep

/-- A run that ends early leaves written chunks in sectors that are not complete: their deltas go too, since the owner's
delta is all that parity hears of a write (R96, R329). DEDUCED: log entry 75. -/
def Eng.partialSectors (e : Eng) (u : Run) : Run :=
  ((e.writtenBy u).filterMap (fun l => (e.leafRow l).map (fun x => (l, x)))).foldl (fun u lx =>
    let (l, r, row) := lx
    if !r.streamed || u.phase != .writing then u
    else
      let left := (e.sectorsIn u l).filter (fun s => !u.made.contains (r.num, row, s) &&
        !allZero (e.runDelta u (r.rowAddr row + s * sectorBytes)))
      { u with ready := u.ready ++ left.map (fun s => ((r.num, row, s), e.runDelta u (r.rowAddr row + s * sectorBytes))) }) u

/-- Elements that a run's writing pass has written (R232). -/
def Run.wrote (u : Run) : Nat :=
  if u.phase == .tier then u.count
  else if u.phase == .writing then (u.done.map (fun c => u.chunkTop c - 1024 * c)).foldl (· + ·) 0 else 0

/-- A cluster has finished a chunk: what pass 1 contributes is kept, what the writing pass stores is written (R223). -/
def Eng.chunkDone (e : Eng) (h c k : Nat) : Eng :=
  match e.run? h with
  | none => e
  | some u =>
    if !u.issued.contains (c, k) then e
    else
      let u := { u with issued := u.issued.erase (c, k) }
      match e.chunkDead u c with
      | some l =>
        let u := e.partialSectors u
        ((e.setRun u).endRun u stMemError u.wrote (64 * l)).pumpRuns
      | none =>
        if u.phase == .pass1 then
          let part := e.passOne u c
          (e.setRun { u with parts := u.parts ++ [part], done := u.done ++ [c] }).pumpRuns
        else
          let us := e.progPart u.slot 2
          let lanes := (u.elems c).map (fun x => (x, e.laneAt u us x))
          let used := (e.progStreams u.slot).2.2
          let outs := u.outs.filter (fun s => s.bulk && !s.late && used.contains s.num)
          let e0 := e
          let (e, u) := outs.foldl (fun eu s =>
            let (e, u) := eu
            let vals := chunkVals u s lanes
            if vals.isEmpty then (e, u)
            else
              let (e, u) := e.beginLeaves u (leavesOf (e.streamBits u s (1024 * c) (u.chunkTop c))) true
              e.storeOut u s (fun i => s.first + i) vals true) (e0, u)
          let (e, u) := e.noteSectors { u with done := u.done ++ [c] }
          (e.setRun u).pumpRuns

/-- A cluster leaves use: its chunk in flight is discarded and issued again (R228). -/
def Eng.dropCluster (e : Eng) (k : Nat) : Eng :=
  (e.setUpd (fun d => { d with runs := d.runs.map (fun u => { u with issued := u.issued.filter (fun i => i.2 != k) }) })).pumpRuns

/-! ### Acceptance of UPDATE_RUN (R192, R195, R208) -/

/-- A refusal of UPDATE_RUN (R195, R232, R500). -/
def Eng.refuseRun (e : Eng) (cmd code step : Nat) : Eng := e.refuse cmd rsRule (runRecord 0 0 code step 0 0 0 [])

/-- The descriptor of an UPDATE_RUN, if its address is one (ADDRESS of R195). -/
def Eng.runDesc (e : Eng) (addr : Nat) : Option (List Byte) :=
  if addr % 64 != 0 || e.usableTop < addr + 512 then none else some (e.memRead addr 512)

/-- The descriptor at an address resumes a run (R208). -/
def Eng.isResume (e : Eng) (addr : Nat) : Bool := match e.runDesc addr with | some d => bit (fieldAt d 1 1) 1 | none => false

/-- A resumed run (R208): s10 to s15 come from the resuming descriptor, or the run is cancelled. DEDUCED: log entry 75. -/
def Eng.resumeRun (e : Eng) (cmd : Nat) (d : List Byte) : Eng :=
  match e.run? (fieldAt d 2 2) with
  | none => e.refuseRun cmd 0x0A (fieldAt d 4 4)
  | some u =>
    if u.phase != .held then e.refuseRun cmd 0x0A (fieldAt d 4 4)
    else
      let u := { u with cmd := some cmd }
      if bit (fieldAt d 1 1) 2 then (e.setRun u).endRun u stOk 0 0 |>.pumpRuns
      else
        let scal := (List.range 16).map (fun i => if i < 10 then u.scal.getD i 0 else fieldAt d (0x20 + 8 * i) 8)
        (e.startLogging { u with scal := scal }).pumpRuns

/-- The run that a descriptor asks for, with the next free handle (R192). -/
def Eng.newRun (e : Eng) (cmd : Nat) (d : List Byte) : Run :=
  { handle := e.nextHandle, cmd := some cmd, desc := d, scal := (List.range 16).map (fun i => fieldAt d (0x20 + 8 * i) 8),
    phase := .pass1, issued := [], done := [], parts := [], accs := [], old := [], made := [], ready := [],
    stamped := [], begun := [], logRow := none, nonf := 0, sat := 0 }

/-- An UPDATE_RUN is accepted (R192, R195). -/
def Eng.updateRun (e : Eng) (cmd addr : Nat) : Eng :=
  match e.runDesc addr with
  | none => e.refuseRun cmd 0x0D 0
  | some d =>
    if badRunDesc d then e.refuseRun cmd 0x0E (fieldAt d 4 4)
    else if bit (fieldAt d 1 1) 1 then e.resumeRun cmd d
    else
      let u := e.newRun cmd d
      match e.runFault u with
      | some code => e.refuseRun cmd code u.step
      | none =>
        let e := (e.setUpd (fun x => { x with runs := x.runs ++ [u], last := u.handle })).runCount
        let e := e.setKeep (fun k => { k with started := true })
        e.pumpRuns

/-! ### Commands -/

/-- INTAKE_RECORD (R217 to R222). -/
def execIntakeRecord (hdr payload : List Byte) (s : State) : Host.Outcome State Fault Refusal :=
  .next (s.run (fun e => ((if e.on Reg.GEN_PWR_ASLEEP then e.startClocks else e).intake hdr payload).pumpRuns))

/-- CHUNK_COMPLETE (R223). -/
def execChunkComplete (handle : BitVec 16) (chunk : Nat) (cluster : Fin 64) (s : State) : Host.Outcome State Fault Refusal :=
  .next (s.run (fun e => e.chunkDone handle.toNat chunk cluster))

/-- SPAN_UNBLOCK: a blocked span has unblocked, and the run returns to it (R225). -/
def execSpanUnblock (handle : BitVec 16) (_ : Nat) (s : State) : Host.Outcome State Fault Refusal :=
  .next (s.run (fun e => if e.boot.inReset || !e.serving then e else e.runGo 8 handle.toNat))

/-- TIER_LATE: an operation of a run has been open for UPD_CTL.TIER_WARN µs (R230). -/
def execTierLate (op : Nat) (s : State) : Host.Outcome State Fault Refusal :=
  .next (s.run (fun e =>
    if e.tier.any (fun t => t.op == op && (match t.why with | .run _ => true | _ => false)) then
      (e.bump Reg.UPD_TIER_LATE_COUNT).raise .TIER_LATE
    else e))

end Sys2Proof.Machine
end

