-- ==== Sys2Proof/Machine/Replay.lean ====
section
/-!
DEFINITION. Sys2Proof/Machine/Replay.lean: what a replayed pass computes (R149 to R153): the lost member's log as a spare holds it, the
pass as a run of the update unit over logged slices and scalars, and the bytes of a sector after it.
-/
namespace Sys2Proof.Machine

/-! ### The log of a lost member -/

/-- Log entries of a lost owner that this engine holds: as its partner, or handed on to this spare.
DESIGN CHOICE: log entry 31. -/
def Eng.replayLog (e : Eng) (x : Nat) : List LogHeld := e.log.held.filter (fun h => h.owner == x)

/-- Steps ascending, each once. -/
def stepsUp (ts : List Nat) : List Nat := (ts.mergeSort (fun a b => atOrBefore a b)).eraseDups

/-- Steps of which a slice of x is logged, ascending. -/
def Eng.loggedSteps (e : Eng) (x : Nat) : List Nat := stepsUp (((e.replayLog x).filter (fun h => !h.scalar)).map (·.stamp))

/-- The newest logged step. -/
def Eng.newestLogged (e : Eng) (x : Nat) : Option Nat := (e.loggedSteps x).getLast?

/-- A logged slice lacks chunks. -/
def LogHeld.torn (h : LogHeld) : Bool := chunkBytes h.chunks < 64 * h.lines

/-- The bytes that the log holds of an entry. -/
def LogHeld.bytes (h : LogHeld) : List Byte := h.chunks.flatMap (·.2)

/-! ### A pass of the lost member -/

/-- Pass p of a step at position x as a run in its writing pass, with the bytes it has overwritten so far as they stood before.
DESIGN CHOICE: log entry 31. -/
def passRun (x t p : Nat) (scal : List Nat) (old : SMap Byte) : Run :=
  let d := (List.range 512).map (Config.passDesc x t p)
  { handle := 0, cmd := none, desc := d.take 4 ++ natLe 4 t ++ d.drop 8, scal := scal, phase := .writing, issued := [], done := [],
    parts := [], accs := [], old := old, made := [], ready := [], stamped := [], begun := [], logRow := some p, nonf := 0, sat := 0 }

/-- A pass over a leaf: its index, and the leaf by region and data-leaf number. -/
structure PassOver where
  pass : Nat
  leaf : Nat × Nat
  deriving DecidableEq, Repr

/-- The pass of a step that wrote a leaf: at most one did (R128). -/
def Eng.passOver (e : Eng) (x t : Nat) (r : Rgn) (row : Nat) : Option PassOver :=
  (List.range (Config.passCount x t % 2 ^ 20)).findSome? (fun p =>
    ((e.writtenBy (passRun x t p [] [])).find? (fun l => match e.leafRow l with
      | some y => y.1.num == r.num && y.2 == row
      | none => false)).map (fun l => { pass := p, leaf := l }))

/-- The values of a pass's scalar records, in order, from whichever partner's log holds the most of them. -/
def Eng.loggedValues (e : Eng) (x t p : Nat) : List Nat :=
  let hs := (e.replayLog x).filter (fun h => h.scalar && h.stamp == t && h.row == p)
  let vals := fun (h : LogHeld) => (chunksOf 64 (h.bytes.length / 64 + 1) h.bytes).flatMap (fun b =>
    (List.range (min 7 (fieldAt b 2 1))).map (fun i => fieldAt b (8 + 8 * i) 8))
  (hs.map vals).foldl (fun a b => if a.length < b.length then b else a) []

/-- Scalars of a pass, and its logged stream values, as its writing pass takes them (R134, R150). -/
structure PassVals where
  scal : List Nat
  keys : List ((Stream × Nat) × Nat)

/-- The pass's scalars and stream values from the log; none where the log lacks its scalar records (R153). -/
def Eng.passVals (e : Eng) (x t p : Nat) : Option PassVals :=
  let u := passRun x t p [] []
  let regs := e.scalarRegs u
  let keys := e.scalarKeys u
  let vs := e.loggedValues x t p
  if vs.length < regs.length + keys.length then none
  else some { scal := (regs.zip vs).foldl (fun s rv => s.set rv.1 rv.2) (List.replicate 16 0),
              keys := keys.zip (vs.drop regs.length) }

/-- The value that a whole logged slice holds for an element of a run's gradient (R133, R150). -/
def Eng.loggedElem (e : Eng) (x t : Nat) (s : Stream) (y : Nat) : Option Num :=
  (e.replayLog x).findSome? (fun h =>
    let sp := Config.sliceSpan x t h.row
    if !h.scalar && h.stamp == t && !h.torn && (e.logRegion s.tag).any (fun g => g.num == h.region) && sp.1 ≤ y &&
        y < sp.1 + min sp.2 (16 * h.lines) then some (ofF32 (fieldAt h.bytes (4 * (y - sp.1)) 4))
    else none)

/-- How a replayed pass reads a stream: its gradient and its ROW, COL and SCALAR values from the log, elements from memory as they
stood before it (R150, R223). -/
def Eng.replayRead (e : Eng) (x : Nat) (u : Run) (keys : List ((Stream × Nat) × Nat)) (s : Stream) (y : Nat) : Num :=
  if s.intake then e.scaleBy u s y ((e.loggedElem x u.step s y).getD Num.zero)
  else match keys.find? (fun k => 1 ≤ s.mode && k.1.1.alike s && k.1.2 == y) with
    | some k => ofF64 k.2
    | none => e.scaledInput u s y

/-- Every slice that covers a chunk's gradient is logged whole, so that the original pass could run it (R133, R152); of the pass's end,
every chunk's is. -/
def Eng.chunkLogged (e : Eng) (x : Nat) (u : Run) (c : Nat) : Bool :=
  match u.intake? with
  | none => true
  | some s => (if c = u.nchunks then List.range u.count else u.elems c).all (fun y => (e.loggedElem x u.step s (u.elemOf s y)).isSome)

/-- Bits of a region's data bytes that a sector of a data leaf is. -/
def sectorBits (l : Nat × Nat) (s : Nat) : Nat := 8 * (l.2 * leafBytes + s * sectorBytes)

/-- Chunks that write into a sector of a leaf, and how many of them the log feeds. -/
def Eng.sectorChunks (e : Eng) (u : Run) (l : Nat × Nat) (s : Nat) : List Nat :=
  e.chunksInto u l.1 (sectorBits l s) (sectorBits l s + 8 * sectorBytes)
def Eng.sectorFed (e : Eng) (x : Nat) (u : Run) (l : Nat × Nat) (s : Nat) : Nat :=
  ((e.sectorChunks u l s).filter (e.chunkLogged x u)).length

/-- Run elements, of chunks that the log feeds, whose values a sector of a leaf takes: a block's elements go together (R199). -/
def Eng.sectorElems (e : Eng) (x : Nat) (u : Run) (l : Nat × Nat) (s : Nat) : List Nat :=
  let hit := fun (b : Nat × Nat × Nat) => b.1 == l.1 && b.2.1 < sectorBits l s + 8 * sectorBytes && sectorBits l s < b.2.1 + b.2.2
  ((e.sectorChunks u l s).filter (e.chunkLogged x u)).flatMap (fun c =>
    if c = u.nchunks then List.range u.count
    else (u.elems c).filter (fun y => (u.outs.filter (fun o => o.bulk && !o.late)).any (fun o =>
      let x0 := if o.scaled then y / 32 * 32 else y
      (e.streamBits u o x0 (min u.count (if o.scaled then x0 + 32 else y + 1))).any hit))) |>.eraseDups

/-- The bytes of a sector after a pass has run over it (R150, R151): the pass's writes, over the bytes as they stand. -/
def Eng.passSector (e : Eng) (x : Nat) (u : Run) (keys : List ((Stream × Nat) × Nat)) (r : Rgn) (row : Nat) (l : Nat × Nat)
    (s : Nat) : List Byte :=
  let us := e.progPart u.slot 2
  let lanes := (e.sectorElems x u l s).map (fun y => (y, runMicros (e.envBy u (e.replayRead x u keys) y) us))
  let outs := u.outs.filter (fun o => o.bulk && o.mode != 4 && o.mode != 5)
  let ws := outs.flatMap (fun o => (e.encodeOut u o (fun i => o.first + i) (chunkVals u o lanes)).1)
  (e.writeFields ws false []).1.memRead (r.rowAddr row + s * sectorBytes) sectorBytes

/-! ### What a leaf stands at -/

/-- Sectors of data leaves, by region, row and sector, that a pass reads for some of its elements. -/
def Eng.sectorsRead (e : Eng) (u : Run) (ys : List Nat) : List (Nat × Nat × Nat) :=
  let ss := u.ins.filter (fun s => s.bulk && s.mode == 0)
  let bs := ys.flatMap (fun y => ss.flatMap (fun s => e.streamBits u s y (y + 1)) ++ u.ins.flatMap (fun s => s.intakeScales y (y + 1)))
  (bs.flatMap (fun b =>
    let a := b.2.1 / 8 / sectorBytes
    let z := (b.2.1 + b.2.2 - 1) / 8 / sectorBytes
    (List.range (z + 1 - a)).filterMap (fun i =>
      (e.leafRow (b.1, (a + i) / 256)).map (fun y => (b.1, y.2, (a + i) % 256))))).eraseDups

/-- A sector covered by a cut at a step: its passes up to that step are in it (R129, R149). -/
def Cut.covers (c : Cut) (s t : Nat) : Bool := if s ≤ c.sector then atOrBefore t c.stamp else precedes t c.stamp

/-- How a sector stands to a pass of a step: before it, past it or lost, or not yet rebuilt and replayed up to it. -/
inductive Stands where
  | before | past | notYet
  deriving DecidableEq, Repr

/-- How a sector of a leaf of this spare stands to a pass of a step that is replayed. -/
def Eng.stands (e : Eng) (g : Graft) (t : Nat) (q : Nat × Nat × Nat) : Stands :=
  match e.rgn? q.1 with
  | none => .past
  | some r =>
    if !r.streamed || (look ((look g.olds t).getD []) (r.rowAddr q.2.1 + q.2.2 * sectorBytes)).isSome then .before
    else match g.replays.find? (fun p => p.region == q.1 && p.row == q.2.1) with
      | none => if e.isRebuilding (r.leaf q.2.1) then .notYet else .past
      | some p =>
        if p.todo.any (fun d => d.2 == q.2.2 && precedes d.1 t) then .notYet
        else if p.cut.covers q.2.2 t then .past else .before

/-! ### What is to be replayed (R149, R152, R153) -/

/-- Sectors that the pass of a step wrote of a leaf and its cut does not cover (R149). -/
def Eng.uncovered (e : Eng) (u : Run) (l : Nat × Nat) (c : Cut) : List Nat :=
  (e.sectorsIn u l).filter (fun s => !c.covers s u.step)

/-- Sectors that a step is to be replayed over for a leaf, with how many of their chunks the log feeds, and whether it feeds them
all. -/
def Eng.replayOf (e : Eng) (x : Nat) (r : Rgn) (row : Nat) (c : Cut) (t : Nat) : List (Nat × Nat) × Bool :=
  match e.passOver x t r row with
  | none => ([], true)
  | some o =>
    let u := passRun x t o.pass [] []
    let ss := e.uncovered u o.leaf c
    ((ss.map (fun s => (s, e.sectorFed x u o.leaf s))).filter (fun f => f.2 != 0),
     ss.all (fun s => (e.sectorChunks u o.leaf s).all (e.chunkLogged x u)))

/-- The passes still to replay over a leaf, ascending, less those replayed with all that the log feeds now. -/
def Eng.replayTodo (e : Eng) (x : Nat) (r : Rgn) (row : Nat) (c : Cut) (did : List (Nat × Nat × Nat)) : List (Nat × Nat) :=
  (e.loggedSteps x).flatMap (fun t => ((e.replayOf x r row c t).1.filter (fun f =>
    !did.any (fun d => d.1 == t && d.2.1 == f.1 && f.2 ≤ d.2.2))).map (fun f => (t, f.1)))

/-- A step's pass over a leaf lacks what replay needs: its scalar records, or, for a step that is not the newest logged one, a slice
(R152, R153). -/
def Eng.stepLacks (e : Eng) (x : Nat) (r : Rgn) (row : Nat) (c : Cut) (t : Nat) : Bool :=
  match e.passOver x t r row with
  | none => false
  | some o =>
    let u := passRun x t o.pass [] []
    !(e.uncovered u o.leaf c).isEmpty &&
      ((e.passVals x t o.pass).isNone || (e.newestLogged x != some t && !(e.replayOf x r row c t).2))

/-- The first step that replay of a leaf needs and the log lacks (R153). A step that no run named has no pass; a step can have had one
where it is logged, stands before a logged one, or is the cut's or, with nothing logged, the one after. DESIGN CHOICE: log entry 31. -/
def Eng.replayGap (e : Eng) (x : Nat) (r : Rgn) (row : Nat) (c : Cut) : Option Nat :=
  let logged := e.loggedSteps x
  let near := [c.stamp, w32 (c.stamp + 1)] ++ logged.map (fun t => w32 (t + 2 ^ 32 - 1))
  let near := near.filter (fun t => match e.newestLogged x with | some n => atOrBefore t n | none => true)
  (stepsUp (logged ++ near)).find? (e.stepLacks x r row c)

/-- Slices of the newest logged step that feed a leaf, or its region, are missing from the log (R152).
DESIGN CHOICE: log entry 31. -/
def Eng.sliceLacks (e : Eng) (x : Nat) (r : Rgn) (row : Nat) (c : Cut) : Bool :=
  match e.newestLogged x with
  | some t => !(e.replayOf x r row c t).2 || Config.sliceMissing x r.tag t
  | none => false

/-- What a pass has to go by where its bytes cannot be computed. DESIGN CHOICE: log entry 31. -/
def Eng.replayIn (e : Eng) (x : Nat) (r : Rgn) (row t s : Nat) : Config.ReplayIn :=
  let hs := (e.replayLog x).filter (fun h => h.stamp == t)
  { x := x, region := r.num, row := row, step := t, sector := s, key := r.key,
    slices := (hs.filter (fun h => !h.scalar)).map LogHeld.bytes, scalars := (hs.filter (fun h => h.scalar)).map LogHeld.bytes,
    progs := e.progs, old := e.memRead (r.rowAddr row + s * sectorBytes) sectorBytes }

/-- The stamp of a leaf decoded at its cut: the cut's step where the pass of that step over it is whole, else the step before, as what
came before that pass (R128, R129). DESIGN CHOICE: log entry 31. -/
def Eng.cutStamp (e : Eng) (x : Nat) (r : Rgn) (row : Nat) (c : Cut) : Nat :=
  match e.passOver x c.stamp r row with
  | some o => if (e.uncovered (passRun x c.stamp o.pass [] []) o.leaf c).isEmpty then c.stamp else w32 (c.stamp + 2 ^ 32 - 1)
  | none => c.stamp

end Sys2Proof.Machine
end

