-- ==== Sys2Proof/Machine/Rebuild.lean ====
section
/-!
DEFINITION. Sys2Proof/Machine/Rebuild.lean: the reconstruction chain (R238 to R242, R249, R250): requests and partials, credits
and slots, what a member contributes, and the reading of mirror copies for a degraded read or a graft (R83, R259).
-/
namespace Sys2Proof.Machine

/-! ### Who takes part (R54, R239) -/

/-- The position that holds row m of a stripe, as far as this engine knows (R58, DESIGN CHOICE, log entry 28). -/
def Eng.thickPos (e : Eng) (region row : Nat) : Nat :=
  match e.thickHost region row with
  | some h => h
  | none => if (e.hostedRow region row).isSome then e.pos else parityPos e.w e.k row 0

/-- The owners of a stripe's data leaves that are present. -/
def Eng.owners (e : Eng) (row : Nat) : List Nat :=
  ((List.range e.k).map (fun i => dataPos e.w row i)).filter e.isPresent

/-- The position of a leaf of a stripe by its code row: a role, or w for a thickening row. -/
def Eng.posOf (e : Eng) (region row t : Nat) : Nat := if t < e.w then (row + t) % e.w else e.thickPos region row

/-- The code row of the leaf sought. -/
def targetRow (w lost row : Nat) (thick : Bool) : Nat := if thick then w else roleOf w lost row

/-- A place's neighbours in a chain: the position it receives from, and the one it sends to. -/
def Eng.upOf (e : Eng) (c : ChainJob) (n : Nat) : Nat := e.posOf c.region c.row (c.chain.getD (n - 1) 0)
def Eng.downOf (e : Eng) (c : ChainJob) (n : Nat) : Nat :=
  if c.chain.length ≤ n + 1 then c.coll else e.posOf c.region c.row (c.chain.getD (n + 1) 0)

/-- The position whose partials a reconstruction collects: its chain's last, or this engine where it has none. -/
def Eng.lastOf (e : Eng) (c : Recon) : Nat :=
  match c.chain.getLast? with | some t => e.posOf c.region c.row t | none => e.pos

/-- This engine's places in a chain. -/
def Eng.placesIn (e : Eng) (c : ChainJob) : List Nat :=
  (List.range c.chain.length).filter (fun n => e.posOf c.region c.row (c.chain.getD n 0) == e.pos)

/-- This engine's parity row of a stripe stands provisional (R251), or is being built. -/
def Eng.buildOf (e : Eng) (region row : Nat) (thick : Bool) : Option RowBuild :=
  e.builds.find? (fun b => b.region == region && b.row == row && b.thick == thick)

/-- This engine's leaf of a stripe can be read for a decode: neither degraded nor rebuilding, and no provisional row (R242,
R251, R272). -/
def Eng.usable (e : Eng) (r : Rgn) (row t : Nat) : Bool :=
  if t < e.w then
    let leaf := r.leaf row
    !e.isDegraded leaf && !e.isRebuilding leaf && (e.buildOf r.num row false).isNone
  else match e.hostedRow r.num row with
    | some h => h.built && !h.provisional && !h.releasing
    | none => (e.thickHost r.num row).isSome

/-- The k survivors of a stripe in the order of R54, as code rows, with a thickening row as row m wherever it survives; none when
the stripe is beyond the code. DESIGN CHOICE: log entry 28. -/
def Eng.chainFor (e : Eng) (r : Rgn) (row target : Nat) (bad : List Nat) : Option (List Nat) :=
  let stale := e.oldLost.any (fun l => l.1 == r.num && l.2.1 == row)
  let ok := fun t => t != target && !bad.contains t && !(e.k ≤ t && stale) &&
    e.isPresent (e.posOf r.num row t) && (e.posOf r.num row t != e.pos || e.usable r row t)
  let thick := (e.thickHost r.num row).isSome || (e.hostedRow r.num row).isSome
  let rows := (List.range e.w).filter ok ++ (if thick && ok e.w then [e.w] else [])
  let c := survivors e.k rows
  if c.length < e.k then none else some c

/-- A stripe is found beyond the code (R272): counted and reported once. -/
def Eng.beyondCode (e : Eng) (region row : Nat) : Eng :=
  if e.loss.beyond.contains (region, row) then e
  else
    let e := if e.rd Reg.RBD_BEYOND_COUNT = 0 then (e.wr Reg.RBD_BEYOND_REGION region).wr Reg.RBD_BEYOND_ROW row else e
    let e := { e with loss := { e.loss with beyond := e.loss.beyond ++ [(region, row)] } }
    (e.bump Reg.RBD_BEYOND_COUNT).raise .BEYOND_CODE

/-- Every stripe of a streamed region is settled for each lost owner of one of its data leaves (R147). -/
def Eng.streamReady (e : Eng) (region row : Nat) : Bool :=
  let open_ := fun x => bit e.lostMap x || (match look e.loss.grafts x with | some ph => ph < 6 | none => false)
  ((List.range e.w).filter (fun x => open_ x && roleOf e.w x row < e.k)).all (fun x =>
    match e.agrees.find? (fun a => a.is x region row) with
    | some a => a.settled
    | none => match e.agreeRoles region row with
      | some c => c.1 == e.pos || e.loss.settledBy.any (fun s => s.1 == x && e.coordAmong s.2.2 region row == some s.2.1)
      | none => true)

/-! ### Slots and credits (R241) -/

/-- Slots that this engine's receivers hold or have granted. -/
def Eng.slotsTaken (e : Eng) : Nat :=
  (e.acc.owed.map (·.2)).foldl (· + ·) 0 + (e.chains.map (fun c => c.parts.length)).foldl (· + ·) 0

/-- Slots free now. -/
def Eng.slotsFree (e : Eng) : Nat := 512 - min 512 e.slotsTaken

/-- Sectors of a job that a place in its chain has still to send. -/
def ChainJob.owes (c : ChainJob) (n : Nat) : Nat :=
  ((List.range c.count).filter (fun i => !c.sent.contains (256 * n + c.first + i))).length

/-- Partials that a place holds and has not sent. -/
def ChainJob.holds (c : ChainJob) (n : Nat) : Nat := (c.parts.filter (fun p => p.1 / 256 == n)).length
def ChainJob.grantedAt (c : ChainJob) (n : Nat) : Nat := (look c.granted n).getD 0

def sumOf (ns : List Nat) : Nat := ns.foldl (· + ·) 0

/-- Credits towards a position that the partials held or granted for here will need, so that none of them waits in its slot for
the next member (R241). DEDUCED: log entry 29. -/
def Eng.reserved (e : Eng) (q : Nat) : Nat :=
  sumOf (e.chains.map (fun c => sumOf (((e.placesIn c).filter (fun n => 0 < n && e.downOf c n == q)).map (fun n =>
    c.grantedAt n + c.holds n))))

/-- Credits that this engine holds towards a position beyond those reserved. -/
def Eng.spare (e : Eng) (q : Nat) : Nat := (look e.acc.credit q).getD 0 - e.reserved q

/-- Granted credits of a position that stand for something still expected of it. -/
def Eng.attributed (e : Eng) (p : Nat) : Nat :=
  sumOf (e.chains.map (fun c => sumOf (((e.placesIn c).filter (fun n => 0 < n && e.upOf c n == p)).map c.grantedAt))) +
  sumOf ((e.recons.filter (fun c => e.lastOf c == p)).map (·.granted))

/-- Credits to grant to a sender, and the grant. -/
def Eng.grantTo (e : Eng) (p n : Nat) : Eng :=
  if n = 0 then e
  else
    let a : AccSlots := { e.acc with owed := put e.acc.owed p ((look e.acc.owed p).getD 0 + n) }
    ({ e with acc := a } : Eng).send p { typ := tRbCredit, seq := n }

/-- Up to so many credits for a sender: those it holds that stand for nothing else, then new ones for free slots (R241). -/
def Eng.grantUpTo (e : Eng) (p want : Nat) : Eng × Nat :=
  let loose := min want ((look e.acc.owed p).getD 0 - e.attributed p)
  let fresh := min e.slotsFree (want - loose)
  (e.grantTo p fresh, loose + fresh)

/-- What waits for partials: places in chains, then reconstructions, by class and arrival. -/
inductive AccNeed where
  | place (coll id n : Nat)
  | coll (id : Nat)
  deriving DecidableEq, Repr

def Eng.accNeeds (e : Eng) : List (Nat × AccNeed) :=
  let places : List (Nat × AccNeed) := e.chains.flatMap (fun c =>
    ((e.placesIn c).filter (fun n => 0 < n && e.upOf c n != e.pos)).map (fun n => (c.prio, .place c.coll c.id n)))
  let colls : List (Nat × AccNeed) := (e.recons.filter (fun c => c.asked && e.lastOf c != e.pos)).map (fun c => (c.prio, .coll c.id))
  (places ++ colls).mergeSort (fun a b => a.1 ≤ b.1)

/-- A need's sender, the partials still to grant for, and how many of those could leave at once. -/
def Eng.accWant (e : Eng) : AccNeed → Option (Nat × Nat)
  | .place coll id n => (e.chains.find? (fun c => c.coll == coll && c.id == id)).map (fun c =>
      let left := c.owes n - c.holds n - c.grantedAt n
      let q := e.downOf c n
      (e.upOf c n, if q == e.pos then left else min left (e.spare q)))
  | .coll id => (e.recons.find? (fun c => c.id == id)).map (fun c =>
      (e.lastOf c, c.count - c.got.length - c.granted))

/-- Granted credits are noted with what they are for. -/
def Eng.accNote (e : Eng) (d : Int) : AccNeed → Eng
  | .place coll id n => { e with chains := e.chains.map (fun c =>
      if c.coll == coll && c.id == id then { c with granted := put c.granted n (((c.grantedAt n : Int) + d).toNat) } else c) }
  | .coll id => { e with recons := e.recons.map (fun c => if c.id == id then { c with granted := ((c.granted : Int) + d).toNat } else c) }

/-- Credits for one need. -/
def Eng.accGrant (e : Eng) (x : AccNeed) : Eng :=
  match e.accWant x with
  | some (p, want) =>
    let (e, n) := e.grantUpTo p want
    e.accNote (Int.ofNat n) x
  | none => e

/-- Free slots are granted to the senders of the partials awaited, class by class (R241). -/
def Eng.grantCredits (e : Eng) : Eng := e.each (e.accNeeds.map (·.2)) (fun x e => e.accGrant x)

/-! ### What a member contributes (R239, R240, R242, R247, R249) -/

/-- A sector of an own data leaf as the deltas already sent have it: a run's unfinished sectors as they stood before it, and
sectors whose deltas still wait without them (R223, R224). -/
def Eng.sentSector (e : Eng) (r : Rgn) (row sector : Nat) : List Byte :=
  let a := r.rowAddr row + sector * sectorBytes
  e.upd.runs.reverse.foldl (fun s u =>
    if u.made.contains (r.num, row, sector) then
      match u.ready.find? (fun d => d.1 == (r.num, row, sector)) with
      | some d => xorBytes s d.2
      | none => s
    else s.zipIdx.map (fun b => (look u.old (a + b.2)).getD b.1)) (e.memRead a sectorBytes)

/-- The products of the sectors staged for a parity sector in every slot (R247). -/
def Eng.stagedSum (e : Eng) (r : Rgn) (row sector j : Nat) (thick : Bool) : List Byte :=
  (e.rings.stages.filter (fun s => s.region == r.num && s.row == row && s.thick == thick)).foldl
    (fun acc s => match look s.secs sector with
      | some d => xorBytes acc (gfScale (coeff j ((s.src + e.w - row % e.w) % e.w)) d)
      | none => acc) (zeros sectorBytes)

/-- One sector of this engine's leaf of a stripe, by its code row. -/
def Eng.codeSector (e : Eng) (r : Rgn) (row t sector : Nat) (repair : Bool) : List Byte :=
  if t < e.k then (if r.streamed then e.sentSector r row sector else e.memRead (r.rowAddr row + sector * sectorBytes) sectorBytes)
  else
    let thick := decide (e.w ≤ t)
    let s := if thick then ((e.hostedRow r.num row).bind (fun h => look h.secs sector)).getD (zeros sectorBytes)
      else e.memRead (r.rowAddr row + sector * sectorBytes) sectorBytes
    if repair && r.ringed then xorBytes s (e.stagedSum r row sector (t - e.k) thick) else s

/-- A parity row is being built: sixteen-sector chunks of a parity leaf (R239, R249). -/
def ChainJob.building (c : ChainJob) (k w : Nat) : Bool := c.count == 16 && k ≤ targetRow w c.lost c.row c.thick

/-- This engine cannot read its leaf of a chunk: it is degraded, or both codes fail on a sector of it, as an unrepaired line or a
repair of that sector under way shows (R242). An owner that knows the stripe's thickening row elsewhere gives nothing to a second
one (R264). DEDUCED: log entry 29. DEDUCED: log entry 32. -/
def Eng.cannotRead (e : Eng) (r : Rgn) (c : ChainJob) (t : Nat) : Bool :=
  !e.usable r c.row t ||
  (t < e.w && (e.unrep.any (fun l =>
      let a := 64 * l
      r.rowAddr c.row + c.first * sectorBytes ≤ a && a < r.rowAddr c.row + (c.first + c.count) * sectorBytes) ||
    e.recons.any (fun x => x.why == .repair && x.region == c.region && x.row == c.row && x.lost == e.pos && c.first ≤ x.first &&
      x.first < c.first + c.count))) ||
  (c.thick && c.building e.k e.w && (match e.thickHost r.num c.row with | some h => h != c.coll | none => false))

/-- A rollback has returned an own leaf to its target, while rings stand closed: no fetch of the leaf is left, nor has it failed
(R184, R185, R187). -/
def Eng.leafReturned (e : Eng) (r : Rgn) (row : Nat) : Bool :=
  e.closed && e.rings.nextN.isSome && (match e.rings.roll with
    | some ro => !(ro.fetches.any (fun f => f.region == r.num && f.row == row)) && !ro.gaps.contains (r.num, row)
    | none => true)

/-- An own ringed data leaf holds no write of a ring after its committed ring (R187). -/
def Eng.ringSettled (e : Eng) (r : Rgn) (row : Nat) : Bool :=
  !(e.caps.any (fun c => c.region == r.num && c.row == row)) &&
  (!(e.rings.seqs.any (fun s => s.region == r.num && s.row == row && precedes e.lastCommit s.ring)) || e.leafReturned r row)

/-- A request for a present member's own parity row belongs to an encoding while rings are closed and nothing has run since
the start lock or since a rollback (R364, DEDUCED, log entry 44). -/
def Eng.encodeReq (e : Eng) (c : ChainJob) : Bool :=
  c.building e.k e.w && !c.thick && c.coll == c.lost && c.chain.all (fun t => t < e.k) && e.closed &&
  (!e.keep.started || e.rings.nextN.isSome) && !(e.loss.grafts.any (fun g => g.1 == c.coll && g.2 < 6))

/-- This engine has answered another request of the same builder for the same chunk since it last ended its own data writes: this
one is of the builder's next encoding, and waits for the owner's (R364). -/
def Eng.answeredBefore (e : Eng) (c : ChainJob) : Bool :=
  e.keep.answered.any (fun x => x.1 == c.coll && x.2.1 != c.id && x.2.2 == (c.region, c.row, c.first))

def Eng.noteAnswered (e : Eng) (c : ChainJob) : Eng :=
  let x := (c.coll, c.id, c.region, c.row, c.first)
  if e.keep.answered.contains x then e else e.setKeep (fun k => { k with answered := k.answered ++ [x] })

/-- A member's contribution is ready (R187, R240, R247, R364). DEDUCED: log entry 44. -/
def Eng.partReady (e : Eng) (r : Rgn) (c : ChainJob) (t : Nat) : Bool :=
  let parity := c.chain.any (fun x => e.k ≤ x)
  if e.encodeReq c then e.keep.encoded.contains r.num && !e.rolling && !e.answeredBefore c else
  if t < e.k then
    if r.streamed then !parity || (e.streamReady r.num c.row && e.drained r c.row)
    else if r.ringed then
      if c.prio = 2 then !(e.sent.any (fun s => s.typ == tRingDelta && s.region == r.num && s.row == c.row && s.sector == c.first))
      else if c.building e.k e.w && !parity then true
      else e.ringSettled r c.row
    else true
  else !r.ringed || c.prio = 2 || e.rings.applies.isEmpty

/-- A snapshot is of the row that a request builds. -/
def Snap.of (s : Snap) (c : ChainJob) : Bool :=
  s.builder == c.coll && s.thick == c.thick && s.region == c.region && s.row == c.row

/-- The owner's snapshot when it first contributes to a row being built (R249). -/
def Eng.takeSnap (e : Eng) (r : Rgn) (c : ChainJob) : Eng :=
  let is := fun (s : Snap) => s.of c
  if r.frozen || e.snaps.any (fun s => is s && s.live) then e
  else
    let fl := if c.thick then flThick else 0
    let leaf := r.leaf c.row
    let e := e.each (if r.ringed then e.caps.filter (fun x => x.region == r.num && x.row == c.row) else []) (fun x e => e.closeEntry x)
    let e := if r.streamed then
        let q := (e.ctx leaf).seq
        let cut := (look e.cuts leaf).getD (0, 255)
        e.send c.coll { typ := tSnapNote, flags := fl, region := r.num, row := c.row, stamp := cut.1, sector := cut.2, seq := q }
      else
        e.each ((e.rings.recs.filter (fun x => x.st != .committed && x.st != .rolled)).map (·.num)) (fun n e =>
          e.send c.coll { typ := tSnapNote, flags := fl, region := r.num, row := c.row, stamp := n,
                          seq := e.nextRingSeq r.num c.row n - 1 })
    let e := { e with snaps := (e.snaps.filter (fun s => !is s)) ++
      [{ builder := c.coll, id := c.id, thick := c.thick, region := r.num, row := c.row, live := true }] }
    if c.thick then
      { e with thickDests := (e.thickDests.filter (fun t => !(t.region == r.num && t.row == c.row))) ++
          [{ region := r.num, row := c.row, host := c.coll }] }
    else e

/-! ### Partials on their way (R239, R241) -/

def ChainJob.is (c : ChainJob) (coll id : Nat) : Bool := c.coll == coll && c.id == id
def Eng.setJob (e : Eng) (c : ChainJob) : Eng := { e with chains := e.chains.map (fun x => if x.is c.coll c.id then c else x) }
def Eng.dropJob (e : Eng) (coll id : Nat) : Eng := { e with chains := e.chains.filter (fun c => !c.is coll id) }
def Eng.setRecon (e : Eng) (c : Recon) : Eng := { e with recons := e.recons.map (fun x => if x.id == c.id then c else x) }

/-- A sector arrives at its collector (R239). -/
def Eng.reconGot (e : Eng) (id sector : Nat) (d : List Byte) : Eng :=
  match e.recons.find? (fun c => c.id == id && c.asked) with
  | some c => if c.first ≤ sector && sector < c.first + c.count then e.setRecon { c with got := put c.got sector d } else e
  | none => e

/-- The engine holds the decoding rows of up to 64 survivor sets; a new one takes the place of the one used least recently
(R56). -/
def Eng.useSet (e : Eng) (chain : List Nat) : Eng :=
  let s := e.rowSets.filter (· != chain) ++ [chain]
  { e with rowSets := s.drop (s.length - 64) }

/-- A merged partial goes on from chain index n: to this engine itself, or as an RB_PART where a credit is held; a chain's first
member leaves the reserved ones alone (R241). Answers whether it went. -/
def Eng.passOn (e : Eng) (c : ChainJob) (n sector : Nat) (d : List Byte) : Eng × Bool :=
  let last := decide (c.chain.length ≤ n + 1)
  let p := if last then c.coll else e.posOf c.region c.row (c.chain.getD (n + 1) 0)
  if p == e.pos then
    if last then (e.reconGot c.id sector d, true)
    else match e.chains.find? (fun x => x.is c.coll c.id) with
      | some x => (e.setJob { x with parts := put x.parts (256 * (n + 1) + sector) d }, true)
      | none => (e, true)
  else
    match (if n = 0 && e.spare p = 0 then none else look e.acc.credit p) with
    | some (m + 1) =>
      let a : AccSlots := { e.acc with credit := put e.acc.credit p m }
      let map := lineMapOf 1 d
      (({ e with acc := a } : Eng).send p
        { typ := tRbPart, region := c.region, row := c.row, sector := sector, stamp := c.id, seq := n, planes := planesOf 1 map,
          lineMap := map, payload := thin 1 d }, true)
    | _ => (e, false)

/-- One sector at one of this engine's places in a chain. -/
def Eng.chainSector (e : Eng) (coll id n sector : Nat) : Eng :=
  match e.chains.find? (fun c => c.is coll id) with
  | none => e
  | some c =>
    match e.rgn? c.region with
    | none => e
    | some r =>
      let t := c.chain.getD n 0
      let key := 256 * n + sector
      let have_ := if n = 0 then some (zeros sectorBytes) else look c.parts key
      match have_ with
      | none => e
      | some p =>
        if c.sent.contains key || !e.partReady r c t then e
        else
          let e := if t < e.k && c.building e.k e.w && !e.encodeReq c then e.takeSnap r c else e
          let e := if e.encodeReq c then e.noteAnswered c else e
          let e := e.useSet c.chain
          let row := decodeRow e.k c.chain (targetRow e.w c.lost c.row c.thick)
          let d := xorBytes p (gfScale (row.getD n 0) (e.codeSector r c.row t sector (c.prio == 2)))
          let (e, went) := e.passOn c n sector d
          if went then
            match e.chains.find? (fun x => x.is coll id) with
            | some x => e.setJob { x with sent := x.sent ++ [key], parts := cut x.parts key }
            | none => e
          else e

/-- A member that cannot read its leaf says so (R242), THICK telling its thickening row from its own leaf (DESIGN CHOICE, log
entry 28); where the collector is this engine, it notes it itself. -/
def Eng.chainFails (e : Eng) (c : ChainJob) (t : Nat) : Eng :=
  let e := e.dropJob c.coll c.id
  if c.coll == e.pos then
    match e.recons.find? (fun x => x.id == c.id) with
    | some x => e.setRecon { x with bad := x.bad ++ [t], asked := false, got := [], granted := 0 }
    | none => e
  else e.send c.coll { typ := tRbDone, flags := if e.w ≤ t then flThick else 0, stamp := c.id, sector := 1 }

/-- One job goes as far as it can. -/
def Eng.chainGo (e : Eng) (coll id : Nat) : Eng :=
  match e.chains.find? (fun c => c.is coll id) with
  | none => e
  | some c =>
    let mine := e.placesIn c
    match e.rgn? c.region with
    | none => e
    | some r =>
      match mine.find? (fun n => e.cannotRead r c (c.chain.getD n 0)) with
      | some n => e.chainFails c (c.chain.getD n 0)
      | none => e.each mine (fun n e => e.each (List.range c.count) (fun i e => e.chainSector coll id n (c.first + i)))

/-- Partials of a job here that could go but for want of a credit: those held, and the first member's own sectors, once it may
contribute (R241). -/
def Eng.queuedOf (e : Eng) (c : ChainJob) : Nat :=
  match e.rgn? c.region with
  | some r => sumOf (((e.placesIn c).filter (fun n => e.partReady r c (c.chain.getD n 0))).map (fun n =>
      if n = 0 then c.owes 0 else c.holds n))
  | none => 0

/-- The slots as RBD_ACC_STAT shows them. -/
def Eng.accView (e : Eng) : Eng :=
  let queued := sumOf (e.chains.map e.queuedOf)
  (e.wr Reg.RBD_ACC_STAT_FREE e.slotsFree).wr Reg.RBD_ACC_STAT_QUEUED (min 65535 queued)

/-- Every job, by class and then by arrival (R241), then the credits that free slots allow. -/
def Eng.pumpChains (e : Eng) : Eng :=
  let js := (e.chains.mergeSort (fun a b => a.prio ≤ b.prio)).map (fun c => (c.coll, c.id))
  (e.each js (fun j e => e.chainGo j.1 j.2)).grantCredits.accView

/-! ### The collector (R239, R242) -/

/-- The bitmap of positions of a chain. DESIGN CHOICE: log entry 28. -/
def Eng.chainMap (e : Eng) (region row : Nat) (chain : List Nat) : Nat :=
  bitsWhere 16 (fun p => (chain.map (fun t => e.posOf region row t)).contains p)

/-- The host of a stripe's thickening row, where this engine knows of one. DESIGN CHOICE: log entry 28. -/
def Eng.knownHost (e : Eng) (region row : Nat) : Option Nat :=
  match e.thickHost region row with
  | some h => some h
  | none => if (e.hostedRow region row).isSome then some e.pos else none

/-- The host's position stands in a chain's bitmap for its thickening row alone. DESIGN CHOICE: log entry 28. -/
def Eng.thickAlone (e : Eng) (region row : Nat) (chain : List Nat) : Bool :=
  chain.contains e.w && !chain.contains (roleOf e.w (e.thickPos region row) row)

/-- The chain that a bitmap names: the roles of its positions in order, and row m where it is one short or where the host's
position stands for that row alone (DESIGN CHOICE, log entry 28). -/
def chainOf (w k map row : Nat) (alone : Option Nat) : List Nat :=
  let c := (List.range w).filter (fun t => bit map ((row + t) % w))
  match alone with
  | some host => c.filter (· != host) ++ [w]
  | none => if c.length + 1 = k then c ++ [w] else c

/-- A request takes its place at a member; one that repeats an id, or asks for a chunk that its collector has asked for already,
starts the chunk afresh (R242). For a repair, the owner
closes its open entries of the sector (R247). -/
def Eng.takeRequest (e : Eng) (c : ChainJob) : Eng :=
  let same := fun (x : ChainJob) => x.coll == c.coll && x.region == c.region && x.row == c.row && x.first == c.first &&
    x.lost == c.lost && x.thick == c.thick && x.count == c.count && x.prio == c.prio
  let e := { e with
    chains := (e.chains.filter (fun x => !x.is c.coll c.id && !same x)) ++ [c],
    snaps := e.snaps.map (fun s => if s.live && s.of c then { s with id := c.id } else s) }
  if c.prio = 2 then
    e.each (e.caps.filter (fun x => x.region == c.region && x.row == c.row && x.sector == c.first)) (fun x e => e.closeEntry x)
  else e

/-- RB_REQ goes to every member of a reconstruction's chain. THICK says that the leaf sought is a thickening row, or, where the position
sought is not that row's host, that the host gives its thickening row and not its own leaf (DESIGN CHOICE, log entry 28). -/
def Eng.sendRequests (e : Eng) (c : Recon) : Eng :=
  let ps := (c.chain.map (fun t => e.posOf c.region c.row t)).eraseDups
  e.each ps (fun p e =>
    if p == e.pos then
      e.takeRequest { id := c.id, coll := e.pos, region := c.region, row := c.row, first := c.first, count := c.count,
                      lost := c.lost, thick := c.thick, prio := c.prio, chain := c.chain, parts := [], sent := [], granted := [] }
    else e.send p { typ := tRbReq, region := c.region, row := c.row, sector := c.first, stamp := c.id, seq := c.lost,
                    flags := if c.thick || (e.thickAlone c.region c.row c.chain && c.lost != e.thickPos c.region c.row) then flThick else 0,
                    release := e.chainMap c.region c.row c.chain + c.count * 65536 + c.prio * 2 ^ 21 })

/-- Snapshots end, and with those of a thickening row what is sent to its host (R249, R266). -/
def Eng.dropSnaps (e : Eng) (sel : Snap → Bool) : Eng :=
  let gone := e.snaps.filter sel
  let hit := fun (t : ThickDest) => gone.any (fun s => s.thick && s.region == t.region && s.row == t.row && s.builder == t.host)
  { e with snaps := e.snaps.filter (fun s => !sel s), thickEnds := e.thickEnds ++ e.thickDests.filter hit,
           thickDests := e.thickDests.filter (fun t => !hit t) }

/-- A collector has done with a request at a member: its part ends, with the last chunk of a row its snapshot's block, and with a
cancelled chunk of a row its snapshot (R240, R249). -/
def Eng.jobDone (e : Eng) (coll id status : Nat) : Eng :=
  let last := match e.chains.find? (fun c => c.is coll id) with
    | some c => c.building e.k e.w && c.first + c.count = 256
    | none => false
  let e := e.dropJob coll id
  let mine := fun (s : Snap) => s.builder == coll && s.id == id && s.live
  if status = 0 && last then { e with snaps := e.snaps.map (fun s => if mine s then { s with live := false } else s) }
  else if status = 2 then e.dropSnaps mine
  else e

/-- RB_DONE with a status to some members of a chain; the members' parts end. -/
def Eng.endAt (e : Eng) (ps : List Nat) (id status : Nat) : Eng :=
  e.each ps (fun p e => if p == e.pos then e.jobDone e.pos id status else e.send p { typ := tRbDone, stamp := id, sector := status })

/-- Positions of a reconstruction's chain. -/
def Eng.chainPlaces (e : Eng) (c : Recon) : List Nat := (c.chain.map (fun t => e.posOf c.region c.row t)).eraseDups

/-- RB_DONE with a status to every member of a chain. -/
def Eng.endChain (e : Eng) (c : Recon) (status : Nat) : Eng := e.endAt (e.chainPlaces c) c.id status

/-- A reconstruction begins to be collected, unless one for the same purpose and chunk stands already.
DEDUCED: log entry 29. -/
def Eng.addRecon (e : Eng) (region row first count lost : Nat) (thick : Bool) (prio : Nat) (why : ReconWhy) : Eng :=
  if e.recons.any (fun c => c.region == region && c.row == row && c.first == first && c.lost == lost && c.thick == thick
      && c.why == why) then e
  else { e with
    recons := e.recons ++ [{ id := e.reconNo, region := region, row := row, first := first, count := count, lost := lost,
                             thick := thick, prio := prio, why := why, chain := [], bad := [], asked := false, got := [],
                             granted := 0 }],
    reconNo := w32 (e.reconNo + 1) }

/-- A reconstruction whose requests have not gone out asks for them: its chain is formed, under a fresh id where a former
chain was dropped; members of that one which do not stand in the new one are told that their part is cancelled (R242). Answers false when the stripe is beyond the code, and for a thickening row that an owner has refused
(R264). -/
def Eng.askRecon (e : Eng) (c : Recon) : Eng × Bool :=
  match e.rgn? c.region with
  | none => (e, false)
  | some r =>
    match e.chainFor r c.row (targetRow e.w c.lost c.row c.thick) c.bad with
    | none => (e, false)
    | some ch =>
      if (c.why == .encode && ch.any (fun t => e.k ≤ t)) || (c.thick && c.bad.any (fun t => t < e.k)) then (e, false)
      else if r.streamed && c.why != .encode && !e.streamReady r.num c.row then (e, true)
      else
        let fresh := !c.chain.isEmpty
        let id := if fresh then e.reconNo else c.id
        let no := if fresh then w32 (e.reconNo + 1) else e.reconNo
        let c' := { c with id := id, chain := ch, asked := true, got := [], granted := 0 }
        let e := if fresh then e.endAt ((e.chainPlaces c).filter (fun p => !(e.chainPlaces c').contains p)) c.id 2 else e
        let e : Eng := { e with
          recons := e.recons.map (fun x => if x.id == c.id then c' else x), reconNo := no,
          builds := if c.why == .row then e.builds.map (fun b =>
            if b.region == c.region && b.row == c.row && b.thick == c.thick then { b with last := some id } else b) else e.builds }
        (e.sendRequests c', true)

/-- A chunk has not completed within 5 ms: it is asked for again under the same id (R242). -/
def Eng.chunkTimeout (e : Eng) (id : Nat) : Eng :=
  match e.recons.find? (fun c => c.id == id && c.asked) with
  | none => e
  | some c => if c.got.length < c.count then (e.setRecon { c with got := [], granted := 0 }).sendRequests { c with got := [], granted := 0 } else e

/-! ### Messages -/

/-- An RB_REQ that names a coded stripe, a chunk of it and a chain with this position in it. -/
def Eng.rxRbReq (e : Eng) (p : Pkt) : Eng :=
  match e.rgn? p.region with
  | none => e.malformed
  | some r =>
    let count := bits p.release 20 16
    let host := e.knownHost p.region p.row
    let lost := p.seq % 16
    let thick := p.thick && host.all (· == lost)
    let alone := (p.thick && !thick) || (!p.thick && host == some lost && bit p.release lost)
    let chain := chainOf e.w e.k (bits p.release 15 0) p.row
      (if alone then some (roleOf e.w (e.thickPos p.region p.row) p.row) else none)
    if !r.coded || r.rows ≤ p.row || !(count == 1 || count == 16) || 256 < p.sector + count || chain.length != e.k ||
        !(chain.any (fun t => e.posOf p.region p.row t == e.pos)) then e.malformed
    else
      e.takeRequest { id := p.stamp, coll := p.src, region := p.region, row := p.row, first := p.sector, count := count,
                      lost := lost, thick := thick, prio := bits p.release 23 21, chain := chain, parts := [], sent := [], granted := [] }

/-- A sender has used a credit that was granted for something else: that is granted anew when its turn comes. -/
def Eng.settleOwed (e : Eng) (p : Nat) : Eng :=
  if (look e.acc.owed p).getD 0 < e.attributed p then
    match e.accNeeds.reverse.find? (fun x => match x.2 with
      | .place coll id n => e.chains.any (fun c => c.coll == coll && c.id == id && e.upOf c n == p && 0 < c.grantedAt n)
      | .coll id => e.recons.any (fun c => c.id == id && 0 < c.granted && e.lastOf c == p)) with
    | some x => e.accNote (-1) x.2
    | none => e
  else e

/-- An RB_PART: the slot it comes in was granted to its sender. It belongs to a chain that this engine is a member of, or to
a reconstruction that it collects; otherwise its attempt has been abandoned. -/
def Eng.rxRbPart (e : Eng) (p : Pkt) : Eng :=
  let a : AccSlots := { e.acc with owed := put e.acc.owed p.src ((look e.acc.owed p.src).getD 0 - 1) }
  let e := { e with acc := a }
  let d := expand 1 p.lineMap p.payload
  let n := p.seq % 32
  let used := fun (x : AccNeed) (e : Eng) => (e.accNote (-1) x).settleOwed p.src
  let job := e.chains.find? (fun c => c.id == p.stamp && c.region == p.region && c.row == p.row &&
    e.posOf c.region c.row (c.chain.getD n 99) == p.src && n + 1 < c.chain.length &&
    e.posOf c.region c.row (c.chain.getD (n + 1) 0) == e.pos)
  match job with
  | some c =>
    let key := 256 * (n + 1) + p.sector
    let e := if c.sent.contains key then e else e.setJob { c with parts := put c.parts key d }
    used (.place c.coll c.id (n + 1)) e
  | none =>
    match e.recons.find? (fun c => c.id == p.stamp && c.region == p.region && c.row == p.row && c.chain.length == n + 1 &&
        e.posOf c.region c.row (c.chain.getD n 99) == p.src) with
    | some c => used (.coll c.id) (e.reconGot p.stamp p.sector d)
    | none => e.settleOwed p.src

/-- A builder gives up a row: its last request is cancelled at the members of its chain and at the stripe's owners, whose snapshots
it named (R242, R249). DEDUCED: log entry 29. -/
def Eng.giveUpRow (e : Eng) (region row : Nat) (thick : Bool) : Eng :=
  let mine := fun (rg rw : Nat) (t : Bool) => rg == region && rw == row && t == thick
  let open_ := (e.recons.filter (fun c => c.why == .row && mine c.region c.row c.thick)).flatMap e.chainPlaces
  let last := (e.buildOf region row thick).bind (·.last)
  let e : Eng := { e with
    recons := e.recons.filter (fun c => !(c.why == .row && mine c.region c.row c.thick)),
    builds := e.builds.filter (fun b => !mine b.region b.row b.thick) }
  match last with
  | some id => e.endAt ((e.owners row ++ open_).eraseDups) id 2
  | none => e

/-- An RB_DONE at a chain member (R240, R249). -/
def Eng.memberDone (e : Eng) (p : Pkt) : Eng := e.jobDone p.src p.stamp p.sector

/-- An RB_DONE at the collector: a member cannot read its leaf, and the chain forms again without it (R242). -/
def Eng.memberBad (e : Eng) (p : Pkt) : Eng :=
  match e.recons.find? (fun c => c.id == p.stamp && c.asked) with
  | none => e
  | some c =>
    let gone := c.chain.filter (fun t => e.posOf c.region c.row t == p.src && (decide (e.w ≤ t) == p.thick))
    e.setRecon { c with bad := c.bad ++ gone, asked := false, got := [], granted := 0 }

/-- Credits arrive (R241). -/
def Eng.rxRbCredit (e : Eng) (p : Pkt) : Eng :=
  let a : AccSlots := { e.acc with credit := put e.acc.credit p.src ((look e.acc.credit p.src).getD 0 + p.seq) }
  { e with acc := a }

/-- A member of a chain has been declared lost (R242): chains that this engine collects form again, and what it held for
chains of the lost collector ends. -/
def Eng.chainLoss (e : Eng) (x : Nat) : Eng :=
  let hit := fun (c : Recon) => c.chain.any (fun t => e.posOf c.region c.row t == x)
  let rs := e.recons.map (fun c => if hit c then { c with asked := false, got := [], granted := 0 } else c)
  let a : AccSlots := { e.acc with owed := cut e.acc.owed x, credit := cut e.acc.credit x }
  let gone := e.snaps.filter (fun s => s.builder != x)
  { e with recons := rs, chains := e.chains.filter (fun c => c.coll != x), acc := a, snaps := gone }

/-- ACC_FALLBACK: a partial of a request has waited for a slot at this member as long as RBD_ACC_CTL.FALLBACK; the memory
area takes it, where it has room (R241). -/
def Eng.accFallback (e : Eng) (id : Nat) : Eng :=
  let mine := fun (x : Nat × AccNeed) => match x.2 with | .place _ i _ => i == id | .coll i => i == id
  match (e.accNeeds.find? mine).map (·.2) with
  | none => e
  | some x =>
    match e.accWant x with
    | none => e
    | some (p, want) =>
      let area := e.rd Reg.RBD_ACC_CTL_MEM * 16384
      if 0 < e.slotsFree || want = 0 || 512 + area ≤ e.slotsTaken then e
      else
        let e := e.bump Reg.RBD_ACC_STAT_FALLBACKS
        let e := if e.acc.raised then e
          else ({ e with acc := { e.acc with raised := true } } : Eng).raise .ACC_FALLBACK
        ((e.grantTo p 1).accNote 1 x).accView

/-! ### Reading mirror copies (R83, R259) -/

/-- Receivers of position x's copies that this engine can ask, in ascending copy index. -/
def Eng.copyHolders (e : Eng) (r : Rgn) (x : Nat) : List Nat :=
  ([(x + 1) % e.w, (x + e.w - 1) % e.w] ++ (if r.mirrorN = 3 then [(x + 2) % e.w] else [])).filter e.isPresent

/-- What of a request for a sector of a copy its next holder answers: itself here, or a MIRROR_READ. -/
def Eng.sendMirrorRead (e : Eng) (q : MirrorReq) : Eng :=
  e.send q.asked { typ := tMirrorRead, region := q.region, row := q.row, sector := q.sector, stamp := q.stamp,
                   release := q.whose % 16 + (if q.byRing then 256 else 0) + q.id * 65536 }

/-- The step that a mirror copy of a lost position is sought for: the newest step of it that this engine finds logged, else that of the
newest cut that it knows of it (R259). The spec does not say what TARGET is where nothing is to be replayed, nor at the front of a
degraded read (R244). DESIGN CHOICE: log entry 71. -/
def Eng.mirrorStep (e : Eng) (x : Nat) : Nat :=
  let cuts := (e.agrees.filter (fun a => a.x == x)).filterMap (·.q) ++
    (match e.graft with | some g => if g.x == x then g.cuts.map (·.2.2) else [] | none => [])
  match e.newestLogged x with
  | some t => t
  | none => match stepsUp (cuts.map (·.stamp)) with
    | [] => e.rd Reg.GRV_REPLAY_STAT_TARGET
    | t :: ts => ts.getLastD t

/-- A request for a sector of the copy that R259 chooses: by ring, or by step stamp. -/
def Eng.newMirrorReq (e : Eng) (r : Rgn) (row sector whose : Nat) : Eng :=
  if e.mreq.any (fun q => q.region == r.num && q.row == row && q.sector == sector && q.whose == whose) then e
  else
    let byRing := !bit r.sync 0
    let want := if byRing then e.lastCommit else e.mirrorStep whose
    { e with mreq := e.mreq ++ [{ id := e.reconNo % 65536, region := r.num, row := row, sector := sector, stamp := want, want := want,
                                  byRing := byRing, whose := whose, asked := 16, tried := [] }],
             reconNo := w32 (e.reconNo + 1) }

/-- The request that a packet answers. -/
def Eng.mreqFor (e : Eng) (p : Pkt) : Option MirrorReq :=
  e.mreq.find? (fun q => q.id == bits p.release 31 16 && q.asked == p.src && q.region == p.region)

/-- MIRROR_READ_RETRY: no answer within 5 ms (R83). -/
def Eng.mirrorRetry (e : Eng) (id : Nat) : Eng :=
  match e.mreq.find? (fun q => q.id == id && q.asked < 16) with
  | some q => e.sendMirrorRead q
  | none => e

/-! ### Commands -/

/-- ACC_FALLBACK (R241). -/
def execAccFallback (req : Word) (s : State) : Host.Outcome State Fault Refusal :=
  .next (s.run (fun e => e.accFallback req.toNat))

/-- MIRROR_READ_RETRY (R83). -/
def execMirrorReadRetry (req : BitVec 16) (s : State) : Host.Outcome State Fault Refusal :=
  .next (s.run (fun e => e.mirrorRetry req.toNat))

end Sys2Proof.Machine
end

