-- ==== Sys2Proof/Machine/Repair.lean ====
section
/-!
DEFINITION. Sys2Proof/Machine/Repair.lean: repair from the grove (R246 to R248), referred reads (R326), scrubs (R330, R331) and
degraded reads (R243 to R245).
-/
namespace Sys2Proof.Machine

/-! ### Repair (R246 to R248) -/

/-- Region, row and sector of a sector of local memory by its number. -/
def Eng.sectorAt (e : Eng) (n : Nat) : Option (Rgn × Nat × Nat) :=
  let a := sectorBytes * n
  (e.rgnAt a).map (fun r => (r, r.rowOf a, a % leafBytes / sectorBytes))

/-- The engine sets out to repair a sector from the grove (R246); for a ringed data leaf it closes its own open entries of the
sector first (R247). -/
def Eng.startRepair (e : Eng) (n : Nat) : Eng :=
  match e.sectorAt n with
  | none => e
  | some (r, row, s) =>
    let e := e.each (e.caps.filter (fun c => c.region == r.num && c.row == row && c.sector == s)) (fun c e => e.closeEntry c)
    e.addRecon r.num row s 1 e.pos false 2 .repair

/-- A run has changed part of a sector of an own streamed leaf, or holds its delta back (R223, R224): parity has still to hear of
it. -/
def Eng.runHolds (e : Eng) (r : Rgn) (row sector : Nat) : Bool :=
  e.upd.runs.any (fun u => u.ready.any (fun d => d.1 == (r.num, row, sector)) ||
    (!u.made.contains (r.num, row, sector) && !allZero (e.runDelta u (r.rowAddr row + sector * sectorBytes))))

/-- A repair may ask its chain: parity holds every change of the sector, the collector's own deltas of it formed, sent and
acknowledged (R240, R246, R247). -/
def Eng.repairReady (e : Eng) (c : Recon) : Bool :=
  !(e.sent.any (fun s => s.typ ≤ 2 && s.region == c.region && s.row == c.row && (s.typ == tStreamDelta || s.sector == c.first))) &&
  (match e.rgn? c.region with
   | some r => !(r.streamed && decide (e.role c.row < e.k) && e.runHolds r c.row c.first)
   | none => true)

/-- The answer to a referred read (R326, R536). -/
def Eng.answerRef (e : Eng) (f : Referral) (ok : Bool) (data : List Byte) : Eng :=
  if f.late then e else e.emit (.referral f.port f.id ok data)

/-- Referrals of a sector are answered: with its lines as repaired, or not at all. -/
def Eng.answerRefs (e : Eng) (n : Nat) (d : Option (List Byte)) : Eng :=
  let fs := e.refs.filter (fun f => sectorOf f.line == n)
  ({ e with refs := e.refs.filter (fun f => sectorOf f.line != n) } : Eng).each fs (fun f e =>
    match d with
    | some d => e.answerRef f true (lineOf d (slotOf f.line))
    | none => (e.answerRef f false []).unrepaired f.line)

/-- Tap pairs whose old line waited for a repair of a sector go on, or their old line is lost (R327). -/
def Eng.landTaps (e : Eng) (n : Nat) (d : Option (List Byte)) : Eng :=
  let ts := e.taps.filter (fun t => t.landed && sectorOf t.line == n)
  ({ e with taps := e.taps.filter (fun t => !(t.landed && sectorOf t.line == n)) } : Eng).each ts (fun t e =>
    match d with
    | some d => e.tapWith t (lineOf d (slotOf t.line))
    | none => e.tapOldLost t)

/-- Scrubs that wait for a sector (R330). -/
def Eng.scrubsAt (e : Eng) (n : Nat) : List Scrub := e.scrubs.filter (fun x => x.wait == some n)

/-- A reconstructed sector is the repaired one (R246, R247): its lines go back by CWRITE, with fresh check bits, but those written since
the repair began, unless a detecting scrub alone asked for it. Its heartwood line is rewritten where it does not agree with it
(R326). -/
def Eng.repairDone (e : Eng) (c : Recon) (d : List Byte) : Eng :=
  match e.rgn? c.region with
  | none => e
  | some r =>
    let a := r.rowAddr c.row + c.first * sectorBytes
    let n := a / sectorBytes
    let t := e.role c.row
    let d := if r.ringed && e.k ≤ t then xorBytes d (e.stagedSum r c.row c.first (t - e.k) false) else d
    let ss := e.scrubsAt n
    let dry := !ss.isEmpty && ss.all (fun x => bit x.flags 0) && !(e.refs.any (fun f => sectorOf f.line == n)) &&
      !(e.taps.any (fun t => t.landed && sectorOf t.line == n))
    let e := if dry then e
      else
        let e := e.mendHw n
        let s := c.wrote.foldl (fun s l => overlay s (64 * l) (if e.taps.any (fun t => t.landed && t.line == 64 * n + l) then lineOf d l
          else e.memRead (a + 64 * l) 64)) d
        let e := e.each ((List.range 64).filter (fun l => !c.wrote.contains l)) (fun l e => e.cwrite (64 * n + l) (lineOf d l) 1)
        let e := if heartClean s (e.hwLine n) then e
          else ({ e with hwc := e.hwc.filter (fun x => x.1 != n) } : Eng).memWrite (e.hwBase + 64 * n) (heartwood s)
        e.bump Reg.RBD_REPAIR_STAT_REPAIRED
    let e := (e.answerRefs n (some d)).landTaps n (some d)
    { e with scrubs := e.scrubs.map (fun x => if x.wait == some n then { x with wait := none, grove := x.grove + 1 } else x) }

/-- A repair cannot complete (R248). For a scrub whose sector failed in error mode every line of it is unrepaired (DEDUCED, log
entry 33). -/
def Eng.repairFailed (e : Eng) (c : Recon) : Eng :=
  match e.rgn? c.region with
  | none => e
  | some r =>
    let n := (r.rowAddr c.row + c.first * sectorBytes) / sectorBytes
    let e := (e.bump Reg.RBD_REPAIR_STAT_FAILED).raise .REPAIR_FAIL
    let e := if e.isParityRow r c.row then e.setLeafState (r.leaf c.row) 4 else e
    let e := (e.answerRefs n none).landTaps n none
    let dead := fun (x : Scrub) => (x.bads.filter (fun b => b.bark == .uncorrectable && sectorOf b.line.toNat == n)).map (fun b => b.line.toNat)
    let lines := fun (x : Scrub) => if (dead x).isEmpty then (List.range 64).map (64 * n + ·) else dead x
    let e := e.each ((e.scrubsAt n).flatMap lines).eraseDups (fun l e => e.unrepaired l)
    { e with scrubs := e.scrubs.map (fun x =>
        if x.wait == some n then { x with wait := none, unrep := x.unrep ++ lines x } else x) }

/-! ### Referred reads (R326) -/

/-- A read that the controller refers (R326): by erasure, from the grove, or not at all. An engine out of service answers at
once with OK 0 (R459). -/
def Eng.referredRead (e : Eng) (port id line : Nat) (bad : List Nat) : Eng :=
  let f : Referral := { port := port, id := id, line := line, late := false }
  let n := sectorOf line
  let others := bad.filter (· != slotOf line)
  if e.oos then e.answerRef f false []
  else if others.isEmpty && e.hasHeart (64 * line) then
    let d := e.eraseLine line
    (e.restoreLine line).answerRef f true d
  else if e.groveRepairable n then { e with refs := e.refs ++ [f] }.startRepair n
  else (e.answerRef f false []).unrepaired line

/-- A referral has waited for RBD_DR_CTL.LIMIT: its requester receives an error response, and the repair goes on (R326). -/
def Eng.referralLimit (e : Eng) (port id : Nat) : Eng :=
  match e.refs.find? (fun f => f.port == port && f.id == id && !f.late) with
  | none => e
  | some f =>
    let e := { e with refs := e.refs.map (fun x => if x == f then { f with late := true } else x) }
    e.emit (.referral port id false [])

/-! ### Scrub (R330, R331) -/

/-- Write back a line of a scrub, unless it only detects. -/
def Eng.scrubWrite (e : Eng) (x : Scrub) (line : Nat) (bs : List Byte) : Eng := if bit x.flags 0 then e else e.cwrite line bs 7

/-- A sector of the heartwood area: its corrected lines go back, its dead ones are recomputed from their sectors. -/
def Eng.scrubHeart (e : Eng) (x : Scrub) (mine : List LineRead) : Eng × Scrub :=
  let cor := mine.filter (fun b => b.bark == .corrected)
  let dead := mine.filter (fun b => b.bark == .uncorrectable)
  let e := e.each cor (fun b e => (e.barkCount b.line.toNat).scrubWrite x b.line.toNat (lineBytes b.data))
  let e := e.each dead (fun b e => if bit x.flags 0 then e else e.hwRecompute ((64 * b.line.toNat - e.hwBase) / 64))
  (e, { x with bark := x.bark + cor.length, heart := x.heart + dead.length })

/-- A sector that both codes fail: repaired from the grove, or unrepaired. Where the bark code named no line of it, every
line of the sector is unrepaired (DEDUCED, log entry 33). -/
def Eng.scrubDead (e : Eng) (x : Scrub) (n : Nat) (mine : List LineRead) : Eng × Scrub :=
  if e.groveRepairable n then (e.startRepair n, { x with wait := some n })
  else
    let dead := (mine.filter (fun b => b.bark == .uncorrectable)).map (fun b => b.line.toNat)
    let ls := if dead.isEmpty then (List.range 64).map (64 * n + ·) else dead
    (e.each ls (fun l e => e.unrepaired l), { x with unrep := x.unrep ++ ls })

/-- The heartwood line of a sector as a scrub reads it: with what the bark code corrected of it, which goes back; recomputed where it
could not be read (R329, R330). -/
def Eng.scrubCheck (e : Eng) (x : Scrub) (n : Nat) : Eng × List Byte :=
  let hl := e.hwBase / 64 + n
  match x.bads.find? (fun b => b.line.toNat == hl) with
  | some b => match b.bark with
    | .clean => (e, e.hwLine n)
    | .corrected => ((e.barkCount hl).scrubWrite x hl (lineBytes b.data), xorBytes (lineBytes b.data) (e.hwCached n))
    | .uncorrectable =>
      let h := heartwood (e.memRead (sectorBytes * n) sectorBytes)
      (if bit x.flags 0 then e else e.hwRecompute n, h)
  | none =>
    let e := if bit x.flags 0 then e else e.mendHw n
    (e, e.hwLine n)

/-- One sector of a scrub (R330). DEDUCED: log entry 33. -/
def Eng.scrubSector (e : Eng) (x : Scrub) (n : Nat) : Eng × Scrub :=
  let a := sectorBytes * n
  let mine := x.bads.filter (fun b => sectorOf b.line.toNat == n)
  if e.isRebuilding (a / leafBytes) then (e, { x with skipped := x.skipped + 1 })
  else
    let x := { x with sectors := x.sectors + 1 }
    if !e.hasHeart a then e.scrubHeart x mine
    else
      let cor := mine.filter (fun b => b.bark == .corrected)
      let dead := (mine.filter (fun b => b.bark == .uncorrectable)).map (fun b => b.line.toNat)
      let e := e.each cor (fun b e => e.barkCount b.line.toNat)
      let x := { x with bark := x.bark + cor.length }
      let (e, h) := e.scrubCheck x n
      let s := e.sectorWith n (cor.map (fun b => (b.line.toNat, lineBytes b.data)))
      match dead with
      | [] =>
        if heartClean s h then (e.each cor (fun b e => e.scrubWrite x b.line.toNat (lineBytes b.data)), x)
        else match heartDecode s h with
          | none => e.scrubDead x n cor
          | some (s', h') =>
            let mis := cor.filter (fun b => lineOf s' (slotOf b.line.toNat) != lineBytes b.data)
            let e := e.each mis (fun b e => e.miscorrected b.line.toNat)
            let e := e.heartCount n
            let e := if h' == h then e else e.scrubWrite x (e.hwBase / 64 + n) (xorBytes h' (e.hwCached n))
            let diff := (List.range 64).filter (fun l => lineOf s' l != e.memRead (a + 64 * l) 64)
            (e.each diff (fun l e => e.scrubWrite x (64 * n + l) (lineOf s' l)),
             { x with heart := x.heart + 1, miscorr := x.miscorr + mis.length })
      | [l] =>
        let s' := heartErasure s h (slotOf l)
        let e := (e.heartCount n).each cor (fun b e => e.scrubWrite x b.line.toNat (lineBytes b.data))
        (e.scrubWrite x l (lineOf s' (slotOf l)), { x with heart := x.heart + 1 })
      | _ => e.scrubDead x n mine

/-- The summary record (R331). -/
def Scrub.record (x : Scrub) : List Byte :=
  let us := x.unrep.eraseDups
  natLe 8 x.bark ++ natLe 8 x.heart ++ natLe 8 x.grove ++ natLe 8 us.length
    ++ natLe 8 (64 * (us.foldl min (us.headD 0))) ++ natLe 8 (64 * (us.foldl max 0))
    ++ natLe 8 x.sectors ++ natLe 4 x.skipped ++ natLe 4 x.miscorr

def Eng.setScrub (e : Eng) (x : Scrub) : Eng := { e with scrubs := e.scrubs.map (fun y => if y.cmd == x.cmd then x else y) }

/-- A scrub goes on, sector by sector, until one needs the grove or the range ends. -/
def Eng.scrubGo : Nat → Nat → Eng → Eng
  | 0, _, e => e
  | fuel + 1, cmd, e =>
    match e.scrubs.find? (fun x => x.cmd == cmd) with
    | none => e
    | some x =>
      if x.wait.isSome then e
      else if x.top ≤ x.next then
        ({ e with scrubs := e.scrubs.filter (fun y => y.cmd != cmd) } : Eng).complete cmd stOk x.record
      else
        let (e, x) := e.scrubSector { x with next := x.next + sectorBytes } (x.next / sectorBytes)
        Eng.scrubGo fuel cmd (e.setScrub x)

/-- Every scrub that waits for nothing goes on. -/
def Eng.pumpScrubs (e : Eng) : Eng :=
  e.each e.scrubs (fun x e => e.scrubGo ((x.top - x.next) / sectorBytes + 2) x.cmd)

/-- SCRUB_RANGE is accepted (R330). -/
def Eng.startScrub (e : Eng) (cmd base len flags : Nat) (bads : List LineRead) : Eng :=
  if base % sectorBytes != 0 || len % sectorBytes != 0 || len = 0 || e.memSize < base + len then e.refuse cmd rsRule []
  else
    let x : Scrub := { cmd := cmd, next := base, top := base + len, flags := flags, bads := bads, wait := none, bark := 0,
                       heart := 0, grove := 0, unrep := [], sectors := 0, skipped := 0, miscorr := 0 }
    ({ e with scrubs := e.scrubs ++ [x] } : Eng).pumpScrubs

/-! ### Degraded reads (R243 to R245) -/

/-- The front of a lost position (R243). DESIGN CHOICE: log entry 30. -/
def Eng.frontOf (e : Eng) (x : Nat) : Option Nat := e.nextPresent x 1 (fun _ => true)

/-- The lost position whose accesses reach this engine as front: the lowest for which no graft has begun (DESIGN CHOICE, log entry 30). -/
def Eng.frontFor (e : Eng) : Option Nat :=
  (List.range e.w).find? (fun x => bit e.lostMap x && e.frontOf x == some e.pos && (look e.loss.grafts x).isNone)

/-- The key of a fabric access does not match, or it names no region of class 1 to 4 (R90). DEDUCED: log entry 59. -/
def Eng.keyMiss (e : Eng) (region : Option Nat) (requester : Nat) : Eng :=
  let e := e.bump Reg.GRV_KEY_MISS_CNT_COUNT
  let e := (e.wr Reg.GRV_KEY_MISS_LAST_REGION (region.getD 0)).flag Reg.GRV_KEY_MISS_LAST_NO_REGION region.isNone
  (e.wr Reg.GRV_KEY_MISS_LAST_PLACE requester).raise .KEY_MISS

/-- DEDUCED: log entry 59. -/
def Eng.fabricError (e : Eng) : Eng := e.emit (.fabricAnswer none)

/-- A degraded read answered with data. -/
def Eng.drServe (e : Eng) (data : List Byte) : Eng := (e.bump Reg.RBD_DR_SERVED_LOADS).emit (.fabricAnswer (some data))

/-- The front's copy of the sector that holds an address of a lost position. -/
def Eng.drHas (e : Eng) (x : Nat) (r : Rgn) (off : Nat) : Option DrSector :=
  e.drStore.find? (fun d => d.x == x && d.region == r.num && d.row == r.rowOf off && d.sector == off % leafBytes / sectorBytes)

/-- A sector enters the front's store, and the loads that wait for it are answered (R244). -/
def Eng.drGot (e : Eng) (x region row sector : Nat) (d : List Byte) : Eng :=
  match e.rgn? region with
  | none => e
  | some r =>
    let keep := e.drStore.drop (e.drStore.length - 255)
    let e : Eng := { e with drStore := keep ++ [{ x := x, region := region, row := row, sector := sector, data := d }] }
    let a := r.rowAddr row + sector * sectorBytes
    let hit := fun (l : DrLoad) => l.x == x && l.off / sectorBytes == a / sectorBytes
    let mine := e.drLoads.filter hit
    ({ e with drLoads := e.drLoads.filter (fun l => !hit l) } : Eng).each mine (fun l e =>
      e.drServe ((d.drop (l.off % sectorBytes)).take l.len))

/-- Loads of a sector of a lost position that nothing can answer receive an error response (R245, R272). -/
def Eng.drFail (e : Eng) (x a : Nat) : Eng :=
  let hit := fun (l : DrLoad) => l.x == x && l.off / sectorBytes == a / sectorBytes
  let mine := e.drLoads.filter hit
  ({ e with drLoads := e.drLoads.filter (fun l => !hit l) } : Eng).each mine (fun _ e =>
    (e.bump Reg.RBD_DR_FAIL_REFUSED).fabricError)

/-- A load that has passed the checks of its key and its size: it is answered from the front's store, or its sector is sought
(R244). -/
def Eng.frontLoad (e : Eng) (x : Nat) (r : Rgn) (off len : Nat) : Eng :=
  match e.drHas x r off with
  | some d => e.drServe ((d.data.drop (off % sectorBytes)).take len)
  | none =>
    let row := r.rowOf off
    let sector := off % leafBytes / sectorBytes
    let e : Eng := { e with drLoads := e.drLoads ++ [{ x := x, off := off, len := len }] }
    if r.mirror then e.newMirrorReq r row sector x else e.addRecon r.num row sector 1 x false 0 .degraded

/-- An access to the degraded-read aperture (R90, R243, R244): every store and every load outside a region of class 1 to 4 is
refused and counted so; before the start lock every leaf is plain (R72). DEDUCED: log entry 59. -/
def Eng.degradedRead (e : Eng) (store : Bool) (off len key requester : Nat) : Eng :=
  let e := if e.on Reg.GEN_PWR_ASLEEP then e.startClocks else e
  if e.boot.inReset then { e with late := e.late ++ [.load store off len key requester] }
  else
    let rgn := (e.rgnAt off).filter (fun r => r.protectedCls)
    let e := if store || rgn.isNone then e.bump Reg.RBD_DR_FAIL_REFUSED else e
    match rgn with
    | none => (e.keyMiss none requester).fabricError
    | some r =>
      if key != r.key then (e.keyMiss (some r.num) requester).fabricError
      else if store || !e.serving || !(len == 64 || len == 128 || len == 256) || off % len != 0 then e.fabricError
      else match e.frontFor with
        | none => e.fabricError
        | some x => e.frontLoad x r off len

/-- DEGRADED_READ_TIMEOUT: loads at an offset have waited for RBD_DR_CTL.LIMIT (R245). -/
def Eng.drTimeout (e : Eng) (off : Nat) : Eng :=
  let mine := e.drLoads.filter (fun l => l.off == off)
  ({ e with drLoads := e.drLoads.filter (fun l => l.off != off) } : Eng).each mine (fun _ e =>
    (e.bump Reg.RBD_DR_FAIL_TIMEOUT).fabricError)

/-- The front discards what it holds of a position whose graft begins, and ends what it sought of it: its loads receive error
responses (R245). -/
def Eng.drEnd (e : Eng) (x : Nat) : Eng :=
  let mine := fun (c : Recon) => c.why == .degraded && c.lost == x
  let e := e.each (e.recons.filter (fun c => mine c && c.asked)) (fun c e => e.endChain c 2)
  let ls := e.drLoads.filter (fun l => l.x == x)
  let e : Eng := { e with
    drStore := e.drStore.filter (fun d => d.x != x), recons := e.recons.filter (fun c => !mine c),
    mreq := e.mreq.filter (fun q => q.whose != x), drLoads := e.drLoads.filter (fun l => l.x != x) }
  e.each ls (fun _ e => e.fabricError)

end Sys2Proof.Machine
end

