-- ==== Sys2Proof/Machine/Encode.lean ====
section
/-!
DEFINITION. Sys2Proof/Machine/Encode.lean: building parity from the data leaves as they stand (R362, R364, R367): what an encoding
sets and discards, the building of the parity leaves, and its end.
-/
namespace Sys2Proof.Machine

/-- An adopt is being encoded. -/
def Eng.adopting (e : Eng) : Bool := e.keep.encode.any (fun c => match c.why with | .adopt _ => true | _ => false)

/-- The preconditions of R360. -/
def Eng.mayEncode (e : Eng) : Bool :=
  e.locked && e.closed && e.liveRuns.isEmpty && e.keep.anchor.isNone && e.graft.isNone &&
  !(e.loss.grafts.any (fun g => g.2 < 6)) && e.lostMap == 0 &&
  !e.adopting

/-- The step and ring of an encoding as its regions' leaves take them, with the cut at sequence 0 and their digests to recompute
(R127, R129, R156, R372). -/
def Eng.encodeLeaves (e : Eng) (r : Rgn) (step ring : Nat) : Eng :=
  e.each (List.range r.rows) (fun row e =>
    let leaf := r.leaf row
    let e := e.updCtx leaf (fun c => { c with
      seq := if r.streamed then 0 else c.seq, stamp := if r.streamed then step else c.stamp,
      ring := if r.ringed then ring else c.ring })
    if e.isParityRow r row then e
    else
      let e : Eng := if r.streamed then { e with cuts := put e.cuts leaf (step, 255) } else e
      e.recomputeDig leaf)

/-- What an encoding of a region makes void: its thickening rows, windows, applied records and staging (R362, R364), the
packets and cuts of its former sequences (R127), and the losses that its new parity mends. -/
def Eng.discardOld (e : Eng) (n : Nat) : Eng :=
  let cutOf := fun (c : Nat) => match e.rgn? n with | some r => r.base / leafBytes ≤ c && c < r.base / leafBytes + r.rows | none => false
  { e with
    hosted := e.hosted.filter (fun h => h.region != n), thickDests := e.thickDests.filter (fun t => t.region != n),
    window := e.window.filter (fun x => x.region != n), applied := e.applied.filter (fun a => a.region != n),
    sent := e.sent.filter (fun s => s.region != n), relSent := e.relSent.filter (fun x => x.1 != n),
    waits := e.waits.filter (fun p => p.region != n), builds := e.builds.filter (fun b => b.region != n),
    snaps := e.snaps.filter (fun s => s.region != n), prods := e.prods.filter (fun p => p.region != n),
    oldLost := e.oldLost.filter (fun l => l.1 != n), cuts := e.cuts.filter (fun c => !cutOf c.1),
    agrees := e.agrees.filter (fun a => a.region != n),
    rings := { e.rings with stages := e.rings.stages.filter (fun s => s.region != n),
                            applies := e.rings.applies.filter (fun j => j.region != n),
                            seqs := e.rings.seqs.filter (fun s => s.region != n) },
    upd := { e.upd with runs := e.upd.runs.map (fun u => { u with
      made := u.made.filter (fun m => m.1 != n), ready := u.ready.filter (fun m => m.1.1 != n) }) } }

/-- No leaf of a region whose packets are gone lags (R122). -/
def Eng.unlagAll (e : Eng) (r : Rgn) : Eng := e.each (List.range r.rows) (fun row e => e.unlag r row)

/-- Parity leaves of this engine in some regions. -/
def Eng.ownParity (e : Eng) (rs : List Rgn) : List (Nat × Nat) :=
  rs.flatMap (fun r => ((List.range r.rows).filter (fun row => e.isParityRow r row)).map (fun row => (r.num, row)))

/-- The committed ring of the engine (R156, R362). DEDUCED: log entry 65. -/
def Eng.setCommitted (e : Eng) (ring : Nat) : Eng :=
  (e.wr Reg.GRV_RING_STAT_COMMITTED ring).wr Reg.GRV_RING_STAT_BASE (w32 (ring + 1))

/-- LEAVES of a restore or adopt in progress. -/
def Eng.encodeView (e : Eng) : Eng :=
  e.wr Reg.ANC_RST_STAT_LEAVES ((e.keep.encode.filter (fun c => match c.why with | .reLeaf => false | _ => true)).foldl
    (fun n c => n + c.todo.length) 0)

/-- One copy of each mirror region, which carries the step and ring of its source (R362, R367). DEDUCED: log entry 65. -/
def Eng.copyMirrors (e : Eng) (rs : List Rgn) (step ring : Nat) : Eng :=
  e.each (rs.filter (fun r => r.mirror)) (fun r e => e.startCopy r { step := step, kind := 1, count := 0 } ring)

/-- Leaves that an encoding has built, by its command's own count. -/
def Eng.builtLeaves (e : Eng) (c : Encode) : Nat := (e.ownParity (c.regions.filterMap e.rgn?)).length

/-- An encoding has built every parity leaf that this engine holds: its command completes (R362, R364, R367).
DEDUCED: log entry 65. -/
def Eng.encodeDone (e : Eng) (c : Encode) : Eng :=
  let e := (e.setKeep (fun k => { k with encode := k.encode.filter (fun x => x.cmd != c.cmd) })).encodeView
  match c.why with
  | .reLeaf => e.complete c.cmd stOk (natLe 8 (e.builtLeaves c))
  | .adopt result => (e.setKeep (fun k => { k with source := some c.step })).complete c.cmd stOk result
  | .restore result =>
    let e := e.setKeep (fun k => { k with source := some c.step })
    (e.complete c.cmd stOk result).copyMirrors e.rgns c.step c.ring

/-- An encoding whose stripe can no longer be read ends without its parity (R272). DEDUCED: log entry 65. -/
def Eng.encodeFailed (e : Eng) (region row : Nat) : Eng :=
  match e.keep.encode.find? (fun c => c.todo.head? == some (region, row)) with
  | none => e
  | some c =>
    ((e.setKeep (fun k => { k with encode := k.encode.filter (fun x => x.cmd != c.cmd) })).encodeView).complete c.cmd
      stBeyondCode []

/-- The next chunk of an encoding is sought, or it is done. -/
def Eng.encodeNext (e : Eng) (c : Encode) : Eng :=
  match c.todo with
  | [] => e.encodeDone c
  | (region, row) :: _ => e.addRecon region row c.next 16 e.pos false 5 .encode

/-- A chunk of a parity leaf has come: it is written as engine writes, and the next one is sought (R239, R364). -/
def Eng.encodeChunk (e : Eng) (rc : Recon) : Eng :=
  match e.rgn? rc.region, e.keep.encode.find? (fun c => c.todo.head? == some (rc.region, rc.row)) with
  | some r, some c =>
    let e := e.each rc.got (fun s e => e.store (r.rowAddr rc.row + s.1 * sectorBytes) s.2)
    let next := rc.first + rc.count
    let e := if 256 ≤ next then e.setLeafState (r.leaf rc.row) 0 else e
    let c' := if 256 ≤ next then { c with todo := c.todo.drop 1, next := 0 } else { c with next := next }
    let e := e.setKeep (fun k => { k with encode := k.encode.map (fun x => if x.cmd == c.cmd then c' else x) })
    e.encodeView.encodeNext c'
  | _, _ => e

/-- An encoding begins: the data leaves of its regions stand as they are from now on, and every parity leaf that this engine
holds of them is to be built (R364). -/
def Eng.startEncode (e : Eng) (cmd : Nat) (why : EncodeWhy) (rs : List Rgn) (step ring : Nat) : Eng :=
  let rs := rs.filter (fun r => r.coded)
  let e := e.each rs (fun r e => ((e.discardOld r.num).unlagAll r).encodeLeaves r step ring)
  let e := if rs.any (fun r => r.ringed) then e.setCommitted ring else e
  let e : Eng := { e.wr Reg.GRV_LOG_STAT_RETIRED step with log := { e.log with asked := none } }
  let e := e.wr Reg.RBD_THICK_STAT_HOSTED (e.hosted.filter (fun h => h.built && !h.releasing)).length
  let c : Encode := { cmd := cmd, why := why, step := step, ring := ring, regions := rs.map (·.num), todo := e.ownParity rs,
                      next := 0 }
  let e := e.setKeep (fun k => { k with encode := k.encode ++ [c], encoded := (k.encoded ++ c.regions).eraseDups,
                                        answered := k.answered.filter (fun x => !c.regions.contains x.2.2.1) })
  e.encodeView.encodeNext c

/-- RE_LEAF (R364): a region, or 0xFFFF for every coded one. -/
def Eng.reLeaf (e : Eng) (cmd region step ring : Nat) : Eng :=
  let rs := if region = 0xFFFF then e.rgns.filter (fun r => r.coded)
    else (e.rgns.filter (fun r => r.num == region && r.coded))
  if !e.mayEncode || (region != 0xFFFF && rs.isEmpty) then e.refuse cmd rsRule []
  else e.startEncode cmd .reLeaf rs step ring

/-- A region is under re-leaf, restore or final adopt: runs that write it wait (R364). -/
def Eng.encoding (e : Eng) (region : Nat) : Bool := e.keep.encode.any (fun c => c.regions.contains region)

end Sys2Proof.Machine
end

