-- ==== Sys2Proof/Machine/Digest.lean ====
section
/-!
DEFINITION. Sys2Proof/Machine/Digest.lean: tensor digests (R373 to R377), weight digests (R378 to R380) and the recomputation of
quick digests (R372).
-/
namespace Sys2Proof.Machine

/-! ### Pieces (R373) -/

/-- The pieces of a region's data bytes in tensor coordinates: offset and length (R373). -/
def piecesOf (toff len : Nat) : List (Nat × Nat) :=
  let c0 := toff / tensorChunk
  let n := (toff + len + tensorChunk - 1) / tensorChunk - c0
  (List.range n).map (fun i =>
    let lo := max toff ((c0 + i) * tensorChunk)
    let hi := min (toff + len) ((c0 + i + 1) * tensorChunk)
    (lo, hi - lo))

/-- A piece record (R376) over the bytes of its piece. -/
def pieceRecord (region tag toff : Nat) (bs : List Byte) : List Byte :=
  let whole := decide (toff % tensorChunk = 0 ∧ bs.length = tensorChunk)
  natLe 2 region ++ [if whole then 1 else 0, 0] ++ natLe 4 tag ++ natLe 8 toff ++ natLe 8 bs.length ++ pieceDigest toff bs
    ++ zeros 8

/-- The result of TENSOR_DIGEST (R376, R508). -/
def digestResult (records whole bytes : Nat) : List Byte := natLe 8 records ++ natLe 8 whole ++ natLe 8 bytes

/-! ### The command (R375) -/

/-- A range of local memory is software-usable and in no region of class 1 to 4. -/
def Eng.plainRange (e : Eng) (a n : Nat) (also6 : Bool) : Bool :=
  a + n ≤ e.usableTop && !(e.rgns.any (fun r => (r.protectedCls || (also6 && r.cls == 6)) && a < r.base + r.len && r.base < a + n))

/-- TENSOR_DIGEST (R375 to R377). DEDUCED: log entry 67. -/
def Eng.tensorDigest (e : Eng) (cmd addr : Nat) : Eng :=
  if addr % 64 != 0 || e.usableTop < addr + 64 then e.refuse cmd rsRule []
  else
    let b := e.memRead addr 64
    let flags := fieldAt b 2 2
    let out := fieldAt b 8 8
    let outLen := fieldAt b 0x10 8
    let toff := fieldAt b 0x18 8
    match e.rgn? (fieldAt b 0 2) with
    | none => e.refuse cmd rsRule []
    | some r =>
      let quick := bit flags 0
      let rows := e.dataRows r
      let size := if quick then 16 * rows.length else 64 * (piecesOf toff (e.dataLen r)).length
      if !r.protectedCls || 2 ≤ flags || fieldAt b 4 4 != 0 || fieldAt b 0x20 32 != 0 || out % 64 != 0 ||
          !e.plainRange out outLen false || outLen < size then e.refuse cmd rsRule []
      else if quick then
        let e := e.each rows (fun row e => e.needDig (r.leaf row))
        let bs := rows.flatMap (fun row => natLe 4 row ++ zeros 4 ++ natLe 8 (e.dig (r.leaf row)).cur)
        (e.store out bs).complete cmd stOk (digestResult rows.length 0 0)
      else
        let h : HashJob := { cmd := cmd, region := r.num, toff := toff, out := out, todo := rows.map r.leaf, urgent := [],
                             reading := none, rows := [] }
        e.setKeep (fun k => { k with hashes := k.hashes ++ [h] })

def Eng.setHash (e : Eng) (h : HashJob) : Eng :=
  e.setKeep (fun k => { k with hashes := k.hashes.map (fun x => if x.cmd == h.cmd then h else x) })

/-- Every leaf has been hashed: the piece records go out (R376). -/
def Eng.hashDone (e : Eng) (h : HashJob) : Eng :=
  let e := e.setKeep (fun k => { k with hashes := k.hashes.filter (fun x => x.cmd != h.cmd) })
  match e.rgn? h.region with
  | none => e.complete h.cmd stInternal []
  | some r =>
    let data := h.rows.flatMap (·.2)
    let ps := piecesOf h.toff data.length
    let recs := ps.flatMap (fun p => pieceRecord r.num r.tag p.1 ((data.drop (p.1 - h.toff)).take p.2))
    let whole := (ps.filter (fun p => p.1 % tensorChunk == 0 && p.2 == tensorChunk)).length
    ((e.store h.out recs).complete h.cmd stOk (digestResult ps.length whole data.length)).releaseHeld

/-- A TENSOR_DIGEST reads its next leaf, urgent ones first (R377). DEDUCED: log entry 67. -/
def Eng.hashNext (e : Eng) (cmd : Nat) : Eng :=
  match e.keep.hashes.find? (fun h => h.cmd == cmd) with
  | none => e
  | some h =>
    if h.reading.isSome then e
    else match (h.urgent ++ h.todo).head? with
      | none => e.hashDone h
      | some leaf => (e.setHash { h with reading := some leaf }).askRead (leaf * leafBytes) leafBytes (.hashRead cmd leaf)

/-- The read of a leaf being hashed has completed; one that cannot be read ends the command (R328). DEDUCED: log entry 67. -/
def Eng.hashReadDone (e : Eng) (cmd leaf : Nat) (bads : List LineRead) : Eng :=
  let e := e.mendRead bads
  match e.keep.hashes.find? (fun h => h.cmd == cmd), e.leafAt leaf with
  | some h, some (_, row) =>
    match deadLines bads ++ ((List.range 16384).map (fun i => leaf * 16384 + i)).filter e.isUnrep with
    | l :: ls =>
      let e := e.each (l :: ls) (fun x e => e.unrepaired x)
      let e := e.setKeep (fun k => { k with hashes := k.hashes.filter (fun x => x.cmd != cmd) })
      (e.completeWith cmd stMemError 0 (64 * l) []).releaseHeld
    | [] =>
      let h' : HashJob := { h with todo := h.todo.filter (· != leaf), urgent := h.urgent.filter (· != leaf), reading := none,
                                   rows := put h.rows row (e.readAs bads (leaf * leafBytes) leafBytes) }
      (e.setHash h').releaseHeld.hashNext cmd
  | _, _ => e

/-! ### The weight digest (R378, R379) -/

/-- The quick digest of a leaf at step t; free where the table holds neither (R378).
DEDUCED: log entry 67. DEDUCED: log entry 84. -/
def Eng.digestAt (e : Eng) (r : Rgn) (row t : Nat) : Eng × List Byte :=
  let leaf := r.leaf row
  if !e.passedStep leaf t then
    let e := e.needDig leaf
    (e, natLe 8 (e.dig leaf).cur)
  else
    let d := e.dig leaf
    if d.priorValid && atOrBefore d.priorStamp t then (e, natLe 8 d.prior)
    else (e.useFree 8, e.freeBytes 8)

/-- The region digest at step t (R378). -/
def Eng.regionDigest (e : Eng) (r : Rgn) (t : Nat) : Eng × List Byte :=
  let (e, bs) := (e.dataRows r).foldl (fun (s : Eng × List Byte) row =>
    let (e, d) := s.1.digestAt r row t
    (e, s.2 ++ natLe 4 row ++ zeros 4 ++ d)) (e, [])
  (e, sha3_256 bs)

/-- The weight digest at step t (R378). -/
def Eng.weightDigestAt (e : Eng) (t : Nat) : Eng × List Byte :=
  let (e, bs) := (e.rgns.filter (fun r => r.streamed)).foldl (fun (s : Eng × List Byte) r =>
    let (e, d) := s.1.regionDigest r t
    (e, s.2 ++ natLe 2 r.num ++ zeros 2 ++ natLe 4 r.tag ++ d ++ zeros 8)) (e, [])
  (e, sha3_256 bs)

/-- What R379 asks before the weight digest at a step is formed. -/
def Eng.weightReady (e : Eng) (w : Nat) : Bool :=
  e.retireAsked w &&
  e.upd.runs.all (fun u => !atOrBefore u.step w || u.phase == .tier || u.phase == .ended || (e.writtenBy u).isEmpty)

/-- The engine forms the weight digest it owes first; the records that wait for it finish, and blocked spans go on (R379, R380). -/
def Eng.weightDigest (e : Eng) : Eng :=
  match e.openWeights.head? with
  | none => e
  | some w =>
    if !e.weightReady w then e
    else
      let (e, d) := e.weightDigestAt w
      ((e.keepWeight w d).finishReady).pumpRuns.anchorStep

/-- WEIGHT_DIGEST (R379). -/
def execWeightDigest (s : State) : Host.Outcome State Fault Refusal :=
  .next (s.run (fun e => if e.locked && e.serving && !e.boot.inReset then e.weightDigest else e))

/-- DIGEST_RECOMPUTE: the background sweep takes a leaf that is not current (R372). -/
def execDigestRecompute (leaf : BitVec 20) (s : State) : Host.Outcome State Fault Refusal :=
  .next (s.run (fun e =>
    if e.locked && e.serving && !e.boot.inReset && e.digLeaf (leaf.toNat * leafBytes) then e.needDig leaf.toNat else e))

end Sys2Proof.Machine
end

