-- ==== Sys2Proof/Machine/Restore.lean ====
section
/-!
DEFINITION. Sys2Proof/Machine/Restore.lean: anchor requests (R341 to R344), ANCHOR_RESTORE (R360 to R363) and ADOPT (R365 to R367).
-/
namespace Sys2Proof.Machine

/-! ### Requests for an anchor (R341, R342) -/

/-- A block at a local address, once. -/
def Eng.block (e : Eng) (a n : Nat) : Option (List Byte) := if e.usableTop < a + n then none else some (e.memRead a n)

/-- Shard entries of an anchor block; none where a reserved byte is not zero. -/
def shardEntries (n : Nat) (bs : List Byte) : Option (List (Nat × Nat × Nat)) :=
  let es := chunksOf 32 n bs
  if es.any (fun x => fieldAt x 2 6 != 0 || fieldAt x 0x18 8 != 0) then none
  else some (es.map (fun x => (fieldAt x 0 2, fieldAt x 8 8, fieldAt x 0x10 8)))

/-- The anchor in progress ends with no cut: its boundary has passed (R342). DEDUCED: log entry 64. -/
def Eng.anchorLate (e : Eng) : Eng :=
  match e.keep.anchor with
  | none => e
  | some a =>
    let e := e.setKeep (fun k => { k with anchor := none })
    (e.ancView.wr Reg.ANC_STAT_PHASE 0).complete a.cmd stLate []

/-- ANCHOR_WRITE (R341, R342, R358). DEDUCED: log entry 64. -/
def Eng.anchorWrite (e : Eng) (cmd addr : Nat) : Eng :=
  match (if addr % 64 = 0 then e.block addr 32 else none) with
  | none => e.refuse cmd rsRule []
  | some b =>
    let num := fieldAt b 8 8
    let flags := fieldAt b 0x14 2
    let nent := fieldAt b 0x16 2
    let byCount := bit flags 1
    match (if nent ≤ 4096 then (e.block (addr + 32) (32 * nent)).bind (shardEntries nent) else none) with
    | none => e.refuse cmd rsRule []
    | some shards =>
      if 4 ≤ flags || fieldAt b 0x18 8 != 0 then e.refuse cmd rsRule []
      else if bit flags 0 then
        match e.keep.anchor with
        | some a => if a.num == num then (e.abortAnchor stCancelled 0).complete cmd stOk [] else e.refuse cmd rsRule []
        | none => e.refuse cmd rsRule []
      else if e.keep.due.num.any (fun n => num ≤ n) then e.refuse cmd rsRule []
      else
        let step := if byCount then e.rd Reg.ANC_AT_COUNT else fieldAt b 0x10 4
        let passed := !byCount && e.rings.seenStep && atOrBefore step (e.rd Reg.GRV_BND_LAST_LAST_STEP)
        if passed then e.complete cmd stLate []
        else
          let e := e.setKeep (fun k => { k with picks := if k.picks.contains (byCount, step) then k.picks else k.picks ++ [(byCount, step)] })
          if e.keep.anchor.isSome then e.complete cmd stBusy []
          else if e.sec.amk.isNone then e.complete cmd stNoKey []
          else
            let a : Anchor :=
              { cmd := cmd, handle := fieldAt b 0 8, num := num, step := step, byCount := byCount, shards := shards, ring := 0,
                bnd := none, cut := false, regions := [], unsaved := [], urgent := [], waited := [], reading := [],
                saved := [], sent := 0, nUrgent := 0, part := .manifest, object := [], writing := none, retries := 0,
                ledger := none, cutB := 0, cutAt := 0 }
            (e.setKeep (fun k => { k with anchor := some a })).wr Reg.ANC_STAT_PHASE 1

/-- A request selects a boundary: by its STEP, or as the first qualifying one at or after its count (R342). -/
def pickHits (qual : Bool) (b : Bnd) (p : Bool × Nat) : Bool :=
  bit b.kind 0 && (if p.1 then qual && decide (p.2 ≤ b.count) else p.2 == b.step)

/-- A request whose STEP has passed selects no boundary any more. -/
def pickPassed (b : Bnd) (p : Bool × Nat) : Bool := bit b.kind 0 && !p.1 && precedes p.2 b.step

/-- ANCHOR_DUE_TIMER: the minutes reason falls due (R344). -/
def execAnchorDueTimer (s : State) : Host.Outcome State Fault Refusal :=
  .next (s.run (fun e => if e.locked && e.serving && !e.boot.inReset then e.dueCheck else e))

/-! ### ANCHOR_RESTORE (R360 to R363) -/

/-- Another restore or re-leaf of this engine stands, and no adopt, which has a further one refused (R360): it waits in its
queue. DEDUCED: log entry 65. -/
def Eng.encodeWaits (e : Eng) : Bool := !e.adopting && (e.keep.restore.isSome || !e.keep.encode.isEmpty)

/-- Source STEPs of the restores and adopts that have completed, or are in progress (R363). DEDUCED: log entry 65. -/
def Eng.sourceSteps (e : Eng) : List Nat :=
  e.keep.source.toList ++ (e.keep.restore.toList).map (·.step) ++
    (e.keep.encode.filter (fun c => match c.why with | .reLeaf => false | _ => true)).map (·.step)

/-- A restore or adopt names another source STEP than those before it (R363). DEDUCED: log entry 65. -/
def Eng.mixedStep (e : Eng) (step : Nat) : Bool := !e.keep.started && e.sourceSteps.any (· != step)

def Eng.setRestore (e : Eng) (x : Option Restore) : Eng := e.setKeep (fun k => { k with restore := x })

/-- ANCHOR_RESTORE with its 32 B block (R360). -/
def Eng.anchorRestore (e : Eng) (cmd addr : Nat) : Eng :=
  match e.block addr 32 with
  | none => e.refuse cmd rsRule []
  | some b =>
    let step := fieldAt b 0x10 4
    if fieldAt b 0x14 4 != 0 || !e.mayEncode then e.refuse cmd rsRule []
    else
      let e := e.wr Reg.ANC_RST_STAT_STEP step
      if e.mixedStep step then e.complete cmd stMixedStep []
      else if e.sec.amk.isNone then e.complete cmd stNoKey []
      else
        let x : Restore := { cmd := cmd, handle := fieldAt b 0 8, num := fieldAt b 8 8, step := step, len := fieldAt b 0x18 8,
                             part := .header, head := [], tail := [], got := [], off := 0, idx := 0 }
        (e.setRestore (some x)).emit (.storageRead x.handle 0 4096)

/-- The restore ends with a status. DESIGN CHOICE: log entry 66. -/
def Eng.restoreFails (e : Eng) (x : Restore) (status : Nat) : Eng :=
  ((e.setRestore none).wr Reg.ANC_RST_STAT_LEAVES 0).complete x.cmd status []

/-- The bytes of a range become undefined. DESIGN CHOICE: log entry 66. -/
def Eng.undefine (e : Eng) (a n : Nat) : Eng :=
  e.each (List.range (n / sectorBytes)) (fun i e => (e.useFree sectorBytes).store (a + i * sectorBytes) (e.freeBytes sectorBytes))

/-- A digest fails: the anchored regions are undefined (R361). -/
def Eng.restoreDigest (e : Eng) (x : Restore) : Eng :=
  let e := e.each (e.rgns.filter (·.anchored)) (fun r e => e.undefine r.base r.len)
  (e.bump Reg.ANC_ERR_DIGEST).restoreFails x stDigest

/-- Manifest entries of an object. -/
def Restore.regions (x : Restore) : Nat := fieldAt x.head 0x5C 2
def Restore.records (x : Restore) : Nat := fieldAt x.head 0x68 8

/-- Check 1: the header (R361). -/
def Restore.headOk (x : Restore) : Bool :=
  x.head.take 8 == ascii "SCE8ANCH" && fieldAt x.head 8 2 == 1 && fieldAt x.head 0xA 2 == 4096 &&
  fieldAt x.head 0x10 8 == x.num && fieldAt x.head 0x18 4 == x.step

/-- Check 2: the trailer is present, with its MAGIC and ANCHOR (R361). -/
def Restore.tailOk (x : Restore) : Bool :=
  x.tail.take 8 == ascii "SCE8TAIL" && fieldAt x.tail 8 8 == x.num && x.tail.length == 128

/-- Check 2: the trailer's TAG, under the key for the header's ANCHOR and PLACE (R361, R404). -/
def Restore.tailTag (x : Restore) (key : List Byte) : Bool :=
  (gcmSeal key (List.replicate 12 0xFF) (x.tail.take 112) []).2 == x.tail.drop 112

/-- Check 3: the structure (R361). -/
def Eng.structureOk (e : Eng) (x : Restore) : Bool :=
  fieldAt x.head 0x24 1 == e.pos && fieldAt x.head 0x25 1 == e.w && fieldAt x.head 0x26 1 == e.m &&
  (x.head.drop 0x28).take 32 == e.layoutDigest && fieldAt x.head 0x48 8 == e.rd Reg.GRV_RGN_DIGEST_DIGEST

/-- Check 4: the manifest lists every anchored region (R361). -/
def Eng.manifestOk (e : Eng) (m : List Byte) (n : Nat) : Bool :=
  let es := chunksOf 64 n m
  (e.rgns.filter (·.anchored)).all (fun r => es.any (fun x =>
    fieldAt x 0 2 == r.num && fieldAt x 2 1 == r.cls && fieldAt x 0x10 8 == r.len && fieldAt x 0xC 4 == (e.dataRows r).length))

/-- Check 5 (R361). -/
def Eng.restoreDiff (e : Eng) (x : Restore) : Eng :=
  if fieldAt x.head 0x58 4 != e.rd Reg.GEN_ID_FW_VERSION || fieldAt x.head 0x50 8 != e.rd Reg.UPD_UPROG_DIGEST_DIGEST ||
      fieldAt x.head 0x27 1 != e.rd Reg.UPD_CTL_STRICT then
    (e.flag Reg.ANC_RST_STAT_DIFF true).raise .RESTORE_DIFF
  else e

/-- Thickening rows, windows, applied records, log copies and staging are discarded (R362). -/
def Eng.restoreDiscards (e : Eng) : Eng :=
  let e := e.each e.rgns (fun r e => (e.discardOld r.num).unlagAll r)
  { e with log := { e.log with held := [], outs := [], refused := [], bytes := [] } }

/-- Every record is in memory and the object's digest has been checked: parity is built (R361, R362). -/
def Eng.restoreEnd (e : Eng) (x : Restore) (rest : List Byte) : Eng :=
  if sha3_256 (x.got ++ rest) != (x.tail.drop 0x28).take 32 then e.restoreDigest x
  else
    let ring := fieldAt x.head 0x1C 4
    let result := natLe 8 x.num ++ natLe 4 x.step ++ natLe 4 ring ++ natLe 8 x.records
    let e := ((e.setRestore none).setCommitted ring).setChain (macOf ((x.head.drop 0x80).take 256)) false
    e.startEncode x.cmd (.restore result) e.rgns x.step ring

/-- The next thing that a restore reads: a record, or what follows the last. -/
def Eng.restoreNext (e : Eng) (x : Restore) : Eng :=
  if x.idx < x.records then
    (e.setRestore (some { x with part := .records })).emit (.storageRead x.handle x.off 64)
  else if x.len ≤ x.off + 128 then e.restoreEnd x []
  else (e.setRestore (some { x with part := .rest })).emit (.storageRead x.handle x.off (x.len - 128 - x.off))

/-- LEAVES of a restore. -/
def Eng.restoreView (e : Eng) (x : Restore) : Eng :=
  e.wr Reg.ANC_RST_STAT_LEAVES (x.records - x.idx + (e.ownParity e.rgns).length)

/-- A leaf record has come whole: header, payload, tag (R353, R361, R362). -/
def Eng.restoreRecord (e : Eng) (x : Restore) (key rec : List Byte) : Eng :=
  let head := rec.take 48
  let zero := bit (fieldAt head 6 1) 0
  let ct := if zero then [] else (rec.drop 48).take leafBytes
  match gcmOpen key (natLe 8 x.idx ++ zeros 4) head ct (rec.drop (48 + ct.length)) with
  | none => (e.authFail Reg.SEC_AUTH_FAIL_ANCHOR).restoreDigest x
  | some pt =>
    let data := if zero then zeros leafBytes else pt
    if sha3_256 data != (head.drop 16).take 32 then e.restoreDigest x
    else
      let e := match e.rgn? (fieldAt head 4 2) with
        | some r => e.store (r.rowAddr (fieldAt head 8 4)) data
        | none => e
      let x' := { x with got := x.got ++ rec, off := x.off + rec.length, idx := x.idx + 1 }
      (e.restoreView x').restoreNext x'

/-- The storage path answers the read of a restore (R361). -/
def Eng.restoreRead (e : Eng) (data : Option (List Byte)) : Eng :=
  match e.keep.restore with
  | none => e
  | some x =>
    match data, e.anchorKey x.num (fieldAt x.head 0x20 4 % 2 ^ 20) with
    | none, _ => e.restoreFails x stStorageError
    | _, none => e.restoreFails x stNoKey
    | some d, some key =>
      match x.part with
      | .header =>
        let x := { x with head := padTo 4096 d, got := d }
        if !x.headOk then e.restoreFails x stBadObject
        else if x.len < 4224 then e.restoreFails x stNoTrailer
        else (e.setRestore (some { x with part := .trailer })).emit (.storageRead x.handle (x.len - 128) 128)
      | .trailer =>
        let x := { x with tail := d }
        if !x.tailOk then e.restoreFails x stNoTrailer
        else if !x.tailTag key then (e.authFail Reg.SEC_AUTH_FAIL_ANCHOR).restoreFails x stNoTrailer
        else if !e.structureOk x then e.restoreFails x stStructure
        else (e.setRestore (some { x with part := .manifest })).emit (.storageRead x.handle 4096 (64 * x.regions))
      | .manifest =>
        if !e.manifestOk d x.regions then e.restoreFails x stStructure
        else
          let x := { x with got := x.got ++ d, off := 4096 + d.length }
          let e := (e.restoreDiff x).restoreDiscards
          (e.restoreView x).restoreNext x
      | .records =>
        if bit (fieldAt d 6 1) 0 then e.restoreRecord x key d
        else
          (e.setRestore (some { x with part := .body, got := x.got ++ d, off := x.off + 64 })).emit
            (.storageRead x.handle (x.off + 64) leafBytes)
      | .body =>
        let n := x.got.length - 64
        e.restoreRecord { x with got := x.got.take n, off := x.off - 64 } key (x.got.drop n ++ d)
      | .rest => e.restoreEnd x d

/-! ### ADOPT (R365 to R367) -/

/-- Data bytes of a region from an index on. -/
def Eng.dataRead (e : Eng) (r : Rgn) (i n : Nat) : List Byte :=
  let rows := (e.dataRows r).zipIdx.filter (fun x => i < (x.2 + 1) * leafBytes && x.2 * leafBytes < i + n)
  rows.flatMap (fun x =>
    let lo := max i (x.2 * leafBytes)
    let hi := min (i + n) ((x.2 + 1) * leafBytes)
    e.memRead (r.rowAddr x.1 + lo % leafBytes) (hi - lo))

/-- Data bytes of a region written as engine writes, parity leaves skipped (R366). -/
def Eng.dataWrite (e : Eng) (r : Rgn) (i : Nat) (bs : List Byte) : Eng :=
  let rows := (e.dataRows r).zipIdx.filter (fun x => i < (x.2 + 1) * leafBytes && x.2 * leafBytes < i + bs.length)
  e.each rows (fun x e =>
    let lo := max i (x.2 * leafBytes)
    let hi := min (i + bs.length) ((x.2 + 1) * leafBytes)
    e.store (r.rowAddr x.1 + lo % leafBytes) ((bs.drop (lo - i)).take (hi - lo)))

/-- An adopt block that breaks R365 or R366. DEDUCED: log entry 65. -/
def Eng.badAdopt (e : Eng) (b : List Byte) (r : Rgn) : Bool :=
  let f := fieldAt b
  let src := f 0 8
  let len := f 8 8
  let ndig := f 0x38 4
  let last := bit (f 0x12 2) 0
  src % 4096 != 0 || len = 0 || len % 4096 != 0 || !e.plainRange src len true || 2 ≤ f 0x12 2 || f 0x3C 4 != 0 ||
  f 0x48 56 != 0 || 65536 < ndig || !r.anchored || e.dataLen r < f 0x18 8 + len ||
  (last && (match e.block (f 0x40 8) (48 * ndig) with
    | none => true
    | some d => (chunksOf 48 ndig d).any (fun x => 2 ≤ fieldAt x 0 1 || fieldAt x 1 7 != 0)))

/-- One digest entry: whether its chunk is whole in the region, or its leaf a data leaf, and whether the digest matches
(R367). -/
def Eng.digestEntry (e : Eng) (r : Rgn) (toff : Nat) (x : List Byte) : Bool × Bool :=
  let i := fieldAt x 8 8
  let want := (x.drop 16).take 32
  if fieldAt x 0 1 = 0 then
    let whole := (wholeChunks toff (e.dataLen r)).contains i
    (whole, pieceDigest (tensorChunk * i) (e.dataRead r (tensorChunk * i - toff) tensorChunk) == want)
  else
    let isData := (e.dataRows r).contains i
    (isData, sha3_256 (e.memRead (r.rowAddr i) leafBytes) == want)

/-- ADOPT has copied its bytes, and starts a new chain of ledger records (R388): without LAST it is done; with LAST the region is verified, and encoded (R366, R367).
DEDUCED: log entry 65. -/
def Eng.adoptEnd (e : Eng) (cmd : Nat) (b : List Byte) (r : Rgn) : Eng :=
  let f := fieldAt b
  let step := f 0x30 4
  let ring := f 0x34 4
  let result := fun (chunks leaves : Nat) =>
    natLe 8 (f 0x28 8) ++ natLe 4 (f 0x14 4) ++ natLe 4 r.tag ++ natLe 8 (f 8 8) ++ natLe 4 chunks ++ natLe 4 leaves
  let e := e.setChain [] true
  let done := fun (e : Eng) => if e.keep.started then e else e.setKeep (fun k => { k with source := some step })
  if !bit (f 0x12 2) 0 then (done e).complete cmd stOk (result 0 0)
  else
    let es := chunksOf 48 (f 0x38 4) (e.memRead (f 0x40 8) (48 * f 0x38 4))
    let leaves := (es.filter (fun x => fieldAt x 0 1 == 1)).length
    let e := if leaves = 0 then e else (e.flag Reg.ANC_RST_STAT_CHUNK_WARN true).raise .ADOPT_DOWNGRADED
    let checks := es.map (e.digestEntry r (f 0x20 8))
    if checks.any (fun c => !c.1 || !c.2) then
      (e.bumpBy Reg.ANC_ERR_DIGEST (checks.filter (fun c => c.1 && !c.2)).length).complete cmd stDigest []
    else
      let res := result (es.length - leaves) leaves
      if r.coded then e.startEncode cmd (.adopt res) [r] step ring
      else ((done e).complete cmd stOk res).copyMirrors [r] step ring

/-- ADOPT (R365 to R367). Before the first ring or run it needs what a restore needs; afterwards it only reloads an
anchored-only region. -/
def Eng.adopt (e : Eng) (cmd addr : Nat) : Eng :=
  match e.block addr 128 with
  | none => e.refuse cmd rsRule []
  | some b =>
    match e.rgn? (fieldAt b 0x10 2) with
    | none => e.refuse cmd rsRule []
    | some r =>
      let step := fieldAt b 0x30 4
      if e.badAdopt b r || (if e.keep.started then r.cls != 6 else !e.mayEncode) then e.refuse cmd rsRule []
      else
        let e := e.wr Reg.ANC_RST_STAT_STEP step
        if e.mixedStep step then e.complete cmd stMixedStep []
        else if fieldAt b 0x28 8 != 0 && e.sec.amk.isNone then e.complete cmd stNoKey []
        else
          let src := fieldAt b 0 8
          let len := fieldAt b 8 8
          match e.unrep.find? (fun l => src ≤ 64 * l && 64 * l < src + len) with
          | some l => e.completeWith cmd stMemError 0 (64 * l) []
          | none => (e.dataWrite r (fieldAt b 0x18 8) (e.memRead src len)).adoptEnd cmd b r

end Sys2Proof.Machine
end

