-- ==== Sys2Proof/Machine/Graft.lean ====
section
/-!
DEFINITION. Sys2Proof/Machine/Graft.lean: building parity rows (R249 to R251), grafting a spare into a lost position (R252 to R263),
replay (R149 to R153), and what each finished reconstruction is used for.
-/
namespace Sys2Proof.Machine

/-! ### Building a parity row (R249 to R251) -/

/-- The position of the parity row a builder seeks: its own. The records and the staging of the row start afresh (R250). -/
def Eng.startRow (e : Eng) (r : Rgn) (row : Nat) (thick : Bool) (prio : Nat) : Eng :=
  let mine := fun (region rw : Nat) (t : Bool) => region == r.num && rw == row && t == thick
  let e : Eng := { e with
    builds := (e.builds.filter (fun b => !mine b.region b.row b.thick)) ++
      [{ region := r.num, row := row, thick := thick, next := 0, rings := [], last := none }],
    applied := e.applied.filter (fun a => !mine a.region a.row a.thick),
    window := e.window.filter (fun x => !mine x.region x.row x.thick) }
  let e := e.setRings (fun g => { g with stages := g.stages.filter (fun s => !mine s.region s.row s.thick),
                                         applies := g.applies.filter (fun j => !mine j.region j.row j.thick) })
  let e := if thick then e else e.setLeafState (r.leaf row) 5
  e.addRecon r.num row 0 16 e.pos thick prio .row

/-- Rows hosted now, as the register counts them. -/
def Eng.thickView (e : Eng) : Eng :=
  e.wr Reg.RBD_THICK_STAT_HOSTED (e.hosted.filter (fun h => h.built && !h.releasing)).length

/-- A hosted row is freed with its staging, its records and what waits for it (R266). -/
def Eng.freeRow (e : Eng) (region row : Nat) : Eng :=
  let mine := fun (rg rw : Nat) (t : Bool) => t && rg == region && rw == row
  let e : Eng := { e with
    hosted := e.hosted.filter (fun h => !(h.region == region && h.row == row)),
    applied := e.applied.filter (fun a => !mine a.region a.row a.thick),
    window := e.window.filter (fun x => !mine x.region x.row x.thick),
    waits := e.waits.filter (fun p => !mine p.region p.row p.thick) }
  e.setRings (fun g => { g with stages := g.stages.filter (fun s => !mine s.region s.row s.thick),
                                applies := g.applies.filter (fun j => !mine j.region j.row j.thick) })

/-- A THICK_NOTE to every present member: the owners' destinations change with it, and every other member learns whether a decode
can count the row (R54, R265, R266). DEDUCED: log entry 32. -/
def Eng.thickNote (e : Eng) (region row status : Nat) : Eng :=
  e.sendAll { typ := tThickNote, region := region, row := row, sector := status }

/-- A host releases a row (R266): its members hear of it, and it counts in no decode from then on; a row not yet built is given up.
It is freed once the last THICK packet of every owner has been acknowledged. DEDUCED: log entry 34. -/
def Eng.releaseRow (h : Hosted) (e : Eng) : Eng :=
  if h.releasing then e
  else
    let left := (e.owners h.row).filter (· != e.pos)
    let e := if h.built then e else e.giveUpRow h.region h.row true
    let e : Eng := { e with hosted := e.hosted.map (fun (x : Hosted) =>
      if x.region == h.region && x.row == h.row then { x with releasing := true, built := true, provisional := false, left := left } else x) }
    let e := (e.thickNote h.region h.row 2).thickView
    if left.isEmpty then e.freeRow h.region h.row else e

/-- Rows hosted for a position, or all that a test selects, are released. -/
def Eng.releaseRows (e : Eng) (sel : Hosted → Bool) : Eng := e.each (e.hosted.filter sel) Eng.releaseRow

/-- An owner's last THICK packet for a row in release has been acknowledged, or the owner is lost: with the last of them the row is
freed (R266). -/
def Eng.ownerGone (e : Eng) (q : Nat) (h : Hosted) : Eng :=
  let left := h.left.filter (· != q)
  if !h.releasing then e
  else if left.isEmpty then e.freeRow h.region h.row
  else { e with hosted := e.hosted.map (fun x => if x == h then { x with left := left } else x) }

/-- A row is built: provisional while a ring that was uncommitted at a snapshot still is (R251). -/
def Eng.rowBuilt (e : Eng) (r : Rgn) (b : RowBuild) : Eng :=
  let rs := b.rings.filter (fun n => !atOrBefore n e.committed)
  let rest := e.builds.filter (fun x => !(x.region == b.region && x.row == b.row && x.thick == b.thick))
  if b.thick then
    let hs := e.hosted.map (fun (h : Hosted) =>
      if h.region == b.region && h.row == b.row then { h with built := true, rings := rs, provisional := !rs.isEmpty } else h)
    let e : Eng := { e with builds := rest, hosted := hs }
    let e := (e.bump Reg.RBD_THICK_STAT_BUILT).thickView
    (e.thickNote b.region b.row 1).drainWaits
  else
    let e : Eng := { e with builds := rest ++ (if rs.isEmpty then [] else [{ b with next := 256, rings := rs }]) }
    let e := e.updCtx (r.leaf b.row) (fun c => { c with st := 0, ring := if r.ringed then e.committed else c.ring })
    (e.drainWaits.releaseHeld).retryTaps

/-- Another leaf of this graft is urgent and still to be rebuilt: no chunk of a leaf that is not goes before it (R260). -/
def Eng.urgentWaits (e : Eng) (l : Nat × Nat) : Bool :=
  e.graft.any (fun g => !g.urgent.contains l && g.urgent.any (fun u => match e.rgn? u.1 with
    | some r => e.isRebuilding (r.leaf u.2)
    | none => false))

/-- A chunk of a row has come: it is written, and the next one is sought (R249); an urgent leaf goes before that (R260). -/
def Eng.rowChunk (e : Eng) (c : Recon) : Eng :=
  match e.rgn? c.region, e.buildOf c.region c.row c.thick with
  | some r, some b =>
    let e := e.each c.got (fun s e =>
      if c.thick then
        { e with hosted := e.hosted.map (fun h => if h.region == c.region && h.row == c.row then { h with secs := put h.secs s.1 s.2 } else h) }
      else e.store (r.rowAddr c.row + s.1 * sectorBytes) s.2)
    let b' := { b with next := c.first + c.count }
    let e : Eng := { e with builds := e.builds.map (fun x => if x == b then b' else x) }
    if 256 ≤ b'.next then e.rowBuilt r b'
    else if !c.thick && e.urgentWaits (c.region, c.row) then e
    else e.addRecon c.region c.row b'.next 16 c.lost c.thick c.prio .row
  | _, _ => e

/-- A row that cannot be built: a thickening row is released, a parity leaf is degraded, its stripe beyond the code (R249, R266). -/
def Eng.rowFailed (e : Eng) (c : Recon) : Eng :=
  if c.thick then e.releaseRows (fun h => h.region == c.region && h.row == c.row)
  else match e.rgn? c.region with
    | some r => (((e.giveUpRow c.region c.row false).setLeafState (r.leaf c.row) 4).releaseHeld).retryTaps
    | none => e

/-- A SNAP_NOTE at the builder (R250). -/
def Eng.rxSnapNote (e : Eng) (p : Pkt) : Eng :=
  match e.rgn? p.region, e.buildOf p.region p.row p.thick with
  | some r, some b =>
    if 256 ≤ b.next || e.k ≤ roleOf e.w p.src p.row then e.malformed
    else if r.streamed then
      e.setApplied { region := p.region, row := p.row, src := p.src, thick := p.thick, a := p.seq, aStamp := p.stamp,
                     aSector := p.sector, rel := p.seq, relStamp := p.stamp, relSector := p.sector }
    else if atOrBefore p.stamp e.committed then e
    else
      let s : Stage := { ring := p.stamp, region := p.region, row := p.row, src := p.src, thick := p.thick, ah := p.seq, secs := [],
                         usable := true }
      let e := e.setRings (fun g => { g with stages :=
        (g.stages.filter (fun x => !x.same p.stamp p.region p.row p.src p.thick)) ++ [s] })
      let rs := if b.rings.contains p.stamp then b.rings else b.rings ++ [p.stamp]
      { e with builds := e.builds.map (fun x => if x == b then { b with rings := rs } else x) }
  | _, _ => e.malformed

/-- A degraded parity leaf that its holder can build again now (R251). -/
def Eng.regenerable (e : Eng) : Option (Rgn × Nat) :=
  ((e.ctxs.filter (fun c => c.2.under == 4)).filterMap (fun c => e.leafAt c.1)).find? (fun x =>
    x.1.coded && e.isParityRow x.1 x.2 &&
    (!x.1.ringed || (e.rings.commits.isEmpty && !e.rolling && e.rings.nextN.isNone &&
      !(e.oldLost.any (fun l => l.1 == x.1.num && l.2.1 == x.2 && !atOrBefore l.2.2 e.committed)))))

/-- A hosted row whose staging could not be read is built again once the apply has ended (R190). -/
def Eng.rebuildHosted (e : Eng) : Eng :=
  let todo := fun (h : Hosted) => !h.built && !h.releasing && (e.buildOf h.region h.row true).isNone
  match (e.hosted.find? todo).bind (fun h => (e.rgn? h.region).map (fun r => (h, r))) with
  | some (h, r) =>
    if (r.ringed && (!e.rings.commits.isEmpty || e.rolling || e.rings.nextN.isSome)) || (e.chainFor r h.row e.w []).isNone then e
    else e.startRow r h.row true 5
  | none => e

/-- A holder regenerates its degraded parity leaves and hosted rows, one at a time (R190, R251). -/
def Eng.regenerate (e : Eng) : Eng :=
  if !e.locked || !e.serving || e.boot.inReset || e.graft.isSome || e.builds.any (fun b => b.next < 256) then e
  else match e.regenerable with
    | some (r, row) =>
      match e.chainFor r row (e.role row) [] with
      | some _ =>
        let e : Eng := { e with oldLost := e.oldLost.filter (fun l => !(l.1 == r.num && l.2.1 == row)) }
        e.startRow r row false 5
      | none => e
    | none => e.rebuildHosted

/-- Rows, built or being built, that a ring now rolled back was uncommitted at a snapshot of: a parity leaf is degraded, to be built
again; a thickening row is released (R251). -/
def Eng.rollRows (e : Eng) (c : Nat) : Eng :=
  let hit := fun (rs : List Nat) => rs.any (fun n => precedes c n)
  let bs := e.builds.filter (fun b => hit b.rings)
  let e := e.each (bs.filter (fun b => !b.thick)) (fun b e => match e.rgn? b.region with
    | some r => (if 256 ≤ b.next then { e with builds := e.builds.filter (· != b) } else e.giveUpRow b.region b.row false).setLeafState
        (r.leaf b.row) 4
    | none => e)
  e.releaseRows (fun h => (h.provisional && hit h.rings) || bs.any (fun b => b.thick && b.region == h.region && b.row == h.row))

/-- A committed ring leaves the provisional rows (R251). -/
def Eng.commitRows (e : Eng) (n : Nat) : Eng :=
  let bs := e.builds.map (fun (b : RowBuild) => if 256 ≤ b.next then { b with rings := b.rings.filter (· != n) } else b)
  { e with builds := bs.filter (fun b => b.next < 256 || !b.rings.isEmpty) }

/-! ### The spare's view -/

def Eng.setGraft (e : Eng) (f : Graft → Graft) : Eng := { e with graft := e.graft.map f }

/-- What was handed on to a spare goes with its graft. -/
def Eng.dropHanded (e : Eng) : Eng := { e with log := { e.log with held := e.log.held.filter (fun h => h.via.isNone) } }

/-- Phases of a graft (R256). -/
def phJoin : Nat := 1
def phResume : Nat := 2
def phMirror : Nat := 3
def phRinged : Nat := 4
def phBackground : Nat := 5
def phDone : Nat := 6
def phAborted : Nat := 7

def Eng.graftPhase (e : Eng) : Nat := e.rd Reg.RBD_GRAFT_STAT_PHASE

/-- Leaves still to rebuild. -/
def Eng.graftView (e : Eng) : Eng :=
  e.wr Reg.RBD_GRAFT_STAT_LEAVES (e.ctxs.filter (fun c => c.2.under == 5)).length

/-- The result of the graft's commands (R508). -/
def Eng.graftResult (e : Eng) (reason x : Nat) (tags : List Nat) : List Byte :=
  let ts := (tags.mergeSort (· ≤ ·)).eraseDups
  [byteOf reason, byteOf x] ++ natLe 2 ts.length ++ natLe 4 e.place ++ natLe 4 (e.rd Reg.RBD_GRAFT_STAT_LEAVES) ++ zeros 4
    ++ padTo 96 ((ts.take 24).flatMap (natLe 4))

/-- The phase goes to every present member (R256). -/
def Eng.announce (e : Eng) (ph : Nat) : Eng :=
  (e.wr Reg.RBD_GRAFT_STAT_PHASE ph).sendAll { typ := tGraftPhase, sector := ph }

/-- The digests that admission compares (R253): 8 B each, and the firmware version. -/
def Eng.joinLine (e : Eng) : List Byte :=
  padTo 64 (natLe 8 (e.rd (Reg.GRV_LAYOUT_DIGEST 0)) ++ natLe 8 (e.rd Reg.GRV_RGN_DIGEST_DIGEST)
    ++ natLe 8 (e.rd Reg.UPD_UPROG_DIGEST_DIGEST) ++ natLe 4 (e.rd Reg.GEN_ID_FW_VERSION))

/-- Every leaf that a graft rebuilds is marked rebuilding; anchored-only regions read as zero and are reported (R84, R258,
R260). -/
def Eng.graftLeaves (e : Eng) : Eng :=
  let e := e.each (e.rgns.filter (fun r => r.protectedCls)) (fun r e =>
    e.each (List.range r.rows) (fun s e => e.setLeafState (r.leaf s) 5))
  e.each (e.rgns.filter (fun r => r.cls == 6)) (fun r e => (e.store r.base (zeros r.len)).raise .ANCHORED_LOST)

/-- The graft ends at a refusal (R253, R263). -/
def Eng.refuseGraft (e : Eng) (reason : Nat) : Eng :=
  match e.graft with
  | none => e
  | some g =>
    let e := (e.announce phAborted).flag Reg.RBD_GRAFT_STAT_HOLD false
    let data := e.graftResult reason g.x g.missing
    let e : Eng := { e.dropHanded with graft := none, recons := e.recons.filter (fun c => !(c.why == .leaf || c.why == .row)), builds := [] }
    let e := e.noteGraftEdge (!g.standby)
    let e := match g.cmd with | some c => e.completeWith c stGraftRefused 0 0 data | none => e
    let e := match g.resume with | some c => e.completeWith c stGraftRefused 0 0 data | none => e
    e.releaseWhere (fun _ => false)

/-! ### Replay (R149 to R153) -/

/-- An access or a span needs a leaf that is being rebuilt: it becomes urgent (R260). -/
def Eng.urgent (e : Eng) (leaf : Nat) : Eng :=
  match e.leafAt leaf with
  | some (r, row) =>
    if e.isRebuilding leaf then e.setGraft (fun g =>
      if g.urgent.contains (r.num, row) || g.standby then g else { g with urgent := g.urgent ++ [(r.num, row)] })
    else e
  | none => e

/-- Slices of the newest step that feed a region are missing (R152). -/
def Eng.noteMissing (e : Eng) (r : Rgn) : Eng :=
  let e := if e.on Reg.GRV_REPLAY_STAT_INCOMPLETE then e
    else (e.flag Reg.GRV_REPLAY_STAT_INCOMPLETE true).raise .LOG_INCOMPLETE
  e.setGraft (fun g => { g with missing := if g.missing.contains r.tag then g.missing else g.missing ++ [r.tag] })

/-- TARGET: the newest logged step (R149). -/
def Eng.replayTarget (e : Eng) (x : Nat) : Eng :=
  match e.newestLogged x with
  | some t => e.wr Reg.GRV_REPLAY_STAT_TARGET t
  | none => e

/-- The replay record of a leaf. -/
def Graft.replayAt (g : Graft) (region row : Nat) : Option Replay := g.replays.find? (fun p => p.region == region && p.row == row)

/-- A leaf of this graft is under replay: it has passes left. -/
def Graft.replaying (g : Graft) (l : Nat × Nat) : Bool := (g.replayAt l.1 l.2).any (fun p => !p.todo.isEmpty)
def Eng.underReplay (e : Eng) (l : Nat × Nat) : Bool := e.graft.any (fun g => g.replaying l)

def Eng.setReplay (e : Eng) (p : Replay) : Eng :=
  e.setGraft (fun g => { g with replays := g.replays.map (fun q => if q.region == p.region && q.row == p.row then p else q) })

/-- A gap is reported once, with the first missing step (R153). -/
def Eng.noteGap (e : Eng) (t : Nat) : Eng :=
  if e.on Reg.GRV_REPLAY_STAT_GAP then e
  else ((e.flag Reg.GRV_REPLAY_STAT_GAP true).setGraft (fun g => { g with gap := some t })).raise .REPLAY_GAP

/-- What is left to replay of a leaf, as the log stands now; at a gap nothing is (R153). -/
def Eng.planReplay (e : Eng) (x : Nat) (r : Rgn) (p : Replay) : Eng :=
  match e.replayGap x r p.row p.cut with
  | some t => (e.setReplay { p with todo := [] }).noteGap t
  | none => e.setReplay { p with todo := e.replayTodo x r p.row p.cut p.did }

/-- A leaf stands at its cut: its passes are replayed in ascending step, and within a step in ascending sector (R149, R150). At a gap it
stays there, and the first missing step is reported (R153). -/
def Eng.startReplay (e : Eng) (x : Nat) (r : Rgn) (row : Nat) (c : Cut) : Eng :=
  let p : Replay := { region := r.num, row := row, cut := c, todo := [], did := [] }
  let e := e.setGraft (fun g => { g with
    replays := g.replays.filter (fun q => !(q.region == r.num && q.row == row)) ++ [p] })
  (e.replayTarget x).planReplay x r p

/-- A pass is noted as replayed over a sector, with what the log fed of it; bytes that it overwrote stay at hand (R150, R223). -/
def Eng.didSector (e : Eng) (p : Replay) (t s fed a : Nat) (old : List Byte) : Eng :=
  (e.setReplay { p with todo := p.todo.filter (· != (t, s)),
                        did := p.did.filter (fun d => !(d.1 == t && d.2.1 == s)) ++ [(t, s, fed)] }).setGraft (fun g =>
    let m := (look g.olds t).getD []
    { g with olds := put g.olds t (old.zipIdx.foldl (fun m b =>
        if (look m (a + b.2)).isSome then m else put m (a + b.2) b.1) m) })

/-- The first writing pass of a step reaches a leaf of a replay: its heat, and the copy of R371. -/
def Eng.beginReplayed (e : Eng) (leaf t : Nat) : Eng :=
  if (e.dig leaf).begun = some t then e
  else (e.updCtx leaf (fun c => { c with heat := min 255 (c.heat + 1) })).copyDig leaf t

/-- One replayed pass over one sector, an ordinary update pass: the bytes that the original pass wrote, and their delta (R150, R151).
Leaves that it reads must stand before the pass: one not yet rebuilt so far becomes urgent, and the pass waits, answering false; where
one stands past it or is lost, the bytes are Config.replayed (DESIGN CHOICE, log entry 31). -/
def Eng.replaySector (x : Nat) (r : Rgn) (p : Replay) (t s : Nat) (e : Eng) : Eng × Bool :=
  match e.graft, e.passOver x t r p.row with
  | some g, some o =>
    match e.passVals x t o.pass with
    | none => (e.setReplay { p with todo := p.todo.filter (· != (t, s)) }, true)
    | some v =>
      let u := passRun x t o.pass v.scal ((look g.olds t).getD [])
      let reads := e.sectorsRead u (e.sectorElems x u o.leaf s)
      let late := reads.filter (fun q => e.stands g t q == .notYet)
      if !late.isEmpty then
        (e.each late (fun q e => match e.rgn? q.1 with | some g => e.urgent (g.leaf q.2.1) | none => e), false)
      else
        let a := r.rowAddr p.row + s * sectorBytes
        let old := e.memRead a sectorBytes
        let new := if reads.any (fun q => e.stands g t q == .past) then
            (List.range sectorBytes).map (Config.replayed (e.replayIn x r p.row t s))
          else e.passSector x u v.keys r p.row o.leaf s
        let e := (e.beginReplayed (r.leaf p.row) t).didSector p t s (e.sectorFed x u o.leaf s) a old
        ((e.store a new).sendStream r p.row s t (xorBytes old new), true)
  | _, _ => (e.setReplay { p with todo := p.todo.filter (· != (t, s)) }, true)

/-- A replay goes on while the limits of R116 and the drain of R147 let the leaf send; with the last sector of a step whose slices are
all logged the leaf takes its stamp (R128, R145, R150, R152). -/
def Eng.replayRun (x : Nat) (r : Rgn) (row : Nat) : Nat → Eng → Eng
  | 0, e => e
  | fuel + 1, e =>
    match e.graft.bind (fun g => g.replayAt r.num row) with
    | none => e
    | some p =>
      match p.todo with
      | [] => e
      | (t, s) :: rest =>
        if !e.windowOpen r row || e.draining.contains (r.num, row) then e
        else match Eng.replaySector x r p t s e with
          | (e, false) => e
          | (e, true) =>
            let whole := (e.replayOf x r row p.cut t).2
            let e := if rest.any (fun d => d.1 == t) || !whole then e
              else e.updCtx (r.leaf row) (fun c => { c with stamp := t })
            Eng.replayRun x r row fuel e

/-! ### Leaves (R256 to R260) -/

/-- A leaf of the spare is still to be rebuilt. -/
def Eng.toRebuild (e : Eng) (l : Nat × Nat) : Bool :=
  match e.rgn? l.1 with | some r => e.isRebuilding (r.leaf l.2) | none => false

/-- Heat of an own leaf as x's log partner last had it (R257). -/
def Eng.copiedHeat (e : Eng) (x leaf : Nat) : Nat :=
  ((e.heats.find? (fun h => h.1 == x)).bind (fun h => look h.2 leaf)).getD 0

/-- Leaves in descending heat, ties to ascending leaf index. -/
def Eng.byHeat (e : Eng) (x : Nat) (ls : List (Rgn × Nat)) : List (Nat × Nat) :=
  let key := fun (l : Rgn × Nat) => if e.isParityRow l.1 l.2 then 0 else e.copiedHeat x (l.1.leaf l.2)
  (ls.mergeSort (fun a b => key b < key a || (key a == key b && a.1.leaf a.2 ≤ b.1.leaf b.2))).map (fun l => (l.1.num, l.2))

def Eng.rowsWhere (e : Eng) (p : Rgn → Bool) (q : Rgn → Nat → Bool) : List (Rgn × Nat) :=
  (e.rgns.filter p).flatMap (fun r => ((List.range r.rows).filter (q r)).map (fun s => (r, s)))

/-- The resume set (R257). -/
def Eng.resumeSet (e : Eng) (g : Graft) : List (Nat × Nat) :=
  let tags := match g.tags with | some ts => ts | none => e.map.resume
  let all := tags.flatMap (fun t => e.byHeat g.x (e.rowsWhere (fun r => r.coded && r.tag == t) (fun r s => !e.isParityRow r s)))
  (all.eraseDups).take (64 * e.rd Reg.RBD_GRAFT_CTL_RESUME)

/-- The leaves of a phase (R256). DEDUCED: log entry 63. -/
def Eng.phaseLeaves (e : Eng) (g : Graft) (ph : Nat) : List (Nat × Nat) :=
  if ph = phResume then e.resumeSet g
  else if ph = phMirror then (e.rowsWhere (·.mirror) (fun _ _ => true)).map (fun l => (l.1.num, l.2))
  else if ph = phRinged then (e.rowsWhere (·.ringed) (fun _ _ => true)).map (fun l => (l.1.num, l.2))
  else e.byHeat g.x (e.rowsWhere (·.coded) (fun _ _ => true))

/-- The graft enters a phase. DEDUCED: log entry 63. -/
def Eng.enterPhase (e : Eng) (ph : Nat) : Eng :=
  match e.graft with
  | none => e
  | some g => (e.setGraft (fun g' => { g' with todo := (e.phaseLeaves g ph).filter e.toRebuild, leaf := none })).announce ph

/-- RESUME_SET completes once phases 2 and 3 have ended (R262). -/
def Eng.resumeDone (e : Eng) : Eng :=
  match e.graft with
  | some g => match g.resume with
    | some c => ((e.setGraft (fun g => { g with resume := none })).complete c stOk (e.graftResult 0 g.x g.missing))
    | none => e
  | none => e

/-- The graft is done (R262, R272). -/
def Eng.graftDone (e : Eng) : Eng :=
  match e.graft with
  | none => e
  | some g =>
    let e := (e.announce phDone).flag Reg.RBD_GRAFT_STAT_HOLD false
    let data := e.graftResult 0 g.x g.missing
    let e := ({ e with graft := none } : Eng).noteGraftEdge true
    let e := match g.cmd with
      | some c => e.complete c (if g.beyond then stBeyondCode else stOk) data
      | none => e
    { e.dropHanded with heats := e.heats.filter (fun h => h.1 != g.x) }

/-- A leaf has been rebuilt, or cannot be: accesses held for a leaf that stays lost receive error responses (R260). -/
def Eng.leafEnd (e : Eng) (l : Nat × Nat) (st : Nat) : Eng :=
  let e := match e.rgn? l.1 with
    | some r => if e.isRebuilding (r.leaf l.2) then e.setLeafState (r.leaf l.2) st else e
    | none => e
  let e := e.setGraft (fun g => { g with
    todo := g.todo.filter (· != l), urgent := g.urgent.filter (· != l), leaf := if g.leaf == some l then none else g.leaf,
    progress := g.progress.filter (fun p => (p.1, p.2.1) != l) })
  let leaf := match e.rgn? l.1 with | some r => r.leaf l.2 | none => 0
  let lost := if st = 4 then e.held.filter (fun h => h.leaf == leaf && !e.holds h.leaf h.wr) else []
  let e := e.each lost (fun _ e => e.emit .busError)
  (e.graftView.releaseHeld.retryTaps).pumpRuns

/-- A leaf has been replayed as far as its log goes: slices of the newest step that are missing are reported, and it is rebuilt (R152,
R258). -/
def Eng.leafReplayed (e : Eng) (x : Nat) (r : Rgn) (p : Replay) : Eng :=
  let e := if (e.replayGap x r p.row p.cut).isNone && e.sliceLacks x r p.row p.cut then e.noteMissing r else e
  e.leafEnd (p.region, p.row) 0

/-- One replay goes on; with its last sector the leaf is rebuilt (R258). -/
def Eng.replayOn (p : Replay) (e : Eng) : Eng :=
  match e.graft, e.rgn? p.region with
  | some g, some r =>
    let e := Eng.replayRun g.x r p.row (p.todo.length + 1) e
    if e.underReplay (p.region, p.row) then e else e.leafReplayed g.x r p
  | _, _ => e

/-- Every replay goes on, urgent leaves first (R260). -/
def Eng.replayAll (e : Eng) : Eng :=
  match e.graft with
  | some g =>
    let hot := fun (p : Replay) => g.urgent.contains (p.region, p.row)
    let open_ := g.replays.filter (fun p => !p.todo.isEmpty)
    e.each (open_.filter hot ++ open_.filter (fun p => !hot p)) Eng.replayOn
  | none => e

/-- A data leaf has all its sectors: a streamed one takes its sequence and is replayed (R149, R150), a ringed one takes the
committed ring. DEDUCED: log entry 63. -/
def Eng.dataLeafDone (e : Eng) (g : Graft) (r : Rgn) (row : Nat) : Eng :=
  let leaf := r.leaf row
  if r.streamed then
    match g.cuts.find? (fun c => c.1 == r.num && c.2.1 == row) with
    | some (_, _, c) =>
      let e := e.updCtx leaf (fun x => { x with seq := c.seq, stamp := e.cutStamp g.x r row c })
      let e : Eng := { e with cuts := put e.cuts leaf (c.stamp, c.sector) }
      let e := e.startReplay g.x r row c
      match e.graft.bind (fun g => g.replayAt r.num row) with
      | some p => if p.todo.isEmpty then e.leafReplayed g.x r p else e
      | none => e.leafEnd (r.num, row) 0
    | none => e.leafEnd (r.num, row) 0
  else (e.updCtx leaf (fun x => { x with ring := if r.ringed then e.committed else x.ring })).leafEnd (r.num, row) 0

/-- Next sector of a leaf in hand. -/
def Graft.at_ (g : Graft) (l : Nat × Nat) : Nat :=
  ((g.progress.find? (fun p => (p.1, p.2.1) == l)).map (·.2.2)).getD 0
def Graft.moved (g : Graft) (l : Nat × Nat) (n : Nat) : Graft :=
  { g with progress := (g.progress.filter (fun p => (p.1, p.2.1) != l)) ++ [(l.1, l.2, n)] }

/-- Sectors of a leaf have come: they are written. -/
def Eng.leafSectors (e : Eng) (l : Nat × Nat) (secs : SMap (List Byte)) (next : Nat) : Eng :=
  match e.graft, e.rgn? l.1 with
  | some g, some r =>
    let e := e.each secs (fun s e => e.store (r.rowAddr l.2 + s.1 * sectorBytes) s.2)
    let e := e.setGraft (fun g => g.moved l next)
    if 256 ≤ next then e.dataLeafDone g r l.2 else e
  | _, _ => e

/-- The phase's priority class (R241). -/
def Eng.leafPrio (e : Eng) (g : Graft) (l : Nat × Nat) : Nat :=
  if g.urgent.contains l then 1
  else if e.graftPhase = phResume then 3
  else if e.graftPhase = phBackground then 5 else 4

/-- The leaf that the graft takes next (R256, R260): urgent ones first, and none while an urgent one is under replay. -/
def Graft.pick (g : Graft) : Option (Nat × Nat) :=
  let replayed := g.replaying
  let hot := g.urgent.filter (fun l => !replayed l)
  if hot.isEmpty && g.urgent.any replayed then none else (hot ++ g.todo.filter (fun l => !replayed l)).head?

/-- Work on one leaf: its next chunk, sector or row, unless that is already sought. A streamed data leaf waits for its cut. -/
def Eng.workLeaf (e : Eng) (g : Graft) (l : Nat × Nat) : Eng :=
  match e.rgn? l.1 with
  | none => e.leafEnd l 0
  | some r =>
    let prio := e.leafPrio g l
    let n := g.at_ l
    if r.mirror then e.newMirrorReq r l.2 n g.x
    else if e.isParityRow r l.2 then
      match e.buildOf r.num l.2 false with
      | none => e.startRow r l.2 false prio
      | some b =>
        let mine := fun (c : Recon) => c.why == .row && c.region == r.num && c.row == l.2 && !c.thick
        if e.recons.any mine then { e with recons := e.recons.map (fun c => if mine c && prio < c.prio then { c with prio := prio } else c) }
        else if b.next < 256 then e.addRecon r.num l.2 b.next 16 e.pos false prio .row
        else e
    else if r.streamed && !(g.cuts.any (fun c => c.1 == r.num && c.2.1 == l.2)) then e
    else e.addRecon r.num l.2 n 16 g.x false prio .leaf

/-- The graft goes on: the leaf in hand, or the next phase. -/
def Eng.graftStep (e : Eng) : Eng :=
  match e.graft with
  | none => e
  | some g =>
    let ph := e.graftPhase
    if g.standby || ph < phResume || phBackground < ph then e
    else
      let done := (g.urgent ++ g.todo).filter (fun l => !e.toRebuild l)
      let e := (e.each done (fun l e => e.leafEnd l 0)).replayAll
      match e.graft with
      | none => e
      | some g =>
        match g.pick with
        | some l => (e.setGraft (fun g => { g with leaf := some l })).workLeaf { g with leaf := some l } l
        | none =>
          if g.replays.any (fun p => !p.todo.isEmpty) then e
          else if ph = phBackground then e.graftDone
          else
            let e := if ph = phMirror then e.resumeDone else e
            e.enterPhase (ph + 1)

/-! ### Joining (R253, R255) -/

/-- Management view of a place (R512): 1 is ALIVE. -/
def Eng.mgtView (e : Eng) (place : Nat) : Nat := ((e.mgmt.views.find? (fun v => v.place == place)).map (·.mgt)).getD 0

/-- Why a member refuses a join, 0 for no reason (R253). -/
def Eng.joinRefusal (e : Eng) (p : Pkt) : Nat :=
  let x := p.row % 16
  let own := e.joinLine
  let differs := fun (o n : Nat) => (p.payload.drop o).take n != (own.drop o).take n
  if differs 0 8 then 1
  else if differs 8 8 then 2
  else if differs 16 8 then 3
  else if differs 24 4 then 4
  else if e.loss.wasLost.contains (p.release % 2 ^ 20) then 5
  else if !bit p.row 4 && !bit e.lostMap x then 6
  else 0

def Eng.setLostBit (e : Eng) (x : Nat) (b : Bool) : Eng :=
  let e := e.flag (Reg.GRV_MEMBER_LOST x) b
  e.wr Reg.RBD_LOSS_STAT_LOST_MAP (if b then setBit e.lostMap x else clearBit e.lostMap x)

/-- A chunk of a log entry cannot be read. DESIGN CHOICE: log entry 89. -/
def Eng.logBad (e : Eng) (h : LogHeld) : Bool :=
  h.chunks.any (fun c => e.journalBad 3 [h.owner, h.stamp, h.row, c.1] c.2.length)

/-- What a member that admits the spare of x sends it beside the welcome: the log, by step, and the heat of x that it holds as its log
partner, and the cuts it has decided (DESIGN CHOICE, log entry 31); the thickening rows it hosts (DEDUCED, log entry 32). A step
of which a chunk cannot be read has no log copy here (R329). -/
def Eng.handOn (e : Eng) (x : Nat) : Eng :=
  let mine := (e.log.held.filter (fun h => h.owner == x)).mergeSort (fun a b => atOrBefore a.stamp b.stamp)
  let hs := mine.filter (fun h => !mine.any (fun g => g.stamp == h.stamp && e.logBad g))
  let e := e.each hs (fun h e => e.each h.chunks (fun c e => e.send x (wholeLines {
    typ := if h.scalar then tLogScalar else tLogData, stamp := h.stamp, region := if h.scalar then 0 else h.region, row := h.row,
    seq := if h.scalar then 0 else c.1, release := if h.scalar then 0 else h.lines, payload := c.2 })))
  let e := match e.heats.find? (fun h => h.1 == x) with
    | some h =>
      let groups := (h.2.map (fun (l : Nat × Nat) => l.1 / 4096)).eraseDups
      e.each groups (fun n e =>
        let bs := (List.range 4096).map (fun i => byteOf ((look h.2 (4096 * n + i)).getD 0))
        e.send x (wholeLines { typ := tHeatCopy, seq := n, payload := bs }))
    | none => e
  let e := e.each (e.hosted.filter (fun h => h.built && !h.releasing)) (fun h e =>
    e.send x { typ := tThickNote, region := h.region, row := h.row, sector := 1 })
  e.sendCuts x

/-- Commands that wait for a join complete when it is answered: accepted, or refused for a reason (R262). -/
def Eng.beginsDone (e : Eng) (x reason : Nat) : Eng :=
  let cs := e.loss.begins.filter (fun b => b.2 == x)
  ({ e with loss := { e.loss with begins := e.loss.begins.filter (fun b => b.2 != x) } } : Eng).each cs (fun c e =>
    if reason = 0 then e.complete c.1 stOk (e.graftResult 0 x [])
    else e.completeWith c.1 stGraftRefused 0 0 (e.graftResult reason x []))

/-- A join is accepted (R253, R254, R304). -/
def Eng.acceptJoin (e : Eng) (p : Pkt) : Eng :=
  let spare := p.release % 2 ^ 20
  if bit p.row 4 then
    let e := e.openSess spare 1
    e.sendGen0 spare 15 { typ := tGraftWelcome, gen := 1 }
  else
    let x := p.row % 16
    let gen := match e.sessAt (e.placeOf x) with | some s => nextGen s.gen | none => 1
    let e := (e.wr (Reg.GRV_MEMBER_PLACE x) spare).setLostBit x false
    let fab := if e.loss.fabric.contains x then e.loss.fabric else e.loss.fabric ++ [x]
    let ls : Loss := { e.loss with fabric := fab, grafts := put e.loss.grafts x ((look e.loss.grafts x).getD phJoin),
                                   heard := put e.loss.heard x e.now, silent := e.loss.silent.filter (· != x),
                                   fresh := (e.loss.fresh.filter (fun f => f.1 != x)) ++ [(x, none)] }
    let e := ({ e.openSess spare gen with loss := ls } : Eng).noteGraftEdge (look e.loss.grafts x).isNone
    let e := e.sendGen0 spare x { typ := tGraftWelcome, gen := gen }
    (e.beginsDone x 0).handOn x

/-- A GRAFT_JOIN (R253, R514). A refusal ends the graft, which this member waits for no longer (R262). DEDUCED: log entry 62. -/
def Eng.rxJoin (e : Eng) (p : Pkt) : Eng :=
  let spare := p.release % 2 ^ 20
  match e.joinRefusal p with
  | 0 =>
    if e.mgtView spare == 1 then e.acceptJoin p
    else { e with heldJoins := (e.heldJoins.filter (fun h => !(h.place == spare && h.pkt.typ == p.typ))) ++ [{ place := spare, pkt := p }] }
  | n =>
    let e := e.sendGen0 spare (if bit p.row 4 then 15 else p.row % 16) { typ := tGraftWelcome, sector := n }
    let x := p.row % 16
    if bit p.row 4 then e
    else if (look e.loss.grafts x).any (· != phJoin) || !bit e.lostMap x then e.beginsDone x n
    else
      let e := e.noteGraftEdge (look e.loss.grafts (p.row % 16)).isSome
      ({ e with loss := { e.loss with grafts := cut e.loss.grafts (p.row % 16) } } : Eng).beginsDone (p.row % 16) n

/-- The spare takes up the grove's committed ring, which no message tells it (R238, R258): a free value where the job has ringed or
ring-copied mirror regions. DESIGN CHOICE: log entry 31. -/
def Eng.takeRing (e : Eng) : Eng :=
  if e.rgns.any (fun r => r.ringed || (r.mirror && !bit r.sync 0)) then
    (e.setCommitted (Config.graftRing e.free % 2 ^ 32)).useFree 1
  else e

/-- Every present member has welcomed the spare: a standby's command completes; a grafted one asks for the counts of every region
(R253, R255). -/
def Eng.welcomed (e : Eng) : Eng :=
  match e.graft with
  | none => e
  | some g =>
    if g.standby then
      match g.cmd with
      | some c => (e.setGraft (fun g => { g with cmd := none })).complete c stOk (e.graftResult 0 g.x [])
      | none => e
    else
      let e := e.takeRing
      let asks := e.rgns.flatMap (fun r => e.peers.map (fun q => (q, r)))
      let e := e.setGraft (fun g => { g with counts := asks.map (fun a => (a.1, a.2.num)) })
      let e := e.each asks (fun a e => e.send a.1 { typ := tGraftCount, region := a.2.num, seq := a.2.rows, release := 64 })
      if asks.isEmpty then e.enterPhase phResume else e

/-- The join goes on once no answer is missing that was missing before (R253, R255). -/
def Eng.joinStep (e : Eng) (was : Graft) : Eng :=
  match e.graft with
  | none => e
  | some g =>
    if e.graftPhase != phJoin then e
    else if !was.welcomes.isEmpty then (if g.welcomes.isEmpty then e.welcomed else e)
    else if g.counts.isEmpty && !g.standby then e.enterPhase phResume
    else e

/-- A member lost during JOIN is waited for no longer (R263). -/
def Eng.joinLoss (e : Eng) (y : Nat) : Eng :=
  match e.graft with
  | none => e
  | some g =>
    (e.setGraft (fun g => { g with welcomes := g.welcomes.filter (· != y), counts := g.counts.filter (·.1 != y) })).joinStep g

/-- A GRAFT_WELCOME at the spare (R253). -/
def Eng.rxWelcome (e : Eng) (p : Pkt) : Eng :=
  match e.graft with
  | none => e
  | some g =>
    if p.sector != 0 then e.refuseGraft p.sector
    else if !g.welcomes.contains p.src then e
    else
      let e := e.openSess (e.placeOf p.src) p.gen
      (e.setGraft (fun g => { g with welcomes := g.welcomes.filter (· != p.src) })).joinStep g

/-- GRAFT_BEGIN on the spare: the join goes to every present member (R252, R253). -/
def Eng.startGraft (e : Eng) (cmd x : Nat) (standby : Bool) : Eng :=
  let ms := e.present.filter (fun p => standby || p != x)
  let g : Graft := { x := x, standby := standby, cmd := some cmd, resume := none, tags := none, welcomes := ms, counts := [], todo := [],
                     urgent := [], leaf := none, progress := [], cuts := [], behind := [], missing := [], beyond := false, replays := [],
                     olds := [], gap := none }
  let e := ({ e with graft := some g } : Eng).noteGraftEdge (!standby)
  let e := ((e.wr Reg.RBD_GRAFT_STAT_PHASE phJoin).wr Reg.RBD_GRAFT_STAT_POS x).wr Reg.RBD_GRAFT_STAT_PLACE e.place
  let e := if standby then e else ((e.flag Reg.RBD_GRAFT_STAT_HOLD true).graftLeaves).graftView
  let e := e.each ms (fun p e => e.sendGen0 (e.placeOf p) p
    (wholeLines { typ := tGraftJoin, row := if standby then 16 else x, release := e.place, payload := e.joinLine }))
  if ms.isEmpty then e.welcomed else e

/-- A GRAFT_COUNT at a member: it answers with its own count, or refuses the graft as TABLE (R255). -/
def Eng.answerCount (e : Eng) (p : Pkt) : Eng :=
  match e.rgn? p.region with
  | some r =>
    if r.rows == p.seq then e.send p.src { typ := tGraftCount, region := p.region, seq := r.rows, release := 64 }
    else e.sendGen0 (e.placeOf p.src) p.src { typ := tGraftWelcome, sector := 2 }
  | none => e.sendGen0 (e.placeOf p.src) p.src { typ := tGraftWelcome, sector := 2 }

/-- A GRAFT_COUNT: the answer that this engine's own graft waits for, or another spare's request (R255, R263). -/
def Eng.rxCount (e : Eng) (p : Pkt) : Eng :=
  match e.graft with
  | some g =>
    if !g.counts.contains (p.src, p.region) then e.answerCount p
    else if (match e.rgn? p.region with | some r => r.rows != p.seq | none => true) then e.refuseGraft 2
    else (e.setGraft (fun g => { g with counts := g.counts.filter (· != (p.src, p.region)) })).joinStep g
  | none => e.answerCount p

/-- A GRAFT_PHASE at a member (R256, R261). At DONE the position's agreements and snapshots are done with, and the thickening rows
kept for its loss are released (R266, DESIGN CHOICE, log entry 94); at ABORTED the position is lost again, without a new
declaration. DEDUCED: log entry 62. -/
def Eng.rxPhase (e : Eng) (p : Pkt) : Eng :=
  let x := p.src
  let e := e.noteGraftEdge (if p.sector = phDone || p.sector = phAborted then (look e.loss.grafts x).isSome else (look e.loss.grafts x).isNone)
  if p.sector = phDone then
    let e := e.releaseRows (fun h => h.risky == x)
    { e with loss := { e.loss with grafts := cut e.loss.grafts x, settledBy := e.loss.settledBy.filter (fun s => s.1 != x),
                                   fresh := e.loss.fresh.map (fun f => if f.1 = x then (x, some e.newestStep) else f) },
             agrees := e.agrees.filter (fun a => a.x != x), snaps := e.snaps.filter (fun s => s.builder != x || s.thick) }
  else if p.sector = phAborted then
    let place := e.placeOf x
    let e := (e.setLostBit x true).closeSess place
    let w := if e.loss.wasLost.contains place then e.loss.wasLost else e.loss.wasLost ++ [place]
    { e with loss := { e.loss with grafts := cut e.loss.grafts x, wasLost := w, fresh := e.loss.fresh.filter (fun f => f.1 != x) }, snaps := e.snaps.filter (fun s => s.builder != x) }
  else { e with loss := { e.loss with grafts := put e.loss.grafts x p.sector } }

/-- A HEAT_COPY: heat bytes of its sender, or, at a spare, those of the position that it grafts into (R257, DESIGN CHOICE, log
entry 31). -/
def Eng.rxHeat (e : Eng) (p : Pkt) : Eng :=
  let who := match e.graft with | some g => if g.standby then p.src else g.x | none => p.src
  let old := ((e.heats.find? (fun h => h.1 == who)).map (·.2)).getD []
  let new := (p.payload.zipIdx).foldl (fun m b => if b.1 == 0 then cut m (4096 * p.seq + b.2) else put m (4096 * p.seq + b.2) b.1.toNat) old
  { e with heats := (e.heats.filter (fun h => h.1 != who)) ++ [(who, new)] }

/-- This engine's heat bytes go to its log partners, after a step retires (R257). -/
def Eng.sendHeat (e : Eng) : Eng :=
  let n := (e.memSize / leafBytes + 4095) / 4096
  e.each (e.partners e.newestStep) (fun p e => e.each (List.range n) (fun g e =>
    let bs := (List.range 4096).map (fun i => byteOf (e.ctx (4096 * g + i)).heat)
    e.send p (wholeLines { typ := tHeatCopy, seq := g, payload := bs })))

/-- A LOG_DATA or LOG_SCALAR: at a log partner (R135, R137), or at the spare that grafts into a lost owner's position, where it is handed on
and can have more to replay of leaves rebuilt already (R149, DESIGN CHOICE, log entry 31). DESIGN CHOICE: log entry 27. -/
def Eng.rxLog (e : Eng) (p : Pkt) : Eng :=
  match e.graft with
  | none => e.keepLog p
  | some g =>
    if g.standby then e.keepLog p
    else
      let e := (e.takeHanded g.x p).replayTarget g.x
      e.each (match e.graft with | some g => g.replays | none => []) (fun q e => match e.rgn? q.region with
        | none => e
        | some r =>
          let e := e.planReplay g.x r q
          if q.todo.isEmpty && e.underReplay (q.region, q.row) then e.setLeafState (r.leaf q.row) 5 else e)

/-- A POINT_DECIDE at a spare names the cuts of its position's leaves (DESIGN CHOICE, log entry 31). -/
def Eng.takeCuts (e : Eng) (p : Pkt) : Eng :=
  let rs := pointRecs p.payload
  let new := rs.map (fun r => (r.region, r.row, r.cut))
  e.setGraft (fun g => { g with cuts := (g.cuts.filter (fun c => !(rs.any (fun r => r.region == c.1 && r.row == c.2.1)))) ++ new })

/-! ### Mirror copies that are read (R259) -/

/-- A request reads a copy for this engine's own graft. -/
def Eng.forGraft (e : Eng) (q : MirrorReq) : Bool := match e.graft with | some g => g.x == q.whose | none => false

/-- A region is restored from an older copy than the restored point asks for: MIRROR_BEHIND with the region and the copy's stamp or
ring (R259). -/
def Eng.noteBehind (e : Eng) (q : MirrorReq) : Eng :=
  if q.stamp = q.want || e.graft.all (fun g => g.behind.any (fun b => b.1 == q.region)) then e
  else (e.setGraft (fun g => { g with behind := g.behind ++ [(q.region, q.stamp)] })).raise .MIRROR_BEHIND

/-- A sector of a copy has come: for a graft of the position it is written, for a degraded read it enters the front's store
(R244, R259). -/
def Eng.mirrorGot (e : Eng) (q : MirrorReq) (d : List Byte) : Eng :=
  let e : Eng := { e with mreq := e.mreq.filter (fun x => x.id != q.id) }
  if e.forGraft q then (e.noteBehind q).leafSectors (q.region, q.row) [(q.sector, d)] (q.sector + 1)
  else e.drGot q.whose q.region q.row q.sector d

/-- A MIRROR_LINES (R83). -/
def Eng.rxMirrorLines (e : Eng) (p : Pkt) : Eng :=
  match e.mreqFor p with
  | some q => if q.row == p.row && q.sector == p.sector then e.mirrorGot q (linesSector p.lineMap p.payload) else e.malformed
  | none => if (e.mirrorTarget p).isNone then e.malformed else e

/-- No receiver holds the copy asked for: the next lower stamp or ring is asked for (R259). With none
left, a graft's leaf is left as it is and a load fails. DESIGN CHOICE: log entry 71. -/
def Eng.mirrorLower (e : Eng) (q : MirrorReq) : Eng :=
  if q.stamp = 0 then
    let e : Eng := { e with mreq := e.mreq.filter (fun x => x.id != q.id) }
    match e.rgn? q.region with
    | some r =>
      if e.forGraft q then (e.setGraft (fun g => { g with beyond := true })).leafEnd (q.region, q.row) 4
      else e.drFail q.whose (r.rowAddr q.row + q.sector * sectorBytes)
    | none => e
  else
    let q' := { q with stamp := q.stamp - 1, asked := 16, tried := [] }
    { e with mreq := e.mreq.map (fun x => if x.id == q.id then q' else x) }

/-- A request looks for its next receiver; this engine answers itself where it is one. DESIGN CHOICE: log entry 71. -/
def Eng.askMirror (e : Eng) (q : MirrorReq) : Eng :=
  match e.rgn? q.region with
  | none => { e with mreq := e.mreq.filter (fun x => x.id != q.id) }
  | some r =>
    match (e.copyHolders r q.whose).find? (fun p => !q.tried.contains p) with
    | none => e.mirrorLower q
    | some p =>
      let q' := { q with asked := p, tried := q.tried ++ [p] }
      if p == e.pos then
        match e.readCopy (e.mrx.length + 1) q.whose q.region (fun m => if q.byRing then m.ring == q.stamp else m.stamp == q.stamp)
            q.row q.sector with
        | (e, some m) => e.mirrorGot q (m.sector q.row q.sector)
        | (e, none) => { e with mreq := e.mreq.map (fun x => if x.id == q.id then { q' with asked := 16 } else x) }
      else ({ e with mreq := e.mreq.map (fun x => if x.id == q.id then q' else x) } : Eng).sendMirrorRead q'

/-- A MIRROR_NONE (R83). -/
def Eng.rxMirrorNone (e : Eng) (p : Pkt) : Eng :=
  if (e.mirrorTarget p).isNone then e.malformed
  else match e.mreqFor p with
    | some q => { e with mreq := e.mreq.map (fun x => if x.id == q.id then { q with asked := 16 } else x) }
    | none => e

/-! ### The loop of reconstructions -/

/-- A reconstruction has all its sectors: its members are told, and the sectors are used. -/
def Eng.useRecon (e : Eng) (c : Recon) : Eng :=
  let e : Eng := { e.endChain c 0 with recons := e.recons.filter (fun x => x.id != c.id) }
  match c.why with
  | .degraded => e.each c.got (fun s e => e.drGot c.lost c.region c.row s.1 s.2)
  | .repair => e.each c.got (fun s e => e.repairDone c s.2)
  | .leaf => e.leafSectors (c.region, c.row) c.got (c.first + c.count)
  | .row => e.rowChunk c
  | .encode => e.encodeChunk c

/-- A reconstruction cannot be made: its stripe is beyond the code (R248, R272). Members of a chain that it had are told that their
part is cancelled. -/
def Eng.failRecon (e : Eng) (c : Recon) : Eng :=
  let e := if c.why == .row then (if c.thick then e.rowFailed c else e) else e.endChain c 2
  let e := if c.thick then e else e.beyondCode c.region c.row
  let e : Eng := { e with recons := if c.why == .row && !c.thick then e.recons else e.recons.filter (fun x => x.id != c.id) }
  match c.why with
  | .degraded => match e.rgn? c.region with
    | some r => e.drFail c.lost (r.rowAddr c.row + c.first * sectorBytes)
    | none => e
  | .repair => e.repairFailed c
  | .leaf => (e.setGraft (fun g => { g with beyond := true })).leafEnd (c.region, c.row) 4
  | .row =>
    if c.thick then e
    else
      let e := (e.setGraft (fun g => { g with beyond := true })).rowFailed c
      ({ e with recons := e.recons.filter (fun x => x.id != c.id) } : Eng).leafEnd (c.region, c.row) 4
  | .encode => e.encodeFailed c.region c.row

/-- One round: partials, finished reconstructions, those still to be asked for, copies, scrubs, the graft, regeneration.
DEDUCED: log entry 29. -/
def Eng.reconRound (e : Eng) : Eng :=
  let e := e.pumpChains
  let e := e.each (e.recons.filter (fun c => c.asked && c.count ≤ c.got.length)) (fun c e => e.useRecon c)
  let e := e.each (e.recons.filter (fun c => !c.asked)) (fun c e =>
    if c.why == .repair && !e.repairReady c then e
    else
      let (e, ok) := e.askRecon c
      if ok then e else e.failRecon c)
  let e := e.each (e.mreq.filter (fun q => q.asked == 16)) (fun q e => e.askMirror q)
  e.pumpScrubs.graftStep.regenerate

/-- Nothing of a reconstruction is under way. -/
def Eng.reconIdle (e : Eng) : Bool :=
  e.recons.isEmpty && e.chains.isEmpty && e.mreq.isEmpty && e.scrubs.isEmpty && e.graft.isNone &&
  !(e.ctxs.any (fun c => c.2.under == 4))

/-- Rounds until one makes no difference; the bound is never met. -/
def Eng.reconLoop : Nat → Eng → Eng
  | 0, e => e
  | fuel + 1, e =>
    if e.reconIdle then e
    else
      let e' := e.reconRound
      if e'.out.length == e.out.length && e'.recons == e.recons && e'.chains == e.chains && e'.mreq == e.mreq &&
          e'.scrubs == e.scrubs && e'.graft == e.graft && e'.builds == e.builds then e'
      else Eng.reconLoop fuel e'

def Eng.recon (e : Eng) : Eng := e.reconLoop 1048576

/-! ### Commands of the chain's timers and of the memory side -/

/-- RB_CHUNK_TIMEOUT (R242). -/
def execRbChunkTimeout (req : Word) (s : State) : Host.Outcome State Fault Refusal :=
  .next (s.run (fun e => (e.chunkTimeout req.toNat).recon))

/-- REFERRED_READ (R326). DEDUCED: log entry 86. -/
def execReferredRead (port : Fin 8) (id : Byte) (line : BitVec 34) (bad : List (Fin 64)) (s : State) :
    Host.Outcome State Fault Refusal :=
  if s.eng.memSize ≤ 64 * line.toNat then .fault .outsideMemory
  else .next (s.run (fun e => (e.referredRead port.val id.toNat line.toNat (bad.map (·.val))).recon))

/-- REFERRED_READ_LIMIT (R326). -/
def execReferredReadLimit (port : Fin 8) (id : Byte) (s : State) : Host.Outcome State Fault Refusal :=
  .next (s.run (fun e => e.referralLimit port.val id.toNat))

/-- DEGRADED_READ (R243, R244). -/
def execDegradedRead (store : Bool) (off : BitVec 40) (len : Nat) (key : Word) (requester : Place) (s : State) :
    Host.Outcome State Fault Refusal :=
  .next (s.run (fun e => (e.degradedRead store off.toNat len key.toNat requester.toNat).recon))

/-- DEGRADED_READ_TIMEOUT (R245). -/
def execDegradedReadTimeout (off : BitVec 40) (s : State) : Host.Outcome State Fault Refusal :=
  .next (s.run (fun e => e.drTimeout off.toNat))

end Sys2Proof.Machine
end

