-- ==== Sys2Proof/Machine/Evac.lean ====
section
/-!
DEFINITION. Sys2Proof/Machine/Evac.lean: thickening (R264 to R266) and evacuation (R267 to R271, R334, R335).
-/
namespace Sys2Proof.Machine

/-! ### Thickening -/

/-- The host of a stripe that a risky position thickens (R58). -/
def Eng.thickHostFor (e : Eng) (row risky : Nat) : Nat :=
  let h := parityPos e.w e.k row 0
  if h == risky then parityPos e.w e.k row 1 else h

/-- Journal bytes that a hosted row takes: the row, and for a ringed stripe its staging in two slots (R168, R264). -/
def Eng.rowCost (e : Eng) (r : Rgn) : Nat := leafBytes + (if r.ringed then 2 * e.k * (leafBytes + 32) else 0)

/-- Bytes that hosted rows take: all of them until they are freed, or those that are not in release. -/
def Eng.thickCost (e : Eng) (hs : List Hosted) : Nat := sumOf (hs.filterMap (fun h => (e.rgn? h.region).map e.rowCost))
def Eng.thickUsed (e : Eng) : Nat := e.thickCost e.hosted

/-- This member offers its stripes to their hosts, hottest first (R264). No message of R238 carries an offer; the model gives
it the free status 0 of THICK_NOTE (DEDUCED, log entry 32). -/
def Eng.offerStripes (e : Eng) : Eng :=
  let all := e.rowsWhere (fun r => r.streamed || r.ringed) (fun _ _ => true)
  let heat := fun (l : Rgn × Nat) => (e.ctx (l.1.leaf l.2)).heat
  let ls := all.mergeSort (fun a b => heat b < heat a || (heat a == heat b && a.1.leaf a.2 ≤ b.1.leaf b.2))
  let ls := ls.filter (fun l => let h := e.thickHostFor l.2 e.pos; e.isPresent h && h != e.pos)
  let e := e.setHealth (fun h => { h with offers := (h.offers ++ ls.map (fun l => (l.1.num, l.2))).eraseDups })
  e.each ls (fun l e => e.send (e.thickHostFor l.2 e.pos) { typ := tThickNote, region := l.1.num, row := l.2, sector := 0 })

/-- A host accepts an offered stripe while its budget lasts and the stripe has no thickening row (R264, R265, R273).
DEDUCED: log entry 32. -/
def Eng.acceptOffer (e : Eng) (r : Rgn) (row risky : Nat) : Eng :=
  if (e.hostedRow r.num row).isSome || (e.thickHost r.num row).isSome || e.rd Reg.RBD_THICK_CTL_MAX * 67108864 < e.thickUsed + e.rowCost r ||
      e.thickHostFor row risky != e.pos then e
  else
    let h : Hosted := { region := r.num, row := row, risky := risky, secs := [], rings := [], built := false, provisional := false,
                        releasing := false, left := [] }
    ({ e with hosted := e.hosted ++ [h] } : Eng).startRow r row true 5

/-- MAX has been lowered: rows are released coldest first until the rest fit (R266). -/
def Eng.thickTrim : Nat → Eng → Eng
  | 0, e => e
  | fuel + 1, e =>
    let live := e.hosted.filter (fun h => !h.releasing)
    if e.thickCost live ≤ e.rd Reg.RBD_THICK_CTL_MAX * 67108864 || live.isEmpty then e
    else
      let heat : Hosted → Nat := fun h => match e.rgn? h.region with | some r => ((e.ctx (r.leaf h.row)).heat : Nat) | none => 0
      match live with
      | [] => e
      | h :: t => Eng.thickTrim fuel (Eng.releaseRow (t.foldl (fun a b => if heat b < heat a then b else a) h) e)

/-- An owner drops the host of a row from its destinations, and owes it word of its last THICK packet (R266). -/
def Eng.dropThick (e : Eng) (t : ThickDest) : Eng :=
  let e := e.dropSnaps (fun s => s.builder == t.host && s.thick && s.region == t.region && s.row == t.row)
  let ends := e.thickEnds.filter (· != t)
  { e with thickDests := e.thickDests.filter (· != t), thickEnds := if e.role t.row < e.k then ends ++ [t] else ends }

/-- The last THICK packet for a row in release has been acknowledged: its host hears so (R266). DEDUCED: log entry 34. -/
def Eng.endThick (t : ThickDest) (e : Eng) : Eng :=
  if e.sent.any (fun s => s.region == t.region && s.row == t.row && s.dests.any (fun d => d.thick && d.pos == t.host)) then e
  else
    let e : Eng := { e with thickEnds := e.thickEnds.filter (· != t) }
    if e.isPresent t.host then e.send t.host { typ := tThickNote, region := t.region, row := t.row, sector := 2 } else e

def Eng.endThicks (e : Eng) : Eng := e.each e.thickEnds Eng.endThick

/-- A THICK_NOTE of status 2: at the host of the row, the risky member's withdrawal (R422) or an owner's word that its packets have
ended; at another member, the host's release (R266). DEDUCED: log entry 32. DEDUCED: log entry 34. -/
def Eng.rxThickEnd (e : Eng) (p : Pkt) : Eng :=
  match e.hostedRow p.region p.row with
  | some h => if h.releasing then e.ownerGone p.src h else if h.risky == p.src then Eng.releaseRow h e else e
  | none => e.dropThick { region := p.region, row := p.row, host := p.src }

/-- A THICK_NOTE: an offer at a host, a row established or released (R264 to R266). DEDUCED: log entry 32.
DEDUCED: log entry 34. -/
def Eng.rxThickNote (e : Eng) (p : Pkt) : Eng :=
  match e.rgn? p.region with
  | none => e.malformed
  | some r =>
    if !(r.streamed || r.ringed || r.frozen) || r.rows ≤ p.row then e.malformed
    else
      let mine := fun (t : ThickDest) => t.region == p.region && t.row == p.row
      match p.sector with
      | 0 => e.acceptOffer r p.row p.src
      | 1 =>
        if (e.thickDests.any mine) then e
        else { e with thickDests := e.thickDests ++ [{ region := p.region, row := p.row, host := p.src }] }
      | 2 => e.rxThickEnd p
      | _ => e.malformed

/-- This member's risk has fallen below LOWER: the hosts of its stripes release them (R266, R422). DEDUCED: log entry 32. -/
def Eng.withdrawOffers (e : Eng) : Eng :=
  let all := e.rowsWhere (fun r => r.streamed || r.ringed) (fun _ _ => true)
  let e := e.setHealth (fun h => { h with offers := [] })
  e.each all (fun l e =>
    let h := e.thickHostFor l.2 e.pos
    if e.isPresent h && h != e.pos then e.send h { typ := tThickNote, region := l.1.num, row := l.2, sector := 2 } else e)

/-! ### The copy (R267, R268, R334) -/

def Eng.setEvac (e : Eng) (f : Evac → Evac) : Eng := { e with evac := f e.evac }
def Eng.evacPhase (e : Eng) : Nat := e.rd Reg.RBD_EVAC_STAT_PHASE

/-- A place that holds a session and no position: a standby spare (R253, R267). -/
def Eng.standbySpare (e : Eng) : Option Nat :=
  (e.sess.find? (fun s => s.2.st == 1 && !((List.range e.w).any (fun p => e.placeOf p == s.1)))).map (·.1)

/-- One sector of local memory to the spare; its dirty bit is cleared (R268, R334). -/
def Eng.sendSector (e : Eng) (leaf s : Nat) (data : List Byte) : Eng :=
  let v : Evac := { e.evac with sent := put e.evac.sent leaf (setBit ((look e.evac.sent leaf).getD 0) s) }
  (({ e with evac := v } : Eng).setDirty leaf s false).sendPlace e.evac.spare
    { typ := tEvacData, dst := 15, row := leaf, sector := s, planes := 1, lineMap := 2 ^ 64 - 1, payload := data }

/-- The result of EVACUATE (R508). -/
def Eng.evacResult (e : Eng) : List Byte :=
  padTo 112 ([0, byteOf e.pos, 0, 0] ++ natLe 4 e.evac.spare ++ natLe 4 (e.rd Reg.RBD_EVAC_STAT_LEAVES))

/-- EVAC_READY: every sector has been sent once (R268). -/
def Eng.evacReady (e : Eng) : Eng :=
  if e.evacPhase != 1 then e
  else
    let e := (e.wr Reg.RBD_EVAC_STAT_PHASE 2).raise .EVAC_READY
    match e.evac.copyCmd with
    | some c => (e.setEvac (fun v => { v with copyCmd := none })).complete c stOk e.evacResult
    | none => e

/-- The evacuation aborts, and this engine continues as a member (R271). -/
def Eng.abortEvac (e : Eng) (status : Nat) : Eng :=
  let e := e.wr Reg.RBD_EVAC_STAT_PHASE 5
  let res := e.evacResult
  let v := e.evac
  let e := e.setEvac (fun v => { v with copyCmd := none, cutCmd := none, sent := [], dirty := [], step := 0, acks := [] })
  let e := match v.copyCmd with | some c => e.complete c status res | none => e
  let e := match v.cutCmd with | some c => e.complete c status res | none => e
  e.pumpRuns

/-! ### The fence (R237) -/

/-- Reconstructions end without a result: repairs leave their lines unrepaired, loads receive error responses. -/
def Eng.dropRecons (e : Eng) : Eng :=
  let rs := e.recons
  let e : Eng := { e with recons := [], chains := [], mreq := [] }
  let e := e.each (rs.filter (fun c => c.why == .repair)) (fun c e => e.repairFailed c)
  let ls := e.drLoads
  ({ e with drLoads := [] } : Eng).each ls (fun _ e => e.fabricError)

/-- This engine fences itself (R237): an evacuation under way aborts (R271), what its ports still hold to send is dropped but for
what `keep` names, and tap pairs are accepted at once from here on. DEDUCED: log entry 56. -/
def Eng.fenceOff (e : Eng) (keep : TxPkt → Bool) : Eng :=
  if e.fenced then e
  else
    let e := if 1 ≤ e.evacPhase && e.evacPhase ≤ 3 then e.abortEvac stCancelled else e
    let e := ({ e with selfQ := [] } : Eng).flag Reg.RBD_LOSS_STAT_FENCED true |>.setLevel .SELF_FENCED true
    let e := e.each (List.range 4) (fun p e => (e.abortWhere p (fun t => !keep t)).pump p)
    e.dropRecons

/-- The fence of an engine that stays in service: withheld tap pairs are accepted (R237). -/
def Eng.fence (e : Eng) (keep : TxPkt → Bool) : Eng := if e.fenced then e else (e.fenceOff keep).retryTaps

/-- The fence of a position declared lost: nothing more is sent (R237). DEDUCED: log entry 56. -/
def Eng.selfFence (e : Eng) : Eng := e.fence (fun _ => false)

/-- A packet of this engine's own that a send queue still holds whole, of one type. -/
def TxPkt.own (t : TxPkt) (typ : Nat) : Bool := t.relay.isNone && t.cls.isNone && fieldAt t.bytes 16 1 == typ

/-! ### What the state of R270 carries -/

/-- A byte string cut into 4,096 B parts, at least one. -/
def slots (bs : List Byte) : List (List Byte) :=
  let n := max 1 ((bs.length + 4095) / 4096)
  (List.range n).map (fun i => padTo 4096 ((bs.drop (4096 * i)).take 4096))

/-- One structure of the journal: the fields of its index record, and the bytes it takes in the journal. -/
structure JItem where
  typ    : Nat
  pos    : Nat
  region : Nat
  row    : Nat
  a      : Nat
  b      : Nat
  c      : Nat
  d      : Nat
  data   : Option (List Byte)
  deriving DecidableEq, Repr

/-- The 32 B of an index record whose data lies at a journal offset. DESIGN CHOICE: log entry 35. -/
def JItem.bytes (j : JItem) (off : Nat) : List Byte :=
  [byteOf j.typ, byteOf j.pos] ++ natLe 2 j.region ++ natLe 4 j.row ++ natLe 4 j.a ++ natLe 4 j.b
    ++ natLe 8 (if j.data.isSome then off else j.c) ++ natLe 8 j.d

/-- Sectors by number, as bytes. DESIGN CHOICE: log entry 35. -/
def packSecs (m : SMap (List Byte)) : List Byte := natLe 4 m.length ++ m.flatMap (fun s => natLe 4 s.1 ++ natLe 4 s.2.length ++ s.2)
/-- DESIGN CHOICE: log entry 35. -/
def unpackSecs : Nat → List Byte → SMap (List Byte)
  | 0, _ => []
  | n + 1, bs =>
    let len := fieldAt bs 4 4
    put (unpackSecs n (bs.drop (8 + len))) (fieldAt bs 0 4) ((bs.drop 8).take len)
def unpackAll (bs : List Byte) : SMap (List Byte) := unpackSecs (fieldAt bs 0 4) (bs.drop 4)

/-- Width of the elements of a region, 1 where it is not known. -/
def Eng.widthOf (e : Eng) (region : Nat) : Nat := match e.rgn? region with | some r => elemWidth r.fmt | none => 1

/-- The journal's structures (R270): how their bytes lie in the journal is the model's own (DESIGN CHOICE, log entry 35). A
thickening row that is still being built is no structure of the journal yet. -/
def Eng.journalItems (e : Eng) : List JItem :=
  let z : JItem := { typ := 0, pos := 0, region := 0, row := 0, a := 0, b := 0, c := 0, d := 0, data := none }
  let plain := fun (typ region map : Nat) (pl : List Byte) =>
    if typ == tClassProd then linesSector map pl else expand (e.widthOf region) map pl
  let due := fun (s : Sent) (thick : Bool) => bitsWhere 16 (fun p => s.dests.any (fun d => d.pos == p && d.thick == thick))
  let sent := e.sent.map (fun s => { z with
    typ := 1, region := s.region, row := s.row, a := s.seq, b := s.stamp,
    data := some (plain s.typ s.region s.lineMap s.payload ++ natLe 2 (due s false) ++ natLe 2 (due s true)),
    d := s.sector + 256 * s.typ + 65536 * bitsWhere 16 (fun p => s.dests.any (fun d => d.pos == p))
      + 2 ^ 32 * (s.dests.map (·.resends)).foldl max 0 })
  let own := (e.rowsWhere (·.streamed) (fun r s => !e.isParityRow r s)).filter (fun l => (e.ctx (l.1.leaf l.2)).seq != 0)
  let rel := own.map (fun l =>
    let seq := (e.ctx (l.1.leaf l.2)).seq
    let acked := fun (p : Option Nat) => match p with
      | none => 0
      | some p => match e.sent.find? (fun s => s.typ == tStreamDelta && s.region == l.1.num && s.row == l.2 && s.dests.any (fun d => d.pos == p)) with
        | some s => (s.seq + 2 ^ 32 - 1) % 2 ^ 32
        | none => seq
    let h := fun j => if j < e.m then some (parityPos e.w e.k l.2 j) else none
    { z with typ := 2, region := l.1.num, row := l.2, a := e.relPoint l.1.num l.2 seq, b := seq,
             c := acked (h 0) + 2 ^ 32 * acked (h 1), d := acked (h 2) + 2 ^ 32 * acked (e.thickHost l.1.num l.2) })
  let win := e.window.map (fun w => { z with
    typ := 3, pos := w.src, region := w.region, row := w.row, a := w.seq, b := w.stamp, d := w.sector,
    data := some (expand (e.widthOf w.region) w.lineMap w.payload ++ [if w.thick then 1 else 0]) })
  let stg := e.rings.stages.map (fun s => { z with
    typ := 4, pos := s.src, region := s.region, row := s.row, a := s.ring, b := s.ah,
    data := some ([if s.usable then 1 else 0, if s.thick then 1 else 0] ++ packSecs s.secs) })
  let log := e.log.held.flatMap (fun h => h.chunks.map (fun c => { z with
    typ := 5, pos := h.owner, region := if h.scalar then 0xFFFF else h.region, a := h.stamp, b := c.1,
    d := c.2.length + 2 ^ 32 * h.row, data := some (natLe 4 h.lines ++ c.2) }))
  let rowsOf := fun (m : MirrorRx) => if m.lines.isEmpty then [0] else (m.lines.map (fun l => l.1 / 16384)).eraseDups
  let cop := e.mrx.flatMap (fun m => (rowsOf m).map (fun row => { z with
    typ := 6, pos := m.src, region := m.region, a := m.stamp, b := m.ring, row := row,
    d := m.copy + 2 ^ 32 * m.index + (if m.complete then 2 ^ 40 else 0),
    data := some (natLe 8 m.count ++ natLe 8 (m.dig.getD 0) ++ packSecs (m.lines.filter (fun l => l.1 / 16384 == row))) }))
  let hst := (e.hosted.filter (fun h => h.built && !h.releasing)).map (fun h => { z with
    typ := 7, pos := h.risky, region := h.region, row := h.row, d := if h.provisional then 1 else 0, data := some (packSecs h.secs) })
  let cur := match e.rings.applies with
    | [] => []
    | j :: _ => [{ z with typ := 8, a := j.ring,
                          c := (e.applyJobs j.ring).length - (e.rings.applies.filter (fun x => x.ring == j.ring)).length }]
  sent ++ rel ++ win ++ stg ++ log ++ cop ++ hst ++ cur

/-- What the journal holds beside the structures of R270 and the quick-digest table, as rows of numbers that begin with a code:
applied records (R130), passes begun (R371), cuts (R129), the exposed step (R139), weight steps (R379), thickening rows of other hosts (R265),
stripes whose parity is stale (R327) and ring sequences (R158). DESIGN CHOICE: log entry 35. -/
def Eng.journalRows (e : Eng) : List (List Nat) :=
  let b := fun (x : Bool) => if x then 1 else 0
  e.applied.map (fun a => [1, a.region, a.src, b a.thick, a.row, a.a, a.aStamp, a.aSector, a.rel, a.relStamp, a.relSector])
    ++ e.digs.filterMap (fun d => d.2.begun.map (fun s => [2, d.1, s]))
    ++ e.cuts.map (fun c => [3, c.1, c.2.1, c.2.2])
    ++ (e.log.exposed.toList).map (fun s => [4, s])
    ++ (e.log.asked.toList).map (fun s => [9, s])
    ++ e.rings.recs.filterMap (fun r => r.wstep.map (fun s => [5, r.num, s]))
    ++ e.thickDests.map (fun t => [6, t.region, t.row, t.host])
    ++ e.oldLost.map (fun l => [7, l.1, l.2.1, l.2.2])
    ++ e.rings.seqs.map (fun s => [8, s.region, s.row, s.ring, s.last])

/-- One row, 96 B. DESIGN CHOICE: log entry 35. -/
def packRow (xs : List Nat) : List Byte := padTo 96 (xs.flatMap (natLe 8))

/-- One such row at the spare. DESIGN CHOICE: log entry 35. -/
def Eng.takeRow (e : Eng) (bs : List Byte) : Eng :=
  match (List.range 12).map (fun i => fieldAt bs (8 * i) 8) with
  | [1, region, src, thick, row, a, aStamp, aSector, rel, relStamp, relSector, _] =>
    let x : Applied := { region := region, src := src, thick := thick == 1, row := row, a := a, aStamp := aStamp,
                         aSector := aSector, rel := rel, relStamp := relStamp, relSector := relSector }
    { e with applied := e.applied ++ [x] }
  | 2 :: leaf :: step :: _ => e.setDig leaf { e.dig leaf with begun := some step }
  | 3 :: leaf :: stamp :: sector :: _ => { e with cuts := put e.cuts leaf (stamp, sector) }
  | 4 :: step :: _ => { e with log := { e.log with exposed := some step } }
  | 9 :: step :: _ => { e with log := { e.log with asked := some step } }
  | 5 :: ring :: step :: _ => e.setRings (fun g => { g with
      recs := g.recs.map (fun r => if r.num = ring then { r with wstep := some step } else r) })
  | 6 :: region :: row :: host :: _ => { e with thickDests := e.thickDests ++ [{ region := region, row := row, host := host }] }
  | 7 :: region :: row :: ring :: _ => { e with oldLost := e.oldLost ++ [(region, row, ring)] }
  | 8 :: region :: row :: ring :: last :: _ => e.setRings (fun g => { g with
      seqs := g.seqs ++ [{ region := region, row := row, ring := ring, last := last }] })
  | _ => e

/-- An entry of the quick-digest table (R369). -/
def Dig.entry (d : Dig) : List Byte :=
  natLe 8 d.cur ++ natLe 8 d.prior ++ natLe 4 d.priorStamp
    ++ natLe 4 ((if d.current then 1 else 0) + (if d.priorValid then 2 else 0)) ++ zeros 8

/-- Sectors of the quick-digest table, which stands at the base of the journal (R369). -/
def Eng.digSectors (e : Eng) : Nat := (e.memSize / leafBytes + 127) / 128

def Eng.digTable (e : Eng) : List (List Byte) :=
  (List.range e.digSectors).map (fun i => (List.range 128).flatMap (fun j => (e.dig (128 * i + j)).entry))

/-- The table as it stands in the spare's journal (R269, R369). -/
def Eng.takeDigTable (e : Eng) : Eng :=
  e.each (List.range (e.memSize / leafBytes)) (fun leaf e =>
    let b := e.memRead (e.journalBase + 32 * leaf) 32
    if allZero b then e
    else e.setDig leaf { cur := fieldAt b 0 8, prior := fieldAt b 8 8, priorStamp := fieldAt b 16 4, current := bit (fieldAt b 20 4) 0,
                         priorValid := bit (fieldAt b 20 4) 1 })

/-- The journal image: the quick-digest table, those rows, then every structure's bytes, each from a slot of its own; with the index
records in order. DESIGN CHOICE: log entry 35. -/
def Eng.journalImage (e : Eng) : List (List Byte) × List Byte :=
  let rows := e.journalRows
  let head := e.digTable ++ slots (natLe 4 rows.length ++ rows.flatMap packRow)
  e.journalItems.foldl (fun acc j =>
    match j.data with
    | some d => (acc.1 ++ slots d, acc.2 ++ j.bytes (4096 * acc.1.length))
    | none => (acc.1, acc.2 ++ j.bytes 0)) (head, [])

/-- The journal's sectors go to the spare (R268, R269). -/
def Eng.sendJournal (e : Eng) (img : List (List Byte)) : Eng :=
  e.each img.zipIdx (fun s e => e.sendSector (e.journalBase / leafBytes + s.2 / 256) (s.2 % 256) s.1)

/-- The state block of R270. -/
def Eng.stateBlock (e : Eng) : List Byte :=
  let next := w32 (e.base + 1)
  let votes := fun n => bitsWhere 16 (fun p => (e.vote? n p).isSome)
  let vb := fun n => match e.vote? n e.pos with
    | some v => padTo 32 (natLe 4 v.bnd.step ++ [byteOf v.bnd.kind, 0, 0, 0] ++ natLe 8 v.bnd.count)
    | none => match e.rings.votes.find? (fun v => v.ring == n) with
      | some v => padTo 32 (natLe 4 v.bnd.step ++ [byteOf v.bnd.kind, 0, 0, 0] ++ natLe 8 v.bnd.count)
      | none => zeros 32
  let gens := (List.range 16).map (fun p => match e.sessAt (e.placeOf p) with
    | some s => if e.isPresent p && p != e.pos then byteOf s.gen else 0
    | none => 0)
  padTo 4096 (natLe 4 (e.rd Reg.GRV_PT_STAT_LOSSES) ++ natLe 2 e.lostMap ++ zeros 2 ++ natLe 4 e.committed ++ natLe 4 e.base
    ++ [byteOf (ringCode (e.ringSt e.base)), byteOf (ringCode (e.ringSt next))] ++ natLe 2 (votes e.base) ++ natLe 2 (votes next) ++ zeros 2
    ++ natLe 4 (e.rd Reg.GRV_BND_LAST_LAST_STEP) ++ natLe 4 (e.rd Reg.GRV_BND_LAST_LAST_TSTEP)
    ++ natLe 4 (e.rd Reg.GRV_LOG_STAT_RETIRED) ++ natLe 4 (e.rd Reg.GRV_LOG_STAT_LOGGED)
    ++ natLe 4 ((if e.on Reg.GRV_LOG_STAT_EXPOSED then 1 else 0) + (if e.rolling then 2 else 0) + (if e.closed then 4 else 0))
    ++ natLe 4 e.upd.gen ++ gens ++ vb e.base ++ vb next)

/-- EVAC_STATE packets of one kind. -/
def Eng.sendKind (e : Eng) (kind : Nat) (parts : List (List Byte)) : Eng :=
  e.each parts.zipIdx (fun p e => e.sendPlace e.evac.spare
    { typ := tEvacState, dst := 15, sector := kind, row := if kind = 1 then 256 * p.2 else 0, seq := p.2, release := parts.length,
      planes := 1, lineMap := 2 ^ 64 - 1, payload := padTo 4096 p.1 })

/-! ### The cutover (R269) -/

/-- Nothing of this member is on its way: every packet sent is acknowledged, mirror copies and log packets among them, and every
packet received is applied or staged (R269). -/
def Eng.quiet (e : Eng) : Bool :=
  e.sent.isEmpty && e.waits.isEmpty && e.caps.isEmpty && e.upd.runs.all (fun u => u.ready.isEmpty) &&
  e.mtx.all (fun t => t.waiting.isEmpty) && e.log.outs.all (fun o => o.pend.isEmpty && o.refused.isEmpty)

/-- EVACUATE with MODE 1 is accepted: no new chunk, the tier's flush, the capture entries (R269, R335). -/
def Eng.startCutover (e : Eng) (cmd : Nat) : Eng :=
  let e := (e.setEvac (fun v => { v with cutCmd := some cmd, step := 1 })).wr Reg.RBD_EVAC_STAT_PHASE 3
  let e := e.askRanges .flush .evacFlush (e.rgns.map (fun r => (r.base, r.len)))
  e.each (e.caps.filter e.mayClose) (fun c e => e.closeEntry c)

/-- The cutover goes on: the dirty sectors and the state once the flush has ended and nothing is on its way; HANDOVER once
the spare has accepted every kind (R269, R270, R335). -/
def Eng.cutover (e : Eng) : Eng :=
  if e.evac.step = 1 then
    let e := e.each (e.caps.filter e.mayClose) (fun c e => e.closeEntry c)
    if e.tierWaits .evacFlush || !e.quiet then e
    else
      let e := e.each e.evac.sent (fun l e => e.each ((List.range 256).filter (e.isDirty l.1)) (fun s e =>
        e.sendSector l.1 s (e.memRead (l.1 * leafBytes + s * sectorBytes) sectorBytes)))
      let img := e.journalImage
      let e := e.sendJournal img.1
      let n := (e.memSize / leafBytes + 255) / 256
      let ctxs := (List.range n).map (fun g => (List.range 256).flatMap (fun i => e.ctxBytes (256 * g + i)))
      let e := ((e.sendKind 1 ctxs).sendKind 2 [e.stateBlock]).sendKind 3 (slots img.2)
      (e.setEvac (fun v => { v with step := 2 })).wr Reg.RBD_EVAC_STAT_LEAVES 0
  else if e.evac.step = 2 && [1, 2, 3].all e.evac.acks.contains then
    let note : Pkt := { typ := tHandover, release := e.evac.spare }
    let e := (e.sendAll note).sendPlace e.evac.spare { note with dst := 15 }
    let res := e.evacResult
    let cmd := e.evac.cutCmd
    let e := (e.setEvac (fun v => { v with step := 3, cutCmd := none })).wr Reg.RBD_EVAC_STAT_PHASE 4
    let e := e.fence (fun t => t.own tHandover)
    match cmd with
    | some c => e.complete c stOk res
    | none => e
  else e

/-- Every sector of every valid region goes once, and every sector of the journal (R268). -/
def Eng.copyAll (e : Eng) : Eng :=
  let leaves := e.rgns.flatMap (fun r => (List.range r.rows).map r.leaf)
  let e := e.each leaves (fun l e => e.each (List.range 256) (fun s e =>
    e.sendSector l s (e.memRead (l * leafBytes + s * sectorBytes) sectorBytes)))
  e.sendJournal e.journalImage.1

/-- Evacuation starts, by command or by the thickening loop (R267). -/
def Eng.startEvac (e : Eng) (cmd : Option Nat) (spare : Nat) : Eng :=
  let e := e.setEvac (fun _ => { copyCmd := cmd, cutCmd := none, auto := cmd.isNone, spare := spare, sent := [], dirty := [], step := 0, acks := [],
                                 src := none, parts := [] })
  let e := ((e.wr Reg.RBD_EVAC_STAT_PHASE 1).wr Reg.RBD_EVAC_STAT_SPARE spare).copyAll
  e.wr Reg.RBD_EVAC_STAT_LEAVES 0

/-- EVACUATE (R267 to R271). MODE 0 beside an evacuation that the loop has started to the same spare takes part in that one, and
completes as its own would (R433, DEDUCED, log entry 46). -/
def Eng.evacuate (e : Eng) (cmd mode spare : Nat) : Eng :=
  let busy := 1 ≤ e.evacPhase && e.evacPhase ≤ 3
  match mode with
  | 0 =>
    if e.evac.auto && busy && spare = e.evac.spare && e.evac.copyCmd.isNone then
      if e.evacPhase = 1 then e.setEvac (fun v => { v with copyCmd := some cmd }) else e.complete cmd stOk e.evacResult
    else if busy || (match e.sessAt spare with | some s => s.st != 1 | none => true) then e.refuse cmd rsRule []
    else e.startEvac (some cmd) spare
  | 1 =>
    if e.evacPhase != 2 || spare != e.evac.spare then e.refuse cmd rsRule []
    else (e.startCutover cmd).cutover
  | 2 =>
    if !busy || e.evac.step = 3 then e.refuse cmd rsRule []
    else (e.abortEvac stCancelled).complete cmd stOk e.evacResult
  | _ => e.refuse cmd rsRule []

/-! ### The spare -/

/-- An EVAC_DATA at the standby spare (R268). The first one is answered with status 2 where the two chips differ (R270): as a
free value has it, or as a leaf outside this chip's memory shows. DESIGN CHOICE: log entry 35. -/
def Eng.rxEvacData (e : Eng) (place : Nat) (p : Pkt) : Eng :=
  let outside := decide (e.memSize / leafBytes ≤ p.row)
  let first := e.evac.src != some place
  let e := e.setEvac (fun v => { v with src := some place })
  if outside || Config.spareDiffers place then
    if outside || first then e.sendPlace place { typ := tRbDone, dst := p.src, sector := 2 } else e
  else e.store (p.row * leafBytes + p.sector * sectorBytes) (padTo sectorBytes p.payload)

/-- The state that a kind's parts carry is taken over. -/
def Eng.takeContexts (e : Eng) (parts : List (Nat × List Byte)) : Eng :=
  e.each parts (fun pt e => e.each (List.range 256) (fun i e =>
    let b := (pt.2.drop (16 * i)).take 16
    let f := fieldAt b
    if allZero (b.drop 4) && bits (f 0 4) 31 16 = 0 then e
    else
      let leaf := 256 * pt.1 + i
      let e := e.setDig leaf { e.dig leaf with current := bit (f 0 4) 19 }
      e.setCtx leaf { heat := f 3 1, digest := bit (f 0 4) 19, st := bits (f 0 4) 18 16, lagged := 0, stamp := f 4 4,
                      seq := f 8 4, ring := f 12 4 }))

def stateOfCode (n : Nat) : RingState :=
  match n with
  | 1 => .opened | 2 => .flushing | 3 => .sending | 4 => .localSealed | 5 => .groveSealed | 6 => .committed | 7 => .split
  | 8 => .rolled | _ => .free

def Eng.takeBlock (e : Eng) (b : List Byte) : Eng :=
  let f := fieldAt b
  let e := (e.wr Reg.GRV_PT_STAT_LOSSES (f 0 4)).wr Reg.RBD_LOSS_STAT_LOST_MAP (f 4 2)
  let e := e.each (List.range 16) (fun p e => e.flag (Reg.GRV_MEMBER_LOST p) (bit (f 4 2) p))
  let e := (e.wr Reg.GRV_RING_STAT_COMMITTED (f 8 4)).wr Reg.GRV_RING_STAT_BASE (f 0xC 4)
  let e := (e.wr Reg.GRV_BND_LAST_LAST_STEP (f 0x18 4)).wr Reg.GRV_BND_LAST_LAST_TSTEP (f 0x1C 4)
  let e := (e.wr Reg.GRV_LOG_STAT_RETIRED (f 0x20 4)).wr Reg.GRV_LOG_STAT_LOGGED (f 0x24 4)
  let e := (e.flag Reg.GRV_LOG_STAT_EXPOSED (bit (f 0x28 4) 0)).flag Reg.GRV_RING_STATE_ROLLING (bit (f 0x28 4) 1)
  let e := e.flag Reg.GRV_RING_STATE_CLOSED (bit (f 0x28 4) 2)
  let base := f 0xC 4
  let bnd := fun o => ({ step := f o 4, kind := f (o + 4) 1, count := f (o + 8) 8 } : Bnd)
  let mk := fun n st o => if st = 0 then [] else
    [({ num := n, st := stateOfCode st, bnd := if 2 ≤ st then some (bnd o) else none, wstep := none } : RingRec)]
  let vs := fun n m o => ((List.range 16).filter (fun p => bit m p)).map (fun p =>
    ({ ring := n, pos := p, bnd := bnd o, count := 1, parts := [0], us := [] } : Vote))
  let recs := mk base (f 0x10 1) 0x40 ++ mk (w32 (base + 1)) (f 0x11 1) 0x60
  let e := e.setRings (fun g => { g with
    recs := recs, votes := vs base (f 0x12 2) 0x40 ++ vs (w32 (base + 1)) (f 0x14 2) 0x60, highest := (recs.getLast?).map (·.num),
    seenStep := true, seenTstep := true })
  let e := e.setUpd (fun u => { u with gen := f 0x2C 4 })
  let e : Eng := { e with log := { e.log with exposed := if bit (f 0x28 4) 0 then some (f 0x24 4) else none } }
  -- sessions open under the generations of R304, one above those that r held
  e.each (List.range 16) (fun p e =>
    let g := f (0x30 + p) 1
    if g = 0 then e else e.openSess (e.placeOf p) (nextGen g))

/-- One index record at the spare, with the journal bytes that have come for it. DESIGN CHOICE: log entry 35. -/
def Eng.takeRecord (e : Eng) (b : List Byte) : Eng :=
  let f := fieldAt b
  let data := fun n => e.memRead (e.journalBase + f 0x10 8) n
  let region := f 2 2
  let wdt := e.widthOf region
  let thinned := fun (s : List Byte) => (lineMapOf wdt s, thin wdt s)
  match f 0 1 with
  | 1 =>
    let d := f 0x18 8
    let typ := bits d 15 8
    let (map, pay) := if typ == tClassProd then nonZeroLines (data 4096) else thinned (data 4096)
    let owers := (data 4100).drop 4096
    let owed := fun (o : Nat) (thick : Bool) => ((List.range 16).filter (fun p => bit (fieldAt owers o 2) p)).map (fun p =>
      ({ pos := p, thick := thick, gone := true, resends := bits d 39 32, missed := false } : Dest))
    let s : Sent := { typ := typ, region := region, row := f 4 4, sector := bits d 7 0, stamp := f 0xC 4, seq := f 8 4,
                      planes := if typ == tClassProd then 1 else planesOf wdt map, lineMap := map, payload := pay, release := 0,
                      dests := owed 0 false ++ owed 2 true }
    { e with sent := e.sent ++ [s] }
  | 2 => match e.rgn? region with
    | some r => e.updCtx (r.leaf (f 4 4)) (fun c => { c with seq := f 0xC 4 })
    | none => e
  | 3 =>
    let (map, pay) := thinned (data 4096)
    { e with window := e.window ++ [{ region := region, row := f 4 4, src := f 1 1, thick := fieldAt (data 4097) 4096 1 == 1,
                                      seq := f 8 4, stamp := f 0xC 4, sector := f 0x18 1, lineMap := map, payload := pay }] }
  | 4 =>
    let head := data 6
    let bs := data (6 + fieldAt head 2 4 * 4104)
    let s : Stage := { ring := f 8 4, region := region, row := f 4 4, src := f 1 1, thick := fieldAt head 1 1 == 1, ah := f 0xC 4,
                       secs := unpackAll (bs.drop 2), usable := fieldAt head 0 1 == 1 }
    e.setRings (fun g => { g with stages := g.stages ++ [s] })
  | 5 =>
    let d := f 0x18 8
    let bs := data (4 + d % 2 ^ 32)
    let scalar := region == 0xFFFF
    let mine := fun (h : LogHeld) => h.owner == f 1 1 && h.scalar == scalar && h.stamp == f 8 4 && h.row == d / 2 ^ 32
    let old := (e.log.held.find? mine).getD { owner := f 1 1, scalar := scalar, stamp := f 8 4, row := d / 2 ^ 32,
                                              region := if scalar then 0 else region, lines := fieldAt bs 0 4, chunks := [] }
    let h := { old with chunks := put old.chunks (f 0xC 4) (bs.drop 4) }
    { e with log := { e.log with held := (e.log.held.filter (fun x => !mine x)) ++ [h] } }
  | 6 =>
    let d := f 0x18 8
    let n := fieldAt (data 20) 16 4
    let bs := data (20 + n * 72)
    let m : MirrorRx := { src := f 1 1, region := region, copy := d % 2 ^ 32, index := bits d 39 32, stamp := f 8 4,
                          ring := f 0xC 4, count := fieldAt bs 0 8, lines := unpackAll (bs.drop 16), dig := some (fieldAt bs 8 8),
                          complete := bit d 40 }
    match e.mrx? m.src m.region m.copy with
    | some o => e.setMrx { o with lines := m.lines.foldl (fun ls l => put ls l.1 l.2) o.lines }
    | none => e.setMrx m
  | 7 =>
    let n := fieldAt (data 4) 0 4
    { e with hosted := e.hosted ++ [{ region := region, row := f 4 4, risky := f 1 1, secs := unpackAll (data (4 + n * 4104)),
                                      rings := [], built := true, provisional := f 0x18 8 % 2 == 1, releasing := false,
                                      left := [] }] }
  | 8 => e.setRings (fun g => { g with applies := (e.applyJobs (f 8 4)).drop (f 0x10 8) })
  | _ => e

/-- Kind 3: what the journal's head holds, and every structure of the journal. -/
def Eng.takeIndex (e : Eng) (bs : List Byte) : Eng :=
  let base := e.journalBase + 4096 * e.digSectors
  let n := e.memNat base 4
  let rows := (List.range n).map (fun i => e.memRead (base + 4 + 96 * i) 96)
  let e : Eng := { e with applied := [], digs := [], cuts := [], thickDests := [], oldLost := [] }
  let e := e.takeDigTable
  let e := e.each rows (fun b e => e.takeRow b)
  e.each ((chunksOf 32 (bs.length / 32 + 1) bs).filter (fun b => b.length == 32 && !allZero b)) (fun b e => e.takeRecord b)

/-- An EVAC_STATE at the spare: a kind whose parts are all there is taken over and acknowledged (R270). -/
def Eng.rxEvacState (e : Eng) (place : Nat) (p : Pkt) : Eng :=
  if p.sector = 0 || 3 < p.sector then e.malformed
  else
    let e := e.setEvac (fun v => { v with parts := (v.parts.filter (fun x => !(x.1 == p.sector && x.2.1 == p.seq))) ++
      [(p.sector, p.seq, p.row / 256, p.payload)] })
    let mine : List (Nat × Nat × Nat × List Byte) :=
      (e.evac.parts.filter (fun x => x.1 == p.sector)).mergeSort (fun a b => a.2.1 ≤ b.2.1)
    if mine.length < p.release then e
    else
      let e := match p.sector with
        | 1 => e.takeContexts (mine.map (fun (x : Nat × Nat × Nat × List Byte) => (x.2.2.1, x.2.2.2)))
        | 2 => e.takeBlock ((mine.map (fun (x : Nat × Nat × Nat × List Byte) => x.2.2.2)).headD [])
        | _ => e.takeIndex (mine.flatMap (fun (x : Nat × Nat × Nat × List Byte) => x.2.2.2))
      e.sendPlace place { typ := tRbDone, dst := p.src, stamp := p.sector, sector := 0 }

/-- An RB_DONE from the spare of an evacuation: a kind accepted, or a spare that differs (R270). -/
def Eng.evacDone (e : Eng) (p : Pkt) : Eng :=
  if p.sector = 2 then (if 1 ≤ e.evacPhase && e.evacPhase ≤ 3 then e.abortEvac stGraftRefused else e)
  else if p.sector = 0 && !e.evac.acks.contains p.stamp then (e.setEvac (fun v => { v with acks := v.acks ++ [p.stamp] })).cutover
  else e

/-- HANDOVER is acted on at a member (R269): the place of r is the spare's, and its session opens one generation on. -/
def Eng.takeHandover (e : Eng) (p : Pkt) : Eng :=
  let spare := p.release % 2 ^ 20
  let r := p.src
  let old := e.placeOf r
  let gen := match e.sessAt old with | some s => nextGen s.gen | none => 1
  let e := (e.closeSess old).wr (Reg.GRV_MEMBER_PLACE r) spare
  let fab := if e.loss.fabric.contains r then e.loss.fabric else e.loss.fabric ++ [r]
  let e : Eng := { e.openSess spare gen with loss := { e.loss with fabric := fab, heard := put e.loss.heard r e.now } }
  let e := e.each (e.hosted.filter (fun h => h.built && !h.releasing && h.risky != r)) (fun h e =>
    e.send r { typ := tThickNote, region := h.region, row := h.row, sector := 1 })
  e.releaseRows (fun h => h.risky == r)

/-- HANDOVER at the spare: it takes the position, by the fabric route; port 2 has no partner at the last position of an odd
grove (R61, R254, R269). -/
def Eng.becomeMember (e : Eng) (p : Pkt) : Eng :=
  let e := ((e.wr Reg.GRV_CFG_POS p.src).wireUp e.w p.src).wr (Reg.GRV_MEMBER_PLACE p.src) e.place
  let e := (e.flag Reg.GRV_MAP_CTL_STANDBY false).flag Reg.GRV_MAP_CTL_GRAFT true
  let e : Eng := { e with graft := none, evac := { e.evac with src := none, parts := [] } }
  let hs := e.peers.foldl (fun m q => put m q e.now) e.loss.heard
  ({ e with loss := { e.loss with heard := hs } } : Eng).holdCheck 2

/-- A HANDOVER (R269, R514). -/
def Eng.rxHandover (e : Eng) (p : Pkt) : Eng :=
  let spare := p.release % 2 ^ 20
  if spare == e.place then e.becomeMember p
  else if e.mgtView spare == 1 then e.takeHandover p
  else { e with heldJoins := (e.heldJoins.filter (fun h => !(h.place == spare && h.pkt.typ == p.typ))) ++ [{ place := spare, pkt := p }] }

/-- Joins and handovers held for a place are acted on, its management view being ALIVE (R514). -/
def Eng.admitHeld (e : Eng) : Eng :=
  let go := e.heldJoins.filter (fun h => e.mgtView h.place == 1)
  ({ e with heldJoins := e.heldJoins.filter (fun h => e.mgtView h.place != 1) } : Eng).each go (fun h e =>
    if h.pkt.typ == tHandover then e.takeHandover h.pkt
    else if e.joinRefusal h.pkt == 0 then e.acceptJoin h.pkt else e.rxJoin h.pkt)

/-- EVAC_READY (R268). -/
def execEvacReady (s : State) : Host.Outcome State Fault Refusal := .next (s.run Eng.evacReady)

end Sys2Proof.Machine
end

