-- ==== Sys2Proof/Machine/Loss.lean ====
section
/-!
DEFINITION. Sys2Proof/Machine/Loss.lean: what becomes possible after a command and is done at once (the settling of held
work), the retirement of steps (R138), liveness and loss (R84, R140, R233 to R237), and the fence.
-/
namespace Sys2Proof.Machine

/-! ### Retirement of steps (R138) -/

/-- Step t can retire: no accepted run up to it owes a sector, and every destination has acknowledged every streamed packet
up to it. DEDUCED: log entry 77. -/
def Eng.retirable (e : Eng) (t : Nat) : Bool :=
  e.upd.runs.all (fun u => !atOrBefore u.step t || (!e.runOwesAny u && u.ready.isEmpty)) &&
  !(e.sent.any (fun s => s.typ == tStreamDelta && atOrBefore s.stamp t))

/-- Steps that a pass, a packet, a log copy or a STEP_RETIRE names. No other step has a pass or a packet (R138). -/
def Eng.namedSteps (e : Eng) : List Nat :=
  e.log.retires.map (·.2) ++ e.log.outs.map (·.stamp) ++ e.upd.runs.map (·.step) ++
    (e.sent.filter (fun s => s.typ == tStreamDelta)).map (·.stamp)

/-- The steps at which RETIRED can come to stand up to t, ascending: the named ones after it, and the one before each, since the
unnamed steps between two named ones retire together. DEDUCED: log entry 77. -/
def Eng.retireSteps (e : Eng) (t : Nat) : List Nat :=
  let old := e.rd Reg.GRV_LOG_STAT_RETIRED
  let ss := (e.namedSteps.flatMap (fun s => [w32 (s + 2 ^ 32 - 1), s])).filter (fun s => precedes old s && atOrBefore s t)
  (ss.mergeSort (fun a b => atOrBefore a b)).eraseDups

/-- A step retires where it can: partners free their log, RETIRED names it, and heat goes to the log partners (R138, R257). -/
def Eng.retireStep (t : Nat) (e : Eng) : Eng := if e.retirable t then (e.retireTo t).sendHeat else e

/-- An accepted STEP_RETIRE: the steps up to its own retire one by one, as far as they can, and with its own the command
completes (R138). DEDUCED: log entry 77. -/
def Eng.retireOne (e : Eng) (c t : Nat) : Eng :=
  let e := e.each (e.retireSteps t) Eng.retireStep
  let old := e.rd Reg.GRV_LOG_STAT_RETIRED
  if atOrBefore t old then
    ({ e with log := { e.log with retires := e.log.retires.filter (fun r => r != (c, t)) } } : Eng).complete c stOk (natLe 4 old)
  else e

/-- Every accepted STEP_RETIRE, in ascending step. DEDUCED: log entry 77. -/
def Eng.retireReady (e : Eng) : Eng :=
  e.each (e.log.retires.mergeSort (fun a b => atOrBefore a.2 b.2)) (fun r e => e.retireOne r.1 r.2)

/-- STEP_RETIRE is accepted (R138): a step at or before RETIRED completes at once. DEDUCED: log entry 77. -/
def Eng.stepRetire (e : Eng) (cmd t : Nat) : Eng :=
  let e : Eng := { e with log := { e.log with asked := match e.log.asked with
    | some a => if precedes a t then some t else some a
    | none => some t } }
  if atOrBefore t (e.rd Reg.GRV_LOG_STAT_RETIRED) then e.complete cmd stOk (natLe 4 (e.rd Reg.GRV_LOG_STAT_RETIRED))
  else ({ e with log := { e.log with retires := e.log.retires ++ [(cmd, t)] } } : Eng).retireReady

/-! ### Views of a place (R512) -/

/-- HB_MISS in ns, at least 4 × HB_INT. -/
def Eng.missTime (e : Eng) : Nat := 1000 * max (10 * e.rd Reg.RBD_LOSS_CTL_HB_MISS) (4 * e.rd Reg.RBD_LOSS_CTL_HB_INT)

/-- The position a place is bound to. -/
def Eng.boundPos (e : Eng) (place : Nat) : Option Nat :=
  (List.range 16).find? (fun p => e.on (Reg.GRV_MEMBER_PRESENT p) && e.placeOf p == place)

/-- The data view of a place, as MGT_VIEW.DATA codes it: 0 none, 1 ALIVE, 2 SILENT, 3 LOST_HEARD, 4 LOST (R512). -/
def Eng.dataView (e : Eng) (place : Nat) : Nat :=
  match e.boundPos place with
  | none => match look e.sess place with
    | some s => if s.st == 2 then 0 else 1
    | none => 0
  | some p =>
    let heard : Bool := match look e.loss.heard p with | some t => e.now ≤ t + e.missTime | none => false
    if p == e.pos then 1
    else if bit e.lostMap p then (if heard then 3 else 4)
    else if heard && !e.loss.silent.contains p then 1 else 2

/-- The two views of a place disagree (R515). -/
def disagree (data mgt : Nat) : Bool := ((data == 2 || data == 4) && mgt == 1) || ((data == 1 || data == 3) && mgt == 2)

/-- Views are noted: a change dates them, and a disagreement that has ended may be reported anew (R512, R515). -/
def Eng.noteViews (e : Eng) : Eng :=
  { e with mgmt := { e.mgmt with views := e.mgmt.views.map (fun v =>
      let d := e.dataView v.place
      { v with data := d, since := if d = v.data then v.since else e.now, reported := v.reported && disagree d v.mgt }) } }

/-- A place declared lost is heard still: a packet of its closed session arrives (R512).
DEDUCED: log entry 17. DESIGN CHOICE: log entry 72. -/
def Eng.stillHeard (e : Eng) (x : Nat) : Eng :=
  if bit e.lostMap x then ({ e with loss := { e.loss with heard := put e.loss.heard x e.now } } : Eng).noteViews else e

/-! ### Declaring a loss (R84, R140, R234 to R236) -/

/-- Own streamed leaves in stripes that x's loss touches: an update skips them until the stripes are drained (R147).
DESIGN CHOICE: log entry 72. -/
def Eng.noteDraining (e : Eng) (x : Nat) : Eng :=
  let ls := (e.rowsWhere (·.streamed) (fun _ s => roleOf e.w x s < e.k && e.role s < e.k)).map (fun l => (l.1.num, l.2))
  { e with draining := e.draining ++ ls.filter (fun l => !e.draining.contains l) }

/-- What this engine records of a loss, and what it forgets of x (R140, R236). DESIGN CHOICE: log entry 72. -/
def Eng.recordLoss (e : Eng) (x reason : Nat) : Eng :=
  let place := e.placeOf x
  let e := (e.setLostBit x true).wr Reg.GRV_PT_STAT_LOSSES (e.rd Reg.GRV_PT_STAT_LOSSES + 1)
  let e := ((e.wr Reg.RBD_LOSS_STAT_LAST_POS x).wr Reg.RBD_LOSS_STAT_LAST_REASON reason).bump Reg.RBD_LOSS_STAT_DECLS
  let w := if e.loss.wasLost.contains place then e.loss.wasLost else e.loss.wasLost ++ [place]
  let ls : Loss := { e.loss with silent := e.loss.silent.filter (· != x), wasLost := w, grafts := cut e.loss.grafts x,
                                 settledBy := e.loss.settledBy.filter (fun s => s.1 != x),
                                 fresh := e.loss.fresh.filter (fun f => f.1 != x) }
  let e : Eng := { e.noteGraftEdge (look e.loss.grafts x).isSome with
    loss := ls, agrees := e.agrees.filter (fun a => a.x != x), waits := e.waits.filter (fun p => p.src != x),
    busy := e.busy.filter (· != x), thickDests := e.thickDests.filter (fun t => t.host != x),
    thickEnds := e.thickEnds.filter (fun t => t.host != x),
    heldJoins := e.heldJoins.filter (fun h => h.place != place),
    mreq := e.mreq.map (fun q => if q.asked == x then { q with asked := 16 } else q) }
  (((e.closeSess place).each (e.hosted.filter (fun h => h.left.contains x)) (fun h e => e.ownerGone x h)).joinLoss x)

/-- Position x is declared lost (R236). A declaration for a position already lost changes nothing; one of this engine's own
position fences it (R237). Loss declaration starts when the start lock takes effect (R448). A built thickening row outlasts the
loss of its risky position, up to the end of that position's graft, so that its stripe survives that loss and m others
(R59, R266, DESIGN CHOICE, log entry 94). -/
def Eng.declareLost (e : Eng) (x reason : Nat) : Eng :=
  if !e.on (Reg.GRV_MEMBER_PRESENT x) || bit e.lostMap x || !e.locked then e
  else if x == e.pos && !e.on Reg.GRV_MAP_CTL_STANDBY then e.selfFence
  else
    let e := (e.recordLoss x reason).noteDraining x
    let e := (e.dropDests (fun _ d => d.pos == x)).dropReceiver (fun _ q => q == x)
    let e := ((e.startRounds x).replayEarly).partnerLost x
    let e := ((e.ringLoss x).chainLoss x).releaseRows (fun h => h.risky == x && !h.built)
    let e := e.raise .MEMBER_LOST
    let e := e.sendAll { typ := tLossNotice, row := x, sector := reason }
    if e.loss.plain.contains x then e.raise .PLAIN_LOST else e

/-- Positions silent or lost, as R234 counts them. -/
def Eng.awayCount (e : Eng) : Nat := popcount (e.loss.silent.foldl setBit e.lostMap) 16

/-- The rule of R234 on the positions that are silent now. -/
def Eng.silenceRule (e : Eng) : Eng :=
  if e.awayCount ≤ e.m then
    let e := if e.on Reg.RBD_LOSS_STAT_ISOLATED then
        (e.flag Reg.RBD_LOSS_STAT_ISOLATED false).setLevel .GROVE_ISOLATED false else e
    e.each e.loss.silent (fun x e => e.declareLost x 1)
  else if e.on Reg.RBD_LOSS_STAT_ISOLATED then e
  else (e.flag Reg.RBD_LOSS_STAT_ISOLATED true).setLevel .GROVE_ISOLATED true

/-- Nothing has shown some positions alive for RBD_LOSS_CTL.HB_MISS (R234); from the start lock on (R448). -/
def Eng.membersSilent (e : Eng) (xs : List Nat) : Eng :=
  if !e.canTalk || !e.locked then e
  else
    let new := xs.filter (fun x => e.isPresent x && x != e.pos && !e.loss.silent.contains x)
    ({ e with loss := { e.loss with silent := e.loss.silent ++ new.eraseDups } } : Eng).silenceRule

/-- A packet shows a position alive (R233). -/
def Eng.hearFrom (e : Eng) (x : Nat) : Eng :=
  let was := e.loss.silent.contains x
  let ls : Loss := { e.loss with heard := put e.loss.heard x e.now, silent := e.loss.silent.filter (· != x) }
  let e : Eng := { e with loss := ls }
  if was then e.silenceRule else e

/-- Lost positions that a heartbeat's map names (R235, R237). -/
def Eng.mergeMap (e : Eng) (map : Nat) : Eng :=
  e.each ((List.range 16).filter (fun x => bit map x)) (fun x e => e.declareLost x 1)

/-! ### Settling -/

/-- Whether the other surviving owners of a stripe have drained: no message tells this engine, unless there is none (R147).
DESIGN CHOICE: log entry 72. -/
def Eng.othersDrained (e : Eng) (row : Nat) : Eng × Bool :=
  if (e.owners row).all (· == e.pos) then (e, true) else (e.useFree 1, Config.othersDrained e.free)

/-- An own leaf may be written again once every surviving owner of its stripe has drained (R147). DESIGN CHOICE: log entry 72. -/
def Eng.undrainLeaf (l : Nat × Nat) (e : Eng) : Eng :=
  let free := fun (e : Eng) => ({ e with draining := e.draining.filter (· != l) } : Eng)
  match e.rgn? l.1 with
  | some r =>
    if e.drained r l.2 then
      let (e, others) := e.othersDrained l.2
      if others then free e else e
    else e
  | none => free e

/-- Own leaves whose stripes have drained may be written again (R147). -/
def Eng.undrain (e : Eng) : Eng := e.each e.draining Eng.undrainLeaf

/-- A graft has brought the count of R234 down: ISOLATED clears, and the positions still silent are declared. -/
def Eng.unIsolate (e : Eng) : Eng :=
  if e.on Reg.RBD_LOSS_STAT_ISOLATED && decide (e.awayCount ≤ e.m) then e.silenceRule else e

/-- A packet of this engine's own for itself is taken as one that has passed the checks of R119. -/
def Eng.selfTake (p : Pkt) (e : Eng) : Eng :=
  match p.typ with
  | 0x01 => e.rxStreamDelta p
  | 0x02 => e.rxRingDelta p
  | 0x03 => e.takeAck p
  | 0x04 => e.rxRelease p
  | 0x1A => e.rxSnapNote p
  | 0x32 => e.rxRollFetch p
  | 0x33 => e.rxRollData p
  | 0x34 => e.rxRollEnd p
  | 0x35 => e.rxRollNone p
  | _ => e

/-- Packets of this engine's own for itself, in their order, with those they bring about. DEDUCED: log entry 92. -/
def Eng.selfLoop : Nat → Eng → Eng
  | 0, e => e
  | fuel + 1, e =>
    match e.selfQ with
    | [] => e
    | p :: rest => Eng.selfLoop fuel (({ e with selfQ := rest } : Eng).selfTake p)

/-- Work that a command's effect has made possible goes on: this engine's packets for itself, losses no longer withheld, withheld tap pairs, seals, runs,
retirements, word of a released row, the anchor, held accesses, reconstructions, the cutover. -/
def Eng.settle (e : Eng) : Eng :=
  let e := ((((((e.selfLoop 1048576).unIsolate).undrain).retryTaps).trySeal.pumpRuns).retireReady).endThicks
  ((e.anchorStep.releaseHeld.recon).cutover).noteViews

/-- Sessions whose counter has reached 2^63, or whose key state has been lost, advance once the peer has been heard at the
current generation (R302, R304, R305). -/
def Eng.advanceSessions (e : Eng) : Eng :=
  { e with sess := e.sess.map (fun s =>
      if s.2.st == 1 && s.2.heard && (2 ^ 63 ≤ s.2.tx || s.2.keyLost) then (s.1, { gen := nextGen s.2.gen, st := 3, tx := 1, heard := false }) else s) }

/-- The heartbeat of this engine, from the start lock on (R233, R448); during a coding-core reset that of the crypto domain's sequencer, with the values
held at the reset, for at most 10 ms (R452). -/
def Eng.heartbeat (e : Eng) : Eng :=
  if !e.locked then e
  else
  let inTime : Bool := match e.boot.resetsAt.getLast? with | some t => e.now ≤ t + 10000000 | none => true
  if !e.boot.inReset then
    e.advanceSessions.sendAll { typ := tHeartbeat, stamp := e.rd Reg.GRV_PT_STAT_LOSSES, release := e.lostMap }
  else if inTime then e.sendAll { typ := tHeartbeat, stamp := e.loss.hbLosses, release := e.loss.hbMap }
  else e

/-! ### Commands -/

/-- HEARTBEAT_TIMER (R233, R452). -/
def execHeartbeatTimer (s : State) : Host.Outcome State Fault Refusal := .next (s.run Eng.heartbeat)

/-- MEMBER_SILENT (R234). DESIGN CHOICE: log entry 2. -/
def execMemberSilent (xs : List (Fin 16)) (s : State) : Host.Outcome State Fault Refusal :=
  .next (s.run (fun e => (e.membersSilent (xs.map (·.val))).settle))

/-- STEP_RETIREMENT: the conditions of R138 have come to hold. -/
def execStepRetirement (s : State) : Host.Outcome State Fault Refusal := .next (s.run (fun e => e.retireReady.settle))

end Sys2Proof.Machine
end

