-- ==== Sys2Proof/Machine/Packets.lean ====
section
/-!
DEFINITION. Sys2Proof/Machine/Packets.lean: the arrival of a SAP packet at a grove port, at the spill aperture or at the route
aperture (R90, R107 to R110, R119, R126, R254, R289, R300 to R305, R404, R452), and the meaning of each packet type.
-/
namespace Sys2Proof.Machine

/-! ### Checks 1 and 2 (R119, R300 to R305) -/

/-- Places whose session a packet with a source position can belong to: the place bound to that position, then places that
hold a session and no position. DEDUCED: log entry 17. -/
def Eng.sendersOf (e : Eng) (src : Nat) : List Nat :=
  let bound := src < e.w && e.on (Reg.GRV_MEMBER_PRESENT src)
  (if bound then [e.placeOf src] else []) ++
    (e.sess.map (·.1)).filter (fun pl => !((List.range e.w).any (fun p => e.placeOf p == pl)))

/-- The payload of a packet under the key of a generation, if its tag verifies (R301). -/
def Eng.openPkt (e : Eng) (place gen typ : Nat) (p : SapPkt) : Option (List Byte) :=
  e.sec.jlk.bind (fun jlk =>
    gcmOpen (sessionKey jlk place e.place gen) (sapIv (p.pos.toNat % 16) gen p.counter.toNat) (sapHeader typ p) p.body
      (natBe 16 p.tag.toNat))

/-- What checks 1 and 2 find: no session at the packet's generation, a tag that does not verify, keys overwritten by a zeroization, or the sender's place with
the generation and the payload. -/
inductive Door where
  | gen | tag | keyless
  | pass (place gen : Nat) (payload : List Byte)
  deriving DecidableEq, Repr

/-- Generations under which a packet may open at a session: its current one, and for a HEARTBEAT the next (R305). -/
def doorGens (typ : Nat) (s : Sess) : List Nat :=
  if s.st = 2 then [] else if typ = tHeartbeat then [s.gen, nextGen s.gen] else [s.gen]

/-- A packet that no key opens: after a zeroization it counts as no failure (R412). -/
def Eng.unopened (e : Eng) : Door := if e.on Reg.SEC_STAT_ZEROIZED && e.sec.jlk.isNone then .keyless else .tag

/-- Checks 1 and 2. GRAFT_JOIN and GRAFT_WELCOME go at generation 0 (R300); a welcome's header carries the new generation
(R253, DEDUCED, log entry 22). A HEARTBEAT one generation above that its key does not verify is a packet of another generation
(R305). DEDUCED: log entry 17. -/
def Eng.door (e : Eng) (typ : Nat) (p : SapPkt) : Door :=
  if typ = tGraftJoin || typ = tGraftWelcome then
    if typ = tGraftJoin && p.gen != 0 then .gen
    else
      let place := if typ = tGraftJoin then p.release.toNat % 2 ^ 20 else e.placeOf (p.pos.toNat % 16)
      match e.openPkt place 0 typ p with
      | some pl => .pass place 0 pl
      | none => e.unopened
  else
    let cs := (e.sendersOf (p.pos.toNat % 16)).filter (fun pl => match e.sessAt pl with
      | some s => (doorGens typ s).contains p.gen.toNat
      | none => false)
    if cs.isEmpty then .gen
    else match cs.findSome? (fun pl => (e.openPkt pl p.gen.toNat typ p).map (fun x => (pl, x))) with
      | some (pl, x) => .pass pl p.gen.toNat x
      | none => if cs.any (fun pl => (e.sessAt pl).any (fun s => s.gen == p.gen.toNat)) then e.unopened else .gen

/-- A packet has passed checks 1 and 2: its session has been heard, and takes the generation of a HEARTBEAT one above; its
position is alive (R233, R305). -/
def Eng.heardAt (e : Eng) (place gen src : Nat) : Eng :=
  let e := if gen = 0 then e
    else match e.sessAt place with
      | some s =>
        if s.gen = gen then { e with sess := put e.sess place { s with st := 1, heard := true } }
        else { e with sess := put e.sess place { gen := gen, st := 1, tx := 1, heard := true } }
      | none => e
  if src < e.w && e.isPresent src && e.placeOf src == place then e.hearFrom src else e

/-! ### Check 3 (R108, R119 and the tables of the types) -/

/-- Header fields that a type's table uses. -/
structure Uses where
  region  : Bool := false
  row     : Bool := false
  sector  : Bool := false
  stamp   : Bool := false
  seq     : Bool := false
  release : Bool := false
  thick   : Bool := false
  payload : Bool := false

/-- Fields used by each type (R83, R108, R135, R142, R189, R238); THICK on the types of DEDUCED, log entry 23.
DEDUCED: log entry 61. -/
def usesOf (t : Nat) : Uses :=
  match t with
  | 0x01 => { region := true, row := true, sector := true, stamp := true, seq := true, release := true, thick := true, payload := true }
  | 0x02 => { region := true, row := true, sector := true, stamp := true, seq := true, thick := true, payload := true }
  | 0x03 => { region := true, row := true, sector := true, stamp := true, seq := true, thick := true }
  | 0x04 => { region := true, row := true, release := true, thick := true }
  | 0x10 => { stamp := true, release := true }
  | 0x11 => { row := true, sector := true }
  | 0x12 => { region := true, row := true, sector := true, stamp := true, seq := true, release := true, thick := true }
  | 0x13 => { region := true, row := true, sector := true, stamp := true, seq := true, payload := true }
  | 0x14 => { stamp := true, sector := true, thick := true }
  | 0x15 => { seq := true }
  | 0x16 => { row := true, release := true, payload := true }
  | 0x17 => { sector := true }
  | 0x18 => { region := true, seq := true, release := true }
  | 0x19 => { sector := true }
  | 0x1A => { region := true, row := true, sector := true, stamp := true, seq := true, thick := true }
  | 0x1B => { region := true, row := true, sector := true }
  | 0x1C => { row := true, sector := true, payload := true }
  | 0x1D => { release := true }
  | 0x1E => { seq := true, payload := true }
  | 0x1F => { row := true, sector := true, seq := true, release := true, payload := true }
  | 0x20 => { region := true, row := true, stamp := true, seq := true, release := true, payload := true }
  | 0x21 => { row := true, stamp := true, payload := true }
  | 0x22 => { row := true, sector := true, stamp := true, seq := true }
  | 0x23 => { stamp := true }
  | 0x24 => { region := true, row := true, sector := true, stamp := true, seq := true, release := true, payload := true }
  | 0x25 => { region := true, stamp := true, seq := true, release := true, payload := true }
  | 0x26 => { region := true, sector := true, seq := true }
  | 0x27 => { region := true, seq := true }
  | 0x28 => { region := true, row := true, sector := true, stamp := true, release := true }
  | 0x29 => { region := true, row := true, sector := true, stamp := true, seq := true, release := true, payload := true }
  | 0x2A => { region := true, release := true }
  | 0x2B => { region := true, row := true, sector := true, stamp := true, seq := true, thick := true, payload := true }
  | 0x2C => { region := true, row := true, sector := true, seq := true, thick := true }
  | 0x30 => { stamp := true, seq := true, release := true, payload := true }
  | 0x31 => { stamp := true }
  | 0x32 => { region := true, row := true, stamp := true, release := true }
  | 0x33 => { region := true, row := true, sector := true, stamp := true, seq := true, payload := true }
  | 0x34 => { region := true, row := true, stamp := true, seq := true, release := true }
  | 0x35 => { region := true, row := true, stamp := true }
  | 0x38 => { row := true, stamp := true, payload := true }
  | 0x39 => { row := true, stamp := true, payload := true }
  | 0x3A => { row := true, stamp := true, payload := true }
  | 0x3B => { row := true, stamp := true }
  | _ => {}

/-- Bits of ROW, SEQ, SECTOR and RELEASE that the tables give to a type where they give only some, with THICK as the model gives
it to RB_DONE (DESIGN CHOICE, log entry 28). DEDUCED: log entry 61. -/
def partsOk (p : Pkt) : Bool :=
  match p.typ with
  | 0x10 => p.release < 2 ^ 16
  | 0x11 => p.row < 16
  | 0x12 => p.seq < 16 && p.release < 2 ^ 24
  | 0x14 => !p.thick || p.sector = 1
  | 0x16 => p.row < 32 && p.release < 2 ^ 20
  | 0x1D => p.release < 2 ^ 20
  | 0x24 => p.release < 4
  | 0x25 => p.release < 4 && p.lineMap = 1
  | 0x28 => bits p.release 15 9 = 0 && bits p.release 7 4 = 0
  | 0x29 => p.release % 2 ^ 16 = 0 && p.lineMap = 2 ^ 64 - 1
  | 0x2A => p.release % 2 ^ 16 = 0
  | 0x38 => p.row < 16
  | 0x39 => p.row < 16
  | 0x3A => p.row < 16
  | 0x3B => p.row < 16
  | _ => true

/-- PLANES and LINE_MAP agree (R104, R135): thinned types in their element width, the others with whole lines.
DEDUCED: log entry 61. -/
def Eng.planesOk (e : Eng) (p : Pkt) : Bool :=
  if p.lineMap = 0 then p.planes = 0
  else
    let thinned := p.typ ≤ 2 || p.typ == tRollData
    let wdt := if thinned then e.widthOf p.region else 1
    p.planes == planesOf wdt p.lineMap

/-- Check 3 of R119. GEN of a welcome is a field of its own (R253). DEDUCED: log entry 61. -/
def Eng.check3 (e : Eng) (p : Pkt) : Bool :=
  let u := usesOf p.typ
  typeDefined p.typ && p.region < 4096 && p.row < 2 ^ 20 && p.flags < 8 && (u.thick || !p.thick) &&
  (u.region || p.region == 0) && (u.row || p.row == 0) && (u.sector || p.sector == 0) && (u.stamp || p.stamp == 0) &&
  (u.seq || p.seq == 0) && (u.release || p.release == 0) && (u.payload || p.lineMap == 0) &&
  partsOk p && p.payload.length == 64 * popcount p.lineMap 64 && e.planesOk p

/-! ### What each type does -/

/-- A DELTA_ACK at the owner (R114, R121, R147). -/
def Eng.rxAck (e : Eng) (p : Pkt) : Eng := e.takeAck p

/-- A HEARTBEAT (R235). -/
def Eng.rxHeartbeat (e : Eng) (p : Pkt) : Eng := (e.mergeMap p.release).recompute

/-- A LOSS_NOTICE (R235, R237). -/
def Eng.rxLossNotice (e : Eng) (p : Pkt) : Eng :=
  if p.sector = 0 || 3 < p.sector then e.malformed else e.declareLost p.row p.sector

/-- An RB_DONE: from the spare of an evacuation, from a member that cannot read, or from a collector (R238, R242, R270). -/
def Eng.rxRbDone (e : Eng) (place : Nat) (p : Pkt) : Eng :=
  if place == e.evac.spare && 1 ≤ e.evacPhase && e.evacPhase ≤ 3 then e.evacDone p
  else if p.sector = 1 then e.memberBad p
  else e.memberDone p

/-- A POINT_DECIDE: at a spare that grafts into its position it names the cuts of its leaves (DESIGN CHOICE, log entry 31). -/
def Eng.rxPointDecide (e : Eng) (p : Pkt) : Eng :=
  match e.graft with
  | some g => if g.x == p.row then e.takeCuts p else e.rxPoint p
  | none => e.rxPoint p

/-- What a packet that has passed checks 1 to 3 does, by its TYPE. -/
def Eng.rxTyped (e : Eng) (place : Nat) (p : Pkt) : Eng :=
  match p.typ with
  | 0x01 => e.rxStreamDelta p
  | 0x02 => e.rxRingDelta p
  | 0x03 => e.rxAck p
  | 0x04 => e.rxRelease p
  | 0x05 => e.rxBusy p
  | 0x10 => e.rxHeartbeat p
  | 0x11 => e.rxLossNotice p
  | 0x12 => e.rxRbReq p
  | 0x13 => e.rxRbPart p
  | 0x14 => e.rxRbDone place p
  | 0x15 => e.rxRbCredit p
  | 0x16 => e.rxJoin p
  | 0x17 => e.rxWelcome p
  | 0x18 => e.rxCount p
  | 0x19 => e.rxPhase p
  | 0x1A => e.rxSnapNote p
  | 0x1B => e.rxThickNote p
  | 0x1C => if e.on Reg.GRV_MAP_CTL_STANDBY then e.rxEvacData place p else e.malformed
  | 0x1D => e.rxHandover p
  | 0x1E => e.rxHeat p
  | 0x1F => if e.on Reg.GRV_MAP_CTL_STANDBY then e.rxEvacState place p else e.malformed
  | 0x20 => e.rxLog p
  | 0x21 => e.rxLog p
  | 0x22 => e.rxLogAck p
  | 0x23 => e.rxLogRetire p
  | 0x24 => e.rxMirrorData p
  | 0x25 => e.rxMirrorDone p
  | 0x26 => e.rxMirrorAck p
  | 0x27 => e.rxMirrorTorn p
  | 0x28 => e.rxMirrorRead p
  | 0x29 => e.rxMirrorLines p
  | 0x2A => e.rxMirrorNone p
  | 0x2B => e.rxProd p
  | 0x2C => e.rxProdAck p
  | 0x30 => e.rxVote p
  | 0x31 => e.rxVoteReq p
  | 0x32 => e.rxRollFetch p
  | 0x33 => e.rxRollData p
  | 0x34 => e.rxRollEnd p
  | 0x35 => e.rxRollNone p
  | 0x38 => e.rxPoint p
  | 0x39 => e.rxPointDecide p
  | 0x3A => e.rxPoint p
  | 0x3B => e.rxPoint p
  | _ => e.malformed

/-- A place without a position sends joins, heartbeats and the answers of R270 alone. DEDUCED: log entry 17. -/
def Eng.mayComeFrom (e : Eng) (place : Nat) (p : Pkt) : Bool :=
  (p.src < e.w && e.placeOf p.src == place) || p.typ == tGraftJoin || p.typ == tHeartbeat || p.typ == tRbDone

/-- A packet arrives for this engine (R119, R305, R404). An engine that has not come up, a fenced one, one out of service and
one whose module is in its error state take none (R26, R237, R406, R435, R459). -/
def Eng.receive (e : Eng) (typ : Nat) (p : SapPkt) : Eng :=
  if !e.on Reg.GEN_BOOT_READY || !e.serving || e.on Reg.SEC_STAT_ERROR then e
  else if e.boot.inReset then ({ e with late := e.late ++ [.packet typ p] } : Eng)
  else
    let e := if e.on Reg.GEN_PWR_ASLEEP then e.startClocks else e
    match e.door typ p with
    | .gen => (e.bump Reg.GRV_SAP_DROP_GEN).stillHeard (p.pos.toNat % 16)
    | .tag => e.malformed.authFail Reg.SEC_AUTH_FAIL_LINK
    | .keyless => e
    | .pass place gen payload =>
      let q := sapPlain p typ payload
      let e := e.heardAt place gen q.src
      if !e.check3 q || !e.mayComeFrom place q then e.malformed else (e.rxTyped place q).settle

/-! ### The spill and route apertures (R90, R126, R254) -/

/-- A packet written by the fabric: an engine that has not come up refuses it (R26, R435), and otherwise the key is checked
before anything else. A route key of 0 admits nothing (R254). DEDUCED: log entry 17. DEDUCED: log entry 59. -/
def Eng.fabricPkt (e : Eng) (route : Bool) (key requester typ : Nat) (p : SapPkt) : Eng :=
  if !e.on Reg.GEN_BOOT_READY then e.fabricError
  else if e.boot.inReset then { e with late := e.late ++ [.fabric route key requester typ p] }
  else
    let e := if e.on Reg.GEN_PWR_ASLEEP then e.startClocks else e
    let refused := fun (e : Eng) (r : Option Nat) => (e.keyMiss r requester).fabricError
    if route then
      if key != e.rd Reg.RBD_ROUTE_KEY_KEY || key == 0 then refused e none
      else (e.emit (.fabricAnswer (some []))).receive typ p
    else match e.rgn? (p.region.toNat % 4096) with
      | none => refused e none
      | some r =>
        if !r.protectedCls then refused e none
        else if key != r.key then refused e (some r.num)
        else (e.emit (.fabricAnswer (some []))).receive typ p

/-- STREAM_DELTA (R113 to R115, R119, R120). -/
def execStreamDelta (p : SapPkt) (s : State) : Host.Outcome State Fault Refusal := .next (s.run (fun e => e.receive tStreamDelta p))

/-- RING_DELTA (R113, R119, R166, R167). -/
def execRingDelta (p : SapPkt) (s : State) : Host.Outcome State Fault Refusal := .next (s.run (fun e => e.receive tRingDelta p))

/-- DELTA_ACK (R114). -/
def execDeltaAck (p : SapPkt) (s : State) : Host.Outcome State Fault Refusal := .next (s.run (fun e => e.receive tDeltaAck p))

/-- DELTA_RELEASE (R115). -/
def execDeltaRelease (p : SapPkt) (s : State) : Host.Outcome State Fault Refusal := .next (s.run (fun e => e.receive tDeltaRelease p))

/-- DELTA_BUSY (R117). DESIGN CHOICE: log entry 19. -/
def execDeltaBusy (p : SapPkt) (s : State) : Host.Outcome State Fault Refusal := .next (s.run (fun e => e.receive tDeltaBusy p))

/-- SEAL_VOTE (R170, R171, R189). -/
def execSealVote (p : SapPkt) (s : State) : Host.Outcome State Fault Refusal := .next (s.run (fun e => e.receive tSealVote p))

/-- VOTE_REQ (R173, R189). -/
def execVoteReq (p : SapPkt) (s : State) : Host.Outcome State Fault Refusal := .next (s.run (fun e => e.receive tVoteReq p))

/-- ROLL_FETCH (R183 to R185). -/
def execRollFetch (p : SapPkt) (s : State) : Host.Outcome State Fault Refusal := .next (s.run (fun e => e.receive tRollFetch p))

/-- ROLL_DATA (R184). -/
def execRollData (p : SapPkt) (s : State) : Host.Outcome State Fault Refusal := .next (s.run (fun e => e.receive tRollData p))

/-- ROLL_END (R184, R189). -/
def execRollEnd (p : SapPkt) (s : State) : Host.Outcome State Fault Refusal := .next (s.run (fun e => e.receive tRollEnd p))

/-- ROLL_NONE (R185). -/
def execRollNone (p : SapPkt) (s : State) : Host.Outcome State Fault Refusal := .next (s.run (fun e => e.receive tRollNone p))

/-- MIRROR_DATA (R81, R83). -/
def execMirrorData (p : SapPkt) (s : State) : Host.Outcome State Fault Refusal := .next (s.run (fun e => e.receive tMirrorData p))

/-- MIRROR_DONE (R81, R83). -/
def execMirrorDone (p : SapPkt) (s : State) : Host.Outcome State Fault Refusal := .next (s.run (fun e => e.receive tMirrorDone p))

/-- MIRROR_ACK (R83, R381). -/
def execMirrorAck (p : SapPkt) (s : State) : Host.Outcome State Fault Refusal := .next (s.run (fun e => e.receive tMirrorAck p))

/-- MIRROR_TORN (R80, R83). -/
def execMirrorTorn (p : SapPkt) (s : State) : Host.Outcome State Fault Refusal := .next (s.run (fun e => e.receive tMirrorTorn p))

/-- MIRROR_READ (R83). -/
def execMirrorRead (p : SapPkt) (s : State) : Host.Outcome State Fault Refusal := .next (s.run (fun e => e.receive tMirrorRead p))

/-- MIRROR_LINES (R83, R259). -/
def execMirrorLines (p : SapPkt) (s : State) : Host.Outcome State Fault Refusal := .next (s.run (fun e => e.receive tMirrorLines p))

/-- MIRROR_NONE (R83, R259). -/
def execMirrorNone (p : SapPkt) (s : State) : Host.Outcome State Fault Refusal := .next (s.run (fun e => e.receive tMirrorNone p))

/-- CLASS_PROD (R83, R93). -/
def execClassProd (p : SapPkt) (s : State) : Host.Outcome State Fault Refusal := .next (s.run (fun e => e.receive tClassProd p))

/-- PROD_ACK (R83). -/
def execProdAck (p : SapPkt) (s : State) : Host.Outcome State Fault Refusal := .next (s.run (fun e => e.receive tProdAck p))

/-- LOG_DATA (R133, R135, R137). -/
def execLogData (p : SapPkt) (s : State) : Host.Outcome State Fault Refusal := .next (s.run (fun e => e.receive tLogData p))

/-- LOG_SCALAR (R134, R135). -/
def execLogScalar (p : SapPkt) (s : State) : Host.Outcome State Fault Refusal := .next (s.run (fun e => e.receive tLogScalar p))

/-- LOG_ACK (R135, R137). -/
def execLogAck (p : SapPkt) (s : State) : Host.Outcome State Fault Refusal := .next (s.run (fun e => e.receive tLogAck p))

/-- LOG_RETIRE (R138). -/
def execLogRetire (p : SapPkt) (s : State) : Host.Outcome State Fault Refusal := .next (s.run (fun e => e.receive tLogRetire p))

/-- POINT_REPORT (R142, R144, R146). -/
def execPointReport (p : SapPkt) (s : State) : Host.Outcome State Fault Refusal := .next (s.run (fun e => e.receive tPointReport p))

/-- POINT_DECIDE (R142, R144). -/
def execPointDecide (p : SapPkt) (s : State) : Host.Outcome State Fault Refusal := .next (s.run (fun e => e.receive tPointDecide p))

/-- POINT_DONE (R144, R146). -/
def execPointDone (p : SapPkt) (s : State) : Host.Outcome State Fault Refusal := .next (s.run (fun e => e.receive tPointDone p))

/-- POINT_SETTLED (R144). -/
def execPointSettled (p : SapPkt) (s : State) : Host.Outcome State Fault Refusal := .next (s.run (fun e => e.receive tPointSettled p))

/-- HEARTBEAT (R233, R235, R305). -/
def execHeartbeat (p : SapPkt) (s : State) : Host.Outcome State Fault Refusal := .next (s.run (fun e => e.receive tHeartbeat p))

/-- LOSS_NOTICE (R235 to R237). -/
def execLossNotice (p : SapPkt) (s : State) : Host.Outcome State Fault Refusal := .next (s.run (fun e => e.receive tLossNotice p))

/-- RB_REQ (R239, R242). -/
def execRbReq (p : SapPkt) (s : State) : Host.Outcome State Fault Refusal := .next (s.run (fun e => e.receive tRbReq p))

/-- RB_PART (R239, R241). -/
def execRbPart (p : SapPkt) (s : State) : Host.Outcome State Fault Refusal := .next (s.run (fun e => e.receive tRbPart p))

/-- RB_DONE (R240, R242). -/
def execRbDone (p : SapPkt) (s : State) : Host.Outcome State Fault Refusal := .next (s.run (fun e => e.receive tRbDone p))

/-- RB_CREDIT (R241). -/
def execRbCredit (p : SapPkt) (s : State) : Host.Outcome State Fault Refusal := .next (s.run (fun e => e.receive tRbCredit p))

/-- GRAFT_JOIN (R253, R514). -/
def execGraftJoin (p : SapPkt) (s : State) : Host.Outcome State Fault Refusal := .next (s.run (fun e => e.receive tGraftJoin p))

/-- GRAFT_WELCOME (R253). -/
def execGraftWelcome (p : SapPkt) (s : State) : Host.Outcome State Fault Refusal := .next (s.run (fun e => e.receive tGraftWelcome p))

/-- GRAFT_COUNT (R255). -/
def execGraftCount (p : SapPkt) (s : State) : Host.Outcome State Fault Refusal := .next (s.run (fun e => e.receive tGraftCount p))

/-- GRAFT_PHASE (R256, R261). -/
def execGraftPhase (p : SapPkt) (s : State) : Host.Outcome State Fault Refusal := .next (s.run (fun e => e.receive tGraftPhase p))

/-- SNAP_NOTE (R250). -/
def execSnapNote (p : SapPkt) (s : State) : Host.Outcome State Fault Refusal := .next (s.run (fun e => e.receive tSnapNote p))

/-- THICK_NOTE (R264 to R266). -/
def execThickNote (p : SapPkt) (s : State) : Host.Outcome State Fault Refusal := .next (s.run (fun e => e.receive tThickNote p))

/-- HEAT_COPY (R257). -/
def execHeatCopy (p : SapPkt) (s : State) : Host.Outcome State Fault Refusal := .next (s.run (fun e => e.receive tHeatCopy p))

/-- EVAC_DATA (R268). -/
def execEvacData (p : SapPkt) (s : State) : Host.Outcome State Fault Refusal := .next (s.run (fun e => e.receive tEvacData p))

/-- EVAC_STATE (R270). -/
def execEvacState (p : SapPkt) (s : State) : Host.Outcome State Fault Refusal := .next (s.run (fun e => e.receive tEvacState p))

/-- HANDOVER (R269, R304). -/
def execHandover (p : SapPkt) (s : State) : Host.Outcome State Fault Refusal := .next (s.run (fun e => e.receive tHandover p))

/-- SPILL_WRITE (R90, R126). -/
def execSpillWrite (key : Word) (requester : Place) (type : Byte) (p : SapPkt) (s : State) : Host.Outcome State Fault Refusal :=
  .next (s.run (fun e => e.fabricPkt false key.toNat requester.toNat type.toNat p))

/-- ROUTE_WRITE (R90, R254). -/
def execRouteWrite (key : Word) (requester : Place) (type : Byte) (p : SapPkt) (s : State) : Host.Outcome State Fault Refusal :=
  .next (s.run (fun e => e.fabricPkt true key.toNat requester.toNat type.toNat p))

/-! ### The timers of the delta transport (R115, R117, R121, R123, R83, R148) -/

/-- ACK_DEADLINE_MISS (R121). -/
def execAckDeadlineMiss (k : PktKey) (dest : Fin 16) (s : State) : Host.Outcome State Fault Refusal :=
  .next (s.run (fun e => match e.sentIdx k dest with | some i => e.deadlineMiss i dest | none => e))

/-- PACKET_RESEND (R121, R123). DESIGN CHOICE: log entry 2. -/
def execPacketResend (k : PktKey) (dest : Fin 16) (s : State) : Host.Outcome State Fault Refusal :=
  .next (s.run (fun e => match e.sentIdx k dest with | some i => e.resendTo i dest | none => e))

/-- RELEASE_TIMER (R115). -/
def execReleaseTimer (region : BitVec 12) (row : BitVec 20) (dest : Fin 16) (s : State) : Host.Outcome State Fault Refusal :=
  .next (s.run (fun e => e.sendRelease region.toNat row.toNat dest))

/-- DELTA_BUSY_END: the pause that a destination asked for has passed (R117). -/
def execDeltaBusyEnd (pos : Fin 16) (s : State) : Host.Outcome State Fault Refusal :=
  .next (s.run (fun e => ({ e with busy := e.busy.filter (· != pos.val) } : Eng).transmitReady))

/-- MIRROR_ACK_TIMEOUT (R83). -/
def execMirrorAckTimeout (region : BitVec 12) (copy : Word) (dest : Fin 16) (s : State) : Host.Outcome State Fault Refusal :=
  .next (s.run (fun e => e.mirrorAckTimeout region.toNat copy.toNat dest))

/-- POINT_TIMEOUT (R148). -/
def execPointTimeout (x : Fin 16) (s : State) : Host.Outcome State Fault Refusal := .next (s.run (fun e => e.pointTimeout x))

end Sys2Proof.Machine
end

