-- ==== Sys2Proof/Machine/Ports.lean ====
section
/-!
DEFINITION. Sys2Proof/Machine/Ports.lean: the grove ports (R274 to R313): lanes and widths, training, link resets and exclusion,
flits and their retry, streams and relaying, control messages, the low-power state, test modes.
-/
namespace Sys2Proof.Machine

/-- An attempt fails: another, up to the third; then the port is excluded. -/
def Eng.attemptFails (e : Eng) (p : Nat) : Eng :=
  let q := e.port p
  if q.attempt < 3 then e.startAttempt p (q.attempt + 1) else e.excludePort p (if q.resetting then 3 else 1)

/-- Lanes that pass steps 2 and 3 at this end. -/
def Eng.widthMsg (e : Eng) (p : Nat) (final : Bool) : Eng :=
  e.ask p (.width (e.rd (Reg.GP_LANES_TRAINED p)) (e.widthOfPort p) (e.usedLanes p) final)

/-- The ID message of this end (R281). -/
def Eng.idMsg (e : Eng) : LinkMsg :=
  let standby := e.on Reg.GRV_MAP_CTL_STANDBY
  .id e.place (if standby then 0 else e.pos) standby

def Eng.sendId (e : Eng) (p : Nat) : Eng := e.ask p e.idMsg

/-- Where both a map and the far end's identity are here, an identity other than R60 and R61 require excludes the port (R63,
R281); so does one without a position (DESIGN CHOICE, log entry 95). -/
def Eng.farCheck (e : Eng) (p : Nat) : Eng :=
  if e.on Reg.GRV_CFG_VALID && !e.on Reg.GRV_MAP_CTL_STANDBY && p < 3 && e.portUp p && (e.port p).farId &&
      (e.on (Reg.GP_STAT_FAR_NONE p) || farOf e.w e.pos p != some (e.rd (Reg.GP_STAT_FAR_POS p))) then e.excludePort p 2
  else e

/-- Resend sequenced flits onto the current used lanes, in their order. -/
def Eng.resendFlits (e : Eng) (p : Nat) (fs : List (Nat × List Byte)) : Eng :=
  (e.each fs (fun f e => e.onLane p (fun l => .flit p l f.2))).bumpBy (Reg.GP_RETRY_FLITS p) fs.length

/-- The first ACK after a link reset has told from where to resend: the flits that it leaves go again (R283). -/
def Eng.resumeLink (e : Eng) (p : Nat) : Eng :=
  (e.updPort p (fun q => { q with resetting := false, ackSeen := false })).resendFlits p (e.port p).replay

/-- A port is in LOW (R306, R307). -/
def Eng.toLow (e : Eng) (p : Nat) : Eng :=
  let e := (e.wr (Reg.GP_STAT_STATE p) psLow).flag (Reg.GP_PWR_LOW_NOW p) true
  e.updPort p (fun q => { q with lowSent := false, stBefore := 0, asks := [] })

/-- While the engine is in keep-alive a port that is UP is in LOW (R310). -/
def Eng.sleepLow (e : Eng) (p : Nat) : Eng :=
  if e.on Reg.GEN_PWR_ASLEEP && e.portState p == psUp then e.toLow p else e

/-- CREDIT for every channel and class (R278 step 5). -/
def Eng.advertise (e : Eng) (p : Nat) : Eng :=
  e.each (List.range 4) (fun vc e => e.each (List.range 17) (fun cls e =>
    e.ctl p (.credit vc cls ((e.port p).freedOf vc cls))))

/-- ACK of the highest FSEQ taken in order (R292). -/
def Eng.sendAck (e : Eng) (p : Nat) : Eng :=
  (e.updPort p (fun q => { q with unacked := 0 })).ctl p (.ack (((e.port p).rxFseq + 4095) % 4096))

/-- Every port has trained, is excluded or is held down: step 7 is over, and step 8 sets READY (R434);
doorbells held until then take effect (R496). -/
def Eng.bootReady (e : Eng) : Eng :=
  let idle := (List.range 4).all (fun p => let s := e.portState p; s == psUp || s == psExcluded || s == psHeld)
  if e.rd Reg.GEN_BOOT_STAGE == 7 && idle && !e.on Reg.GEN_BOOT_READY && !e.on Reg.SEC_STAT_ERROR && !e.oos then
    let e := (e.wr Reg.GEN_BOOT_STAGE 8).flag Reg.GEN_BOOT_READY true
    let e := (e.wr Reg.GEN_BOOT_MS (min (e.now / 1000000) 65535)).setLevel .ENGINE_READY true
    let e : Eng := { e with pins := { e.pins with engReady := true } }
    e.each (List.range 4) (fun q e => e.fetchNext q)
  else e

/-- The port is UP: credit has been advertised; the receiver's first ACK after a link reset names the last flit taken, and
identities are exchanged where a map has been accepted (R278, R281, R283). -/
def Eng.portGoesUp (e : Eng) (p : Nat) : Eng :=
  let again := (e.port p).resetting
  let e := ((e.wr (Reg.GP_STAT_STATE p) psUp).wr (Reg.GP_STAT_EXCL p) 0).updPort p (fun q => { q with asks := [] })
  let e := e.advertise p
  let e := if again then e.sendAck p else e
  let e := if again && (e.port p).ackSeen then e.resumeLink p else e
  let e := if e.on Reg.GRV_CFG_VALID then e.sendId p else e
  let e := if again then e else e.recompute
  ((e.farCheck p).sleepLow p).pump p

/-- A training step of a port ends: `lanes` have passed it, `met` tells whether its bound was met (R278). -/
def Eng.trainingStep (e : Eng) (p step lanes : Nat) (met : Bool) : Eng :=
  let s := e.portState p
  if step = 1 && s == psDetect then
    if met then (e.wr (Reg.GP_STAT_STATE p) psEqualise).updPort p (fun q => { q with asks := [] }) else e.attemptFails p
  else if step = 2 && s == psEqualise then
    (e.wr (Reg.GP_LANES_TRAINED p) (lanes &&& e.presentLanes p)).wr (Reg.GP_STAT_STATE p) psLock
  else if step = 3 && s == psLock then
    ((e.wr (Reg.GP_LANES_TRAINED p) (lanes &&& e.rd (Reg.GP_LANES_TRAINED p))).wr (Reg.GP_STAT_STATE p) psWidth).widthMsg p false
  else if step = 4 && s == psWidth then
    if met && e.widthOfPort p != 0 then e.setUsed p (e.usedLanes p) else e.attemptFails p
  else if step = 5 && s == psWidth && met && e.rd (Reg.GP_STAT_WIDTH p) != 0 then e.portGoesUp p
  else e

/-- All four ports train, in parallel (R278, R434 step 7); one under test does when its test ends (R311). -/
def Eng.trainAll (e : Eng) : Eng :=
  (e.each (List.range 4) (fun p e =>
    if e.portState p == psTest then e.updPort p (fun q => { q with stBefore := psDetect })
    else if e.heldDown p then e.linkDown p psHeld else e.trainPort p)).bootReady

/-- Lanes leave service during a job: the port re-stripes, or takes a link reset when fewer than 2 remain (R282). -/
def Eng.restripe (e : Eng) (p : Nat) : Eng :=
  if e.widthOfPort p = 0 then e.linkReset p
  else
    let used := e.usedLanes p
    if used == e.rd (Reg.GP_LANES_USED p) then e
    else (e.setUsed p used).ask p (.restripe used (e.port p).txFseq)

def Eng.loseLane (e : Eng) (p l : Nat) : Eng :=
  let s := e.portState p
  let e := e.updPort p (fun q => { q with lost := setBit q.lost l })
  if s == psUp || s == psLow then e.restripe p else e

/-- PORT_TRAINING_STEP (R278). -/
def execPortTrainingStep (p : Fin 4) (step : Fin 6) (lanes : BitVec 16) (met : Bool) (s : State) :
    Host.Outcome State Fault Refusal :=
  .next (s.run (fun e => (e.trainingStep p step lanes.toNat met).bootReady))

/-- LINK_RESET (R283). -/
def execLinkReset (p : Fin 4) (s : State) : Host.Outcome State Fault Refusal := .next (s.run (fun e => e.linkReset p))

/-- LANE_LOCK_LOSS: a lane has lost block lock or FEC lock for 1 µs (R282). -/
def execLaneLockLoss (p : Fin 4) (l : Fin 16) (s : State) : Host.Outcome State Fault Refusal :=
  .next (s.run (fun e => e.loseLane p l))

/-- A write of GP_CTLp (R280). -/
def Eng.portCtl (e : Eng) (p v : Nat) : Eng :=
  let e := (e.sw (Reg.GP_CTL_HOLD p) v).holdCheck p
  if (Reg.GP_CTL_RETRAIN p).of v = 1 then
    if e.portState p == psExcluded then e.trainPort p else e.linkReset p
  else e

/-- PORT_RETRAIN: a write of GP_CTLp (R280). -/
def execPortRetrain (p : Fin 4) (v : Word) (s : State) : Host.Outcome State Fault Refusal :=
  .next (s.run (fun e => e.write .link [Reg.GP_CTL_RETRAIN p, Reg.GP_CTL_HOLD p] v.toNat (fun e =>
    (e.portCtl p v.toNat).bootReady)))

/-! ### Test modes (R311 to R313) -/

/-- A write of GP_TESTp. After a test the port stays held or excluded as it was, and otherwise trains again (log entry
37). -/
def Eng.portTest (e : Eng) (p v : Nat) : Eng :=
  let was := e.on (Reg.GP_TEST_RUN p)
  let run := (Reg.GP_TEST_RUN p).of v == 1
  let may := !e.locked || e.portState p == psExcluded || e.on (Reg.GP_CTL_HOLD p)
  let e := if (Reg.GP_TEST_REFUSED p).of v = 1 then e.flag (Reg.GP_TEST_REFUSED p) false else e
  let e := (e.sw (Reg.GP_TEST_PATTERN p) v).sw (Reg.GP_TEST_MODE p) v
  if run && !was then
    if may then
      let st := e.portState p
      let e := (e.flag (Reg.GP_TEST_RUN p) true).updPort p (fun q => { q with stBefore := st })
      let e := e.each (List.range 16) (fun l e => e.wr (Reg.GP_PRBS_ERR_COUNT p l) 0)
      ((e.abortInbound p).linkDown p psTest).emit (.lanesTest p (e.rd (Reg.GP_TEST_MODE p)) (e.rd (Reg.GP_TEST_PATTERN p)))
    else e.flag (Reg.GP_TEST_REFUSED p) true
  else if !run && was then
    let e := e.flag (Reg.GP_TEST_RUN p) false
    let st := (e.port p).stBefore
    if st == psExcluded || st == psDown then e.linkDown p st
    else if e.heldDown p then e.linkDown p psHeld
    else
      let e := e.updPort p (fun q => { q with resetting := true, kept := true })
      e.startAttempt p 1
  else e

/-- PORT_TEST_RUN: a write of GP_TESTp (R311). -/
def execPortTestRun (p : Fin 4) (v : Word) (s : State) : Host.Outcome State Fault Refusal :=
  .next (s.run (fun e => e.write .link
    [Reg.GP_TEST_RUN p, Reg.GP_TEST_REFUSED p, Reg.GP_TEST_PATTERN p, Reg.GP_TEST_MODE p] v.toNat (fun e => e.portTest p v.toNat)))

/-- PRBS_LOCK_TIMEOUT: a checked lane has not locked its pattern within 1 ms of RUN (R313). -/
def execPrbsLockTimeout (p : Fin 4) (l : Fin 16) (s : State) : Host.Outcome State Fault Refusal :=
  .next (s.run (fun e =>
    if e.checking p && bit (e.presentLanes p) l then
      e.wr (Reg.GP_PRBS_ERR_COUNT p l) 0xFFFFFFFF
    else e))

/-! ### Low power (R306 to R310) -/

/-- Traffic of channels 0, 2 or 3 is queued at a port, or sequenced flits are unacknowledged. -/
def Eng.portBusy (e : Eng) (p : Nat) : Bool :=
  let q := e.port p
  q.txq.any (fun t => t.vc != 1) || !q.replay.isEmpty

/-- Entry to LOW; what has been queued meanwhile wakes the port again. DEDUCED: log entry 40. -/
def Eng.enterLow (e : Eng) (p : Nat) : Eng := (e.toLow p).pump p

/-- The engine wakes a port (R308). -/
def Eng.wakePort (e : Eng) (p : Nat) : Eng :=
  (e.startWake p).updPort p (fun q => { q with stBefore := 0 })

/-- Lanes have locked: the port re-stripes at the width of R279 and is UP (R308). -/
def Eng.wakeDone (e : Eng) (p : Nat) : Eng :=
  if e.portState p == psWake then
    if e.widthOfPort p = 0 then e.linkReset p
    else
      let used := e.usedLanes p
      let e := ((e.wr (Reg.GP_STAT_STATE p) psUp).setUsed p used).answered p .wake
      (((e.ask p (.restripe used (e.port p).txFseq)).bump (Reg.GP_WAKES_COUNT p)).sleepLow p).pump p
  else e

/-- WAKE_COMPLETE (R308). -/
def execWakeComplete (p : Fin 4) (s : State) : Host.Outcome State Fault Refusal := .next (s.run (fun e => e.wakeDone p))

/-- WAKE_LOCK_TIMEOUT: a lane has not locked by the bound of step 3; the event counts once a wake (R308). -/
def execWakeLockTimeout (p : Fin 4) (l : Fin 16) (s : State) : Host.Outcome State Fault Refusal :=
  .next (s.run (fun e =>
    if e.portState p == psWake then
      let e := if (e.port p).stBefore == 0 then e.bump (Reg.GP_PWR_WAKE_LATE p) else e
      e.updPort p (fun q => { q with stBefore := 1, lost := setBit q.lost l })
    else e))

/-- PORT_IDLE_TIMER (R306). -/
def execPortIdleTimer (p : Fin 4) (s : State) : Host.Outcome State Fault Refusal :=
  .next (s.run (fun e =>
    if e.portState p == psUp && e.on (Reg.GP_PWR_LOW_EN p) && !e.portBusy p then
      (e.updPort p (fun q => { q with lowSent := true })).ask p .lowReq
    else e))

/-- BEAT_TIMER (R307). -/
def execBeatTimer (p : Fin 4) (s : State) : Host.Outcome State Fault Refusal :=
  .next (s.run (fun e => if e.portState p == psLow then e.ctl p (.beat true) else e))

/-- LOW_LINK_SILENCE: 40 µs without a valid flit on lane 0 (R307). -/
def execLowLinkSilence (p : Fin 4) (s : State) : Host.Outcome State Fault Refusal :=
  .next (s.run (fun e => if e.portState p == psLow then e.linkReset p else e))

/-- A WAKE from the far end (R308 to R310). -/
def Eng.rxWake (e : Eng) (p : Nat) : Eng :=
  let e := e.wakeClocks
  if e.portState p == psUp then (e.updPort p (fun q => { q with lowSent := false })).answered p .lowReq
  else if e.portState p == psLow then (e.toWake p).updPort p (fun q => { q with stBefore := 0 })
  else e

/-- WAKE: from the far end, or for a reason of this engine (R308 to R310). -/
def execWake (p : Fin 4) (source : WakeSource) (s : State) : Host.Outcome State Fault Refusal :=
  .next (s.run (fun e =>
    match source with
    | .farEnd => e.rxWake p
    | _ => e.wakeClocks.wakePort p))

/-! ### Retry (R292 to R294) -/

/-- A RETRY_REQ arrives (R293, R294). -/
def Eng.rxRetryReq (e : Eng) (p fseq : Nat) : Eng :=
  let e := e.bump (Reg.GP_RETRY_REQS p)
  let q := e.port p
  let n := if q.reqFseq = fseq then q.reqCount + 1 else 1
  let ts := (q.reqTimes.filter (fun t => e.now < t + 1000000)) ++ [e.now]
  let e := e.updPort p (fun q => { q with reqFseq := fseq, reqCount := n, reqTimes := ts })
  if 16 ≤ n || 256 ≤ ts.length then (e.bump (Reg.GP_RETRY_RESETS p)).linkReset p
  else e.resendFlits p (q.replay.dropWhile (fun f => f.1 != fseq))

/-- An ACK arrives: flits up to the one it names leave the replay buffer. The first after a link reset tells from where to
resend (R283, R292). -/
def Eng.rxAckFlit (e : Eng) (p fseq : Nat) : Eng :=
  let q := e.port p
  let rest := if q.replay.any (fun f => f.1 == fseq) then (q.replay.dropWhile (fun f => f.1 != fseq)).drop 1 else q.replay
  let e := e.updPort p (fun q => { q with replay := rest, ackSeen := q.ackSeen || q.resetting })
  (if q.resetting && e.portState p == psUp then e.resumeLink p else e).pump p

/-- The receiver asks for the flit it expects. -/
def Eng.askRetry (e : Eng) (p : Nat) : Eng :=
  if (e.port p).retrying then e
  else (e.updPort p (fun q => { q with retrying := true })).ctl p (.retryReq (e.port p).rxFseq)

/-- RETRY_REQ (R293, R294). -/
def execRetryReq (p : Fin 4) (fseq : BitVec 12) (s : State) : Host.Outcome State Fault Refusal :=
  .next (s.run (fun e => e.wakeClocks.rxRetryReq p fseq.toNat))

/-- RETRY_REQ_REPEAT: 1 µs has passed and the flit has not arrived (R293). -/
def execRetryReqRepeat (p : Fin 4) (s : State) : Host.Outcome State Fault Refusal :=
  .next (s.run (fun e => if (e.port p).retrying then e.ctl p (.retryReq (e.port p).rxFseq) else e))

/-- ACK (R283, R292). -/
def execAck (p : Fin 4) (fseq : BitVec 12) (s : State) : Host.Outcome State Fault Refusal :=
  .next (s.run (fun e => e.wakeClocks.rxAckFlit p fseq.toNat))

/-- ACK_TIMER (R292). -/
def execAckTimer (p : Fin 4) (s : State) : Host.Outcome State Fault Refusal :=
  .next (s.run (fun e => if (e.port p).unacked = 0 then e else e.sendAck p))

/-- A CREDIT message (R296). -/
def Eng.rxCredit (e : Eng) (p vc cls freed : Nat) : Eng :=
  (e.updPort p (fun q => { q with freedFar := put q.freedFar (credKey vc cls) freed })).pump p

/-- CREDIT (R296). -/
def execCredit (p : Fin 4) (vc : Fin 4) (cls : Fin 17) (freed : BitVec 16) (s : State) : Host.Outcome State Fault Refusal :=
  .next (s.run (fun e => e.wakeClocks.rxCredit p vc cls freed.toNat))

/-! ### The other control messages -/

/-- INIT: the far end is detected in step 1; at a port that carries traffic it tells that the far end has taken a link reset,
which this end takes too (R278, DEDUCED, log entry 38). -/
def Eng.rxInit (e : Eng) (p present : Nat) : Eng :=
  let s := e.portState p
  let e := if psUp ≤ s && s ≤ psWake then e.linkReset p else e
  if e.portState p == psDetect then
    (e.updPort p (fun q => { q with farPresent := present, asks := [] })).wr (Reg.GP_STAT_STATE p) psEqualise
  else if e.portState p == psEqualise then e.ctl p (.init p (e.presentLanes p) (e.port p).attempt)
  else e

/-- INIT (R278). -/
def execInit (p : Fin 4) (_far : Byte) (present : BitVec 16) (_attempt : Byte) (s : State) : Host.Outcome State Fault Refusal :=
  .next (s.run (fun e => e.wakeClocks.rxInit p present.toNat))

/-- ID: the far end's identity (R281). One that answers this end's own ends its repetition, and another is answered (R299). -/
def Eng.rxId (e : Eng) (p place pos : Nat) (none_ : Bool) : Eng :=
  let e := ((e.wr (Reg.GP_STAT_FAR_PLACE p) place).wr (Reg.GP_STAT_FAR_POS p) pos).flag (Reg.GP_STAT_FAR_NONE p) none_
  let e := e.updPort p (fun q => { q with farId := true })
  let s := e.portState p
  let e := if e.asking p e.idMsg then e.answered p e.idMsg
    else if e.on Reg.GRV_CFG_VALID && psUp ≤ s && s ≤ psWake then e.ctl p e.idMsg else e
  e.farCheck p

/-- ID (R281). -/
def execId (p : Fin 4) (place : Place) (pos : BitVec 4) (noPos : Bool) (s : State) : Host.Outcome State Fault Refusal :=
  .next (s.run (fun e => (e.wakeClocks.rxId p place.toNat pos.toNat noPos).bootReady))

/-- WIDTH: the lanes that pass at the far end; when the proposals agree they are final (R279). -/
def Eng.rxWidth (e : Eng) (p passing w used : Nat) (final : Bool) : Eng :=
  let s := e.portState p
  if s == psLock || s == psWidth then
    let e := e.updPort p (fun q => { q with farPassing := passing })
    if s == psWidth && w == e.widthOfPort p && used == e.usedLanes p && w != 0 then
      let e := e.setUsed p used
      if final then e.updPort p (fun q => { q with asks := [] }) else e.widthMsg p true
    else if s == psWidth then e.widthMsg p false
    else e
  else e

/-- WIDTH (R279). -/
def execWidth (p : Fin 4) (passing : BitVec 16) (w : Byte) (used : BitVec 16) (final : Bool) (s : State) :
    Host.Outcome State Fault Refusal :=
  .next (s.run (fun e => e.wakeClocks.rxWidth p passing.toNat w.toNat used.toNat final))

/-- RESTRIPE: the far end's used lanes and the FSEQ from which they apply. Lanes this end used, or kept below the highest of
them, and the far end does not use have left service there; this end follows (R282, DEDUCED, log entry 39). -/
def Eng.rxRestripe (e : Eng) (p used fseq : Nat) : Eng :=
  let s := e.portState p
  if s == psUp || s == psLow || s == psWake then
    let e := e.updPort p (fun q => { q with farUsed := used, farFrom := fseq })
    let was := e.rd (Reg.GP_LANES_USED p)
    if used == was then
      if e.asking p (.restripe 0 0) then e.answered p (.restripe 0 0) else e.ctl p (.restripe was (e.port p).txFseq)
    else
      let top := ((List.range 16).filter (fun l => bit used l)).getLastD 0
      let set_ := e.laneSet p
      let gone := bitsWhere 16 (fun l => bit set_ l && !bit used l && l < top)
      let e := e.updPort p (fun q => { q with lost := q.lost ||| gone })
      if popcount used 16 < 2 then e.linkReset p
      else (e.setUsed p used).ctl p (.restripe used (e.port p).txFseq)
  else e

/-- RESTRIPE (R282). -/
def execRestripe (p : Fin 4) (used : BitVec 16) (fseq : BitVec 12) (s : State) : Host.Outcome State Fault Refusal :=
  .next (s.run (fun e => e.wakeClocks.rxRestripe p used.toNat fseq.toNat))

/-- LOW_REQ (R306, R309, DEDUCED, log entry 40). -/
def Eng.rxLowReq (e : Eng) (p : Nat) : Eng :=
  if e.portState p == psUp then
    if !e.on (Reg.GP_PWR_LOW_EN p) || e.portBusy p then
      ((e.updPort p (fun q => { q with lowSent := false })).answered p .lowReq).ctl p .lowNak
    else if (e.port p).lowSent then e.enterLow p
    else (e.ctl p .lowAck).enterLow p
  else if e.portState p == psWake then e.ctl p .lowNak
  else e

/-- LOW_REQ (R306). -/
def execLowReq (p : Fin 4) (s : State) : Host.Outcome State Fault Refusal := .next (s.run (fun e => e.wakeClocks.rxLowReq p))

/-- A LOW_ACK completes entry to LOW, where its conditions still hold (R306); where traffic has come in between the far end,
which enters LOW, is woken (R309). DEDUCED: log entry 40. -/
def Eng.rxLowAck (e : Eng) (p : Nat) : Eng :=
  if e.portState p == psUp && e.asking p .lowReq then
    if (e.port p).lowSent && e.on (Reg.GP_PWR_LOW_EN p) && !e.portBusy p then e.enterLow p
    else ((e.updPort p (fun q => { q with lowSent := false })).answered p .lowReq).ctl p .wake
  else e

/-- LOW_ACK (R306). -/
def execLowAck (p : Fin 4) (s : State) : Host.Outcome State Fault Refusal := .next (s.run (fun e => e.wakeClocks.rxLowAck p))

/-- A LOW_NAK: the attempt ends, and the port stays UP (R306). -/
def Eng.rxLowNak (e : Eng) (p : Nat) : Eng :=
  (e.updPort p (fun q => { q with lowSent := false })).answered p .lowReq

/-- LOW_NAK (R306). -/
def execLowNak (p : Fin 4) (s : State) : Host.Outcome State Fault Refusal :=
  .next (s.run (fun e => e.wakeClocks.rxLowNak p))

/-- A BEAT: the far end is alive; one in LOW that has answered this end's LOW_REQ has sent LOW_ACK (R299, R307).
DEDUCED: log entry 40. -/
def Eng.rxBeat (e : Eng) (p : Nat) (senderLow : Bool) : Eng := if senderLow then e.rxLowAck p else e

/-- BEAT (R307). DEDUCED: log entry 40. -/
def execBeat (p : Fin 4) (senderLow : Bool) (s : State) : Host.Outcome State Fault Refusal :=
  .next (s.run (fun e => e.rxBeat p senderLow))

/-! ### Flits and streams (R286 to R291, R293) -/

/-- A flit passes its CRC and R287. -/
def flitOk (f : List Byte) : Bool :=
  let chan := fieldAt f 1 1
  let first := fieldAt f 4 1
  f.length == 256 && leNat (f.drop 248) == crc64 (f.take 248) && fieldAt f 0 1 ≤ 3 && chan < 128 && chan / 4 ≤ 16 &&
  fieldAt f 2 2 < 4096 && first ≤ 15 && fieldAt f 5 3 == 0

/-- The stream of a channel and class at a port. -/
def Eng.stream (e : Eng) (p vc cls : Nat) : Option RxStream := (e.port p).rx.find? (fun r => r.vc == vc && r.cls == cls)

def Eng.setStream (e : Eng) (p vc cls : Nat) (r : Option RxStream) : Eng :=
  e.updPort p (fun q => { q with rx := (q.rx.filter (fun x => !(x.vc == vc && x.cls == cls))) ++ r.toList })

/-- A relayed packet that is still arriving on a stream. -/
def TxPkt.arrives (t : TxPkt) (key : Nat × Nat × Nat) : Bool := t.relay == some key && t.bytes.length < t.total

/-- One more use of a flit in a receive buffer. -/
def Eng.refBuf (e : Eng) (p id : Nat) : Eng :=
  e.updPort p (fun q => { q with bufs := q.bufs.map (fun x => if x.id = id then { x with refs := x.refs + 1 } else x) })

/-- More bytes of a relayed packet join its entry, in whichever send queue it stands; they lie in the flit of a number. -/
def Eng.relayBytes (e : Eng) (key : Nat × Nat × Nat) (id : Nat) (bs : List Byte) : Eng :=
  match (List.range 4).find? (fun o => (e.port o).txq.any (fun t => t.arrives key)) with
  | none => e
  | some o =>
    let add := fun (t : TxPkt) =>
      if t.arrives key then
        { t with bytes := t.bytes ++ bs, marks := t.marks ++ [(t.sent + t.bytes.length + bs.length, id)] }
      else t
    (e.updPort o (fun q => { q with txq := q.txq.map add })).refBuf key.1 id

/-- The packet still arriving on a stream is ended in its send queue. -/
def Eng.abortArriving (e : Eng) (key : Nat × Nat × Nat) : Eng :=
  e.each (List.range 4) (fun o e => (e.abortWhere o (fun t => t.arrives key)).pump o)

/-- Ports 0 to 2 carry the grove's traffic. Port 3 relays nothing, and brings a packet for this engine only as the rail of a
spare: RB_PART and EVAC_DATA, with P3_ROLE 2 (R62, R254). -/
def Eng.portTakes (e : Eng) (p typ : Nat) : Bool :=
  p != 3 || (e.rd Reg.GRV_WIRING_P3_ROLE == 2 && (typ == tRbPart || typ == tEvacData))

/-- A packet's envelope and header are in: it is for this engine, or it is relayed towards its destination, or dropped with
its discard counted (R291). What port 3 must not bring is dropped (R62), and an engine that is fenced or has not come up relays nothing
(R237, R435).
DESIGN CHOICE: log entry 93. -/
def Eng.relayStart (e : Eng) (p id : Nat) (r : RxStream) : Eng :=
  let dst := fieldAt r.buf 23 1 / 16
  let hops := fieldAt r.buf 8 1
  let r := { r with total := wireLen r.buf }
  if dst = e.posByte then e.setStream p r.vc r.cls (some { r with drop := !e.portTakes p (fieldAt r.buf 16 1) })
  else if p = 3 || e.fenced || !e.on Reg.GEN_BOOT_READY then e.setStream p r.vc r.cls (some { r with drop := true })
  else
    match e.routePort dst with
    | none => (e.bump Reg.GRV_RELAY_DROP_UNREACH).setStream p r.vc r.cls (some { r with drop := true })
    | some o =>
      if e.w ≤ hops + 1 then (e.bump Reg.GRV_RELAY_DROP_HOPS).setStream p r.vc r.cls (some { r with drop := true })
      else
        let t : TxPkt := { dst := dst, vc := r.vc, relay := some (p, r.vc, r.cls), total := r.total,
                           bytes := overlay r.buf 8 [byteOf (hops + 1)], cls := none, marks := [(48, id)] }
        let e := (e.updPort o (fun q => { q with txq := q.txq ++ [t] })).refBuf p id
        e.setStream p r.vc r.cls (some { r with relayed := true })

/-- A packet has arrived whole: this engine takes it, or its last bytes are on their way. DEDUCED: log entry 58. -/
def Eng.streamEnd (e : Eng) (p : Nat) (r : RxStream) : Eng :=
  let e := e.setStream p r.vc r.cls none
  if r.drop || r.relayed then e
  else match parseWire r.buf with
    | some (ty, pk) => e.receive ty pk
    | none => e

/-- The body of DATA flit number `id` goes on its stream from an offset on; `first` is the offset of the first packet start. -/
def Eng.streamBytes : Nat → Eng → Nat → Nat → Nat → Nat → Nat → Nat → List Byte → Eng
  | 0, e, _, _, _, _, _, _, _ => e
  | fuel + 1, e, p, id, vc, cls, first, off, body =>
    if body.isEmpty then e
    else match e.stream p vc cls with
      | none =>
        if off = first || (first < off && body.headD 0 != 0) then
          let r : RxStream := { vc := vc, cls := cls, got := 0, total := 0, buf := [], relayed := false, drop := false }
          Eng.streamBytes fuel (e.setStream p vc cls (some r)) p id vc cls first off body
        else if off < first && first < 240 then Eng.streamBytes fuel e p id vc cls first first (body.drop (first - off))
        else e
      | some r =>
        let want := if r.total = 0 then 48 - r.got else r.total - r.got
        let n := min want body.length
        let bs := body.take n
        let r := { r with got := r.got + n, buf := if r.drop || r.relayed then r.buf else r.buf ++ bs }
        let e := if r.relayed then e.relayBytes (p, vc, cls) id bs else e
        let e := e.setStream p vc cls (some r)
        let e := if r.total = 0 && r.got = 48 then e.relayStart p id r else e
        let e := match e.stream p vc cls with
          | some r => if r.total != 0 && r.total ≤ r.got then e.streamEnd p r else e
          | none => e
        Eng.streamBytes fuel e p id vc cls first (off + n) (body.drop n)

/-- A sequenced flit has been taken in order: ACK at least once every 64 (R292). -/
def Eng.takeFlit (e : Eng) (p : Nat) : Eng :=
  let q := e.port p
  let e := e.setPort p { q with rxFseq := (q.rxFseq + 1) % 4096, unacked := q.unacked + 1, retrying := false }
  if 64 ≤ (e.port p).unacked then e.sendAck p else e

/-- The packet in progress on a stream is ended by ABORT (R291): a relayed one on its outbound stream too, one for this
engine is discarded and counted. -/
def Eng.streamAbort (e : Eng) (p vc cls : Nat) : Eng :=
  match e.stream p vc cls with
  | none => e
  | some r =>
    let e := e.setStream p vc cls none
    if r.relayed then e.abortArriving (p, vc, cls)
    else if r.drop then e else e.bump Reg.GRV_RELAY_DROP_ABORTED

/-- A DATA flit in order: its body goes on its stream. Its buffer is free again once this engine has taken its bytes, and those
that are relayed have left; in a coding-core reset it waits there until the resumption (R452). DEDUCED: log entry 58. -/
def Eng.dataBody (e : Eng) (p : Nat) (f : List Byte) : Eng :=
  let vc := fieldAt f 1 1 % 4
  let cls := fieldAt f 1 1 / 4
  let id := (e.port p).bufNo
  let e := e.updPort p (fun q => { q with bufNo := id + 1, bufs := q.bufs ++ [{ id := id, vc := vc, cls := cls, refs := 1 }] })
  let e := e.updPort p (fun q => { q with lowSent := q.lowSent && vc == 1 })
  let e := Eng.streamBytes 64 e p id vc cls (16 * fieldAt f 4 1) 0 ((f.drop 8).take 240)
  let e := if e.boot.inReset then e.updPort p (fun q => { q with heldBufs := q.heldBufs ++ [id] }) else e.unrefBuf p id
  e.each (List.range 4) (fun o e => e.pump o)

/-! ### CTRL flits (R287, R299) -/

/-- A control message read from its 16 B; none for an unused or undefined code (R299). -/
def readMsg (b : List Byte) : Option LinkMsg :=
  let f := fieldAt b
  match f 0 1 with
  | 1 => some (.init (f 1 1) (f 2 2) (f 4 1))
  | 2 => some (.id (f 1 3 % 2 ^ 20) (f 4 1 % 16) (bit (f 4 1) 7))
  | 3 => some (.width (f 1 2) (f 3 1) (f 4 2) (f 6 1 == 1))
  | 4 => some (.retryReq (f 1 2 % 4096))
  | 5 => some (.ack (f 1 2 % 4096))
  | 6 => if f 1 1 < 4 && f 2 1 < 17 then some (.credit (f 1 1) (f 2 1) (f 3 2)) else none
  | 7 => some (.restripe (f 1 2) (f 3 2 % 4096))
  | 8 => some .lowReq
  | 9 => some .lowAck
  | 10 => some .lowNak
  | 11 => some .wake
  | 12 => some (.beat (bit (f 1 1) 0))
  | _ => none

/-- What a control message that has arrived does (R299). -/
def Eng.takeMsg (e : Eng) (p : Nat) : LinkMsg → Eng
  | .init _ present _ => e.rxInit p present
  | .id place pos noPos => e.rxId p place pos noPos
  | .width passing w used final => e.rxWidth p passing w used final
  | .retryReq fseq => e.rxRetryReq p fseq
  | .ack fseq => e.rxAckFlit p fseq
  | .credit vc cls freed => e.rxCredit p vc cls freed
  | .restripe used fseq => e.rxRestripe p used fseq
  | .lowReq => e.rxLowReq p
  | .lowAck => e.rxLowAck p
  | .lowNak => e.rxLowNak p
  | .wake => e.rxWake p
  | .beat low => e.rxBeat p low

/-- A control message arrives at a port; each but BEAT is a demand for the clocks (R299, R310, R438). -/
def Eng.rxMsg (e : Eng) (p : Nat) (m : LinkMsg) : Eng :=
  match m with
  | .beat low => e.takeMsg p (.beat low)
  | m => e.wakeClocks.takeMsg p m

/-- The body of a CTRL flit: up to 15 messages, in their order (R287, R299). -/
def Eng.ctrlBody (e : Eng) (p : Nat) (f : List Byte) : Eng :=
  (e.each ((chunksOf 16 15 ((f.drop 8).take 240)).filterMap readMsg) (fun m e => e.rxMsg p m)).bootReady

/-- A flit arrives (R276, R287, R293). IDLE and CTRL flits carry no sequence; a CTRL flit's messages are taken in any state of
the port that has a far end, which each message looks at. -/
def Eng.rxFlit (e : Eng) (p : Nat) (f : List Byte) (fecBad : Bool) (body : Eng → Eng) : Eng :=
  let s := e.portState p
  let up := s == psUp || s == psLow || s == psWake
  let ctrl := fieldAt f 0 1 == ftCtrl
  if !up && !(ctrl && psDetect ≤ s && s ≤ psWidth) then e
  else
    let ask := fun (e : Eng) => if up then e.askRetry p else e
    if fecBad then ask (e.bump (Reg.GP_FLIT_ERR_FEC_BAD p))
    else if !flitOk f then ask (e.bump (Reg.GP_FLIT_ERR_CRC p))
    else if ctrl then e.ctrlBody p f
    else if fieldAt f 0 1 == ftIdle then e
    else if fieldAt f 2 2 != (e.port p).rxFseq then e.askRetry p
    else body (e.wakeClocks.takeFlit p)

/-- DATA_FLIT (R286 to R291, R293). -/
def execDataFlit (p : Fin 4) (flit : List Byte) (fecBad : Bool) (s : State) : Host.Outcome State Fault Refusal :=
  .next (s.run (fun e =>
    e.rxFlit p flit fecBad (fun e => if fieldAt flit 0 1 == ftData then e.dataBody p flit else e)))

/-- ABORT_FLIT (R287, R291, R293). -/
def execAbortFlit (p : Fin 4) (flit : List Byte) (fecBad : Bool) (s : State) : Host.Outcome State Fault Refusal :=
  .next (s.run (fun e =>
    e.rxFlit p flit fecBad (fun e =>
      if fieldAt flit 0 1 == ftAbort then e.streamAbort p (fieldAt flit 1 1 % 4) (fieldAt flit 1 1 / 4) else e)))

/-- RELAY_STALL: no further flit of a packet that is being relayed has come for 100 µs (R291). -/
def execRelayStall (p : Fin 4) (vc : Fin 4) (cls : Fin 17) (s : State) : Host.Outcome State Fault Refusal :=
  .next (s.run (fun e =>
    match e.stream p vc cls with
    | some r =>
      if r.relayed then (e.setStream p vc cls (some { r with relayed := false, drop := true })).abortArriving (p.val, vc.val, cls.val)
      else e
    | none => e))

end Sys2Proof.Machine
end

