-- ==== Sys2Proof/Machine/Service.lean ====
section
/-!
DEFINITION. Sys2Proof/Machine/Service.lean: zeroization and the crypto module's error state (R404 to R413), leaving service
(R458, R459), the resets of the coding core, the crypto unit and the compute part (R450 to R457), pruning (R460 to R462),
the keep-alive mode and the fast clocks (R438).
-/
namespace Sys2Proof.Machine

/-! ### Zeroization (R410 to R413) -/

/-- The result that an open command's chapter lays out (R508, R232, R331), as its work stands, and the number of free values in
it: a ring command's STEP and COUNT, for which the spec names no boundary here (DESIGN CHOICE, log entry 87). -/
def Eng.openResult (e : Eng) (c : OpenCmd) : List Byte × Nat :=
  match c.op with
  | .ringOpen n => (e.ringResult n none 0, 12)
  | .ringSeal _ _ =>
    let asked := (e.rings.reqs.find? (fun q => q.cmd == c.id)).bind (·.ring)
    (e.ringResult (asked.getD (e.openRing?.getD e.base)) none 0, 12)
  | .ringCommit n => (e.ringResult n none 0, 12)
  | .ringRollback n _ => (e.ringResult n none 0, 12)
  | .stepRetire _ => (natLe 4 (e.rd Reg.GRV_LOG_STAT_RETIRED), 0)
  | .updateRun _ => (match e.liveRuns.find? (fun u => u.cmd == some c.id) with
    | some u => runRecord u.handle 2 0 u.step u.wrote u.nonf u.sat u.accs
    | none => [], 0)
  | .graftBegin x _ => (match e.graft with
    | some g => e.graftResult 0 g.x g.missing
    | none => e.graftResult 0 x [], 0)
  | .resumeSet _ _ => (match e.graft with
    | some g => e.graftResult 0 g.x g.missing
    | none => [], 0)
  | .evacuate _ _ => (e.evacResult, 0)
  | .scrubRange _ _ _ => (match e.scrubs.find? (fun x => x.cmd == c.id) with
    | some x => x.record
    | none => [], 0)
  | .reLeaf _ _ _ => (match e.keep.encode.find? (fun x => x.cmd == c.id) with
    | some x => natLe 8 (e.builtLeaves x - x.todo.length)
    | none => [], 0)
  | _ => ([], 0)

/-- An open command completes before its work has ended, with a status. -/
def Eng.endCmd (e : Eng) (c : OpenCmd) (status : Nat) : Eng :=
  (e.complete c.id status (e.openResult c).1).useFree (e.openResult c).2

/-- Open commands of some kinds complete with a status. -/
def Eng.endOpen (e : Eng) (status : Nat) (which : Op → Bool) : Eng :=
  e.each (e.q.opens.filter (fun c => which c.op)) (fun c e => e.endCmd c status)

/-- An ANCHOR_RESTORE or ADOPT in progress ends with a status (R412). -/
def Eng.endRestores (e : Eng) (status : Nat) : Eng :=
  let isReLeaf := fun (x : Encode) => match x.why with | .reLeaf => true | _ => false
  let e := e.setKeep (fun k => { k with restore := none, encode := k.encode.filter isReLeaf })
  e.endOpen status (fun o => match o with | .anchorRestore _ => true | .adopt _ => true | _ => false)

/-- Keys, session keys, challenge and generator state are overwritten with zero; work that needs them ends (R410, R412). Once
the start lock is set the engine fences itself (R413). DEDUCED: log entry 21. -/
def Eng.zeroize (e : Eng) (tamper : Bool) : Eng :=
  let e := e.dropOwnTx
  let e : Eng := { e with sess := e.sess.map (fun s => (s.1, { s.2 with keyLost := s.2.keyLost || s.2.st == 1 })) }
  let e : Eng := { e with sec := { e.sec with jlk := none, amk := none, atk := none, challenge := none, drbg := zeros 48, reseed := 0 } }
  let e := ((e.flag Reg.SEC_STAT_ZEROIZED true).flag Reg.SEC_STAT_TAMPER tamper).wr Reg.SEC_STAT_KEYS 0
  let e := ((e.wr Reg.SEC_JOB_ID_JOB_ID 0).flag Reg.LED_CTL_KEY false).raise .ZEROIZED
  let e := (e.abortAnchor stNoKey 0).endRestores stNoKey
  if e.locked then e.selfFence else e

/-! ### Leaving service (R458, R459) -/

/-- Accesses held at the memory side receive error responses, and their leaves are released; fabric accesses that a coding-core reset
withholds receive them too (R452, R459, R535).
DEDUCED: log entry 56. -/
def Eng.failHeld (e : Eng) : Eng :=
  let hs := e.held
  let late := e.late.filter (fun w => match w with | .packet _ _ => false | _ => true)
  let e := ({ e with held := [], late := [] } : Eng).each hs (fun h e => (e.emit .busError).emit (.release h.port h.leaf))
  e.each late (fun _ e => e.fabricError)

/-- What an engine out of service no longer works at: anchors, digests, restores, encodings, scrubs, grafts; referred reads
are answered at once, withheld records are discarded, withheld tap pairs are accepted with no action (R358, R459).
DEDUCED: log entry 56. -/
def Eng.dropWork (e : Eng) : Eng :=
  let refs := e.refs
  let e := e.countIntake
  let e : Eng := { e with selfQ := [], refs := [], scrubs := [], graft := none, recons := [], chains := [], builds := [], xfers := [],
                          caps := [], late := [], upd := { e.upd with held := [] } }
  let e := e.setKeep (fun k => { k with anchor := none, hashes := [], encode := [], restore := none, picks := [] })
  (e.each refs (fun f e => e.emit (.referral f.port f.id false []))).retryTaps

/-- The engine leaves service, for a cause of GEN_RESET_STAT.OOS_CAUSE. No notice goes in the module's error state.
DEDUCED: log entry 56. -/
def Eng.leaveService (e : Eng) (cause : Nat) : Eng :=
  if e.oos then e
  else
    let lock := e.locked
    let e := { e with boot := { e.boot with inReset := false } }
    let e := if lock && cause != 4 then e.sendAll { typ := tLossNotice, row := e.pos, sector := 3 } else e
    let e := if lock then e.fenceOff (fun t => t.own tLossNotice) else e
    let e := (e.flag Reg.GEN_RESET_STAT_OOS true).wr Reg.GEN_RESET_STAT_OOS_CAUSE cause
    if lock then
      let e := (e.failHeld.endOpen stOutOfService (fun _ => true)).dropWork
      let e := (e.setLevel .OUT_OF_SERVICE true).setLevel .ENGINE_READY false
      { e with pins := { e.pins with engReady := false } }
    else (e.dropWork.flag Reg.GEN_BOOT_READY false).setLevel .ENGINE_READY false

/-- The module enters its error state (R406, R407). Anchors, restores and adopts end under R412, which names their status; the
other command that needs the module is TENSOR_DIGEST (DEDUCED, log entry 42). -/
def Eng.errorState (e : Eng) (test : Nat) : Eng :=
  if e.on Reg.SEC_STAT_ERROR then e
  else
    let e := ((e.flag Reg.SEC_STAT_ERROR true).wr Reg.SEC_STAT_FAILED test).setLevel .CRYPTO_ERROR true
    let e := e.zeroize false
    let e := e.setKeep (fun k => { k with hashes := [] })
    let e := (e.endOpen stCryptoError (fun o => match o with | .tensorDigest _ => true | _ => false)).releaseHeld
    if e.locked then e.leaveService 4 else e

/-- A tamper zeroization blocks the root key as well, and kills it where TAMPER_KILL is set (R411). -/
def Eng.tampered (e : Eng) : Eng :=
  let e := e.zeroize true
  let kill := e.on Reg.SEC_CTL_TAMPER_KILL
  let e : Eng := { e with fuses := { e.fuses with rootKill := e.fuses.rootKill || kill } }
  (e.flag Reg.SEC_STAT_ROOT_BLOCKED true).settle

/-- TAMPER: tamper_l has been low for 1 µs (R410, R411). -/
def execTamper (s : State) : Host.Outcome State Fault Refusal := .next (s.run Eng.tampered)

/-- SELF_TEST_FAIL: a test that runs while the engine runs has failed: the continuous entropy tests, or the generator's check
at a reseed (R405, R406). -/
def execSelfTestFail (reseed : Bool) (s : State) : Host.Outcome State Fault Refusal :=
  .next (s.run (fun e => (e.errorState (if reseed then 11 else 10)).settle))

/-! ### The coding-core reset (R451 to R453, R457, R458) -/

/-- Counters of the coding-core domain: they restart at their reset values in a coding-core reset (R451).
DEDUCED: log entry 41. -/
def codingCounters : List Fld :=
  [Reg.GRV_STRAY_CNT_COUNT, Reg.GRV_KEY_MISS_CNT_COUNT, Reg.GRV_WRITER_CNT_COUNT, Reg.GRV_MIRROR_TORN_COUNT,
   Reg.GRV_LAG_CNT_COUNT, Reg.GRV_SAP_TX_COUNT, Reg.GRV_SAP_RAW_BYTES, Reg.GRV_SAP_THIN_BYTES, Reg.GRV_SAP_DROP_GEN,
   Reg.GRV_SAP_DROP_MALFORMED, Reg.GRV_SAP_DROP_REORDER, Reg.GRV_SAP_DROP_DUP, Reg.GRV_SPILL_BYTES_BYTES,
   Reg.GRV_LOG_WAIT_CYCLES, Reg.GRV_PT_STAT_RESTARTS, Reg.GRV_PT_STAT_STUCK, Reg.GRV_PT_STRIP_PACKETS,
   Reg.GRV_ROLL_STAT_GAP, Reg.GRV_RING_DROP_COUNT, Reg.GRV_RING_CLOSED_WR_COUNT, Reg.GRV_RING_STALL_MICROS,
   Reg.UPD_INTAKE_STAT_FROZEN, Reg.UPD_INTAKE_STAT_UNKNOWN, Reg.UPD_INTAKE_STAT_STALE, Reg.UPD_INTAKE_STAT_BAD,
   Reg.UPD_INTAKE_WAIT_CYCLES, Reg.UPD_RUN_STAT_DONE, Reg.UPD_NUM_STAT_NONFINITE, Reg.UPD_NUM_STAT_SATURATED,
   Reg.UPD_TIER_LATE_COUNT, Reg.RBD_LOSS_STAT_DECLS, Reg.RBD_DR_SERVED_LOADS, Reg.RBD_DR_FAIL_TIMEOUT,
   Reg.RBD_DR_FAIL_REFUSED, Reg.RBD_ACC_STAT_FALLBACKS, Reg.RBD_REPAIR_STAT_REPAIRED, Reg.RBD_REPAIR_STAT_FAILED,
   Reg.RBD_THICK_STAT_BUILT, Reg.RBD_BEYOND_COUNT, Reg.GRV_RELAY_DROP_UNREACH, Reg.GRV_RELAY_DROP_HOPS,
   Reg.GRV_RELAY_DROP_ABORTED, Reg.MEM_SHARE_STAT_THROTTLED, Reg.MEM_SHARE_STAT_EXEMPT, Reg.MEM_SHARE_STAT_SLOW,
   Reg.MEM_UNREP_COUNT, Reg.MEM_ERR_EVT_MISCORR, Reg.MEM_ERR_EVT_UNCONFIRMED, Reg.MEM_ERR_EVT_TAP_OLD_LOST,
   Reg.MEM_ERR_EVT_RSVD_WR, Reg.ANC_HOLD_URGENT, Reg.ANC_HOLD_WAITS, Reg.ANC_ERR_RETRIES, Reg.ANC_ERR_ABORTS,
   Reg.ANC_ERR_RESTORE_FAIL, Reg.ANC_ERR_DIGEST, Reg.DIG_STAT_RECOMPUTED, Reg.GRV_MAP_STAT_CHILD_FAIL,
   Reg.GRV_RC_STAT_KEY_MISS, Reg.GEN_ERR_BAD_ACC, Reg.MBX_STAT_ACKED, Reg.MBX_STAT_BAD_ACK]
    ++ (List.range 8).map Reg.MEM_CODE_STAT_BARK
    ++ (List.range 8).map Reg.MEM_CODE_STAT_HEARTWOOD
    ++ (List.range 4).map Reg.CQ_STAT_DONE
    ++ (List.range 4).map Reg.CQ_STAT_BAD_DB
    ++ (List.range 4).map Reg.CQ_STAT_MBOX_WAIT

/-- Event bits of the coding-core domain, which are neither software's values nor job state (R450, R451, DEDUCED, log entry 41). -/
def codingEvents : List Fld :=
  [Reg.GRV_RGN_CHECK_FAIL, Reg.UPD_PROG_CHECK_FAIL, Reg.MEM_LAYOUT_CTL_REFUSED, Reg.MEM_UNREP_FIRST_VALID,
   Reg.ANC_DUE_STAT_DUE, Reg.GRV_RC_STAT_FAILED, Reg.SYN_MEM_BAD, Reg.SYN_HIT_HIT, Reg.GEN_ERR_EXPERT_WR,
   Reg.GEN_ERR_RSVD_WR, Reg.GEN_ERR_LOCKED_WR, Reg.MGT_DISAGREE_VALID]

/-- A coding-core reset: the fourth within 600 s takes the engine out of service instead (R458). DEDUCED: log entry 85. -/
def Eng.coreReset (e : Eng) (cause : Nat) : Eng :=
  if e.boot.inReset || e.oos then e
  else
    let recent := e.boot.resetsAt.filter (fun t => e.now < t + 600000000000)
    if 3 ≤ recent.length then e.leaveService 1
    else
      let e := { e with
        boot := { e.boot with inReset := true, watchdog := cause == 2, resetsAt := recent ++ [e.now] },
        loss := { e.loss with hbLosses := e.rd Reg.GRV_PT_STAT_LOSSES, hbMap := e.lostMap } }
      let e := e.bump Reg.GEN_RESET_STAT_CORE_TOTAL
      (e.wr Reg.GEN_RESET_STAT_IN_WINDOW (recent.length + 1)).wr Reg.GEN_RESET_STAT_LAST_CAUSE cause

/-- Commands whose work a resumption takes up again: runs, applies, grafts (R453); an anchor's ends with its abort.
DEDUCED: log entry 43. -/
def resumes (o : Op) : Bool :=
  match o with
  | .updateRun _ => true
  | .ringCommit _ => true
  | .graftBegin _ _ => true
  | .resumeSet _ _ => true
  | _ => false

/-- Work in progress after the resumption (R453): chunks in flight and transfers that have not been answered are issued again,
the apply with them (R179); missing votes are asked for (R190); the anchor aborts; other commands complete with INTERNAL, and
what they alone were doing is dropped (DEDUCED, log entry 43). -/
def Eng.resumeWork (e : Eng) : Eng :=
  let e := (e.abortAnchor stInternal 0).endOpen stInternal (fun o => !resumes o)
  let e := e.setKeep (fun k => { k with hashes := [], restore := none, encode := [] })
  let e : Eng := { e with
    xfers := e.xfers.filter (fun x => match x.kind with | .hashRead _ _ => false | _ => true),
    scrubs := [], log := { e.log with retires := [] }, rings := { e.rings with reqs := [] },
    upd := { e.upd with runs := e.upd.runs.map (fun u => { u with issued := [] }) } }
  let e := e.each (List.range 4) (fun q e => (e.dropFetched q).fetchNext q)
  let e := e.each (e.xfers.filter (·.out)) (fun x e => e.askAgain x)
  let e := e.each (e.rings.recs.filter (fun r => r.st == .localSealed)) (fun r e => e.askVotes r.num)
  (e.retryIntake.pumpRuns).issueApply 4096

/-- What was withheld is taken, in its order; writes to the map and roll-call apertures are taken by `Eng.resumeLate`. -/
def Eng.takeLate (e : Eng) (w : Withheld) : Eng :=
  match w with
  | .packet t p => e.receive t p
  | .fabric route key requester t p => e.fabricPkt route key requester t p
  | .load store off len key requester => e.degradedRead store off len key requester
  | _ => e

/-- Flits that a coding-core reset has kept in the receive buffers are taken, and their room is free (R296, R452).
DEDUCED: log entry 58. -/
def Eng.freeHeld (e : Eng) : Eng :=
  e.each (List.range 4) (fun p e =>
    let ids := (e.port p).heldBufs
    (e.updPort p (fun q => { q with heldBufs := [] })).each ids (fun id e => e.unrefBuf p id))

/-- The end of the resumption, up to what was withheld (R451, R452). DEDUCED: log entry 41. -/
def Eng.resumed (e : Eng) (micros : Nat) : Eng :=
  let dog := e.boot.watchdog
  let e : Eng := { e with boot := { e.boot with inReset := false, watchdog := false } }
  let e := e.wr Reg.GEN_RESET_STAT_RESUME_US (min micros 65535)
  let e := e.each (codingCounters ++ codingEvents) (fun f e => e.wr f f.reset)
  let e : Eng := { e with
    loss := { e.loss with silent := [], heard := e.present.foldl (fun h x => put h x e.now) e.loss.heard } }
  let e := if e.locked then e.silenceRule else e
  let e := (e.freeHeld.resumeWork).raise .CORE_RESUMED
  if dog then e.raise .HANG_RESET else e

/-- WATCHDOG_EXPIRY (R457). -/
def execWatchdogExpiry (s : State) : Host.Outcome State Fault Refusal := .next (s.run (fun e => e.coreReset 2))

/-! ### Crypto and compute resets (R454, R455) -/

/-- A crypto reset: zeroization, then self-tests 3 to 9 again; `failing` is the test that fails, if one does. -/
def Eng.cryptoReset (e : Eng) (failing : Option Nat) : Eng :=
  let e := (e.bump Reg.GEN_RESET_STAT_CRYPTO_TOTAL).zeroize false
  match failing with
  | some n => if 3 ≤ n && n ≤ 9 then e.errorState n else e
  | none => e

/-- A write of GEN_RESET: without its key it is ignored; the crypto reset comes first (R450). -/
def Eng.genReset (e : Eng) (v : Nat) (failing : Option Nat) : Eng :=
  if Reg.GEN_RESET_KEY.of v != 0x5A then e
  else
    let e := if Reg.GEN_RESET_CRYPTO.of v = 1 then e.cryptoReset failing else e
    if Reg.GEN_RESET_CORE.of v = 1 then e.coreReset 1 else e

def genResetFields : List Fld := [Reg.GEN_RESET_KEY, Reg.GEN_RESET_CRYPTO, Reg.GEN_RESET_CORE]

/-- CORE_RESET: a write of GEN_RESET (R450, R451). -/
def execCoreReset (v : Word) (s : State) : Host.Outcome State Fault Refusal :=
  .next (s.run (fun e => e.write .alwaysOn genResetFields v.toNat (fun e => e.genReset v.toNat none)))

/-- CRYPTO_RESET: a write of GEN_RESET, and the self-test that fails after it, if one does (R454). -/
def execCryptoReset (v : Word) (failing : Option (Fin 12)) (s : State) : Host.Outcome State Fault Refusal :=
  .next (s.run (fun e => e.write .alwaysOn genResetFields v.toNat (fun e => e.genReset v.toNat (failing.map (·.val)))))

/-- What the falling edge of cmp_rst_l does (R455). DEDUCED: log entry 76. -/
def Eng.computeReset (e : Eng) : Eng :=
  let stale := (e.upd.slices.filter (fun x => !x.full)).length
  let e : Eng := { e with upd := { e.upd with gen := (e.upd.gen + 1) % 256, slices := e.upd.slices.filter (·.full) } }
  let e := (e.wr Reg.UPD_INTAKE_CTL_GEN_NOW (e.upd.gen % 2)).bumpBy Reg.UPD_INTAKE_STAT_STALE stale
  ((e.bump Reg.HLT_RESETS_TOTAL).minute (fun b => { b with resets := b.resets + 1 })).retryIntake

/-- COMPUTE_RESET: cmp_rst_l falls (R455). DEDUCED: log entry 76. -/
def execComputeReset (s : State) : Host.Outcome State Fault Refusal :=
  .next (s.run (fun e =>
    let fell := e.pins.cmpRstL
    let e : Eng := { e with pins := { e.pins with cmpRstL := false } }
    if fell then e.computeReset else e))

/-- COMPUTE_RESET_RELEASE: cmp_rst_l rises, and every unanswered tier operation is issued again (R455).
DEDUCED: log entry 83. -/
def execComputeResetRelease (s : State) : Host.Outcome State Fault Refusal :=
  .next (s.run (fun e =>
    if e.pins.cmpRstL then e
    else
      let e : Eng := { e with pins := { e.pins with cmpRstL := true } }
      e.each e.tier (fun t e => e.emit (.tier t.op t.what))))

/-! ### Pruning (R16, R228, R460 to R462) -/

/-- Clusters that are present and not pruned. -/
def Eng.clustersLeft (e : Eng) : Nat :=
  popcount e.fuses.clusters 64 - popcount (e.fuses.clusters &&& e.rd Reg.GEN_HOLE_CLU_PRUNED) 64

/-- A present cluster is pruned. -/
def Eng.pruneCluster (e : Eng) (c : Nat) : Eng :=
  let holes := e.rd Reg.GEN_HOLE_CLU_PRUNED
  if !bit e.fuses.clusters c || bit holes c then e
  else
    let e := (e.wr Reg.GEN_HOLE_CLU_PRUNED (setBit holes c)).raise .UNIT_PRUNED
    let e := if e.clustersLeft < e.rd Reg.GEN_PRUNE_CTL_CLU_MIN then e.raise .CLUSTER_LOW else e
    if e.clustersLeft = 0 then e.leaveService 5 else e.dropCluster c

/-- A present lane is pruned, and leaves service under R282. -/
def Eng.pruneLane (e : Eng) (n : Nat) : Eng :=
  let p := n / 16
  let l := n % 16
  let was := e.rd (Reg.GP_LANES_PRUNED p)
  if !bit (e.presentLanes p) l || bit was l then e
  else ((e.wr (Reg.GP_LANES_PRUNED p) (setBit was l)).loseLane p l).raise .UNIT_PRUNED

/-- A prune ends: before the start lock only (R462). -/
def Eng.unprune (e : Eng) (lane : Bool) (n : Nat) : Eng :=
  if e.locked then e.lockedWr
  else if lane then e.wr (Reg.GP_LANES_PRUNED (n / 16)) (clearBit (e.rd (Reg.GP_LANES_PRUNED (n / 16))) (n % 16))
  else e.wr Reg.GEN_HOLE_CLU_PRUNED (clearBit (e.rd Reg.GEN_HOLE_CLU_PRUNED) n)

/-- A write of GEN_PRUNE (R460 to R462). -/
def Eng.pruneWrite (e : Eng) (v : Nat) : Eng :=
  let unit := Reg.GEN_PRUNE_UNIT.of v
  let lane := Reg.GEN_PRUNE_KIND.of v == 1
  if Reg.GEN_PRUNE_KEY.of v != 0xA5 then e
  else if Reg.GEN_PRUNE_UNPRUNE.of v = 1 then e.unprune lane unit
  else if lane then e.pruneLane unit
  else e.pruneCluster unit

def pruneFields : List Fld := [Reg.GEN_PRUNE_KEY, Reg.GEN_PRUNE_UNPRUNE, Reg.GEN_PRUNE_KIND, Reg.GEN_PRUNE_UNIT]

/-- PRUNE_CLUSTER: a write of GEN_PRUNE (R460). -/
def execPruneCluster (v : Word) (s : State) : Host.Outcome State Fault Refusal :=
  .next (s.run (fun e => e.write .alwaysOn pruneFields v.toNat (fun e => e.pruneWrite v.toNat)))

/-- PRUNE_LANE: a write of GEN_PRUNE (R461). -/
def execPruneLane (v : Word) (s : State) : Host.Outcome State Fault Refusal :=
  .next (s.run (fun e => e.write .alwaysOn pruneFields v.toNat (fun e => e.pruneWrite v.toNat)))

/-- UNPRUNE: a write of GEN_PRUNE (R462). -/
def execUnprune (v : Word) (s : State) : Host.Outcome State Fault Refusal :=
  .next (s.run (fun e => e.write .alwaysOn pruneFields v.toNat (fun e => e.pruneWrite v.toNat)))

/-- CLUSTER_FAULT: a cluster's self-check or buffers report an uncorrectable fault; with AUTO_CLU the cluster is pruned
(R460). -/
def execClusterFault (c : Fin 64) (s : State) : Host.Outcome State Fault Refusal :=
  .next (s.run (fun e => if e.on Reg.GEN_PRUNE_CTL_AUTO_CLU then e.pruneCluster c else e))

/-! ### Keep-alive (R310, R438) -/

/-- A wear record is written in NVM (R425, R518). -/
def Eng.writeWear (e : Eng) (no : Nat) (w : SMap Wear) : Eng :=
  ({ e with health := { e.health with nvmNo := no, nvm := w } } : Eng).emit .nvm

/-- Wear records go to NVM (R425); while the flash is granted they wait (R518). -/
def Eng.saveWear (e : Eng) : Eng :=
  if e.pins.flShareGnt then
    { e with edge := { e.edge with wearQ := e.edge.wearQ ++ [(e.health.wearNo, e.health.wear)] } }
  else e.writeWear e.health.wearNo e.health.wear

/-- fl_share_req takes a level: the flash is granted, or returned and the wear writes that wait are made in order (R518, R540).
A request raised before step 2 of R434 has ended is granted when that step ends. -/
def Eng.flashShare (e : Eng) (level : Bool) : Eng :=
  let e : Eng := { e with pins := { e.pins with flShareReq := level } }
  if level then
    if e.pins.pwrGood && 2 ≤ e.rd Reg.GEN_BOOT_STAGE then { e with pins := { e.pins with flShareGnt := true } } else e
  else
    let q := e.edge.wearQ
    let e : Eng := { e with pins := { e.pins with flShareGnt := false }, edge := { e.edge with wearQ := [] } }
    e.each q (fun w e => e.writeWear w.1 w.2)

/-- FLASH_SHARE_REQUEST (R540). -/
def execFlashShareRequest (level : Bool) (s : State) : Host.Outcome State Fault Refusal := .next (s.run (fun e => e.flashShare level))

/-- A write of GEN_PWR. -/
def Eng.sleepWrite (e : Eng) (v : Nat) : Eng :=
  let e := if Reg.GEN_PWR_REFUSED.of v = 1 then e.flag Reg.GEN_PWR_REFUSED false else e
  if Reg.GEN_PWR_SLEEP.of v = 0 then e.flag Reg.GEN_PWR_SLEEP false
  else if e.on Reg.GRV_CFG_VALID || !e.q.opens.isEmpty then e.flag Reg.GEN_PWR_REFUSED true
  else if e.on Reg.GEN_PWR_ASLEEP then e.flag Reg.GEN_PWR_SLEEP true
  else
    let e := ((e.flag Reg.GEN_PWR_SLEEP true).flag Reg.GEN_PWR_ASLEEP true).saveWear
    e.each ((List.range 4).filter (fun p => e.portState p == psUp)) (fun p e => e.enterLow p)

/-- SLEEP_REQUEST: a write of GEN_PWR (R438). -/
def execSleepRequest (v : Word) (s : State) : Host.Outcome State Fault Refusal :=
  .next (s.run (fun e => e.write .alwaysOn [Reg.GEN_PWR_REFUSED, Reg.GEN_PWR_SLEEP, Reg.GEN_PWR_ASLEEP] v.toNat
    (fun e => e.sleepWrite v.toNat)))

/-- FAST_CLOCK_WAKE: a demand starts the fast clocks (R438, R485). -/
def execFastClockWake (demand : Demand) (s : State) : Host.Outcome State Fault Refusal :=
  .next (s.run (fun e =>
    let wakes := match demand with | .interrupt n => e.watched n | _ => true
    if e.on Reg.GEN_PWR_ASLEEP && wakes then e.startClocks else e))

end Sys2Proof.Machine
end

