-- ==== Sys2Proof/Machine/Health.lean ====
section
/-!
DEFINITION. Sys2Proof/Machine/Health.lean: health, risk and wear (R416 to R433): the indicators, the risk estimate and what it starts,
the predicted end of life, and the adaptive loops.
-/
namespace Sys2Proof.Machine


/-! ### Indicators (R416 to R419) -/

def Bucket.zero : Bucket := { bark := 0, hw := 0, droop := 0, sram := 0, resets := 0 }

/-- A per-hour rate over the completed minutes (R417). -/
def hourRate (bs : List Bucket) (f : Bucket → Nat) : Nat :=
  let sum := ((bs.take 60).map f).foldl (· + ·) 0
  if 60 ≤ bs.length then sum else sum * 60 / (bs.length + 1)

/-- A lane is used and measured: a lane of an UP port's used map, lane 0 alone of a port in LOW (R418). -/
def Eng.laneUsed (e : Eng) (n : Nat) : Bool :=
  let p := n / 16
  if e.portState p == psUp then bit (e.usedLanes p) (n % 16)
  else e.portState p == psLow && n % 16 == 0

/-- A lane of an UP port is used at full rate (R418, R423). -/
def Eng.laneFull (e : Eng) (n : Nat) : Bool := e.portState (n / 16) == psUp && e.laneUsed n

/-- RATE_BUCKET_TICK: a minute has passed (R417); a lane at full rate has been used for it (R423, DEDUCED, log entry 45). -/
def Eng.bucketTick (e : Eng) : Eng :=
  let full := (List.range 64).filter e.laneFull
  let e := e.setHealth (fun h => { h with
    buckets := (h.now :: h.buckets).take 1440, now := Bucket.zero,
    full := full.foldl (fun m l => put m l ((look m l).getD 0 + 1)) h.full })
  e.wr Reg.HLT_RESETS_DAY (min 65535 ((e.health.buckets.map (·.resets)).foldl (· + ·) 0))

def LaneHealth.none : LaneHealth := { ber := 0, eye := 0, corr := 0, high := 0 }
def Eng.laneHealth (e : Eng) (n : Nat) : LaneHealth := (look e.health.lanes n).getD LaneHealth.none

/-- BER_CODE of a lane (R418): the largest c up to 255 with 10^(c/16 - 12) at or below corrected symbols over received bits; 0
with no corrected symbol. DEDUCED: log entry 45. -/
def berCode (corrected received : Nat) : Nat :=
  if corrected = 0 then 0
  else ((List.range 255).filter (fun i => received ^ 16 * 10 ^ (i + 1) ≤ corrected ^ 16 * 10 ^ 192)).length

/-- A lane's report of 100 ms (R418), and the prune of R461. DEDUCED: log entry 45. -/
def Eng.laneReport (e : Eng) (n corrected received eye : Nat) : Eng :=
  if !e.laneUsed n then e
  else
    let ber := berCode corrected received
    let l := e.laneHealth n
    let high := if e.rd Reg.GEN_PRUNE_CTL_LANE_BER ≤ ber then l.high + 1 else 0
    let l' : LaneHealth := { ber := ber, eye := min 500 eye, corr := min (2 ^ 32 - 1) (l.corr + corrected), high := high }
    let e := e.setHealth (fun h => { h with lanes := put h.lanes n l', fec := h.fec + corrected })
    let e := e.unitErr (128 + n) corrected
    if e.on Reg.GEN_PRUNE_CTL_AUTO_LANE && 10 ≤ high then
      (e.setHealth (fun h => { h with lanes := put h.lanes n { l' with high := 0 } })).pruneLane n
    else e

/-- The lanes that enter indicators, as they last reported. -/
def Eng.usedReports (e : Eng) : List LaneHealth :=
  (e.health.lanes.filter (fun l => e.laneUsed l.1)).map (·.2)

/-- The last reading of a quadrant, and the hottest (R416). -/
def Eng.quadTemp (e : Eng) (q : Nat) : Nat := bits (e.rd Reg.HLT_TEMP_T3_T0) (8 * q + 7) (8 * q)
def Eng.hottest (e : Eng) : Nat := ((List.range 4).map e.quadTemp).foldl max 0

/-! ### End of life (R423 to R425) -/

/-- Units of a kind, Y_LIM and RATED (R423). -/
def kindUnits (kind : Nat) : Nat := if kind = 0 then 8 else if kind = 1 then 64 else if kind = 2 then 112 else 0
def kindLimit (kind : Nat) : Nat := if kind = 0 then 20 else if kind = 1 then 24 else 12
def kindRated (kind : Nat) : Nat := if kind = 0 then 87600 else if kind = 1 then 100000 else 150000

def Wear.zero : Wear := { stress := 0, samples := [] }
def Eng.wearOf (e : Eng) (kind unit : Nat) : Wear := (look e.health.wear (128 * kind + unit)).getD Wear.zero

/-- y = log2(n + 1) in units of 1/256, rounded down (R423, DEDUCED, log entry 45). -/
def wearValue (n : Nat) : Nat := Nat.log2 ((n + 1) ^ 256)

/-- 2^(r/10) in units of 2^-20, for r from 0 to 9. DEDUCED: log entry 45. -/
def tenthPower (r : Nat) : Nat :=
  [1048576, 1123835, 1204497, 1290948, 1383604, 1482910, 1589344, 1703416, 1825676, 1956712].getD r 1048576

/-- Stress of an hour at a temperature, in units of 2^-20 h (R423). DEDUCED: log entry 45. -/
def stressAt (t : Nat) : Nat := tenthPower ((t - 85) % 10) * 2 ^ ((t - 85) / 10)

/-- Stress of the hours of a sample, by a reading of each (R423). -/
def stressOver (hours : List (List Nat)) (i : Nat) : Nat :=
  (hours.map (fun h => stressAt (max 85 (h.getD i 0)))).foldl (· + ·) 0

/-- What the least-squares fit of R424 needs, over samples at times h and values y: n, Σh, Σy, n·Σh² − (Σh)², n·Σhy − Σh·Σy
and n·Σy² − (Σy)². -/
structure Fit where
  n  : Int
  sh : Int
  sy : Int
  d  : Int
  b  : Int
  r  : Int

def fitOf (ss : List (Nat × Nat)) : Fit :=
  let hs : List (Int × Int) := ss.map (fun s => ((6 * s.1 : Nat), (s.2 : Nat)))
  let n : Int := (ss.length : Nat)
  let sum := fun (f : Int × Int → Int) => hs.foldl (fun a x => a + f x) 0
  let sh := sum (·.1)
  let sy := sum (·.2)
  { n := n, sh := sh, sy := sy, d := n * sum (fun x => x.1 * x.1) - sh * sh, b := n * sum (fun x => x.1 * x.2) - sh * sy,
    r := n * sum (fun x => x.2 * x.2) - sy * sy }

/-- The largest number of hours up to 65,535 that a test admits, where the test holds up to some number. -/
def largest (ok : Nat → Bool) : Nat :=
  (List.range 16).foldl (fun a i => let c := a + 2 ^ (15 - i); if ok c then c else a) 0

/-- Trend life T and T90 in whole hours (R424); none where there is no trend. -/
def trendLife (ylim : Nat) (ss : List (Nat × Nat)) : Option (Nat × Nat) :=
  if ss.length < 8 then none
  else
    let f := fitOf ss
    let hn : Int := ((6 * (ss.getLastD (0, 0)).1 : Nat) : Int)
    -- (Y_LIM − ŷ) · n · d, with every y in units of 1/256
    let p := (256 * (ylim : Nat) : Int) * f.n * f.d - (f.sy * f.d + f.b * (f.n * hn - f.sh))
    if f.d ≤ 0 then none
    else if p ≤ 0 then some (0, 0)
    else if f.b ≤ 0 then none
    else
      let r := f.r * f.d - f.b * f.b
      let left := fun (t : Nat) => p - (t : Nat) * f.n * f.b
      let t := largest (fun t => 0 ≤ left t)
      let t90 := largest (fun t => 0 ≤ left t && (16384 * f.n * f.n * r * ((t * t : Nat) : Int) ≤ 10000 * left t * left t * (f.n - 2)))
      some (t, t90)

/-- PRED, LOW90 and NO_TREND of a unit (R424). -/
def Eng.lifeOf (e : Eng) (kind unit : Nat) : Nat × Nat × Bool :=
  let w := e.wearOf kind unit
  let s := (kindRated kind * 2 ^ 20 - w.stress) / 2 ^ 20
  match trendLife (kindLimit kind) w.samples with
  | none => (min 65535 s, min 65535 s, true)
  | some (t, t90) => (min 65535 (min t s), min 65535 (min t90 s), false)

/-- Every unit, in the order of HLT_EOL_MIN's ties. -/
def allUnits : List (Nat × Nat) := (List.range 3).flatMap (fun k => (List.range (kindUnits k)).map (fun u => (k, u)))

/-- HLT_EOL_MIN follows the wear records. -/
def Eng.eolMin (e : Eng) : Eng :=
  let best := allUnits.foldl (fun (b : Nat × Nat × Nat) x =>
    let l := (e.lifeOf x.1 x.2).2.1
    if l < b.1 then (l, x.1, x.2) else b) (65536, 0, 0)
  ((e.wr Reg.HLT_EOL_MIN_LOW90 best.1).wr Reg.HLT_EOL_MIN_KIND best.2.1).wr Reg.HLT_EOL_MIN_UNIT best.2.2

/-- One wear sample of a unit (R423). DEDUCED: log entry 45. -/
def Eng.sampleUnit (e : Eng) (kind unit n stress : Nat) : Eng :=
  let w := e.wearOf kind unit
  let ss := w.samples ++ [(e.health.wearNo, wearValue n)]
  let w' : Wear := { stress := w.stress + stress, samples := ss.drop (ss.length - 64) }
  e.setHealth (fun h => { h with wear := put h.wear (128 * kind + unit) w' })

/-- WEAR_SAMPLE: six hours have passed, with the temperatures of each: eight stacks, then four quadrants, in °C; the last are those
that stand (R419, R423). DEDUCED: log entry 45. -/
def Eng.wearSample (e : Eng) (hours : List (List Nat)) : Eng :=
  let temps := hours.getLastD []
  let q := fun (i : Nat) => min 150 (temps.getD (8 + i) 0)
  let e := e.wr Reg.HLT_TEMP_T3_T0 (q 0 + 256 * q 1 + 65536 * q 2 + 16777216 * q 3)
  let e := e.wr Reg.HLT_TEMP_MAX (max (e.rd Reg.HLT_TEMP_MAX) e.hottest)
  let err := fun (e : Eng) (k : Nat) => (look e.health.errs k).getD 0
  let e := e.each (List.range 8) (fun s e => e.sampleUnit 0 s (err e s) (stressOver hours s))
  let e := e.each (List.range 64) (fun l e =>
    e.sampleUnit 1 l (err e (128 + l) / 2 ^ 20) ((look e.health.full l).getD 0 * 2 ^ 20 / 60))
  let e := e.each (List.range 112) (fun b e => e.sampleUnit 2 b (err e (256 + b)) (stressOver hours (8 + b / 28)))
  (e.setHealth (fun h => { h with errs := [], full := [], wearNo := h.wearNo + 1 })).eolMin.saveWear

/-! ### The risk estimate (R420 to R422) -/

/-- The ten indicators as they stand, saturated (R416). -/
def Eng.indicators (e : Eng) : List Nat :=
  let bs := e.health.buckets
  let used := e.usedReports
  let ber := (used.map (·.ber)).foldl max 0
  let eye := match used with | [] => 100 | _ => (used.map (·.eye)).foldl min 500
  let life := (allUnits.filter (fun x => (e.lifeOf x.1 x.2).2.1 < 720)).length
  ([hourRate bs (·.bark), hourRate bs (·.hw), e.health.fec / 2 ^ 20, ber - 96, 100 - eye, e.hottest - 95, hourRate bs (·.droop),
    hourRate bs (·.sram), (bs.map (·.resets)).foldl (· + ·) 0, life]).map (min 65535)

/-- The ten weights in the order of the indicators. -/
def Eng.weights (e : Eng) : List Nat :=
  [e.rd Reg.HLT_RISK_W0_W_BARK, e.rd Reg.HLT_RISK_W0_W_HW, e.rd Reg.HLT_RISK_W0_W_FEC, e.rd Reg.HLT_RISK_W0_W_BER,
   e.rd Reg.HLT_RISK_W1_W_EYE, e.rd Reg.HLT_RISK_W1_W_TEMP, e.rd Reg.HLT_RISK_W1_W_DROOP, e.rd Reg.HLT_RISK_W1_W_SRAM,
   e.rd Reg.HLT_RISK_W2_W_RESET, e.rd Reg.HLT_RISK_W2_W_LIFE]

/-- The risk of R420. -/
def riskOf (base : Nat) (ws xs : List Nat) : Nat :=
  min 65535 (base + (List.zipWith (· * ·) ws xs).foldl (· + ·) 0 / 4096)

/-- A thickening row that this member has offered is hosted for it: its host has announced the row (R264, R265, R422).
DEDUCED: log entry 46. -/
def Eng.hostedForMe (e : Eng) : Bool :=
  e.health.offers.any (fun o => e.thickDests.any (fun t => t.region == o.1 && t.row == o.2 && t.host == e.thickHostFor o.2 e.pos))

/-- The thickening rows of the table of R422: offers, and the release of the rows hosted for this member. DEDUCED: log entry 46. -/
def Eng.thickRule (e : Eng) (risk : Nat) : Eng :=
  let upper := e.rd Reg.HLT_RISK_THR_UPPER
  let lower := e.rd Reg.HLT_RISK_THR_LOWER
  let e := if risk < lower then e.setHealth (fun h => { h with offered := false }) else e
  let up := if upper ≤ risk && !e.health.offered then e.health.upper + 1 else 0
  let dn := if risk < lower && e.hostedForMe then e.health.lower + 1 else 0
  let e := e.setHealth (fun h => { h with upper := up, lower := if 3 ≤ dn then 0 else dn })
  let e := if 3 ≤ up then
      if e.on Reg.HLT_RISK_THR_THICK_EN then (e.setHealth (fun h => { h with offered := true, upper := 0 })).offerStripes
      else e.advise 4 0 risk Reg.HLT_ADVICE_THICK .THICK_ADVICE
    else e
  if 3 ≤ dn then e.withdrawOffers else e

/-- The evacuation row of the table of R422. DEDUCED: log entry 46. -/
def Eng.evacRule (e : Eng) (risk : Nat) : Eng :=
  let idle := e.evacPhase == 0 || 4 ≤ e.evacPhase
  let n := if e.rd Reg.HLT_RISK_THR_HARD ≤ risk && idle then e.health.hard + 1 else 0
  let e := e.setHealth (fun h => { h with hard := n })
  if 3 ≤ n then
    match (if e.on Reg.RBD_EVAC_CTL_AUTO then e.standbySpare else none) with
    | some spare => (e.setHealth (fun h => { h with hard := 0 })).startEvac none spare
    | none => e.advise 4 0 risk Reg.HLT_ADVICE_EVAC .EVAC_ADVICE
  else e

/-- RISK_EVALUATION: once per second (R420 to R422, R344). -/
def Eng.riskEvaluation (e : Eng) : Eng :=
  let x := e.indicators
  let risk := riskOf (e.rd Reg.HLT_RISK_W2_BASE) e.weights x
  let e := e.setHealth (fun h => { h with x := x, fec := 0 })
  let e := (e.wr Reg.HLT_RISK_RISK risk).wr Reg.HLT_RISK_PEAK (max (e.rd Reg.HLT_RISK_PEAK) risk)
  if e.locked && e.serving && !e.boot.inReset then ((e.thickRule risk).evacRule risk).dueCheck else e

/-! ### Adaptive loops (R426 to R432) -/

/-- The value of a loop's wish within its bounds (R426, R427). -/
def clampTo (lo hi v : Nat) : Nat := min hi (max lo v)

/-- Age in µs of the oldest request of classes 2 to 6 that waits at a memory-side port; what waits and is in no queue of the model
comes with the row (R319, R429). DESIGN CHOICE: log entry 91. -/
def Eng.oldestAge (e : Eng) (other : Nat) : Nat :=
  ((e.xfers.filter (fun x => !x.out && 2 ≤ x.cls && x.cls ≤ 6)).map (fun x => (e.now - x.since) / 1000)).foldl max other

/-- Every port has spent less than half its budget in its last 16 windows (R429). -/
def Eng.shareIdle (e : Eng) : Bool :=
  (List.range 8).all (fun p =>
    let ws := (look e.health.windows p).getD []
    2 * (ws.map (·.1)).foldl (· + ·) 0 < (ws.map (·.2)).foldl (· + ·) 0)

/-- SHARE_LOOP_DECISION (R429). -/
def Eng.shareDecision (e : Eng) (other : Nat) : Eng :=
  let age := e.oldestAge other
  let idle := e.shareIdle
  let now := e.rd Reg.MEM_SHARE_NOW
  let hi := 10 * e.rd Reg.HLT_SHARE_LOOP_WAIT_HI
  let step := e.rd Reg.HLT_SHARE_LOOP_STEP
  let lo := e.rd Reg.HLT_SHARE_LOOP_FLOOR
  let up := e.rd Reg.HLT_SHARE_LOOP_CEIL
  let wish := if hi < age then now + step else if 4 * age < hi && idle then now - step else now
  let e := if e.on Reg.HLT_SHARE_LOOP_EN then e.wr Reg.MEM_SHARE_NOW (clampTo lo up wish) else e
  if up < wish then e.advise 1 0 wish Reg.HLT_ADVICE_SHARE .SHARE_ADVICE else e

/-- LINK_LOOP_DECISION of a port (R430). -/
def Eng.linkDecision (e : Eng) (p : Nat) : Eng :=
  let total := e.rd (Reg.GP_WAKES_COUNT p)
  let w := total - (look e.health.wakes p).getD 0
  let e := e.setHealth (fun h => { h with wakes := put h.wakes p total })
  let idle := e.rd (Reg.GP_PWR_IDLE p)
  let hi := e.rd Reg.HLT_LINK_LOOP_WAKE_HI
  let lo := e.rd Reg.HLT_LINK_LOOP_FLOOR
  let up := e.rd Reg.HLT_LINK_LOOP_CEIL
  let wish := if hi < w then 2 * idle else if 4 * w < hi then max 1 (idle / 2) else idle
  let e := if e.on Reg.HLT_LINK_LOOP_EN then e.wr (Reg.GP_PWR_IDLE p) (clampTo lo up wish) else e
  if up < wish then e.advise 2 p wish Reg.HLT_ADVICE_LINK .LINK_ADVICE else e

/-- The interval of the seal loop for a job risk, in units of 1,024 count increments (R431). -/
def Eng.sealInterval (e : Eng) (r : Nat) : Nat :=
  let lower := e.rd Reg.HLT_RISK_THR_LOWER
  let upper := e.rd Reg.HLT_RISK_THR_UPPER
  let c := e.rd Reg.HLT_SEAL_LOOP_CEIL
  let f := e.rd Reg.HLT_SEAL_LOOP_FLOOR
  if r ≤ lower then c else if upper ≤ r then f else c - (c - f) * (r - lower) / (upper - lower)

/-- The seal-interval loop decides at a boundary selected for a seal, with count stamp c (R431). The wish that lies below FLOOR
has no value of its own: the advice carries FLOOR − 1 (DEDUCED, log entry 46). -/
def Eng.sealDecision (e : Eng) (c : Nat) : Eng :=
  let r := e.health.jobRisk
  let e := if e.on Reg.HLT_SEAL_LOOP_EN then
      ((e.wr Reg.GRV_SEAL_AT_COUNT (c + 1024 * e.sealInterval r)).flag Reg.GRV_SEAL_CTL_SCHED_ARM true).setRings
        (fun g => { g with lateRaised := false })
    else e
  if e.rd Reg.HLT_RISK_THR_HARD ≤ r then
    e.advise 3 0 (e.rd Reg.HLT_SEAL_LOOP_FLOOR - 1) Reg.HLT_ADVICE_SEAL .SEAL_ADVICE
  else e

/-- The heat-decay loop decides after a sweep (R432). -/
def Eng.heatDecision (e : Eng) : Eng :=
  let h := if e.rd Reg.MEM_HEAT_CTL_HOT = 0 then e.memSize / leafBytes
    else (e.ctxs.filter (fun c => e.rd Reg.MEM_HEAT_CTL_HOT ≤ c.2.heat)).length
  let t := e.rd Reg.HLT_HEAT_LOOP_TARGET
  let i := e.rd Reg.MEM_HEAT_CTL_INTERVAL
  let lo := e.rd Reg.HLT_HEAT_LOOP_FLOOR
  let up := e.rd Reg.HLT_HEAT_LOOP_CEIL
  let wish := if t * 5 < h * 4 then i * 3 / 4 else if h * 4 < t * 3 then max (i * 5 / 4) (i + 1) else i
  let e := if e.on Reg.HLT_HEAT_LOOP_EN then e.wr Reg.MEM_HEAT_CTL_INTERVAL (clampTo lo up wish) else e
  if wish < lo || up < wish then e.advise 6 0 wish Reg.HLT_ADVICE_HEAT .HEAT_ADVICE else e

/-- The pending job risk becomes current at a declared boundary (R431). -/
def Eng.jobRiskAt (e : Eng) (b : Bnd) : Eng :=
  if e.on Reg.HLT_JOB_RISK_PENDING && e.rd Reg.HLT_JOB_RISK_SEQ == seqOf b.kind &&
      atOrBefore (e.rd Reg.HLT_JOB_RISK_STEP) b.step then
    (e.setHealth (fun h => { h with jobRisk := e.rd Reg.HLT_JOB_RISK_RISK })).flag Reg.HLT_JOB_RISK_PENDING false
  else e

def jobRiskFields : List Fld :=
  [Reg.HLT_JOB_RISK_STEP, Reg.HLT_JOB_RISK_LATE, Reg.HLT_JOB_RISK_PENDING, Reg.HLT_JOB_RISK_SEQ, Reg.HLT_JOB_RISK_RISK]

/-- A write of HLT_JOB_RISK (R431). -/
def Eng.jobRiskWrite (e : Eng) (v : Nat) : Eng :=
  let e := if Reg.HLT_JOB_RISK_LATE.of v = 1 then e.flag Reg.HLT_JOB_RISK_LATE false else e
  let seq := Reg.HLT_JOB_RISK_SEQ.of v
  let seen := if seq = 0 then e.rings.seenStep else e.rings.seenTstep
  let last := if seq = 0 then e.rd Reg.GRV_BND_LAST_LAST_STEP else e.rd Reg.GRV_BND_LAST_LAST_TSTEP
  if seen && !precedes last (Reg.HLT_JOB_RISK_STEP.of v) then e.flag Reg.HLT_JOB_RISK_LATE true
  else
    (((e.wr Reg.HLT_JOB_RISK_STEP (Reg.HLT_JOB_RISK_STEP.of v)).wr Reg.HLT_JOB_RISK_SEQ seq).wr Reg.HLT_JOB_RISK_RISK
      (Reg.HLT_JOB_RISK_RISK.of v)).flag Reg.HLT_JOB_RISK_PENDING true

/-! ### Commands -/

/-- Health works on the clock of the always-on domain from the end of step 1 of the power-on sequence. -/
def Eng.alive (e : Eng) : Bool := e.pins.pwrGood && 1 ≤ e.rd Reg.GEN_BOOT_STAGE

/-- RISK_EVALUATION (R421). -/
def execRiskEvaluation (s : State) : Host.Outcome State Fault Refusal :=
  .next (s.run (fun e => if e.alive then e.riskEvaluation.settle else e))

/-- RATE_BUCKET_TICK (R417). DEDUCED: log entry 88. -/
def execRateBucketTick (s : State) : Host.Outcome State Fault Refusal :=
  .next (s.run (fun e => if e.alive then e.bucketTick else e))

/-- LANE_REPORT (R418, R461). DEDUCED: log entry 88. -/
def execLaneReport (lane : Fin 64) (corrected received : Nat) (eye : BitVec 16) (s : State) : Host.Outcome State Fault Refusal :=
  .next (s.run (fun e => if e.alive then e.laneReport lane.val corrected received eye.toNat else e))

/-- WEAR_SAMPLE (R423). DEDUCED: log entry 88. -/
def execWearSample (hours : List (List Nat)) (s : State) : Host.Outcome State Fault Refusal :=
  .next (s.run (fun e => if e.alive then e.wearSample hours else e))

/-- DROOP_WARN: droop_warn_l falls (R419). -/
def execDroopWarn (s : State) : Host.Outcome State Fault Refusal :=
  .next (s.run (fun e =>
    if e.pins.droopWarnL && e.alive then
      (({ e with pins := { e.pins with droopWarnL := false } } : Eng).bump Reg.HLT_TEMP_DROOP).minute (fun b => { b with droop := b.droop + 1 })
    else { e with pins := { e.pins with droopWarnL := false } }))

/-- DROOP_RECOVER: droop_warn_l has risen, and the half rate has ended after this many µs (R419). -/
def execDroopRecover (micros : Nat) (s : State) : Host.Outcome State Fault Refusal :=
  .next (s.run (fun e =>
    if !e.pins.droopWarnL && e.alive then
      ({ e with pins := { e.pins with droopWarnL := true } } : Eng).bumpBy Reg.HLT_THROTTLE_MICROS micros
    else { e with pins := { e.pins with droopWarnL := true } }))

/-- SHARE_LOOP_DECISION (R429). -/
def execShareLoopDecision (ageUs : Nat) (waits : Bool) (s : State) : Host.Outcome State Fault Refusal :=
  .next (s.run (fun e => if e.on Reg.GEN_BOOT_READY && !e.boot.inReset then e.shareDecision (if waits then ageUs else 0) else e))

/-- LINK_LOOP_DECISION (R430). -/
def execLinkLoopDecision (p : Fin 4) (s : State) : Host.Outcome State Fault Refusal :=
  .next (s.run (fun e => if e.on Reg.GEN_BOOT_READY then e.linkDecision p.val else e))

/-- JOB_RISK_WRITE (R431). -/
def execJobRiskWrite (v : DWord) (s : State) : Host.Outcome State Fault Refusal :=
  .next (s.run (fun e => e.write .alwaysOn jobRiskFields v.toNat (fun e => e.jobRiskWrite v.toNat)))

end Sys2Proof.Machine
end

