-- ==== Sys2Proof/Machine/MemSide.lean ====
section
/-!
DEFINITION. Sys2Proof/Machine/MemSide.lean: the commands of the memory controllers, the tier manager and the storage path: heat
(R332, R333), holds (R260, R534), transfers (R317), the share (R318 to R320), bring-up of the memory (R25, R314, R336, R434,
R435), the SRAM patrol (R338) and the ends of tier operations (R161, R230).
-/
namespace Sys2Proof.Machine

/-- The engine's datapath works: it is in service and not between a reset and its resumption. -/
def Eng.working (e : Eng) : Bool := !e.oos && !e.boot.inReset

/-! ### Heat (R332, R333) -/

/-- One sampled access (R332). -/
def Eng.heatSample (e : Eng) (leaf : Nat) : Eng := e.updCtx leaf (fun c => { c with heat := min 255 (c.heat + 1) })

/-- The sweep of all contexts (R332). -/
def Eng.decay (e : Eng) : Eng :=
  let s := e.rd Reg.MEM_HEAT_CTL_SHIFT
  { e with ctxs := e.ctxs.map (fun c => (c.1, { c.2 with heat := c.2.heat - c.2.heat / 2 ^ s })) }

/-- HOT notices: up to 256, hottest first, ties to the lowest leaf (R333). -/
def Eng.hotNotices (e : Eng) : Eng :=
  let cold := if e.rd Reg.MEM_HEAT_CTL_HOT = 0 then
      ((List.range (min (e.memSize / leafBytes) (256 + e.ctxs.length))).filter (fun l => (look e.ctxs l).isNone)).map (fun l => (l, e.ctx l))
    else []
  let hot := (e.ctxs.filter (fun c => e.rd Reg.MEM_HEAT_CTL_HOT ≤ c.2.heat) ++ cold).mergeSort (fun a b =>
    decide (b.2.heat < a.2.heat) || (a.2.heat == b.2.heat && decide (a.1 ≤ b.1)))
  e.each (hot.take 256) (fun c e => ({ e with tierNo := e.tierNo + 1 } : Eng).emit (.tier e.tierNo (.hot c.1 c.2.heat)))

/-- HEAT_SAMPLE (R332). -/
def execHeatSample (leaf : BitVec 20) (s : State) : Host.Outcome State Fault Refusal :=
  .next (s.run (fun e => if e.working then e.heatSample leaf.toNat else e))

/-- HEAT_DECAY_SWEEP (R332, R333, R432). -/
def execHeatDecaySweep (s : State) : Host.Outcome State Fault Refusal :=
  .next (s.run (fun e => if e.working then e.decay.hotNotices.heatDecision else e))

/-- HEAT_QUERY (R333). -/
def execHeatQuery (leaf : BitVec 20) (s : State) : Host.Outcome State Fault Refusal :=
  .next (s.run (fun e => e.emit (.answer (e.ctx leaf.toNat).heat)))

/-! ### Holds (R260, R346, R377, R534) -/

/-- HOLD_QUERY: an access that is held makes its leaf urgent. -/
def Eng.holdQuery (e : Eng) (port id leaf : Nat) (wr : Bool) : Eng :=
  if !e.working || !e.holds leaf wr then e.emit (.hold port id false)
  else
    let h : HeldAccess := { port := port, id := id, leaf := leaf, wr := wr }
    let e : Eng := { e.emit (.hold port id true) with held := e.held ++ [h] }
    ((e.urgent leaf).makeUrgent leaf).settle

/-- HOLD_QUERY (R534). -/
def execHoldQuery (port : Fin 8) (id : Byte) (leaf : BitVec 20) (wr : Bool) (s : State) : Host.Outcome State Fault Refusal :=
  .next (s.run (fun e => e.holdQuery port.val id.toNat leaf.toNat wr))

/-! ### Transfers (R317) -/

/-- A transfer of the engine's own has been answered. -/
def Eng.xfer? (e : Eng) (tag : Nat) : Option Xfer := e.xfers.find? (fun x => x.tag == tag)
/-- DESIGN CHOICE: log entry 47. -/
def Eng.xferEnds (e : Eng) (x : Xfer) : Eng := { e with xfers := e.xfers.erase x }

/-- A transfer reads. -/
def Xfer.isRead (x : Xfer) : Bool := match x.kind with | .applyWrite => false | .cwrite => false | _ => true

/-- The answer to a READ: with a transfer's last, what it was for goes on (R80, R317, R345, R377). -/
def Eng.readDone (e : Eng) (tag : Nat) (bads : List LineRead) : Eng :=
  match e.xfer? tag with
  | none => e
  | some x =>
    if x.off + x.size < x.len then (if x.isRead then e.nextPiece x bads else e)
    else
      let bads := x.bads ++ bads
      match x.kind with
      | .mirrorRead region copy => ((e.xferEnds x).mirrorReadDone region copy x bads).settle
      | .anchorRead leaf => ((e.xferEnds x).anchorReadDone leaf bads).settle
      | .hashRead cmd leaf => ((e.xferEnds x).hashReadDone cmd leaf bads).settle
      | .lineRead => e.xferEnds x
      | .applyWrite => e
      | .cwrite => e

/-- The answer to a write: a parity sector of an apply moves the cursor (R179); a conditional write stores its line unless it
was discarded (R317). -/
def Eng.writeDone (e : Eng) (tag : Nat) (discarded : Bool) : Eng :=
  match e.xfer? tag with
  | none => e
  | some x =>
    match x.kind with
    | .applyWrite => if x.off + x.size < x.len then e.nextPiece x [] else ((e.xferEnds x).applyWritten x).settle
    | .cwrite =>
      let e := e.xferEnds x
      if discarded then e else (e.memWrite x.addr x.data).freshLines x.addr x.data.length
    | _ => e

/-- MEMORY_READ_COMPLETE (R317): the tag names the transfer; the port is its address's own (DESIGN CHOICE, log entry 47). -/
def execMemoryReadComplete (_ : Fin 8) (tag : BitVec 10) (bad : List LineRead) (s : State) : Host.Outcome State Fault Refusal :=
  .next (s.run (fun e => if e.working then e.readDone tag.toNat bad else e))

/-- MEMORY_WRITE_RESPONSE (R317, R179). DESIGN CHOICE: log entry 47. -/
def execMemoryWriteResponse (_ : Fin 8) (tag : BitVec 10) (discarded : Bool) (s : State) : Host.Outcome State Fault Refusal :=
  .next (s.run (fun e => if e.working then e.writeDone tag.toNat discarded else e))

/-- READ_SLOW: a read of the engine's is not complete within 10 µs (R317). -/
def execReadSlow (_ : Fin 8) (tag : BitVec 10) (s : State) : Host.Outcome State Fault Refusal :=
  .next (s.run (fun e =>
    let isRead : Bool := match e.xfer? tag.toNat with
      | some x => x.isRead
      | none => false
    if e.working && isRead then e.bump Reg.MEM_SHARE_STAT_SLOW else e))

/-! ### The share (R318 to R320) -/

/-- One port's window: bytes of budgeted and of exempt work (R318, R320). DEDUCED: log entry 68. -/
def Eng.portWindow (e : Eng) (p used exempt : Nat) : Eng :=
  let b := e.portBudget
  let spent := (look e.health.debt p).getD 0 + used + exempt
  let e := if b ≤ spent then e.bump Reg.MEM_SHARE_STAT_THROTTLED else e
  let debt := spent - b
  let e := if 16 * b < debt then e.bump Reg.MEM_SHARE_STAT_EXEMPT else e
  e.setHealth (fun h => { h with
    debt := put h.debt p (min debt (16 * b)),
    windows := put h.windows p (((used + exempt, b) :: (look h.windows p).getD []).take 16) })

/-- The class that a port serves first in its next window: one of classes 2 to 7 whose oldest request has waited 1 ms, the one
that has waited longest where there are several (R319, DESIGN CHOICE, log entry 91). -/
def Eng.agedClass (e : Eng) (p : Nat) : Option Nat :=
  (leastBy (fun (x : Xfer) => x.since) (e.xfers.filter (fun x =>
    !x.out && portOf x.pos == p && x.cls != 1 && x.since + 1000000 ≤ e.now))).map (·.cls)

/-- A port's next window begins (R318, R319). -/
def Eng.newWindow (e : Eng) (p : Nat) : Eng :=
  let c := e.agedClass p
  let e := e.setHealth (fun h => { h with spent := cut h.spent p, first := match c with | some k => put h.first p k | none => cut h.first p })
  Eng.servePort 1024 p e

/-- SHARE_WINDOW (R318, R320): bytes moved at each port in the window that has ended.
DEDUCED: log entry 68. DEDUCED: log entry 88. -/
def execShareWindow (used : List Nat) (exempt : List Nat) (s : State) : Host.Outcome State Fault Refusal :=
  .next (s.run (fun e =>
    if e.working then e.each (List.range 8) (fun p e => (e.portWindow p (used.getD p 0) (exempt.getD p 0)).newWindow p) else e))

/-! ### Bring-up of the memory (R25, R314, R336, R434, R435) -/

/-- The three reserved areas follow the capacity and JOURNAL_PCT, the bitmap area as the whole MiB that hold it (R314).
DESIGN CHOICE: log entry 69. -/
def Eng.layout (e : Eng) : Eng :=
  let c := 8 * e.rd Reg.GEN_FLOOR_SUM_STACK_GIB * 1024
  let hw := c - c / 64
  let bm := hw - (c * 32 + 1048575) / 1048576
  let j := bm - e.rd Reg.MEM_LAYOUT_CTL_JOURNAL_PCT * c / 100
  (((e.wr Reg.MEM_HW_BASE_BASE hw).wr Reg.MEM_BITMAP_BASE_BASE bm).wr Reg.MEM_JOURNAL_BASE_BASE j).wr Reg.MEM_USABLE_TOP_TOP j

/-- The power-on sequence ends at its step, with a cause (R435). -/
def Eng.bootFails (e : Eng) (why : Nat) : Eng :=
  (e.wr Reg.GEN_BOOT_FAIL why).wr Reg.GEN_BOOT_MS (min 65535 (e.now / 1000000))

/-- The fill begins on the stacks that are ready (R336). DEDUCED: log entry 55. -/
def Eng.startFill (e : Eng) : Eng :=
  ({ e with boot := { e.boot with filling := true } } : Eng).wr Reg.GEN_BOOT_STAGE 6

/-- The capacities reported so far are equal and within R25's range. -/
def Boot.geomOk (b : Boot) : Bool :=
  b.stackCaps.all (fun c => c.2 == (b.stackCaps.map (·.2)).headD 0 && 16 ≤ c.2 && c.2 ≤ 128)

/-- Every stack has reported: R25 is applied. Capacities that R25 refuses set MEM_GEOM_BAD, and the engine completes its
power-on checks and does not report ready. -/
def Eng.stacksIn (e : Eng) : Eng :=
  if e.boot.geomOk then
    ((e.wr Reg.GEN_FLOOR_SUM_STACK_GIB ((e.boot.stackCaps.map (·.2)).headD 0)).layout).startFill
  else ((e.flag Reg.GEN_FLOOR_SUM_MEM_GEOM_BAD true).wr Reg.GEN_BOOT_STAGE 5).bootFails 5

/-- STACK_READY: a stack reports ready, with its capacity in GiB (R25, R434). -/
def execStackReady (stack : Fin 8) (gib : Byte) (s : State) : Host.Outcome State Fault Refusal :=
  .next (s.run (fun e =>
    if !e.pins.pwrGood || e.boot.filling || e.rd Reg.GEN_BOOT_FAIL != 0 || (look e.boot.stackCaps stack.val).isSome then e
    else
      let e : Eng := { e with boot := { e.boot with stackCaps := put e.boot.stackCaps stack.val gib.toNat } }
      if e.boot.stackCaps.length = 8 && e.rd Reg.GEN_BOOT_STAGE = 5 then e.stacksIn else e))

/-- MEM_READY_TIMEOUT: the bound of step 5 has passed with a stack missing (R435). R25 is applied to the stacks that have
reported. -/
def execMemReadyTimeout (s : State) : Host.Outcome State Fault Refusal :=
  .next (s.run (fun e =>
    if e.rd Reg.GEN_BOOT_STAGE = 5 && e.rd Reg.GEN_BOOT_FAIL = 0 && !e.boot.filling then
      let missing := bitsWhere 8 (fun i => (look e.boot.stackCaps i).isNone)
      let e : Eng := (e.wr Reg.MEM_FILL_STACKS missing).bootFails 6
      let e := if e.boot.geomOk then e else e.flag Reg.GEN_FLOOR_SUM_MEM_GEOM_BAD true
      { e with boot := { e.boot with filling := true } }
    else e))

/-- FILL_COMPLETE: the fill has ended, with a bit for each stack that failed it (R336). Every stack ready and filled releases
compute and starts the ports' training. -/
def execFillComplete (failed : Byte) (s : State) : Host.Outcome State Fault Refusal :=
  .next (s.run (fun e =>
    if !e.boot.filling || e.on Reg.MEM_FILL_DONE then e
    else
      let e : Eng := { e with boot := { e.boot with filling := false }, mem := [] }
      let e := e.flag Reg.MEM_FILL_DONE true
      if failed != 0 then
        let e := (e.flag Reg.MEM_FILL_FAIL true).wr Reg.MEM_FILL_STACKS (e.rd Reg.MEM_FILL_STACKS ||| failed.toNat)
        if e.rd Reg.GEN_BOOT_FAIL = 0 then e.bootFails 7 else e
      else if e.rd Reg.GEN_BOOT_FAIL != 0 then e
      else
        let e : Eng := { e with pins := { e.pins with compHold := false } }
        (e.wr Reg.GEN_BOOT_STAGE 7).trainAll))

/-! ### The SRAM patrol (R338) -/

/-- An accumulation slot is lost: a partial that a chain member holds is gone, and its chunk will be asked for again; a slot of
a collector asks again at once (R242). -/
def Eng.slotLost (e : Eng) (n : Nat) : Eng :=
  let parts := e.chains.flatMap (fun c => c.parts.map (fun p => (c, p.1)))
  match parts[n]? with
  | some (c, key) => e.setJob { c with parts := cut c.parts key }
  | none => match (e.recons.filter (·.asked))[n - parts.length]? with
    | some c => e.chunkTimeout c.id
    | none => e

/-- A completed delta that waits in staging is lost, found by the sequence number it would have taken: it goes to no holder
(R224, R338). -/
def Eng.stagedLost (e : Eng) (region row stamp seq : Nat) : Eng :=
  match e.rgn? region with
  | none => e
  | some r =>
    let waiting := e.upd.runs.flatMap (fun u =>
      ((u.ready.filter (fun d => d.1.1 == region && d.1.2.1 == row && !allZero d.2)).mergeSort
        (fun a b => a.1.2.2 ≤ b.1.2.2)).map (fun d => (u.handle, u.step, d)))
    match waiting[seq - (e.ctx (r.leaf row)).seq - 1]? with
    | some (h, t, d) =>
      if (e.ctx (r.leaf row)).seq < seq && t == stamp then
        (e.setUpd (fun x => { x with runs := x.runs.map (fun u => if u.handle == h then { u with ready := u.ready.erase d } else u) })
          ).stripeLost r row 0
      else e
    | none => e

/-- A descriptor that waits at the head of its queue is lost: the command completes with INTERNAL, at once where its mailbox is
open, else when that is empty (R338, R504, R507). -/
def Eng.fetchedLost (e : Eng) (q : Nat) (f : Fetched) : Eng :=
  if f.opened then ((e.openCmd q f).complete e.q.nextId stInternal []).fetchNext q
  else { e with q := { e.q with fetched := put e.q.fetched q { f with lost := true } } }

/-- What an uncorrectable word costs, by what lies there (R338). -/
def Eng.sramLoss (e : Eng) : SramFinding → Eng
  | .corrected => e
  | .context _ => e.leaveService 2
  | .journalIndex => e.leaveService 2
  | .program _ => e.leaveService 2
  | .applyCursor =>
    match e.rings.commits with
    | [] => e
    | (_, n, _) :: _ =>
      let js := e.rings.applies.filter (fun j => j.ring == n)
      let rows := (js.map (fun j => (j.region, j.row, j.thick))).eraseDups
      let e := e.each rows (fun l e => match e.rgn? l.1 with
        | some r => if l.2.2 then e else e.setLeafState (r.leaf l.2.1) 4
        | none => e)
      let e := e.each (e.hosted.filter (fun h => rows.contains (h.region, h.row, true))) Eng.releaseRow
      let e : Eng := { e with xfers := e.xfers.filter (fun x => x.kind != .applyWrite) }
      (e.setRings (fun g => { g with applies := g.applies.filter (fun j => j.ring != n),
                                     stages := g.stages.filter (fun s => s.ring != n) })).issueApply 4096
  | .capture region row sector ring =>
    match e.rgn? region.toNat with
    | none => e
    | some r =>
      let is := fun (c : Capture) => c.region == region.toNat && c.row == row.toNat && c.sector == sector.toNat && c.ring == ring.toNat
      if e.caps.any is then ({ e with caps := e.caps.filter (fun c => !is c) } : Eng).stripeLost r row.toNat ring.toNat else e
  | .delta k =>
    match e.sent.find? (fun s => s.typ == (if k.ring then tRingDelta else tStreamDelta) && s.region == k.region.toNat &&
        s.row == k.row.toNat && s.stamp == k.stamp.toNat && s.seq == k.seq.toNat) with
    | some s => e.deltaLost s
    | none => if k.ring then e else e.stagedLost k.region.toNat k.row.toNat k.stamp.toNat k.seq.toNat
  | .accSlot slot => e.slotLost slot
  | .hwCache sector =>
    if e.hwc.any (fun x => x.1 == sector.toNat) then e.hwRecompute sector.toNat else e
  | .bitmapLine i =>
    if e.bitmapsOn && (look e.evac.dirty i).isSome then e.setBitmapLine i (2 ^ 512 - 1) else e
  | .command b =>
    match e.q.opens.find? (fun c => c.mailbox == b.toNat) with
    | some c => e.endCmd c stInternal
    | none =>
      match e.q.fetched.find? (fun x => x.2.mailbox == b.toNat) with
      | some x => e.fetchedLost x.1 x.2
      | none => e
  | .ledger n => e.loseRecord n.toNat
  | .other => e

/-- SRAM_PATROL (R338). -/
def Eng.sramPatrol (e : Eng) (bank : Nat) (f : SramFinding) : Eng :=
  match f with
  | .corrected => ((e.bump Reg.MEM_SRAM_STAT_CE).unitErr (256 + bank) 1).minute (fun b => { b with sram := b.sram + 1 })
  | f => (((e.bump Reg.MEM_SRAM_STAT_UE).raise .SRAM_UE).sramLoss f).settle

/-- SRAM_PATROL (R338). -/
def execSramPatrol (bank : Fin 112) (finding : SramFinding) (s : State) : Host.Outcome State Fault Refusal :=
  .next (s.run (fun e => if e.alive && e.working then e.sramPatrol bank.val finding else e))

/-! ### The tier manager (R161, R162, R182, R230, R335) -/

/-- TIER_DONE: an operation is complete; what waited for the last of its kind goes on. DEDUCED: log entry 83. -/
def Eng.tierDone (e : Eng) (op : Nat) : Eng :=
  match e.tier.find? (fun t => t.op == op) with
  | none => e
  | some t =>
    let e : Eng := { e with tier := e.tier.erase t }
    if e.tierWaits t.why then e
    else match t.why with
      | .ringFlush => e.flushEndRing.anchorCut
      | .rollDiscard => e.rollStep
      | .evacFlush => e
      | .run _ => e

/-- TIER_DONE (R230). -/
def execTierDone (op : Nat) (s : State) : Host.Outcome State Fault Refusal :=
  .next (s.run (fun e => if e.working then (e.tierDone op).settle else e))

/-- RING_APPLY_END: the apply of the oldest committed ring has ended (R180, R251). -/
def execRingApplyEnd (s : State) : Host.Outcome State Fault Refusal :=
  .next (s.run (fun e =>
    if !e.working then e
    else match e.rings.commits with
      | [] => e
      | (_, n, _) :: _ =>
        if e.rings.applies.any (fun j => j.ring == n) then e else (e.applyEnd.commitRows n).settle))

/-! ### The storage path (R361) -/

/-- STORAGE_READ_COMPLETE: the answer to a read of a restore; none for an error (R361). -/
def execStorageReadComplete (data : Option (List Byte)) (s : State) : Host.Outcome State Fault Refusal :=
  .next (s.run (fun e => if e.working then (e.restoreRead data).settle else e))

end Sys2Proof.Machine
end

