-- ==== Sys2Proof/Machine/RegRules.lean ====
section
/-!
DEFINITION. Sys2Proof/Machine/RegRules.lean: how a software write is stored in the fields of a register (R11 to R13), the rules
that bind several fields or a value elsewhere (R124, R315, R422, R426, R479, R509), and which register an offset names
(R10, R487).
-/
namespace Sys2Proof.Machine

/-! ### Registers by offset -/

/-- The indices at which a row of the register map has a register at an offset. -/
def RegRow.at? (r : RegRow) (off : Nat) : Option (Nat × Nat) :=
  if off < r.base then none
  else
    let d := off - r.base
    let i := if r.str1 = 0 then 0 else d / r.str1
    let d' := d - i * r.str1
    let j := if r.str2 = 0 then 0 else d' / r.str2
    if i < r.cnt1 && j < r.cnt2 && d' == j * r.str2 then some (i, j) else none

/-- The register at an offset, with its indices. DEDUCED: log entry 7. -/
def regAt (off : Nat) : Option (RegRow × Nat × Nat) :=
  regTable.findSome? (fun r => (r.at? off).map (fun x => (r, x.1, x.2)))

/-- The capability list, which holds 64-bit words (R492). -/
def inCaps (off : Nat) : Bool := 0x800 ≤ off && off < 0x880

/-! ### Fields -/

/-- A value written to a field by its access code (R11). Where the start lock is set, an RWL field that the write would change
keeps its value (R12); while a start-lock write is processed, every write to one is refused (R494). -/
def Eng.putField (e : Eng) (v : Nat) (f : Fld) : Eng :=
  match f.acc with
  | .rw => e.sw f v
  | .rwl =>
    if e.rwlOpen then e.sw f v
    else if e.on Reg.GEN_START_BUSY || e.rd f != f.clamp (f.of v) then e.lockedWr else e
  | .w1c => e.wr f (bitsWhere f.width (fun i => bit (e.rd f) i && !bit (f.of v) i))
  | .ro => e
  | .wo => e

/-- A value written to the fields of a register. DEDUCED: log entry 8. -/
def Eng.putFields (e : Eng) (flds : List Fld) (v : Nat) : Eng := e.each flds (fun f e => e.putField v f)

/-! ### Rules over several fields -/

/-- LOWER, UPPER and HARD keep their order (R422). -/
def Eng.fixRiskThr (e : Eng) : Eng :=
  let up := e.rd Reg.HLT_RISK_THR_UPPER
  let e := if up ≤ e.rd Reg.HLT_RISK_THR_LOWER then e.wr Reg.HLT_RISK_THR_LOWER (up - 1) else e
  if e.rd Reg.HLT_RISK_THR_HARD < up then e.wr Reg.HLT_RISK_THR_HARD up else e

/-- A write that makes FLOOR greater than CEIL is stored with FLOOR equal to CEIL (R426). DEDUCED: log entry 8. -/
def Eng.fixBounds (e : Eng) (floor ceil : Fld) : Eng :=
  if e.rd ceil < e.rd floor then e.wr floor (e.rd ceil) else e

/-- A controlled value comes into its loop's bounds (R426). -/
def Eng.clampValue (e : Eng) (floor ceil value : Fld) : Eng := e.wr value (clampTo (e.rd floor) (e.rd ceil) (e.rd value))

/-- The bounds of a loop: its FLOOR and CEIL, and the values it controls here (R426, R428). The seal-interval loop's is a
count at which it acts and has none. DEDUCED: log entry 8. -/
def Eng.fixLoop (e old : Eng) (en floor ceil : Fld) (values : List Fld) : Eng :=
  let e := e.fixBounds floor ceil
  if e.on en || e.rd floor != old.rd floor || e.rd ceil != old.rd ceil then
    e.each values (fun f e => e.clampValue floor ceil f)
  else e

/-- IDLE of the four ports. -/
def idleFields : List Fld := (List.range 4).map (fun p => Reg.GP_PWR_IDLE p)

/-- What the bound rules of R422 and R426 make of a write that has just been stored in the register at an offset.
DEDUCED: log entry 8. -/
def Eng.fixWritten (e old : Eng) (off : Nat) : Eng :=
  if off = 0x0B0020 then e.fixRiskThr
  else if off = 0x0B0080 then
    e.fixLoop old Reg.HLT_SHARE_LOOP_EN Reg.HLT_SHARE_LOOP_FLOOR Reg.HLT_SHARE_LOOP_CEIL [Reg.MEM_SHARE_NOW]
  else if off = 0x0B0084 then
    e.fixLoop old Reg.HLT_LINK_LOOP_EN Reg.HLT_LINK_LOOP_FLOOR Reg.HLT_LINK_LOOP_CEIL idleFields
  else if off = 0x0B0088 then
    e.fixLoop old Reg.HLT_SEAL_LOOP_EN Reg.HLT_SEAL_LOOP_FLOOR Reg.HLT_SEAL_LOOP_CEIL []
  else if off = 0x0B0098 then
    e.fixLoop old Reg.HLT_HEAT_LOOP_EN Reg.HLT_HEAT_LOOP_FLOOR Reg.HLT_HEAT_LOOP_CEIL [Reg.MEM_HEAT_CTL_INTERVAL]
  else e

/-- A write of MEM_LAYOUT_CTL: JOURNAL_PCT keeps its value while any descriptor is valid, and the layout follows it
otherwise (R314, R315). -/
def Eng.layoutWrite (e : Eng) (v : Nat) : Eng :=
  let f := Reg.MEM_LAYOUT_CTL_JOURNAL_PCT
  let e := e.putField v Reg.MEM_LAYOUT_CTL_REFUSED
  if e.rwlOpen && e.rd f != f.clamp (f.of v) && !e.rgns.isEmpty then e.flag Reg.MEM_LAYOUT_CTL_REFUSED true
  else (e.putField v f).layout

/-- GRV_SPILL_CTL: SHARE reads 0, and takes no write, while EXPERT is 0, and is 0 when EXPERT is set again (R124, R509, DESIGN
CHOICE, log entry 95). -/
def Eng.spillExpert (e : Eng) (b : Bool) : Eng :=
  let e := (e.flag Reg.GRV_SPILL_CTL_EXPERT b).flag Reg.GEN_EXPERT_SPILL b
  if b then e else e.wr Reg.GRV_SPILL_CTL_SHARE 0

def Eng.spillWrite (e : Eng) (v : Nat) : Eng :=
  let e := e.spillExpert (Reg.GRV_SPILL_CTL_EXPERT.of v == 1)
  if e.on Reg.GRV_SPILL_CTL_EXPERT then e.sw Reg.GRV_SPILL_CTL_SHARE v
  else if Reg.GRV_SPILL_CTL_SHARE.of v != 0 then e.flag Reg.GEN_ERR_EXPERT_WR true
  else e

/-- The advisor's expert bit stands in two places (R509). -/
def Eng.advisorExpert (e : Eng) (b : Bool) : Eng :=
  (e.flag Reg.GRV_ADV_CTL_EXPERT b).flag Reg.GEN_EXPERT_ADVISOR b

/-- A write of INT_SRC_CFGn: SENSE 5 to 7 stores 2, TARGET of sources 4 and 193 is fixed, and the source's level is looked at
again (R479, R483). -/
def Eng.srcCfgWrite (e : Eng) (n v : Nat) : Eng :=
  let e := (e.sw (Reg.INT_SRC_CFG_GROUP n) v).sw (Reg.INT_SRC_CFG_EN n) v
  let e := if n = 4 ∨ n = 193 then e else e.sw (Reg.INT_SRC_CFG_TARGET n) v
  let s := (Reg.INT_SRC_CFG_SENSE n).of v
  (e.wr (Reg.INT_SRC_CFG_SENSE n) (if 5 ≤ s then 2 else s)).levelCheck n

end Sys2Proof.Machine
end

