-- ==== Sys2Proof/Machine/Image.lean ====
section
/-!
DEFINITION. Sys2Proof/Machine/Image.lean: the configuration image (R408, R437, R520 to R529): its checks and its load.
-/
namespace Sys2Proof.Machine

/-- A record of an image: type, OPTIONAL, body. -/
structure ImgRec where
  typ  : Nat
  opt  : Bool
  body : List Byte
  deriving DecidableEq, Repr

/-- Bytes that are all zero in a range of a string. -/
def zeroAt (b : List Byte) (off n : Nat) : Bool := allZero ((b.drop off).take n)

/-- The header meets R521, for a silicon step. DEDUCED: log entry 54. -/
def headerOk (b : List Byte) (silicon : Nat) : Bool :=
  let f := fieldAt b
  let len := f 0x10 8
  b.take 8 == ascii "SCE8CONF" && f 0x08 2 == 1 && f 0x0A 2 == 256 && f 0x20 2 == 0x5CE8 && f 0x0C 4 < 2 && f 0x24 4 == 0 &&
  zeroAt b 0x40 192 && len % 16 == 0 && 1024 ≤ len && len ≤ 16777216 && 4 ≤ f 0x1E 2 && f 0x1E 2 ≤ 64 &&
  f 0x22 2 ≤ silicon && len ≤ b.length

/-- The next `n` records of an image from a string on, and what follows them (R523); none where one breaks R523. -/
def readRecords : Nat → List Byte → Option (List ImgRec × List Byte)
  | 0, b => some ([], b)
  | n + 1, b =>
    let f := fieldAt b
    let len := f 4 4
    let padded := (len + 15) / 16 * 16
    if b.length < 16 + padded ∨ 2 ≤ f 2 2 ∨ !zeroAt b 8 8 ∨ !zeroAt b (16 + len) (padded - len) then none
    else
      (readRecords n (b.drop (16 + padded))).map (fun r =>
        ({ typ := f 0 2, opt := f 2 2 == 1, body := (b.drop 16).take len } :: r.1, r.2))

/-- Entries of `n` bytes that make up a body. -/
def entriesOf (n : Nat) (b : List Byte) : List (List Byte) :=
  (List.range (b.length / n)).map (fun i => (b.drop (n * i)).take n)

/-- The registers of a DEFAULTS record with their image fields, in ascending offset (R526). -/
def imageRegs : List (Nat × List Fld) := [
  (0x000420, [Reg.GEN_PRUNE_CTL_AUTO_CLU, Reg.GEN_PRUNE_CTL_AUTO_LANE, Reg.GEN_PRUNE_CTL_LANE_BER, Reg.GEN_PRUNE_CTL_CLU_MIN]),
  (0x020058, [Reg.TIM_GCNT_CTL_PERIOD]),
  (0x030004, [Reg.SEC_CTL_TAMPER_KILL]),
  (0x050000, [Reg.MEM_LAYOUT_CTL_JOURNAL_PCT]),
  (0x050028, [Reg.MEM_SHARE_NOMINAL, Reg.MEM_SHARE_NOW]),
  (0x050038, [Reg.MEM_HEAT_CTL_INTERVAL]),
  (0x060500, [Reg.GRV_PLANE_CTL_ALLOW, Reg.GRV_PLANE_CTL_FLOOR]),
  (0x090010, [Reg.ANC_DUE_CTL_RISK, Reg.ANC_DUE_CTL_MINUTES, Reg.ANC_DUE_CTL_STEPS]),
  (0x0B0008, [Reg.HLT_RISK_W0_W_BER, Reg.HLT_RISK_W0_W_FEC, Reg.HLT_RISK_W0_W_HW, Reg.HLT_RISK_W0_W_BARK]),
  (0x0B0010, [Reg.HLT_RISK_W1_W_SRAM, Reg.HLT_RISK_W1_W_DROOP, Reg.HLT_RISK_W1_W_TEMP, Reg.HLT_RISK_W1_W_EYE]),
  (0x0B0018, [Reg.HLT_RISK_W2_BASE, Reg.HLT_RISK_W2_W_LIFE, Reg.HLT_RISK_W2_W_RESET]),
  (0x0B0020, [Reg.HLT_RISK_THR_THICK_EN, Reg.HLT_RISK_THR_HARD, Reg.HLT_RISK_THR_UPPER, Reg.HLT_RISK_THR_LOWER]),
  (0x0B0080, [Reg.HLT_SHARE_LOOP_EN, Reg.HLT_SHARE_LOOP_CEIL, Reg.HLT_SHARE_LOOP_FLOOR, Reg.HLT_SHARE_LOOP_WAIT_HI,
    Reg.HLT_SHARE_LOOP_STEP]),
  (0x0B0084, [Reg.HLT_LINK_LOOP_EN, Reg.HLT_LINK_LOOP_PREWAKE, Reg.HLT_LINK_LOOP_CEIL, Reg.HLT_LINK_LOOP_FLOOR,
    Reg.HLT_LINK_LOOP_WAKE_HI]),
  (0x0B0088, [Reg.HLT_SEAL_LOOP_EN, Reg.HLT_SEAL_LOOP_CEIL, Reg.HLT_SEAL_LOOP_FLOOR]),
  (0x0B0098, [Reg.HLT_HEAT_LOOP_EN, Reg.HLT_HEAT_LOOP_CEIL, Reg.HLT_HEAT_LOOP_FLOOR, Reg.HLT_HEAT_LOOP_TARGET])]

/-- Bits that fields cover. -/
def maskOf (flds : List Fld) : Nat := flds.foldl (fun m f => m ||| ((2 ^ f.width - 1) <<< f.lo)) 0

/-- A DEFAULTS body meets R526. -/
def defaultsOk (b : List Byte) : Bool :=
  let es := entriesOf 24 b
  b.length == 24 * imageRegs.length && (List.zip es imageRegs).all (fun x =>
    fieldAt x.1 0 4 == x.2.1 && fieldAt x.1 4 4 == 0 && fieldAt x.1 16 8 == maskOf x.2.2 &&
    fieldAt x.1 8 8 &&& maskOf x.2.2 == fieldAt x.1 8 8)

/-- The opcodes of R499, ascending. -/
def opcodes : List Nat := [0x00, 0x01, 0x02, 0x03, 0x04, 0x05, 0x10, 0x20, 0x21, 0x22, 0x30, 0x40, 0x41, 0x42, 0x43, 0x44]

/-- A TIMEOUTS body meets R528. -/
def timeoutsOk (b : List Byte) : Bool :=
  b.length == 8 * opcodes.length && (List.zip (entriesOf 8 b) opcodes).all (fun x =>
    fieldAt x.1 0 1 == x.2 && zeroAt x.1 1 3 && 1 ≤ fieldAt x.1 4 4 && fieldAt x.1 4 4 ≤ 86400000)

/-- A static I3C address that R529 allows. -/
def staticOk (a : Nat) : Bool := 0x08 ≤ a && a ≤ 0x77 && !([0x3E, 0x5E, 0x6E, 0x76] : List Nat).contains a

/-- A record's body meets R524, R526, R528 and R529; a type that is not known must be OPTIONAL. -/
def recOk (r : ImgRec) : Bool :=
  match r.typ with
  | 1 => 65536 ≤ r.body.length && r.body.length ≤ 12582912
  | 2 => r.body.length == 8200 && fieldAt r.body 0 1 < 16 && zeroAt r.body 1 7
  | 3 => defaultsOk r.body
  | 4 => timeoutsOk r.body
  | 5 => r.body.length == 16 && staticOk (fieldAt r.body 0 1) && zeroAt r.body 1 15
  | _ => r.opt

/-- Slots that TEMPLATE records name, in their order. -/
def slotsOf (rs : List ImgRec) : List Nat := (rs.filter (fun r => r.typ == 2)).map (fun r => fieldAt r.body 0 1)

/-- The records meet R523 to R525: ascending types and slots, one of each type but TEMPLATE, which has none to 16.
DEDUCED: log entry 54. -/
def recordsOk (rs : List ImgRec) : Bool :=
  rs.all recOk && decide (rs.Pairwise (fun a b => a.typ ≤ b.typ)) && decide ((slotsOf rs).Pairwise (· < ·)) &&
  [1, 3, 4, 5].all (fun t => (rs.filter (fun r => r.typ == t)).length == 1)

/-- What the check of one image answers (R437): its records, or the outcome code of GEN_BOOT. -/
inductive ImgCheck where
  | accepted (head : List Byte) (recs : List ImgRec)
  | rejected (code : Nat)
  deriving DecidableEq, Repr

/-- The public key, r and s of the signature block, and the signed bytes (R522). DEDUCED: log entry 54. -/
def signatureOk (b : List Byte) (len : Nat) : Bool :=
  let blk := (b.drop (len - 256)).take 256
  fieldAt blk 0 1 == 4 &&
  ecdsaVerify (beNat ((blk.drop 1).take 48)) (beNat ((blk.drop 49).take 48)) (beNat ((blk.drop 0x70).take 48))
    (beNat ((blk.drop 0xA0).take 48)) (b.take (len - 144))

/-- An image is read and checked: read error, format, key, signature and security version, in that order (R408, R437).
DEDUCED: log entry 54. -/
def checkImage (fuses : Fuses) (silicon : Nat) (r : FlashRead) : ImgCheck :=
  match r with
  | .error => .rejected 2
  | .bytes b =>
    let len := fieldAt b 0x10 8
    let slot := fieldAt b 0x1D 1
    if !headerOk b silicon then .rejected 3
    else
      match readRecords (fieldAt b 0x1E 2) ((b.take (len - 256)).drop 256) with
      | none => .rejected 3
      | some (rs, rest) =>
        if !rest.isEmpty || !recordsOk rs then .rejected 3
        else if 4 ≤ slot || bit fuses.revoked slot || fuses.keyHash.getD slot [] != sha384 ((b.drop (len - 256)).take 97) then
          .rejected 4
        else if !signatureOk b len then .rejected 5
        else if fieldAt b 0x1C 1 < fuses.svnMin then .rejected 6
        else .accepted (b.take 256) rs

/-! ### The load (R201, R526 to R529) -/

/-- One DEFAULTS entry: each field is stored as its write rule states. -/
def Eng.loadDefault (e : Eng) (off : Nat) (flds : List Fld) (v : Nat) : Eng :=
  (e.each flds (fun f e => e.wr f (f.clamp (f.of v)))).fixWritten e off

/-- A template is loaded into its slot and checked. -/
def Eng.loadTemplate (e : Eng) (body : List Byte) : Eng :=
  let slot := fieldAt body 0 1
  let image := (body.drop 8).zipIdx.map (fun b => if slotReserved b.2 then (0 : Byte) else b.1)
  e.storeWrite (slot * slotBytes) image

/-- One record of the accepted image. -/
def Eng.loadRecord (e : Eng) (r : ImgRec) : Eng :=
  match r.typ with
  | 2 => e.loadTemplate r.body
  | 3 => e.each (List.zip (entriesOf 24 r.body) imageRegs) (fun x e => e.loadDefault x.2.1 x.2.2 (fieldAt x.1 8 8))
  | 4 =>
    { e with boot := { e.boot with
        timeouts := (entriesOf 8 r.body).foldl (fun m x => put m (fieldAt x 0 1) (fieldAt x 4 4)) [] } }
  | 5 => { e with mgmt := { e.mgmt with staticAddr := fieldAt r.body 0 1 } }
  | _ => e

end Sys2Proof.Machine
end

