-- ==== Sys2Proof/Machine/Boot.lean ====
section
/-!
DEFINITION. Sys2Proof/Machine/Boot.lean: the power-on sequence to its step 5 (R26, R405, R434 to R437), power loss (R450), and the
test network (R545 to R547).
-/
namespace Sys2Proof.Machine

/-- The fuse map keeps within R26: at most 4 clusters fused off, at most 2 in a quadrant, at most 2 lanes of a port. -/
def Fuses.ok (f : Fuses) : Bool :=
  60 ≤ popcount f.clusters 64 && (List.range 4).all (fun q => 14 ≤ popcount (bits f.clusters (16 * q + 15) (16 * q)) 16) &&
  (List.range 4).all (fun p => 14 ≤ popcount (bits f.lanes (16 * p + 15) (16 * p)) 16)

/-- Wear as the NVM gives it back: a unit whose record fails its check, named by 128 × kind + unit, has no samples, and the largest
stress of any other unit of its kind (R425). DEDUCED: log entry 45. -/
def wearRead (nvm : SMap Wear) (bad : List Nat) : SMap Wear :=
  let good := nvm.filter (fun x => !bad.contains x.1)
  bad.foldl (fun m k =>
    let most := ((good.filter (fun x => x.1 / 128 == k / 128)).map (·.2.stress)).foldl max 0
    put m k { stress := most, samples := [] }) good

/-- Step 1: the fuse map is read (R26, R382, R408, R409, R411), and the NVM records of wear (R425). -/
def Eng.readFuses (e : Eng) (nvmBad : List Nat) : Eng :=
  let f := e.fuses
  let e := (e.wr Reg.GEN_FLOOR_CLU_PRESENT f.clusters).wr Reg.GEN_FLOOR_LANE_PRESENT f.lanes
  let e := (e.wr Reg.GEN_FLOOR_SUM_CLUSTERS (popcount f.clusters 64)).wr Reg.GEN_FLOOR_SUM_LANES (popcount f.lanes 64)
  let e := ((e.wr Reg.SEC_IMG_SVN_MIN f.svnMin).wr Reg.SEC_IMG_REVOKED f.revoked).flag Reg.SEC_STAT_ROOT_BLOCKED f.rootKill
  let dg := sha3_256 (natLe 8 f.clusters ++ natLe 8 f.lanes)
  let e := e.each (List.range 4) (fun n e => e.wr (Reg.LED_FUSE_DIGEST n) (fieldAt dg (8 * n) 8))
  (e.setHealth (fun h => { h with wear := wearRead h.nvm nvmBad, wearNo := h.nvmNo })).eolMin

/-- A self-test has passed (R405). -/
def Eng.testPassed (e : Eng) (n : Nat) : Eng :=
  e.wr Reg.SEC_ST_RESULT_PASSED (setBit (e.rd Reg.SEC_ST_RESULT_PASSED) (n - 1))

/-- A self-test has failed: the error state, and the sequence ends at its step (R406, R435). -/
def Eng.testFailed (e : Eng) (n why : Nat) : Eng := (e.errorState n).bootFails why

/-- Outcome code of a check (GEN_BOOT.IMG_A). -/
def ImgCheck.code : ImgCheck → Nat
  | .accepted _ _ => 1
  | .rejected c => c

/-- The accepted image shows in GEN_ID and SEC_IMG (R409, R521). -/
def Eng.takeImage (e : Eng) (which : Nat) (head : List Byte) : Eng :=
  let e := (e.wr Reg.GEN_ID_FW_VERSION (fieldAt head 0x18 4)).wr Reg.SEC_IMG_SVN (fieldAt head 0x1C 1)
  (e.wr Reg.SEC_IMG_KEY_SLOT (fieldAt head 0x1D 1)).wr Reg.SEC_IMG_IMAGE which

/-- Step 4: SRAM test and repair, then the image's records (R337, R527). Step 5 waits for the stacks.
DEDUCED: log entry 55. -/
def Eng.bootSram (e : Eng) (recs : List ImgRec) (sram : StoreTest) : Eng :=
  let e := e.wr Reg.GEN_BOOT_STAGE 4
  let e := e.bumpBy Reg.MEM_SRAM_STAT_SOFT sram.soft
  match sram.faulty with
  | some b => ((e.flag Reg.MEM_SRAM_STAT_FAIL true).wr Reg.MEM_SRAM_STAT_FAIL_BANK b.val).bootFails 4
  | none =>
    let e := (e.each recs (fun r e => e.loadRecord r)).wr Reg.GEN_BOOT_STAGE 5
    if e.boot.stackCaps.length = 8 then e.stacksIn else e

/-- Step 3: self-tests 3 to 9, of which the set bits of `tests` pass; SVN_COMMIT then raises the fused version (R405, R409).
DEDUCED: log entry 55. -/
def Eng.bootTests (e : Eng) (head : List Byte) (recs : List ImgRec) (tests : Nat) (sram : StoreTest) : Eng :=
  let e := e.wr Reg.GEN_BOOT_STAGE 3
  let order := (List.range 7).map (· + 3)
  let good := order.takeWhile (fun n => bit tests (n - 1))
  let e := e.each good (fun n e => e.testPassed n)
  match order.find? (fun n => !bit tests (n - 1)) with
  | some n => e.testFailed n 3
  | none =>
    let e := e.flag Reg.SEC_STAT_ST_DONE true
    let svn := fieldAt head 0x1C 1
    let e := if bit (fieldAt head 0x0C 4) 0 && e.fuses.svnMin < svn then
        ({ e with fuses := { e.fuses with svnMin := svn } } : Eng).wr Reg.SEC_IMG_SVN_MIN svn
      else e
    e.bootSram recs sram

/-- Step 2: self-test 1, the images, A first, and self-test 2 with them (R437). A flash request that waits is granted when the
step ends (R540). DEDUCED: log entry 54. DEDUCED: log entry 55. -/
def Eng.bootImage (e : Eng) (a b : FlashRead) (tests : Nat) (sram : StoreTest) : Eng :=
  let e := e.wr Reg.GEN_BOOT_STAGE 2
  if !bit tests 0 then e.testFailed 1 3
  else
    let e := e.testPassed 1
    let silicon := e.rd Reg.GEN_ID_SILICON
    let ca := checkImage e.fuses silicon a
    let e := e.wr Reg.GEN_BOOT_IMG_A ca.code
    let grant := fun (e : Eng) => if e.pins.flShareReq then e.flashShare true else e
    match ca with
    | .accepted head recs => (grant ((e.takeImage 1 head).testPassed 2)).bootTests head recs tests sram
    | .rejected _ =>
      let cb := checkImage e.fuses silicon b
      let e := e.wr Reg.GEN_BOOT_IMG_B cb.code
      match cb with
      | .accepted head recs => (grant ((e.takeImage 2 head).testPassed 2)).bootTests head recs tests sram
      | .rejected _ => (grant e).testFailed 2 2

/-- The power-on sequence (R434): the rise of pwr_good. With te_mode high it stops after step 1 (R545).
DEDUCED: log entry 55. -/
def Eng.powerGood (e : Eng) (a b : FlashRead) (tests : Nat) (stores : StoreTest) (te : Bool) : Eng :=
  if e.pins.pwrGood then e
  else
    let e : Eng := { e with pins := { e.pins with pwrGood := true, teMode := te } }
    let e := (e.wr Reg.GEN_BOOT_STAGE 1).readFuses stores.nvmBad
    if !e.fuses.ok then (e.flag Reg.GEN_FLOOR_SUM_FUSE_BAD true).bootFails 1
    else if te then e
    else e.bootImage a b tests stores

/-- POWER_GOOD (R434). Bit n − 1 of `tests` says that self-test n passes; test 2 is the images' own verification.
DEDUCED: log entry 88. -/
def execPowerGood (flashA flashB : FlashRead) (tests : BitVec 9) (stores : StoreTest) (te : Bool) (s : State) :
    Host.Outcome State Fault Refusal :=
  .next (s.run (fun e => e.powerGood flashA flashB tests.toNat stores te))

/-- The always-on reset: everything is lost but the fuses, the NVM records and what stands outside the engine: the levels
driven onto its inputs (R450). Draws and free values go on, so that none is met twice.
DESIGN CHOICE: log entry 5. DEDUCED: log entry 55. -/
def Eng.powerLoss (e : Eng) : Eng :=
  { Eng.reset with
    free := e.free, fuses := e.fuses,
    pins := { e.pins with pwrGood := false, flShareGnt := false, engReady := false, compHold := true },
    sec := { Eng.reset.sec with seeds := e.sec.seeds },
    health := { Eng.reset.health with nvmNo := e.health.nvmNo, nvm := e.health.nvm } }

/-- POWER_LOSS: pwr_good falls (R450). -/
def execPowerLoss (s : State) : Host.Outcome State Fault Refusal := .next (s.run Eng.powerLoss)

/-! ### Test access (R545 to R547) -/

/-- WRAPPER_INSTRUCTION_LOAD: an instruction that is reserved, or not permitted, acts as WS_BYPASS (R546). -/
def execWrapperInstructionLoad (code : BitVec 4) (s : State) : Host.Outcome State Fault Refusal :=
  .next (s.run (fun e =>
    let c := code.toNat
    let eff := if c ≤ 4 && e.pins.teMode then c else 0
    { e with edge := { e.edge with wir := eff } }))

/-- A free word, and the state past it. DESIGN CHOICE: log entry 57. -/
def Eng.freeAnswer (e : Eng) : Eng := (e.useFree 1).emit (.testAnswer (Config.freeWord e.free).toNat)

/-- A read on the test network. Results of a bank's test, and fuse words, have no layout in the spec and are free values.
DESIGN CHOICE: log entry 57. -/
def Eng.instrumentRead (e : Eng) (i : Instrument) : Eng :=
  match i with
  | .sramBist b =>
    if !e.pins.teMode then e
    else match look e.edge.bist b.val with
      | some v => e.emit (.testAnswer v)
      | none => e.freeAnswer
  | .laneTest l => e.emit (.testAnswer (e.rd (Reg.GP_PRBS_ERR_COUNT (l.val / 16) (l.val % 16))))
  | .eyeMonitor l =>
    let h := (look e.health.lanes l.val).getD { ber := 0, eye := 0, corr := 0, high := 0 }
    e.emit (.testAnswer (h.eye * 2 ^ 48 + h.ber * 2 ^ 40 + h.corr))
  | .temperature q => e.emit (.testAnswer (e.quadTemp q.val))
  | .fuseRead _ => e.freeAnswer

/-- A write on the test network; one that the instrument does not permit is ignored (R547). With te_mode high a bank's test
runs, and the lane test drives the modes of GP_TEST at its port. -/
def Eng.instrumentWrite (e : Eng) (i : Instrument) (v : Nat) : Eng :=
  if !e.pins.teMode then e
  else
    match i with
    | .sramBist b =>
      { e.useFree 1 with edge := { e.edge with bist := put e.edge.bist b.val (Config.freeWord e.free).toNat } }
    | .laneTest l => e.portTest (l.val / 16) v
    | _ => e

/-- INSTRUMENT_ACCESS (R547). DESIGN CHOICE: log entry 57. -/
def execInstrumentAccess (inst : Instrument) (wr : Bool) (v : DWord) (s : State) : Host.Outcome State Fault Refusal :=
  .next (s.run (fun e => if wr then e.instrumentWrite inst v.toNat else e.instrumentRead inst))

end Sys2Proof.Machine
end

