-- ==== Sys2Proof/Machine/Map.lean ====
section
/-!
DEFINITION. Sys2Proof/Machine/Map.lean: the grove map (R439 to R445): arming, the broadcast, the fetch, and acceptance.
-/
namespace Sys2Proof.Machine

/-! ### The map as bytes (R439 to R441) -/

/-- A grove entry: W, M, P3_ROLE and the 16 places as they stand. -/
structure GroveEntry where
  w      : Nat
  m      : Nat
  role   : Nat
  places : List Nat
  deriving DecidableEq, Repr

def noPlace : Nat := 0xFFFFFFFF

/-- The job map's header and groves. -/
structure JobMap where
  fanout : Nat
  groves : List GroveEntry
  resume : List Nat
  members : Nat
  deriving DecidableEq, Repr

/-- Grove entry g of a map. -/
def readEntry (b : List Byte) (g : Nat) : GroveEntry :=
  let x := (b.drop (64 + 80 * g)).take 80
  { w := fieldAt x 0 1, m := fieldAt x 1 1, role := fieldAt x 2 1,
    places := (List.range 16).map (fun p => fieldAt x (0x10 + 4 * p) 4) }

/-- Places of positions that exist, in position order. DEDUCED: log entry 49. -/
def GroveEntry.bound (g : GroveEntry) : List Nat := (g.places.filter (· != noPlace)).map (· % 2 ^ 20)

/-- LENGTH as the header states it. -/
def mapLength (b : List Byte) : Nat := fieldAt b 0x18 8

/-- A map of `buf` bytes of room, whose MAGIC, VERSION, FANOUT and LENGTH are valid (R439, R444). -/
def readMap (b : List Byte) (buf : Nat) : Option JobMap :=
  let f := fieldAt b
  let ng := f 0x0C 4
  let nr := f 0x14 2
  if b.take 8 != ascii "SCE8GMAP" || f 8 2 != 1 || f 0x0A 1 < 2 || 16 < f 0x0A 1 || ng = 0 || 262144 < ng || 4096 < nr ||
      mapLength b != 64 + 80 * ng + 4 * nr || b.length < mapLength b || buf < mapLength b then none
  else
    some { fanout := f 0x0A 1, groves := (List.range ng).map (readEntry b), members := f 0x10 4,
           resume := (List.range nr).map (fun i => fieldAt b (64 + 80 * ng + 4 * i) 4) }

/-- Every place that a map binds. -/
def JobMap.places (j : JobMap) : List Nat := j.groves.flatMap GroveEntry.bound

/-- The grove and position of a place. DEDUCED: log entry 49. -/
def JobMap.find (j : JobMap) (place : Nat) : Option (Nat × Nat) :=
  j.groves.zipIdx.findSome? (fun g =>
    (g.1.places.zipIdx.find? (fun x => x.1 != noPlace && x.1 % 2 ^ 20 == place)).map (fun x => (g.2, x.2)))

/-- An entry meets R36 and lists exactly W places, in positions 0 to W − 1 (R444). -/
def GroveEntry.ok (g : GroveEntry) : Bool :=
  4 ≤ g.w && g.w ≤ 16 && 1 ≤ g.m && g.m ≤ 3 &&
  g.places.zipIdx.all (fun x => (x.1 != noPlace) == decide (x.2 < g.w))

/-- The member's tree index (R440). -/
def JobMap.treeIndex (j : JobMap) (g p : Nat) : Nat := ((j.groves.take g).map (·.w)).sum + p

/-- The place at an index counted over the widths of entries; an entry holds no more than 16 places. -/
def placeIn : List GroveEntry → Nat → Option Nat
  | [], _ => none
  | g :: gs, i =>
    if i < g.w then (g.places[i]?).bind (fun x => if x = noPlace then none else some (x % 2 ^ 20)) else placeIn gs (i - g.w)

/-- The place at a tree index (R440). -/
def JobMap.placeAt (j : JobMap) (i : Nat) : Option Nat := placeIn j.groves i

/-- The layout digest of a grove (R441). -/
def JobMap.layout (j : JobMap) (g w m : Nat) : List Byte :=
  sha3_256 (natLe 4 j.groves.length ++ natLe 4 j.members ++ natLe 4 g ++ natLe 1 w ++ natLe 1 m ++ natLe 2 j.resume.length
    ++ j.resume.flatMap (natLe 4))

/-! ### The engine's map -/

def Eng.setMap (e : Eng) (f : MapState → MapState) : Eng := { e with map := f e.map }

/-- GRV_MAP_STAT.STATE. -/
def Eng.mapState (e : Eng) : Nat := e.rd Reg.GRV_MAP_STAT_STATE

/-- The expected map digest, and the key that map and roll-call writes carry (R90, R442). -/
def Eng.mapDigest (e : Eng) : List Byte := (List.range 4).flatMap (fun n => natLe 8 (e.rd (Reg.GRV_MAP_DIG_DIGEST n)))
def Eng.mapKey (e : Eng) : Nat := fieldAt e.mapDigest 0 4

/-- A map that matches the expected digest is held, accepted or not (R444). -/
def Eng.mapHeld (e : Eng) : Bool := !e.map.digest.isEmpty && e.map.digest == e.mapDigest

/-- Bytes of the map buffer. DEDUCED: log entry 51. -/
def Eng.mapRoom (e : Eng) : Nat := 4096 * e.rd Reg.GRV_MAP_BASE_LEN

/-- Map bytes land in the buffer in local memory, where that is usable and in no region. DEDUCED: log entry 51. -/
def Eng.bufferMap (e : Eng) (off : Nat) (data : List Byte) : Eng :=
  let a := 4096 * e.rd Reg.GRV_MAP_BASE_BASE + off
  if off + data.length ≤ e.mapRoom && a + data.length ≤ e.usableTop && (e.rgnOver a).isNone then e.store a data else e

/-- STATE and REASON of GRV_MAP_STAT. -/
def Eng.mapEnds (e : Eng) (state reason : Nat) : Eng :=
  (e.wr Reg.GRV_MAP_STAT_STATE state).wr Reg.GRV_MAP_STAT_REASON reason

/-- The registers that an accepted map loads (R444). `pos` is none for a standby spare, which holds no position (R445). -/
def Eng.loadMap (e : Eng) (j : JobMap) (g : Nat) (x : GroveEntry) (pos : Option Nat) : Eng :=
  let p := pos.getD 0
  let e := (((e.wr Reg.GRV_CFG_W x.w).wr Reg.GRV_CFG_K (x.w - x.m)).wr Reg.GRV_CFG_M x.m).wr Reg.GRV_CFG_POS p
  let e := (e.flag Reg.GRV_CFG_VALID true).wr Reg.GRV_WIRING_P3_ROLE x.role
  let e := if pos.isSome then e.wireUp x.w p else e
  let e := e.each (List.range 16) (fun n e =>
    let e := (e.flag (Reg.GRV_MEMBER_PRESENT n) (decide (n < x.w))).flag (Reg.GRV_MEMBER_LOST n) false
    e.wr (Reg.GRV_MEMBER_PLACE n) (if n < x.w then x.places.getD n 0 % 2 ^ 20 else 0))
  let dg := j.layout g x.w x.m
  let e := e.each (List.range 4) (fun n e => e.wr (Reg.GRV_LAYOUT_DIGEST n) (fieldAt dg (8 * n) 8))
  let e := e.wr Reg.GRV_MAP_STAT_GROVE g
  let e := if e.on Reg.GRV_MAP_CTL_GRAFT then e
           else e.each (e.present.filter (· != p)) (fun n e => e.openSess (e.placeOf n) 1)
  let e := (e.holdCheck 2).holdCheck 3
  let e := e.each ((List.range 4).filter (fun n => e.portUp n)) (fun n e => e.sendId n)
  e.each (List.range 3) (fun n e => e.farCheck n)

/-- A map that matches its expected digest is accepted, held or discarded (R444, R445).
DEDUCED: log entry 49. DEDUCED: log entry 50. -/
def Eng.takeMap (e : Eng) (b : List Byte) (source : Nat) : Eng :=
  let standby := e.on Reg.GRV_MAP_CTL_GRAFT && e.on Reg.GRV_MAP_CTL_STANDBY
  match readMap b e.mapRoom with
  | none => (e.setMap (fun m => { m with buf := [] })).mapEnds 5 2
  | some j =>
    let ps := j.places
    if ps.eraseDups.length != ps.length then (e.setMap (fun m => { m with buf := [] })).mapEnds 5 2
    else
      let e := (e.wr Reg.GRV_MAP_STAT_SOURCE source).setMap (fun m => { m with
        digest := e.mapDigest, len := mapLength b, fanout := j.fanout, ngroves := j.groves.length, resume := j.resume })
      let mine := if standby then some (match j.find e.place with | some x => x.1 | none => 0, none)
                  else (j.find e.place).map (fun x => (x.1, some x.2))
      match mine with
      | none => e.mapEnds 4 4
      | some (g, pos) =>
        let x := j.groves.getD g { w := 0, m := 0, role := 0, places := [] }
        if !x.ok then (e.wr Reg.GRV_MAP_STAT_GROVE g).mapEnds 4 3
        else (e.loadMap j g x pos).mapEnds 3 0

/-- The map goes on to the engine's children (R442). DEDUCED: log entry 51. -/
def Eng.forwardMap (e : Eng) (b : List Byte) : Eng :=
  match readMap b (mapLength b) with
  | none => e
  | some j =>
    match j.find e.place with
    | none => e
    | some (g, p) =>
      let i := j.treeIndex g p
      let kids := ((List.range j.fanout).map (fun c => j.fanout * i + 1 + c)).filter (· < j.members)
      let e := e.setMap (fun m => { m with waiting := kids })
      e.each kids (fun c e => match j.placeAt c with
        | some place => e.emit (.fabricWrite place apMap 0 e.mapKey b)
        | none => e)

/-! ### Arming (R442, R444) -/

/-- The engine is armed. A map accepted under the same digest stays; any other is replaced, with the sessions opened under
it, the identities of the far ends exchanged under it and the records received under its key (DEDUCED, log entry 50). -/
def Eng.armMap (e : Eng) : Eng :=
  if !e.rwlOpen then e.lockedWr
  else
    let e := e.flag Reg.GRV_MAP_CTL_ARMED true
    if e.mapState = 3 && e.map.digest == e.mapDigest then e
    else
      let ports := if e.on Reg.GRV_CFG_VALID then e.ports.map (fun q => { q with farId := false }) else e.ports
      let e : Eng := { (e.mapEnds 1 0).flag Reg.GRV_CFG_VALID false with ports := ports }
      let e := ((e.wr Reg.GRV_MAP_STAT_SOURCE 0).wr Reg.GRV_MAP_STAT_CHILD_FAIL 0).wr Reg.GRV_MAP_STAT_TRIES 0
      let e := e.each (List.range 16) (fun n e => (e.flag (Reg.GRV_MEMBER_PRESENT n) false).wr (Reg.GRV_MEMBER_PLACE n) 0)
      let e := (e.wr Reg.GRV_RC_STAT_HELD 0).setMap (fun m => { m with
        digest := [], buf := [], len := 0, waiting := [], fanout := 0, ngroves := 0, resume := [] })
      { e with sess := [], rc := { e.rc with records := [] } }

/-- A write of GRV_MAP_CTL. -/
def Eng.mapCtlWrite (e : Eng) (v : Nat) : Eng :=
  let e := e.putFields [Reg.GRV_MAP_CTL_WAIT, Reg.GRV_MAP_CTL_STANDBY, Reg.GRV_MAP_CTL_GRAFT] v
  if Reg.GRV_MAP_CTL_ARM.of v = 1 then e.armMap else e

def mapCtlFields : List Fld :=
  [Reg.GRV_MAP_CTL_ARMED, Reg.GRV_MAP_CTL_WAIT, Reg.GRV_MAP_CTL_STANDBY, Reg.GRV_MAP_CTL_GRAFT, Reg.GRV_MAP_CTL_ARM]

/-- MAP_ARM: a write of GRV_MAP_CTL (R442). -/
def execMapArm (v : Word) (s : State) : Host.Outcome State Fault Refusal :=
  .next (s.run (fun e => e.write .coding mapCtlFields v.toNat (fun e => e.mapCtlWrite v.toNat)))

/-! ### The broadcast (R442) -/

/-- The error response of a refused aperture write. DEDUCED: log entry 59. -/
def Eng.refuseFabric (e : Eng) : Eng := e.emit (.fabricAnswer none)

/-- Bytes of the map received so far cover LENGTH. -/
def Eng.mapWhole (e : Eng) : Bool :=
  let len := leNat (bytesAt e.map.buf 0x18 8)
  (e.map.buf.filter (fun c => 0x18 ≤ c.1 && c.1 < 0x20)).length == 8 && (e.map.buf.filter (fun c => c.1 < len)).length == len

/-- A write to the map aperture that the engine accepts: a map in full is checked, accepted and forwarded. -/
def Eng.mapBytes (e : Eng) (off : Nat) (data : List Byte) : Eng :=
  let e := e.emit (.fabricAnswer (some []))
  if (e.mapState != 1 && e.mapState != 2 && e.mapState != 5) || e.mapHeld then e
  else
    let e := (e.setMap (fun m => { m with buf := data.zipIdx.foldl (fun b x => put b (off + x.2) x.1) m.buf })).bufferMap off data
    if !e.mapWhole then e
    else
      let b := bytesAt e.map.buf 0 (leNat (bytesAt e.map.buf 0x18 8))
      if sha3_256 b != e.mapDigest then (e.setMap (fun m => { m with buf := [] })).wr Reg.GRV_MAP_STAT_REASON 1
      else
        let direct := e.on Reg.GRV_MAP_CTL_GRAFT
        let e := e.takeMap b (if direct then 3 else 1)
        if direct then e else e.forwardMap b

/-- A write to the map aperture (R435, R442, R452, R538). DEDUCED: log entry 51. -/
def Eng.mapWrite (e : Eng) (key requester off : Nat) (data : List Byte) : Eng :=
  if !e.on Reg.GEN_BOOT_READY || e.fenced then e.refuseFabric
  else if e.boot.inReset then { e with late := e.late ++ [.map key requester off data] }
  else
    let e := if e.on Reg.GEN_PWR_ASLEEP then e.startClocks else e
    if 2 ^ 25 < off + data.length || !e.on Reg.GRV_MAP_CTL_ARMED || !e.on Reg.GEN_PLACE_VALID then e.refuseFabric
    else if key != e.mapKey then (e.bump Reg.GRV_RC_STAT_KEY_MISS).refuseFabric
    else e.mapBytes off data

/-- MAP_WRITE (R442). -/
def execMapWrite (key : Word) (requester : Place) (off : Nat) (data : List Byte) (s : State) : Host.Outcome State Fault Refusal :=
  .next (s.run (fun e => e.mapWrite key.toNat requester.toNat off data))

/-- MAP_CHILD_TIMEOUT: a child, by its tree index, gave an error or no completion (R442). -/
def execMapChildTimeout (child : Nat) (s : State) : Host.Outcome State Fault Refusal :=
  .next (s.run (fun e =>
    if e.map.waiting.contains child then
      (e.setMap (fun m => { m with waiting := m.waiting.filter (· != child) })).bump Reg.GRV_MAP_STAT_CHILD_FAIL
    else e))

/-! ### The fetch (R443) -/

/-- One fetch attempt: the engine reads the map object through the storage port. DEDUCED: log entry 50. -/
def Eng.fetchMap (e : Eng) : Eng :=
  ((e.wr Reg.GRV_MAP_STAT_STATE 2).bump Reg.GRV_MAP_STAT_TRIES).emit
    (.storageRead (e.rd Reg.GRV_MAP_HANDLE_HANDLE) 0 e.mapRoom)

/-- MAP_WAIT_EXPIRY: WAIT has ended with no map accepted; one that is held is no accepted map (R443, R444).
DEDUCED: log entry 50. -/
def execMapWaitExpiry (s : State) : Host.Outcome State Fault Refusal :=
  .next (s.run (fun e =>
    if e.on Reg.GRV_MAP_CTL_ARMED && (e.mapState == 1 || e.mapState == 4 || e.mapState == 5) && e.rd Reg.GRV_MAP_STAT_TRIES = 0 &&
        !e.boot.inReset && e.on Reg.GEN_BOOT_READY then e.fetchMap
    else e))

/-- A fetch attempt has failed; the third ends the fetching (R443). -/
def Eng.fetchFailed (e : Eng) : Eng :=
  if e.rd Reg.GRV_MAP_STAT_TRIES < 3 then e
  else ((e.mapEnds 5 5).flag Reg.GRV_MAP_CTL_ARMED false).raise .MAP_FAIL

/-- MAP_FETCH_COMPLETE: the storage port answers (R443). A fetched map is not forwarded; one that matches the map held is ignored,
and that stays held (R444, DEDUCED, log entry 50). -/
def execMapFetchComplete (data : Option (List Byte)) (s : State) : Host.Outcome State Fault Refusal :=
  .next (s.run (fun e =>
    if e.mapState != 2 then e
    else
      match data with
      | none => e.fetchFailed
      | some b =>
        let b := b.take (mapLength b)
        if sha3_256 b != e.mapDigest then e.fetchFailed
        else if e.mapHeld then e.wr Reg.GRV_MAP_STAT_STATE 4
        else (e.bufferMap 0 b).takeMap b 2))

/-- MAP_FETCH_RETRY: 100 ms after a failed attempt, the next one (R443). -/
def execMapFetchRetry (s : State) : Host.Outcome State Fault Refusal :=
  .next (s.run (fun e =>
    if e.mapState = 2 && e.rd Reg.GRV_MAP_STAT_TRIES < 3 && !e.boot.inReset then e.fetchMap else e))

end Sys2Proof.Machine
end

