-- ==== Sys2Proof/Machine/Lock.lean ====
section
/-!
DEFINITION. Sys2Proof/Machine/Lock.lean: the start lock and the roll call (R71, R72, R82, R118, R136, R168, R221, R284, R349, R381,
R401, R446 to R449).
-/
namespace Sys2Proof.Machine

/-! ### Reservations in the journal -/

/-- The journal, less the quick-digest table and the receive space (R117, R369). -/
def Eng.journalRoom (e : Eng) : Nat :=
  e.bitmapBase - e.journalBase - 32 * (e.memSize / leafBytes) - (e.w - 1) * e.rd Reg.GRV_ACK_CTL_CREDIT * 4144

/-- Lengths of the mirror-eligible regions, with a running total, in ascending number. -/
def Eng.mirrorTotals (e : Eng) : List (Nat × Nat) :=
  ((e.rgns.filter Rgn.mirrorEligible).foldl (fun (a : List (Nat × Nat) × Nat) r => (a.1 ++ [(r.num, a.2 + r.len)], a.2 + r.len))
    ([], 0)).1

/-- M of R82. -/
def Eng.mirrorM (e : Eng) : Nat := ((e.rgns.filter Rgn.mirrorEligible).map (·.len)).sum

def Eng.mirrorRoom (e : Eng) : Nat := 12 * e.mirrorM

/-- Window space (R118). -/
def Eng.windowRoom (e : Eng) : Nat := (e.w - 1) * e.rd Reg.GRV_WIN_CTL_OPEN * e.rd Reg.GRV_WIN_CTL_DEPTH * 4128

/-- Parity leaves this member holds in regions that can be staged (R168). -/
def Eng.stagedLeaves (e : Eng) : Nat :=
  ((e.rgns.filter (fun r => r.ringed || (r.mirror && bit r.auto 2))).map (fun r =>
    ((List.range r.rows).filter (fun s => e.k ≤ e.role s)).length)).sum

/-- Staging (R168). -/
def Eng.stageRoom (e : Eng) : Nat := 2 * e.k * e.stagedLeaves * (leafBytes + 32)

/-- Anchor buffer (R349). -/
def Eng.anchorRoom (e : Eng) : Nat := e.rd Reg.ANC_CTL_BUF * 67108864

/-! ### Step 1: the local checks -/

/-- A SPLIT32 half whose pair breaks R86. -/
def Eng.splitBroken (e : Eng) (r : Rgn) : Bool :=
  r.layout != 0 &&
  (match e.rgn? r.partner with
   | none => true
   | some q => !(q.num != r.num && q.layout + r.layout == 3 && q.layout != 0 && q.partner == r.num && q.cls == 1 && r.cls == 1 &&
       q.fmt == 2 && r.fmt == 2 && q.len == r.len && q.tag == r.tag && q.key == r.key))

/-- A map is held whose own grove entry fails R37 (R444, R447). -/
def Eng.mapBadShape (e : Eng) : Bool := e.mapState == 4 && e.rd Reg.GRV_MAP_STAT_REASON == 3

/-- The local region checks of R71, in their order: reason and region of the first failure. DEDUCED: log entry 11. -/
def Eng.regionChecks (e : Eng) : Option (Nat × Nat) :=
  let first := fun (p : Rgn → Bool) => (e.rgns.find? p).map (·.num)
  match first e.splitBroken with
  | some n => some (0x10, n)
  | none =>
    match (if e.on Reg.GRV_CFG_VALID || e.mapBadShape then none else first Rgn.protectedCls) with
    | some n => some (0x12, n)
    | none =>
      match e.mirrorTotals.find? (fun t => 1073741824 < t.2) with
      | some t => some (0x15, t.1)
      | none => (e.mirrorTotals.find? (fun t => e.journalRoom < 2 * 12 * t.2)).map (fun t => (0x14, t.1))

/-- The bucket index table meets R221: ascending buckets and offsets, pieces that do not overlap and lie within 64 MiB, known
formats, whole elements, zero reserved bytes. DEDUCED: log entry 73. -/
def Eng.bucketsOk (e : Eng) : Bool :=
  let size := fun (p : Piece) => if p.fmt = 1 then 4 else 2
  let ps := e.pieces
  let rows := (List.range ps.length).map (fun i => e.memRead (32 * e.rd Reg.UPD_B5_TABLE_BASE + 32 * i) 32)
  ps.all (fun p => (p.fmt == 1 || p.fmt == 2) && p.boff % size p == 0 && p.boff + p.count * size p ≤ 67108864) &&
  rows.all (fun b => fieldAt b 3 1 == 0 && fieldAt b 0x18 8 == 0) &&
  decide (ps.Pairwise (fun a b => a.bucket < b.bucket ∨ (a.bucket = b.bucket ∧ a.boff < b.boff ∧ a.boff + a.count * size a ≤ b.boff)))

/-- The input region that LED_CTL names is a valid mirror region with MIRROR_AT 0 (R381). -/
def Eng.inputOk (e : Eng) : Bool :=
  !e.on Reg.LED_CTL_INPUT_EN ||
  (match e.rgn? (e.rd Reg.LED_CTL_INPUT_REGION) with
   | some r => r.mirror && r.sync == 0
   | none => false)

/-- The intake buffer, with gradient intake enabled: 256 MiB or more, in the software-usable range, and clear of every valid
region of class 1 to 4 (UPD_INTAKE_CTL). -/
def Eng.intakeOk (e : Eng) : Bool :=
  let a := e.rd Reg.UPD_INTAKE_BASE_BASE * 2 ^ 20
  let n := e.intakeLen
  !e.on Reg.UPD_INTAKE_CTL_EN ||
  (268435456 ≤ n && a + n ≤ e.usableTop && !(e.rgns.any (fun r => r.protectedCls && a < r.base + r.len && r.base < a + n)))

/-- The fits of R118, R136, R168, R221, R349, R381 and R401, in that order: the flag each shows, and whether it holds.
DEDUCED: log entry 11. -/
def Eng.fits (e : Eng) : List (Fld × Bool) :=
  let j := e.journalRoom
  let mw := e.mirrorRoom + e.windowRoom
  let mwl := mw + e.logRoom
  let all4 := mwl + e.stageRoom
  [(Reg.GRV_WIN_CTL_FIT, 2 * mw ≤ j),
   (Reg.GRV_LOG_CTL_FIT, !(e.rgns.any Rgn.streamed && e.rd Reg.GRV_LOG_CTL_STEP_SIZE == 0) && 100 * mwl ≤ 75 * j),
   (Reg.GRV_RING_CTL_FIT, 100 * all4 ≤ 90 * j),
   (Reg.UPD_INTAKE_CTL_FIT, (!e.on Reg.UPD_INTAKE_CTL_B5 || e.bucketsOk) && e.intakeOk),
   (Reg.ANC_CTL_FIT, all4 + e.anchorRoom ≤ j),
   (Reg.LED_CTL_FIT, e.inputOk)]

/-- R401: a JLK is installed, or no region of class 1 to 4 is valid. -/
def Eng.keyOk (e : Eng) : Bool := e.sec.jlk.isSome || !(e.rgns.any Rgn.protectedCls)

/-- The flags that tell which fit, or the key of R401, the last start-lock attempt failed, before this one has failed any. -/
def Eng.clearFits (e : Eng) : Eng := (e.each e.fits (fun f e => e.flag f.1 true)).flag Reg.SEC_STAT_KEY_NEED false

/-! ### The end of a start-lock write (R493) -/

/-- The processing ends with a status. -/
def Eng.endStart (e : Eng) (status : Nat) : Eng :=
  let e : Eng := { e with rc := { e.rc with active := false } }
  ((e.flag Reg.GEN_START_BUSY false).wr Reg.GEN_START_STATUS status).raise .START_DONE

/-- A region check fails (R71). -/
def Eng.badRegion (e : Eng) (reason n : Nat) : Eng := (e.rgnCheckFail reason n).endStart stBadRegion

/-- An advisor of a region as the start lock finds it. -/
def freshAdvisor (r : Rgn) : Advisor :=
  { region := r.num, bytes := [], us := 0, mean := 0, streak := 0, propose := 0, switch := 0, ring := 0, queued := false }

/-- Step 4: the lock takes effect, and loss declaration with it (R72, R156, R157, R233, R279, R372, R388, R448, R513).
DEDUCED: log entry 11. DEDUCED: log entry 36. -/
def Eng.takeLock (e : Eng) : Eng :=
  let e := (e.flag Reg.GEN_START_LOCKED true).wr Reg.HLT_RISK_PEAK 0
  let e := e.wr Reg.GRV_RING_STAT_BASE (w32 (e.rd Reg.GRV_RING_STAT_COMMITTED + 1))
  let e : Eng := { e with
    log := { e.log with asked := none }
    advs := (e.rgns.filter (fun r => r.ringed || r.mirror)).map freshAdvisor,
    loss := { e.loss with silent := [], heard := e.present.foldl (fun h x => put h x e.now) e.loss.heard } }
  let e := e.each (e.digs.filter (fun d => e.rgns.any (fun r => r.protectedCls && r.contains (d.1 * leafBytes)))) (fun d e =>
    e.setDig d.1 { d.2 with current := false })
  let e := e.each (List.range 4) (fun p e => e.updPort p (fun q => { q with
    ceiling := let w := e.rd (Reg.GP_STAT_WIDTH p); if w = 0 then 16 else w }))
  let e := e.setKeep (fun k => { k with
    due := { k.due with boundaries := 0, at_ := e.now }, started := false, source := none, encoded := [], answered := [],
    led := { k.led with prevMac := [], chainNew := true } })
  let e := (e.setRings (fun g => { g with seenStep := false, seenTstep := false })).endStart stOk
  (e.each (e.mgmt.views.filter (fun v => v.mgt == 2)) (fun v e => match e.boundPos v.place with
    | some x => e.declareLost x 2
    | none => e)).settle

/-! ### The roll call (R446, R447) -/

def Eng.setRc (e : Eng) (f : RollCall → RollCall) : Eng := { e with rc := f e.rc }

/-- GRV_WIN_CTL, GRV_ACK_CTL and GRV_LOG_CTL with FIT and DEADLINE cleared (R446). -/
def Eng.configBytes (e : Eng) : List Byte :=
  let r := fun (f : Fld) => e.rd f <<< f.lo
  natLe 4 (r Reg.GRV_WIN_CTL_OPEN + r Reg.GRV_WIN_CTL_DEPTH) ++ natLe 4 (r Reg.GRV_ACK_CTL_CREDIT) ++
  natLe 4 (r Reg.GRV_LOG_CTL_SRC + r Reg.GRV_LOG_CTL_COPIES + r Reg.GRV_LOG_CTL_STEP_SIZE)

/-- This member's roll-call record (R446). -/
def Eng.ownRecord (e : Eng) : List Byte :=
  let plain := if e.rgns.any (fun r => r.cls == 5) then 1 else 0
  let strict := if e.on Reg.UPD_CTL_STRICT then 2 else 0
  padTo 128 (e.layoutDigest ++ natLe 8 (e.rd Reg.GRV_RGN_DIGEST_DIGEST) ++ natLe 8 (e.rd Reg.UPD_UPROG_DIGEST_DIGEST) ++
    natLe 4 (e.rd Reg.GEN_ID_FW_VERSION) ++ natLe 4 e.place ++ natLe 4 (e.rd Reg.GRV_MAP_STAT_GROVE) ++ natLe 1 e.pos ++
    natLe 1 e.ownLanes ++ natLe 1 (plain + strict) ++ [0] ++ e.configBytes ++ zeros 4 ++ e.map.digest)

/-- The first field in which a record differs, as a reason code in the order of R447. DEDUCED: log entry 11. -/
def Eng.recordDiffers (e : Eng) (own r : List Byte) : Option Nat :=
  let part := fun (b : List Byte) (o n : Nat) => (b.drop o).take n
  if part r 0x50 32 != part own 0x50 32 then some 0x01
  else if part r 0x00 32 != part own 0x00 32 then some 0x02
  else if fieldAt r 0x34 4 % 2 ^ 20 != e.placeOf (fieldAt r 0x3C 1) then some 0x03
  else if part r 0x28 8 != part own 0x28 8 then some 0x04
  else if part r 0x30 4 != part own 0x30 4 then some 0x05
  else if bit (fieldAt r 0x3E 1) 1 != bit (fieldAt own 0x3E 1) 1 then some 0x06
  else if part r 0x40 12 != part own 0x40 12 then some 0x07
  else none

/-- The roll call is refused. DEDUCED: log entry 11. -/
def Eng.refuseRoll (e : Eng) (reason pos status : Nat) : Eng :=
  let e := (e.flag Reg.GRV_RC_STAT_FAILED true).flag Reg.GRV_RC_STAT_PASSED false
  ((e.wr Reg.GRV_RC_STAT_REASON reason).wr Reg.GRV_RC_STAT_BAD_POS pos).endStart status

/-- The floor of R284: the grove's used lanes over its nominal lanes. -/
def Eng.floorCheck (e : Eng) (recs : List (Nat × List Byte)) : Eng × Bool :=
  let used := e.ownLanes + (recs.map (fun r => fieldAt r.2 0x3D 1)).sum
  let nominal := ((List.range e.w).map (nominalLanes e.w)).sum
  let pct := 100 * used / nominal
  let under := decide (pct < e.rd Reg.GRV_PLANE_CTL_FLOOR)
  let e := (e.wr Reg.GRV_PLANE_STAT_GROVE_PCT pct).flag Reg.GRV_PLANE_STAT_UNDER under
  let e := if under then e.raise .PLANE_UNDER else e
  (e, !under || e.on Reg.GRV_PLANE_CTL_ALLOW)

/-- Step 3: DIGEST, TABLE and the floor; then the lock (R71, R284, R448). `recs` are the members' records, none where no
roll call is made. DEDUCED: log entry 11. -/
def Eng.groveChecks (e : Eng) (recs : List (Nat × List Byte)) : Eng :=
  let mine := e.rd (Reg.GRV_LAYOUT_DIGEST 0)
  match e.rgns.find? (fun r => r.protectedCls && r.layoutDg != mine) with
  | some r => e.badRegion 0x11 r.num
  | none =>
    if recs.any (fun r => fieldAt r.2 0x20 8 != e.rd Reg.GRV_RGN_DIGEST_DIGEST) then e.badRegion 0x13 0
    else if recs.isEmpty then e.takeLock
    else
      let (e, ok) := e.floorCheck recs
      if !ok then e.endStart stBadUse
      else
        let plain := (recs.filter (fun r => bit (fieldAt r.2 0x3E 1) 0)).map (·.1)
        ({ e with loss := { e.loss with plain := plain } } : Eng).takeLock

/-- The records held are compared; once every position's is held and agrees, the processing goes on (R447, R448). -/
def Eng.rollCheck (e : Eng) : Eng :=
  if !e.rc.active then e
  else
    let others := (List.range e.w).filter (· != e.pos)
    let recs := e.rc.records.filter (fun r => others.contains r.1)
    match recs.findSome? (fun r => (e.recordDiffers e.rc.own r.2).map (fun why => (r.1, why))) with
    | some (p, why) => e.refuseRoll why p stGroveRefused
    | none =>
      if recs.length < others.length then e
      else
        let e := (e.flag Reg.GRV_RC_STAT_PASSED true).wr Reg.GRV_RC_STAT_REASON 0
        (e.setRc (fun c => { c with active := false })).groveChecks recs

/-- This member's record goes to one position; an engine without its place takes part in no roll call (R34), nor
does one that has not come up (R435). -/
def Eng.sendRecord (e : Eng) (p : Nat) : Eng :=
  if !e.on Reg.GEN_PLACE_VALID || !e.on Reg.GEN_BOOT_READY then e
  else e.emit (.fabricWrite (e.placeOf p) apRollCall (128 * e.pos) e.mapKey e.rc.own)

/-- Step 2: the roll call. DEDUCED: log entry 11. -/
def Eng.startRollCall (e : Eng) : Eng :=
  if e.mapBadShape then e.refuseRoll 0x09 e.pos stGeomBad
  else if !e.on Reg.GRV_CFG_VALID || e.on Reg.GRV_MAP_CTL_GRAFT then e.groveChecks []
  else
    let others := (List.range e.w).filter (· != e.pos)
    let own := e.ownRecord
    let e := e.setRc (fun c => { c with active := true, own := own, unsent := others })
    (e.each others (fun p e => e.sendRecord p)).rollCheck

/-- A start-lock write (R448, R493). DEDUCED: log entry 11. -/
def Eng.startLock (e : Eng) (v : Nat) : Eng :=
  if Reg.GEN_START_LOCK.of v != 1 || e.on Reg.GEN_START_BUSY || e.locked then e
  else
    let e := ((e.flag Reg.GEN_START_BUSY true).wr Reg.GEN_START_STATUS stNotReady).clearFits
    let e := e.wr Reg.GRV_RGN_DIGEST_DIGEST e.rgnDigest
    let e := e.wr Reg.UPD_UPROG_DIGEST_DIGEST (leNat ((sha3_256 (bytesAt e.progs 0 (16 * slotBytes))).take 8))
    match e.regionChecks with
    | some (why, n) => e.badRegion why n
    | none =>
      let e := e.wr Reg.GRV_STAGE_SIZE_BYTES e.stageRoom
      match e.fits.find? (fun f => !f.2) with
      | some f => (e.flag f.1 false).endStart stBadUse
      | none =>
        if e.keyOk then e.startRollCall else (e.flag Reg.SEC_STAT_KEY_NEED true).endStart stBadUse

def genStartFields : List Fld := [Reg.GEN_START_LOCKED, Reg.GEN_START_BUSY, Reg.GEN_START_STATUS, Reg.GEN_START_LOCK]

/-- START_LOCK: a write of GEN_START (R448). -/
def execStartLock (v : Word) (s : State) : Host.Outcome State Fault Refusal :=
  .next (s.run (fun e => e.write .coding genStartFields v.toNat (fun e => e.startLock v.toNat)))

/-- A write to the roll-call aperture (R435, R446, R452, R538). -/
def Eng.rollRecord (e : Eng) (key requester pos : Nat) (r : List Byte) : Eng :=
  if !e.on Reg.GEN_BOOT_READY || e.fenced then e.refuseFabric
  else if e.boot.inReset then { e with late := e.late ++ [.roll key requester pos r] }
  else
    let e := if e.on Reg.GEN_PWR_ASLEEP then e.startClocks else e
    if r.length != 128 || !e.on Reg.GEN_PLACE_VALID then e.refuseFabric
    else if key != e.mapKey then (e.bump Reg.GRV_RC_STAT_KEY_MISS).refuseFabric
    else
      let e := (e.setRc (fun c => { c with records := put c.records pos r })).emit (.fabricAnswer (some []))
      (e.wr Reg.GRV_RC_STAT_HELD (setBit (e.rd Reg.GRV_RC_STAT_HELD) pos)).rollCheck

/-- ROLL_CALL_RECORD (R446). -/
def execRollCallRecord (key : Word) (requester : Place) (pos : Fin 16) (rec : List Byte) (s : State) :
    Host.Outcome State Fault Refusal :=
  .next (s.run (fun e => e.rollRecord key.toNat requester.toNat pos.val rec))

/-- ROLL_CALL_RESEND: of the writes outstanding, those at the named positions have completed, and the others are made again
(R446). -/
def execRollCallResend (completed : List (Fin 16)) (s : State) : Host.Outcome State Fault Refusal :=
  .next (s.run (fun e =>
    if e.boot.inReset || e.fenced then e
    else
      let e := e.setRc (fun c => { c with unsent := c.unsent.filter (fun p => !(completed.map (·.val)).contains p) })
      e.each e.rc.unsent (fun p e => e.sendRecord p)))

/-- ROLL_CALL_TIMEOUT: GRV_RC_CTL.TIMEOUT has passed since the start-lock write (R447). -/
def execRollCallTimeout (s : State) : Host.Outcome State Fault Refusal :=
  .next (s.run (fun e => if e.rc.active && !e.boot.inReset then e.refuseRoll 0x08 0 stRollTimeout else e))

end Sys2Proof.Machine
end

