-- ==== Sys2Proof/Machine/Boundary.lean ====
section
/-!
DEFINITION. Sys2Proof/Machine/Boundary.lean: the declaration of boundaries (R157, R158, R342, R344, R430, R431), the delivery of the
global count (R160, R472) and the end of a resumption (R451 to R453).
-/
namespace Sys2Proof.Machine

/-! ### Boundaries -/

/-- The step a boundary names becomes the last of its sequence (R157). -/
def Eng.noteBoundary (e : Eng) (b : Bnd) : Eng :=
  let e := if seqOf b.kind = 0
    then (e.setRings (fun g => { g with seenStep := true })).wr Reg.GRV_BND_LAST_LAST_STEP b.step
    else (e.setRings (fun g => { g with seenTstep := true })).wr Reg.GRV_BND_LAST_LAST_TSTEP b.step
  e.wr Reg.GRV_RING_STEP_LAST_STEP b.step

/-- A declaration keeps the order of its sequence (R157). DEDUCED: log entry 16. -/
def Eng.inOrder (e : Eng) (b : Bnd) : Bool :=
  if seqOf b.kind = 0 then !e.rings.seenStep || precedes (e.rd Reg.GRV_BND_LAST_LAST_STEP) b.step
  else !e.rings.seenTstep || precedes (e.rd Reg.GRV_BND_LAST_LAST_TSTEP) b.step

/-- The anchor that waits for its boundary meets it, or has missed it (R342). `ring`: the ring that ends here.
DEDUCED: log entry 64. -/
def Eng.anchorMeets (e : Eng) (b : Bnd) (ring : Option Nat) (hit gone : List (Bool × Nat)) : Eng :=
  match e.keep.anchor with
  | none => e
  | some a =>
    if a.bnd.isSome then e
    else if hit.contains (a.byCount, a.step) then
      match ring with
      | some n => e.setAnchor (fun a => { a with ring := n, bnd := some b })
      | none => e.anchorLate
    else if gone.contains (a.byCount, a.step) then e.anchorLate
    else e

/-- Copies that step boundaries take go at once where no flush has begun (R80). A boundary with no ring open has no ring to
name: the copy's RING is then free. DESIGN CHOICE: log entry 71. -/
def Eng.stepCopies (e : Eng) (b : Bnd) : Eng :=
  let ring := match e.openRing? with | some n => n | none => (Config.freeWord e.free).toNat
  let e := if e.openRing?.isSome then e else e.useFree 1
  e.each (e.rgns.filter (fun r => r.mirror && bit r.sync 0)) (fun r e => e.startCopy r b ring)

/-- The link-power loop wakes ports 0 to 2 before a step's traffic (R430). -/
def Eng.prewake (e : Eng) : Eng :=
  if e.on Reg.HLT_LINK_LOOP_PREWAKE then
    e.each ((List.range 3).filter (fun p => e.portState p == psLow)) (fun p e => e.wakePort p)
  else e

/-- What a declared boundary does once the start lock is set. DEDUCED: log entry 48. -/
def Eng.meetBoundary (e : Eng) (b : Bnd) : Eng :=
  let en := e.on Reg.GRV_SEAL_CTL_EN
  let qual := e.qualifying b.kind
  let hit := if en then e.keep.picks.filter (pickHits qual b) else []
  let gone := if en then e.keep.picks.filter (pickPassed b) else []
  let pick := qual && !hit.isEmpty
  let e := e.setKeep (fun k => { k with picks := k.picks.filter (fun p => !hit.contains p && !gone.contains p),
                                        due := { k.due with boundaries := k.due.boundaries + 1 } })
  let was := e.openRing?
  let e := e.boundaryRing b pick
  let ended : Option Nat := match was with | some n => if e.ringSt n == .flushing then some n else none | none => none
  let e := (e.anchorMeets b (if qual then ended else none) hit gone).dueCheck
  let e := if bit b.kind 0 && ended.isNone then e.stepCopies b else e
  if ended.isSome then e.sealDecision b.count else e

/-- A write of GRV_BND_DECL (R157). A job risk becomes current, and ports wake, at every declared boundary, before the start lock too
(R430, R431). -/
def Eng.declareBoundary (e : Eng) (v : Nat) : Eng :=
  let b : Bnd := { step := Reg.GRV_BND_DECL_STEP.of v, kind := Reg.GRV_BND_DECL_KIND.of v, count := e.rd Reg.GRV_BND_COUNT_COUNT }
  if b.kind = 0 then e
  else if !e.inOrder b then e.raise .BND_ORDER
  else
    let e := (e.noteBoundary b).jobRiskAt b
    let e := if e.locked && e.serving then e.meetBoundary b else e
    if bit b.kind 0 then e.prewake else e

/-- BOUNDARY_DECLARE (R157). -/
def execBoundaryDeclare (v : DWord) (s : State) : Host.Outcome State Fault Refusal :=
  .next (s.run (fun e => e.write .coding [Reg.GRV_BND_DECL_KIND, Reg.GRV_BND_DECL_STEP] v.toNat
    (fun e => e.declareBoundary v.toNat)))

/-! ### The global count -/

/-- A scheduled seal request is late (R160): the count is past GRV_SEAL_AT by the seal timeout. DEDUCED: log entry 78. -/
def Eng.sealLateCheck (e : Eng) (c : Nat) : Eng :=
  let at_ := e.rd Reg.GRV_SEAL_AT_COUNT
  let late := at_ ≤ c && e.rd Reg.GRV_SEAL_CTL_TIMEOUT * 10000000000 ≤ (c - at_) * e.rd Reg.TIM_GCNT_CTL_PERIOD
  if e.on Reg.GRV_SEAL_CTL_SCHED_ARM && !e.rings.lateRaised && late then
    (e.setRings (fun g => { g with lateRaised := true })).raise .SEAL_LATE
  else e

/-- A value of the global count is delivered (R472). -/
def Eng.gcount (e : Eng) (v : Nat) : Eng :=
  if v < e.rd Reg.TIM_GCOUNT_COUNT then e.bump Reg.TIM_GCNT_CTL_BACK
  else ((e.wr Reg.TIM_GCOUNT_COUNT v).flag Reg.TIM_GCNT_CTL_LOST false).sealLateCheck v

/-- GCOUNT_DELIVERY (R472). -/
def execGcountDelivery (v : DWord) (s : State) : Host.Outcome State Fault Refusal := .next (s.run (fun e => if e.pins.pwrGood then e.gcount v.toNat else e))

/-! ### The end of a resumption -/

/-- An access that was withheld is taken (R452). -/
def Eng.resumeLate (e : Eng) (w : Withheld) : Eng :=
  match w with
  | .map key requester off data => e.mapWrite key requester off data
  | .roll key requester pos record => e.rollRecord key requester pos record
  | w => e.takeLate w

/-- CORE_RESUMED: the resumption ends, `micros` µs after the reset, or the shadow has failed its check (R451 to R453, R458).
DEDUCED: log entry 88. -/
def execCoreResumed (shadowOk : Bool) (micros : Nat) (s : State) : Host.Outcome State Fault Refusal :=
  .next (s.run (fun e =>
    if !e.boot.inReset then e
    else if !shadowOk then e.leaveService 3
    else
      let late := e.late
      let e := ({ e with late := [] } : Eng).resumed micros
      let e := e.each late (fun w e => e.resumeLate w)
      (e.each (List.range 4) (fun p e => e.pump p)).settle))

end Sys2Proof.Machine
end

