-- ==== Sys2Proof/Machine/Mgmt.lean ====
section
/-!
DEFINITION. Sys2Proof/Machine/Mgmt.lean: the management path (R398 to R400, R410, R510 to R515): key delivery, status, views, and the
MCTP control messages.
-/
namespace Sys2Proof.Machine

/-- A response (R511). -/
def Eng.respond (e : Eng) (code inst status : Nat) (body : List Byte) : Eng :=
  e.emit (.mgmt ((code + 0x80) % 256) inst status body)

/-! ### Keys (R396 to R400) -/

/-- The module answers for keys: every power-on self-test has passed and it is not in its error state (R405, R406).
DEDUCED: log entry 21. -/
def Eng.moduleReady (e : Eng) : Bool := e.on Reg.SEC_STAT_ST_DONE && !e.on Reg.SEC_STAT_ERROR

/-- The generator is seeded where it is not instantiated, and anew after 2^48 draws (R395). DESIGN CHOICE: log entry 6. -/
def Sec.seeded (s : Sec) : Sec :=
  if s.reseed = 0 || 2 ^ 48 < s.reseed then
    { s with drbg := drbgUpdate s.drbg (drbgDerive (Config.seedInput s.seeds)), reseed := 1, seeds := s.seeds + 1 }
  else s

/-- 32 B from the generator. -/
def Sec.draw (s : Sec) : Sec × List Byte :=
  let s := s.seeded
  let (st, out) := drbgGenerate s.drbg
  ({ s with drbg := st, reseed := s.reseed + 1 }, out)

/-- KEY_CHALLENGE: a new challenge, drawn from the generator, replaces the last (R398). -/
def Eng.challenge (e : Eng) (inst : Nat) : Eng :=
  if !e.moduleReady then e.respond 0x10 inst 6 []
  else
    let (s, c) := e.sec.draw
    let e : Eng := { e with sec := { s with challenge := some c } }
    e.respond 0x10 inst 0 (c ++ natLe 8 e.fuses.serial)

/-- The device transport key (R397). -/
def Eng.transportKey (e : Eng) : List Byte := kdf (Config.deviceRootKey 0) "SCE8 DTK" (natLe 8 e.fuses.serial)

/-- The fields of a wrapped bundle that stand in clear are sound (R399, R400). -/
def bundleOk (b : List Byte) : Bool :=
  b.length == 192 && fieldAt b 0 2 == 1 && fieldAt b 2 2 < 8 && fieldAt b 2 2 != 0 && fieldAt b 4 8 != 0 && zeroAt b 0xBC 4

/-- An absent key's bytes are zero (R399). -/
def absentZero (contents : Nat) (body : List Byte) : Bool :=
  (List.range 3).all (fun i => bit contents i || zeroAt body (32 * i) 32)

/-- The keys of a bundle body are installed (R400). -/
def Eng.installKeys (e : Eng) (contents job : Nat) (body : List Byte) : Eng :=
  let key := fun (i : Nat) (old : Option (List Byte)) => if bit contents i then some ((body.drop (32 * i)).take 32) else old
  let s := e.sec
  let e : Eng := { e with sec := { s with jlk := key 0 s.jlk, amk := key 1 s.amk, atk := key 2 s.atk } }
  let e := (e.wr Reg.SEC_STAT_KEYS (e.rd Reg.SEC_STAT_KEYS ||| contents)).wr Reg.SEC_JOB_ID_JOB_ID job
  e.flag Reg.LED_CTL_KEY e.sec.atk.isSome

/-- KEY_LOAD: the checks in the order of R400, the challenge consumed whatever the outcome; the status, and the engine
after. DEDUCED: log entry 21. -/
def Eng.loadKeys (e : Eng) (b : List Byte) : Eng × Nat :=
  match e.sec.challenge with
  | none => (e, 1)
  | some ch =>
    let e : Eng := { e with sec := { e.sec with challenge := none } }
    if !bundleOk b then (e, 2)
    else if e.locked then (e, 3)
    else
      let contents := fieldAt b 2 2
      let aad := b.take 24 ++ ch ++ natLe 8 e.fuses.serial
      match gcmOpen e.transportKey ((b.drop 12).take 12) aad ((b.drop 24).take 148) ((b.drop 0xAC).take 16) with
      | none => (e.authFail Reg.SEC_AUTH_FAIL_BUNDLE, 4)
      | some body =>
        if !absentZero contents body then (e, 4)
        else if !zeroAt body 96 52 then (e, 2)
        else if e.rd Reg.SEC_STAT_KEYS != 0 && e.rd Reg.SEC_JOB_ID_JOB_ID != fieldAt b 4 8 then (e, 5)
        else if !e.moduleReady then (e, 6)
        else if e.on Reg.SEC_STAT_ROOT_BLOCKED then (e, 7)
        else (e.installKeys contents (fieldAt b 4 8) body, 0)

/-- DEDUCED: log entry 21. -/
def Eng.keyLoad (e : Eng) (inst : Nat) (b : List Byte) : Eng :=
  let (e, st) := e.loadKeys b
  e.respond 0x11 inst st []

/-! ### Status and views (R511 to R515) -/

/-- A register's whole value, from the fields a row of the register map gives it. -/
def Eng.regWord (e : Eng) (flds : List Fld) : Nat := flds.foldl (fun a f => a + e.rd f * 2 ^ f.lo) 0

/-- The register at an offset, as its fields stand. -/
def Eng.regRaw (e : Eng) (off : Nat) : Nat :=
  match regAt off with
  | some (r, i, j) => e.regWord (r.flds i j)
  | none => 0

/-- STATUS_GET (R511). -/
def Eng.statusGet (e : Eng) (inst : Nat) : Eng :=
  let loss := e.regRaw 0x080008
  e.respond 0x01 inst 0 (natLe 8 (e.regRaw 0x000400) ++ natLe 4 (e.regRaw 0x030000) ++ natLe 4 (e.regRaw 0x000118)
    ++ natLe 2 (bits loss 47 32) ++ natLe 1 (bits loss 31 30))

/-- DEDUCED: log entry 53. -/
def Eng.setViews (e : Eng) (vs : List View) : Eng := { e with mgmt := { e.mgmt with views := vs } }

/-- What VIEW_SET does to the views: none where no entry can be had (R512). DEDUCED: log entry 53. -/
def Eng.viewsWith (e : Eng) (place v : Nat) : Option (List View) :=
  let vs := e.mgmt.views
  let d := e.dataView place
  let new := fun (n : Nat) => ({ slot := n, place := place, mgt := v, data := d, since := e.now, reported := false } : View)
  if v = 0 then some (vs.filter (fun x => x.place != place))
  else if vs.any (fun x => x.place == place) then
    some (vs.map (fun x => if x.place == place then
      { x with mgt := v, since := if x.mgt = v then x.since else e.now, reported := x.reported && disagree x.data v } else x))
  else
    match (List.range 64).find? (fun n => !vs.any (fun x => x.slot == n)) with
    | some n => some (vs ++ [new n])
    | none =>
      match vs.find? (fun x => (e.boundPos x.place).isNone) with
      | some old => some (vs.filter (fun x => x.slot != old.slot) ++ [new old.slot])
      | none => none

/-- VIEW_SET (R512 to R514): a view of LOST declares the position at its place lost, or ends an evacuation to the spare there (R235,
R271). DEDUCED: log entry 53. -/
def Eng.viewSet (e : Eng) (inst place v : Nat) : Eng :=
  if 2 < v then e.respond 0x02 inst 1 []
  else
    match e.viewsWith place v with
    | none => e.respond 0x02 inst 2 []
    | some vs =>
      let e := (e.setViews vs).respond 0x02 inst 0 []
      let e := if v != 2 then e
        else if e.on Reg.GEN_PLACE_VALID && place == e.place then e.selfFence
        else match e.boundPos place with
          | some x => if e.locked then e.declareLost x 2 else e
          | none => if 1 ≤ e.evacPhase && e.evacPhase ≤ 3 && place == e.evac.spare then e.abortEvac stCancelled else e
      (if v = 1 then e.admitHeld else e).settle

/-- VIEW_GET (R511). -/
def Eng.viewGet (e : Eng) (inst place : Nat) : Eng :=
  let e := e.noteViews
  let v := e.mgmt.views.find? (fun x => x.place == place)
  let age := match v with
    | some x => min (2 ^ 32 - 1) ((e.now - x.since) / 1000000)
    | none => 0
  e.respond 0x03 inst 0 (natLe 1 (e.dataView place) ++ natLe 1 (match v with | some x => x.mgt | none => 0) ++ natLe 4 age)

/-- A disagreement has lasted 1 s: it is recorded once (R515). -/
def Eng.pathDisagree (e : Eng) (place : Nat) : Eng :=
  let e := e.noteViews
  match e.mgmt.views.find? (fun x => x.place == place) with
  | none => e
  | some v =>
    if v.reported || !disagree v.data v.mgt then e
    else
      let e := e.setViews (e.mgmt.views.map (fun x => if x.place == place then { x with reported := true } else x))
      let e := ((e.flag Reg.MGT_DISAGREE_VALID true).wr Reg.MGT_DISAGREE_PLACE place).wr Reg.MGT_DISAGREE_DATA v.data
      ((e.wr Reg.MGT_DISAGREE_MGT v.mgt).wr Reg.MGT_DISAGREE_TIME (e.now / 1000000)).raise .PATH_DISAGREE

/-! ### Messages (R510, R511) -/

/-- A message of Glaquin's own, after the enterprise number: an unknown code or a wrong length answers BAD_MSG.
DEDUCED: log entry 53. -/
def Eng.ownMessage (e : Eng) (code inst : Nat) (body : List Byte) : Eng :=
  match code, body.length with
  | 0x01, 0 => e.statusGet inst
  | 0x02, 5 => e.viewSet inst (fieldAt body 0 4) (fieldAt body 4 1)
  | 0x03, 4 => e.viewGet inst (fieldAt body 0 4)
  | 0x10, 0 => e.challenge inst
  | 0x11, 192 => e.keyLoad inst body
  | 0x12, 0 => (e.zeroize false).respond 0x12 inst 0 []
  | _, _ => e.respond code inst 1 []

/-- The management port answers from the end of step 1 of the power-on sequence. DEDUCED: log entry 21. -/
def Eng.onPort (e : Eng) (f : Eng → Eng) : Eng := if e.alive then f e else e

/-- STATUS_GET (R511). -/
def execStatusGet (inst : Byte) (s : State) : Host.Outcome State Fault Refusal :=
  .next (s.run (fun e => e.onPort (fun e => e.statusGet inst.toNat)))

/-- VIEW_SET (R513). -/
def execViewSet (inst : Byte) (place : Word) (view : Byte) (s : State) : Host.Outcome State Fault Refusal :=
  .next (s.run (fun e => e.onPort (fun e => e.viewSet inst.toNat place.toNat view.toNat)))

/-- VIEW_GET (R511). -/
def execViewGet (inst : Byte) (place : Word) (s : State) : Host.Outcome State Fault Refusal :=
  .next (s.run (fun e => e.onPort (fun e => e.viewGet inst.toNat place.toNat)))

/-- KEY_CHALLENGE (R398). -/
def execKeyChallenge (inst : Byte) (s : State) : Host.Outcome State Fault Refusal :=
  .next (s.run (fun e => e.onPort (fun e => e.challenge inst.toNat)))

/-- KEY_LOAD (R400). -/
def execKeyLoad (inst : Byte) (bundle : List Byte) (s : State) : Host.Outcome State Fault Refusal :=
  .next (s.run (fun e => e.onPort (fun e => e.keyLoad inst.toNat bundle)))

/-- KEY_ZEROIZE (R410). -/
def execKeyZeroize (inst : Byte) (s : State) : Host.Outcome State Fault Refusal :=
  .next (s.run (fun e => e.onPort (fun e => (e.zeroize false).respond 0x12 inst.toNat 0 [])))

/-- BAD_MSG: a message of the type with an unknown code or a wrong length (R511). -/
def execBadMsg (code inst : Byte) (s : State) : Host.Outcome State Fault Refusal :=
  .next (s.run (fun e => e.onPort (fun e => e.respond code.toNat inst.toNat 1 [])))

/-- FOREIGN_VENDOR_MESSAGE: a message that carries another enterprise number is discarded without an answer (R510); one that
carries Glaquin's is answered. -/
def execForeignVendorMessage (vendor : Word) (body : List Byte) (s : State) : Host.Outcome State Fault Refusal :=
  .next (s.run (fun e => e.onPort (fun e =>
    if vendor.toNat = 64771 && 2 ≤ body.length then e.ownMessage (fieldAt body 0 1) (fieldAt body 1 1) (body.drop 2) else e)))

/-- PATH_DISAGREE (R515). -/
def execPathDisagree (place : Place) (s : State) : Host.Outcome State Fault Refusal :=
  .next (s.run (fun e => e.pathDisagree place.toNat))

/-- DYNAMIC_ADDRESS_ASSIGNMENT (R510). -/
def execDynamicAddressAssignment (addr : BitVec 7) (s : State) : Host.Outcome State Fault Refusal :=
  .next (s.run (fun e => e.onPort (fun e => { e with mgmt := { e.mgmt with dynAddr := addr.toNat } })))

/-- SET_ENDPOINT_ID: operations 0 and 1 set the ID, which is neither 0 nor 0xFF; the others are not supported (R510; the
message as DSP0236 lays it out, PRESUMED, log entry 52). -/
def execSetEndpointId (op : BitVec 2) (eid : Byte) (s : State) : Host.Outcome State Fault Refusal :=
  .next (s.run (fun e => e.onPort (fun e =>
    if op.toNat < 2 && eid.toNat != 0 && eid.toNat != 255 then
      ({ e with mgmt := { e.mgmt with eid := eid.toNat } } : Eng).emit (.mctp 1 [0, 0, eid, 0])
    else e.emit (.mctp 1 [2]))))

/-- GET_ENDPOINT_ID (R510). PRESUMED: log entry 52. -/
def execGetEndpointId (s : State) : Host.Outcome State Fault Refusal :=
  .next (s.run (fun e => e.onPort (fun e => e.emit (.mctp 2 [0, byteOf e.mgmt.eid, 0, 0]))))

/-- GET_MCTP_VERSION_SUPPORT: the base specification, control messages and the vendor type are supported; the spec gives no
version numbers, which are free values (R510). PRESUMED: log entry 52. -/
def execGetMctpVersionSupport (msgType : Byte) (s : State) : Host.Outcome State Fault Refusal :=
  .next (s.run (fun e => e.onPort (fun e =>
    if [0xFF, 0x00, 0x7F].contains msgType.toNat then (e.useFree 4).emit (.mctp 4 ([0, 1] ++ e.freeBytes 4))
    else e.emit (.mctp 4 [0x80]))))

/-- GET_MESSAGE_TYPE_SUPPORT: one message type, 0x7F (R510). PRESUMED: log entry 52. -/
def execGetMessageTypeSupport (s : State) : Host.Outcome State Fault Refusal :=
  .next (s.run (fun e => e.onPort (fun e => e.emit (.mctp 5 [0, 1, 0x7F]))))

end Sys2Proof.Machine
end

