-- ==== Sys2Proof/Machine/Queue.lean ====
section
/-!
DEFINITION. Sys2Proof/Machine/Queue.lean: the command queues (R495 to R502): doorbells, halts, the acceptance of descriptors, their
timeouts, and the mailboxes' own commands (R505, R506).
-/
namespace Sys2Proof.Machine

/-! ### What holds a descriptor at the head of its queue (R500, R501) -/

/-- Every opcode but NOP and SCRUB_RANGE needs the start lock (R500). -/
def needsLock (op : Op) : Bool :=
  match op with
  | .nop => false
  | .scrubRange _ _ _ => false
  | _ => true

/-- Commands that need the crypto module (R406, DEDUCED, log entry 42). -/
def needsModule (op : Op) : Bool :=
  match op with
  | .anchorWrite _ => true
  | .anchorRestore _ => true
  | .adopt _ => true
  | .tensorDigest _ => true
  | _ => false

/-- A graft in this grove stands in phase 1 to 4, at this engine as its spare or as a member (R261). -/
def Eng.graftHolds (e : Eng) : Bool :=
  (match e.graft with | some g => !g.standby && 1 ≤ e.graftPhase && e.graftPhase ≤ 4 | none => false) ||
  e.loss.grafts.any (fun g => 1 ≤ g.2 && g.2 ≤ 4)

/-- The 257th run waits, and a run that writes a region whose parity is being encoded (R192, R364). -/
def Eng.admitWaits (e : Eng) (addr : Nat) : Bool :=
  match e.runDesc addr with
  | none => false
  | some d =>
    !badRunDesc d && !bit (fieldAt d 1 1) 1 && (e.runFault (e.newRun 0 d)).isNone &&
    (256 ≤ e.liveRuns.length || (e.writtenBy (e.newRun 0 d)).any (fun l => e.encoding l.1))

/-- The opcode's own chapter holds the command at the head of its queue. DEDUCED: log entry 81. -/
def Eng.opWaits (e : Eng) (op : Op) : Bool :=
  match op with
  | .ringOpen _ => e.graftHolds
  | .ringRollback _ _ => e.rings.roll.isSome
  | .updateRun a => e.admitWaits a
  | .scrubRange _ _ _ => decide (4 ≤ e.scrubs.length)
  | .tensorDigest _ => decide (2 ≤ e.keep.hashes.length)
  | .anchorRestore _ => e.encodeWaits
  | .reLeaf _ _ _ => e.encodeWaits
  | _ => false

/-- The reason for which R500 refuses a descriptor, 0 for none. DEDUCED: log entry 60. -/
def Eng.badReason (e : Eng) (f : Fetched) : Nat :=
  match f.op with
  | none => f.bad
  | some op => if needsLock op && !e.locked && !e.on Reg.GEN_START_BUSY then rsNoLock else 0

/-- A command with its mailbox open cannot be accepted yet: a FENCE holds it, also one that will be refused (R498), or
start-lock processing, or its chapter. A descriptor that has been lost waits for nothing. DEDUCED: log entry 60. -/
def Eng.holdsQueue (e : Eng) (q : Nat) (f : Fetched) : Bool :=
  !f.lost && ((bit f.flags 0 && e.q.opens.any (fun c => c.queue == q)) ||
  match f.op with
  | none => false
  | some op =>
    e.badReason f == 0 && ((needsLock op && e.on Reg.GEN_START_BUSY) || e.opWaits op))

/-! ### The operations -/

/-- RING_OPEN: the first one after the start lock ends what only a fresh job may do (R363, R366). -/
def Eng.opRingOpen (e : Eng) (id n : Nat) : Eng :=
  let opens := e.closed && !e.rolling && e.mayOpen n
  let e := if opens then e.setKeep (fun k => { k with started := true, encoded := [], answered := [] }) else e
  e.ringOpen id n

/-- RING_ROLLBACK: provisional rows of the rings rolled back are given up (R251), and an anchor of one of them aborts (R358). -/
def Eng.opRollback (e : Eng) (id c n : Nat) : Eng :=
  let e := e.ringRollback id c n
  let e := if e.rings.nextN == some n && e.rings.frozen == some c then e.rollRows c else e
  match e.keep.anchor with
  | some a => if a.bnd.isSome && e.ringSt a.ring == .rolled then e.abortAnchor stRolledBack 0 else e
  | none => e

/-- GRAFT_BEGIN on a member that is not the spare: it completes when the member has answered the spare (R84, R245, R262).
DEDUCED: log entry 62. -/
def Eng.memberBegin (e : Eng) (id x : Nat) : Eng :=
  if !e.on (Reg.GRV_MEMBER_PRESENT x) || x == e.pos || e.loss.plain.contains x then e.refuse id rsRule []
  else
    let lost := bit e.lostMap x
    let joined := !lost && ((look e.loss.grafts x).isSome || e.loss.fabric.contains x)
    let gs := if lost && (look e.loss.grafts x).isNone then put e.loss.grafts x phJoin else e.loss.grafts
    let e := (({ e with loss := { e.loss with grafts := gs } } : Eng).noteGraftEdge (lost && (look e.loss.grafts x).isNone)).drEnd x
    if joined then e.complete id stOk (e.graftResult 0 x [])
    else { e with loss := { e.loss with begins := e.loss.begins ++ [(id, x)] } }

/-- GRAFT_BEGIN (R84, R252, R267): MODE 1 on a standby spare, MODE 0 on the spare of a position, whose region table is that of the
position, or on another member.
DEDUCED: log entry 62. -/
def Eng.graftBegin (e : Eng) (id x mode : Nat) : Eng :=
  if mode = 1 then
    if e.on Reg.GRV_MAP_CTL_STANDBY && e.graft.isNone then e.startGraft id x true else e.refuse id rsRule []
  else if mode != 0 || 16 ≤ x then e.refuse id rsRule []
  else if e.on Reg.GRV_MAP_CTL_GRAFT && x == e.pos then
    if e.graft.isNone && !e.rgns.any (fun r => r.cls == 5) then e.startGraft id x false else e.refuse id rsRule []
  else e.memberBegin id x

/-- RESUME_SET on the spare (R257, R262). DEDUCED: log entry 62. -/
def Eng.opResumeSet (e : Eng) (id addr count : Nat) : Eng :=
  match e.graft with
  | none => e.refuse id rsRule []
  | some g =>
    if g.standby || g.resume.isSome || (count != 0 && e.usableTop < addr + 4 * count) then e.refuse id rsRule []
    else
      let tags := if count = 0 then none else some ((List.range count).map (fun i => e.memNat (addr + 4 * i) 4))
      let e := e.setGraft (fun g => { g with resume := some id, tags := tags })
      if phRinged ≤ e.graftPhase then e.resumeDone
      else if e.graftPhase = phResume then
        match e.graft with
        | some g => e.setGraft (fun g' => { g' with todo := (e.resumeSet g).filter e.toRebuild, leaf := none })
        | none => e
      else e

/-- An accepted command's own effect (R499). -/
def Eng.startOp (e : Eng) (id : Nat) (bads : List LineRead) (op : Op) : Eng :=
  match op with
  | .nop => e.complete id stOk []
  | .ringOpen n => (e.opRingOpen id n).settle
  | .ringSeal step seq => e.ringSeal id step seq
  | .ringCommit r => (e.ringCommit id r).settle
  | .ringRollback c n => (e.opRollback id c n).settle
  | .stepRetire t => (e.stepRetire id t).settle
  | .updateRun a => e.updateRun id a
  | .graftBegin x mode => (e.graftBegin id x mode).settle
  | .resumeSet a n => (e.opResumeSet id a n).settle
  | .evacuate mode spare => (e.evacuate id mode spare).settle
  | .scrubRange base len flags => (e.startScrub id base len flags bads).settle
  | .anchorWrite a => e.anchorWrite id a
  | .anchorRestore a => e.anchorRestore id a
  | .reLeaf region step ring => (e.reLeaf id region step ring).settle
  | .adopt a => (e.adopt id a).settle
  | .tensorDigest a => (e.tensorDigest id a).hashNext id

/-! ### Acceptance (R496, R498, R500, R501, R507) -/

/-- What an accepted command does: it is refused, it fails at once, or it starts. DEDUCED: log entry 60. -/
def Eng.runCmd (e : Eng) (id : Nat) (f : Fetched) : Eng :=
  if f.lost then e.complete id stInternal []
  else
  match f.op with
  | none => e.refuse id f.bad []
  | some op =>
    if e.badReason f != 0 then e.refuse id (e.badReason f) []
    else if e.oos then e.complete id stOutOfService []
    else if needsModule op && e.on Reg.SEC_STAT_ERROR then e.complete id stCryptoError []
    else e.startOp id f.bads op

/-- A descriptor is kept at the head of its queue. -/
def Eng.keepFetched (e : Eng) (q : Nat) (f : Fetched) : Eng :=
  { e with q := { e.q with fetched := put e.q.fetched q f } }

/-- The descriptor at the head of a queue is accepted if it may be; else it waits there, its mailbox open if that was empty
(R501, R504, R507). DEDUCED: log entry 60. -/
def Eng.tryAccept (e : Eng) (q : Nat) (f : Fetched) : Eng :=
  if !f.opened && !e.mboxEmpty f.mailbox then
    let e := if f.counted then e else e.bump (Reg.CQ_STAT_MBOX_WAIT q)
    e.keepFetched q { f with counted := true }
  else
    let e := if f.opened then e else e.openMbox f.mailbox f.opcode f.seq
    let f := { f with opened := true }
    if e.holdsQueue q f then e.keepFetched q f
    else ((e.openCmd q f).runCmd e.q.nextId f).fetchNext q

/-- What a queue's descriptor read brings: an error response halts the queue, and so does a mailbox number of 256 or more
(R497). A queue with a descriptor that waits offers that one again. DEDUCED: log entry 60. -/
def Eng.arrive (e : Eng) (q : Nat) (r : Option Fetched) : Eng :=
  if e.boot.inReset || !e.fetchable q then e
  else
    match look e.q.fetched q with
    | some f => e.tryAccept q f
    | none =>
      let e : Eng := { e with q := { e.q with asked := e.q.asked.filter (· != q) } }
      match r with
      | none => e.haltQueue q 1
      | some f => if 256 ≤ f.mailbox then e.haltQueue q 2 else e.tryAccept q f

/-- COMMAND_ACCEPT: the descriptor read of a queue is answered, or the descriptor that waits at its head is looked at again
(R495 to R501). DEDUCED: log entry 60. -/
def execCommandAccept (q : Fin 4) (fetched : Option (List Byte)) (s : State) : Host.Outcome State Fault Refusal :=
  .next (s.run (fun e => e.arrive q.val (fetched.map readDesc)))

/-! ### Queue registers (R495 to R497) -/

/-- A write of CQ_TAILq (R496). DEDUCED: log entry 14. -/
def Eng.doorbell (e : Eng) (q v : Nat) : Eng :=
  let t := (Reg.CQ_TAIL_TAIL q).of v
  if e.queueSize q ≤ t then e.bump (Reg.CQ_STAT_BAD_DB q)
  else (e.wr (Reg.CQ_TAIL_TAIL q) t).fetchNext q

/-- A write of CQ_CTLq (R497). DEDUCED: log entry 15. -/
def Eng.queueCtl (e : Eng) (q v : Nat) : Eng :=
  let e := if e.on (Reg.CQ_CTL_EN q) then e else e.sw (Reg.CQ_CTL_LOG2SIZE q) v
  if (Reg.CQ_CTL_EN q).of v = 1 then
    let e := (e.flag (Reg.CQ_CTL_EN q) true).flag (Reg.CQ_CTL_HALTED q) false
    ((e.wr (Reg.CQ_CTL_HALT_WHY q) 0).setLevel (.CQ_HALT q) false).fetchNext q
  else (e.flag (Reg.CQ_CTL_EN q) false).dropFetched q

/-- A write of CQ_BASEq or CQ_HEADq: ignored while EN is 1 (R497). DEDUCED: log entry 15. -/
def Eng.queueBase (e : Eng) (q v : Nat) : Eng :=
  if e.on (Reg.CQ_CTL_EN q) then e else e.wr (Reg.CQ_BASE_BASE q) ((Reg.CQ_BASE_BASE q).of v)

/-- DEDUCED: log entry 15. -/
def Eng.queueHead (e : Eng) (q v : Nat) : Eng :=
  if e.on (Reg.CQ_CTL_EN q) then e
  else e.wr (Reg.CQ_HEAD_HEAD q) ((Reg.CQ_HEAD_HEAD q).of v % e.queueSize q)

def queueCtlFields (q : Nat) : List Fld :=
  [Reg.CQ_CTL_EN q, Reg.CQ_CTL_HALTED q, Reg.CQ_CTL_HALT_WHY q, Reg.CQ_CTL_LOG2SIZE q]

/-- DOORBELL: a write of CQ_TAILq (R495, R496). A doorbell starts the fast clocks (R438). -/
def execDoorbell (q : Fin 4) (v : Word) (s : State) : Host.Outcome State Fault Refusal :=
  .next (s.run (fun e => e.write .coding [Reg.CQ_TAIL_TAIL q] v.toNat (fun e => e.doorbell q v.toNat)))

/-- QUEUE_ENABLE: a write of CQ_CTLq with EN at 1 (R497). -/
def execQueueEnable (q : Fin 4) (v : Word) (s : State) : Host.Outcome State Fault Refusal :=
  .next (s.run (fun e => e.write .coding (queueCtlFields q) v.toNat (fun e => e.queueCtl q v.toNat)))

/-- QUEUE_DISABLE: a write of CQ_CTLq with EN at 0 (R497). -/
def execQueueDisable (q : Fin 4) (v : Word) (s : State) : Host.Outcome State Fault Refusal :=
  .next (s.run (fun e => e.write .coding (queueCtlFields q) v.toNat (fun e => e.queueCtl q v.toNat)))

/-! ### Timeouts and mailboxes (R456, R502, R505, R506) -/

/-- A GRAFT_BEGIN has timed out: a join held for it is dropped (R514). DEDUCED: log entry 62. -/
def Eng.dropJoin (e : Eng) (op : Op) : Eng :=
  match op with
  | .graftBegin x 0 => { e with heldJoins := e.heldJoins.filter (fun h => !(h.pkt.typ == tGraftJoin && h.pkt.row == x)) }
  | _ => e

/-- COMMAND_TIMEOUT: the timeout of the open command that holds a mailbox expires; its work runs on (R456, R502).
DEDUCED: log entry 14. -/
def execCommandTimeout (mailbox : BitVec 8) (s : State) : Host.Outcome State Fault Refusal :=
  .next (s.run (fun e =>
    match e.q.opens.find? (fun c => c.mailbox == mailbox.toNat) with
    | none => e
    | some c => ((e.endCmd c stTimeout).raise .CMD_TIMEOUT).dropJoin c.op))

/-- The value of MBX_HDRb. -/
def Eng.mboxHeader (e : Eng) (b : Nat) : Nat :=
  e.rd (Reg.MBX_HDR_STATUS b) * 2 ^ 48 + e.rd (Reg.MBX_HDR_READS b) * 2 ^ 40 + e.rd (Reg.MBX_HDR_OPCODE b) * 2 ^ 32
    + e.rd (Reg.MBX_HDR_SEQ b)

/-- A read of MBX_HDRb: counted while the mailbox is ready (R505); in the coding core's reset it shows its reset value (R450).
DEDUCED: log entries 15 and 41. -/
def Eng.headerRead (e : Eng) (b : Nat) : Eng :=
  if e.boot.inReset then e.emit (.answer 0)
  else
  let e := if look e.q.mbox b == some .ready then e.bump (Reg.MBX_HDR_READS b) else e
  e.emit (.answer (e.mboxHeader b))

/-- MAILBOX_HEADER_READ (R505). -/
def execMailboxHeaderRead (b : BitVec 8) (s : State) : Host.Outcome State Fault Refusal :=
  .next (s.run (fun e => e.access .coding (fun e => e.headerRead b.toNat)))

/-- A write of MBX_ACK (R506). DEDUCED: log entry 15. -/
def Eng.mboxAck (e : Eng) (v : Nat) : Eng :=
  let b := Reg.MBX_ACK_MAILBOX.of v
  if look e.q.mbox b == some .ready && e.rd (Reg.MBX_HDR_SEQ b) == Reg.MBX_ACK_SEQ.of v then
    (e.emptyMbox b).bump Reg.MBX_STAT_ACKED
  else e.bump Reg.MBX_STAT_BAD_ACK

/-- MAILBOX_ACK (R506). -/
def execMailboxAck (v : DWord) (s : State) : Host.Outcome State Fault Refusal :=
  .next (s.run (fun e => e.write .coding [Reg.MBX_ACK_SEQ, Reg.MBX_ACK_MAILBOX] v.toNat (fun e => e.mboxAck v.toNat)))

end Sys2Proof.Machine
end

