-- ==== Sys2Proof/Machine/Commands.lean ====
section
/-!
DEFINITION. Sys2Proof/Machine/Commands.lean: one meaning for each command of R499 as its own row: the descriptor read of its queue
brings that command.
-/
namespace Sys2Proof.Machine

/-- The descriptor read of a queue brings a descriptor with these fields and this operation. -/
def Eng.command (e : Eng) (h : CmdHdr) (op : Op) : Eng := e.arrive h.queue.val (some (hdrDesc h op))

/-- NOP (R499). -/
def execNop (h : CmdHdr) (s : State) : Host.Outcome State Fault Refusal := .next (s.run (fun e => e.command h .nop))

/-- RING_OPEN (R156, R186). -/
def execRingOpen (h : CmdHdr) (n : Word) (s : State) : Host.Outcome State Fault Refusal :=
  .next (s.run (fun e => e.command h (.ringOpen n.toNat)))

/-- RING_SEAL (R158). -/
def execRingSeal (h : CmdHdr) (step : Word) (seq : Byte) (s : State) : Host.Outcome State Fault Refusal :=
  .next (s.run (fun e => e.command h (.ringSeal step.toNat seq.toNat)))

/-- RING_COMMIT (R177). -/
def execRingCommit (h : CmdHdr) (r : Word) (s : State) : Host.Outcome State Fault Refusal :=
  .next (s.run (fun e => e.command h (.ringCommit r.toNat)))

/-- RING_ROLLBACK (R181). -/
def execRingRollback (h : CmdHdr) (c n : Word) (s : State) : Host.Outcome State Fault Refusal :=
  .next (s.run (fun e => e.command h (.ringRollback c.toNat n.toNat)))

/-- STEP_RETIRE (R138). -/
def execStepRetire (h : CmdHdr) (t : Word) (s : State) : Host.Outcome State Fault Refusal :=
  .next (s.run (fun e => e.command h (.stepRetire t.toNat)))

/-- UPDATE_RUN (R192). -/
def execUpdateRun (h : CmdHdr) (addr : DWord) (s : State) : Host.Outcome State Fault Refusal :=
  .next (s.run (fun e => e.command h (.updateRun addr.toNat)))

/-- RUN_RESUME: an UPDATE_RUN whose descriptor in memory has RESUME set (R208). -/
def execRunResume (h : CmdHdr) (addr : DWord) (s : State) : Host.Outcome State Fault Refusal :=
  .next (s.run (fun e => e.command h (.updateRun addr.toNat)))

/-- RUN_CANCEL: an UPDATE_RUN whose descriptor in memory has RESUME and CANCEL set (R208). -/
def execRunCancel (h : CmdHdr) (addr : DWord) (s : State) : Host.Outcome State Fault Refusal :=
  .next (s.run (fun e => e.command h (.updateRun addr.toNat)))

/-- GRAFT_BEGIN with MODE 0 (R252). -/
def execGraftBegin (h : CmdHdr) (x : Byte) (s : State) : Host.Outcome State Fault Refusal :=
  .next (s.run (fun e => e.command h (.graftBegin x.toNat 0)))

/-- GRAFT_BEGIN with MODE 1, STANDBY (R267). -/
def execGraftBeginStandby (h : CmdHdr) (x : Byte) (s : State) : Host.Outcome State Fault Refusal :=
  .next (s.run (fun e => e.command h (.graftBegin x.toNat 1)))

/-- RESUME_SET (R257). -/
def execResumeSet (h : CmdHdr) (addr : DWord) (count : BitVec 16) (s : State) : Host.Outcome State Fault Refusal :=
  .next (s.run (fun e => e.command h (.resumeSet addr.toNat count.toNat)))

/-- EVACUATE with MODE 0 (R268). -/
def execEvacuateCopy (h : CmdHdr) (spare : Word) (s : State) : Host.Outcome State Fault Refusal :=
  .next (s.run (fun e => e.command h (.evacuate 0 spare.toNat)))

/-- EVACUATE with MODE 1 (R269). -/
def execEvacuateCutover (h : CmdHdr) (spare : Word) (s : State) : Host.Outcome State Fault Refusal :=
  .next (s.run (fun e => e.command h (.evacuate 1 spare.toNat)))

/-- EVACUATE with MODE 2 (R271). -/
def execEvacuateAbort (h : CmdHdr) (spare : Word) (s : State) : Host.Outcome State Fault Refusal :=
  .next (s.run (fun e => e.command h (.evacuate 2 spare.toNat)))

/-- SCRUB_RANGE (R330): `bad` are the lines of the range that do not read CLEAN. -/
def execScrubRange (h : CmdHdr) (base len : DWord) (flags : Word) (bad : List LineRead) (s : State) :
    Host.Outcome State Fault Refusal :=
  .next (s.run (fun e => e.arrive h.queue.val
    (some { hdrDesc h (.scrubRange base.toNat len.toNat flags.toNat) with bads := bad })))

/-- ANCHOR_WRITE (R341). -/
def execAnchorWrite (h : CmdHdr) (addr : DWord) (s : State) : Host.Outcome State Fault Refusal :=
  .next (s.run (fun e => e.command h (.anchorWrite addr.toNat)))

/-- ANCHOR_CANCEL: an ANCHOR_WRITE whose block in memory has CANCEL set (R358). -/
def execAnchorCancel (h : CmdHdr) (addr : DWord) (s : State) : Host.Outcome State Fault Refusal :=
  .next (s.run (fun e => e.command h (.anchorWrite addr.toNat)))

/-- ANCHOR_RESTORE (R361). -/
def execAnchorRestore (h : CmdHdr) (addr : DWord) (s : State) : Host.Outcome State Fault Refusal :=
  .next (s.run (fun e => e.command h (.anchorRestore addr.toNat)))

/-- RE_LEAF (R364). -/
def execReLeaf (h : CmdHdr) (region : BitVec 16) (step ring : Word) (s : State) : Host.Outcome State Fault Refusal :=
  .next (s.run (fun e => e.command h (.reLeaf region.toNat step.toNat ring.toNat)))

/-- ADOPT (R366). -/
def execAdopt (h : CmdHdr) (addr : DWord) (s : State) : Host.Outcome State Fault Refusal :=
  .next (s.run (fun e => e.command h (.adopt addr.toNat)))

/-- TENSOR_DIGEST (R375). -/
def execTensorDigest (h : CmdHdr) (addr : DWord) (s : State) : Host.Outcome State Fault Refusal :=
  .next (s.run (fun e => e.command h (.tensorDigest addr.toNat)))

end Sys2Proof.Machine
end

