-- ==== Sys2Proof/Machine/View.lean ====
section
/-!
DEFINITION. Sys2Proof/Machine/View.lean: what a read of a register returns (R11, R13, R487): the stored fields, the fields that show
other state of the engine, the capability list (R492) and the context-table aperture (R488), with the reads that have an
effect (R466, R484, R505).
-/
namespace Sys2Proof.Machine

/-! ### Fields that show other state -/

/-- GRV_RING_STATE (R188). -/
def Eng.viewRings (e : Eng) : Eng :=
  let votes := match e.rings.recs.find? (fun r => r.st == .localSealed) with
    | some r => bitsWhere 16 (fun p => match e.vote? r.num p with | some v => v.complete | none => false)
    | none => 0
  ((e.wr Reg.GRV_RING_STATE_BASE_ST (ringCode (e.ringSt e.base))).wr Reg.GRV_RING_STATE_NEXT_ST
    (ringCode (e.ringSt (w32 (e.base + 1))))).wr Reg.GRV_RING_STATE_VOTES votes

/-- GRV_RING_STEP.SEALED_STEP: STEP of the boundary that ended ring BASE. -/
def Eng.viewSealed (e : Eng) : Eng :=
  e.wr Reg.GRV_RING_STEP_SEALED_STEP (match (e.ring? e.base).bind (·.bnd) with | some b => b.step | none => 0)

/-- GRV_SEAL_CTL.PEND: a request of any of the sources of R158 is pending. DEDUCED: log entry 64. -/
def Eng.viewPend (e : Eng) : Eng :=
  e.flag Reg.GRV_SEAL_CTL_PEND
    (e.on Reg.GRV_SEAL_CTL_SCHED_ARM || e.rings.reqs.any (fun q => q.ring.isNone) || !e.keep.picks.isEmpty)

/-- GRV_ADV_STAT of the selected region (R91). -/
def Eng.viewAdvisor (e : Eng) : Eng :=
  match e.advs.find? (fun a => a.region == e.rd Reg.GRV_ADV_SEL_REGION) with
  | none => e
  | some a =>
    ((e.wr Reg.GRV_ADV_STAT_MEAN a.mean).wr Reg.GRV_ADV_STAT_STREAK (min a.streak 255)).wr Reg.GRV_ADV_STAT_PROPOSE
      (if a.switch != 0 then 3 else a.propose)

/-- GRV_SESS_STAT of the selected position (R300). -/
def Eng.viewSession (e : Eng) : Eng :=
  match e.sessAt (e.placeOf (e.rd Reg.GRV_SESS_SEL_POS)) with
  | none => e
  | some s => ((e.wr Reg.GRV_SESS_STAT_GEN s.gen).wr Reg.GRV_SESS_STAT_STATE s.st).wr Reg.GRV_SESS_STAT_TX_LOW s.tx

/-- MGT_VIEW of the selected entry (R512). -/
def Eng.viewMgt (e : Eng) : Eng :=
  match e.noteViews.mgmt.views.find? (fun v => v.slot == e.rd Reg.MGT_VIEW_SEL_ENTRY) with
  | none => e
  | some v =>
    let e := ((e.flag Reg.MGT_VIEW_VALID true).wr Reg.MGT_VIEW_DATA v.data).wr Reg.MGT_VIEW_MGT v.mgt
    (e.wr Reg.MGT_VIEW_PLACE v.place).wr Reg.MGT_VIEW_AGE (min (2 ^ 32 - 1) ((e.now - v.since) / 1000000))

/-- HLT_LANE of the selected lane (R418). -/
def Eng.viewLane (e : Eng) : Eng :=
  let l := e.laneHealth (e.rd Reg.HLT_LANE_SEL_LANE)
  ((e.wr Reg.HLT_LANE_EYE l.eye).wr Reg.HLT_LANE_BER_CODE l.ber).wr Reg.HLT_LANE_CORR l.corr

/-- HLT_EOL of the selected unit (R424); a unit beyond its kind's count shows 0. -/
def Eng.viewEol (e : Eng) : Eng :=
  let k := e.rd Reg.HLT_EOL_SEL_KIND
  let u := e.rd Reg.HLT_EOL_SEL_UNIT
  if kindUnits k ≤ u then
    ((e.wr Reg.HLT_EOL_PRED 0).wr Reg.HLT_EOL_LOW90 0).flag Reg.HLT_EOL_NO_TREND false
  else
    let l := e.lifeOf k u
    let w := e.wearOf k u
    let e := ((e.wr Reg.HLT_EOL_PRED l.1).wr Reg.HLT_EOL_LOW90 l.2.1).flag Reg.HLT_EOL_NO_TREND l.2.2
    (e.wr Reg.HLT_EOL_STRESS (w.stress / 2 ^ 23)).wr Reg.HLT_EOL_SAMPLES w.samples.length

/-- GRV_GF_TEST: the product and the inverse of its operands (R46). -/
def Eng.viewGf (e : Eng) : Eng :=
  let a := e.rd Reg.GRV_GF_TEST_A
  (e.wr Reg.GRV_GF_TEST_PROD (gfMul a (e.rd Reg.GRV_GF_TEST_B))).wr Reg.GRV_GF_TEST_INV_A (gfInv a)

/-- DIG_STAT.STALE: leaves with a quick digest that is not current (R369, R372). -/
def Eng.viewStale (e : Eng) : Eng :=
  e.wr Reg.DIG_STAT_STALE ((e.rgns.flatMap (fun r => (List.range r.rows).map r.leaf)).filter (fun l =>
    e.digLeaf (l * leafBytes) && !(e.dig l).current)).length

/-- GRV_REPLAY_STAT.LEAVES: own streamed leaves that the graft under way has still to rebuild and replay (R149).
DEDUCED: log entry 63. -/
def Eng.viewReplay (e : Eng) : Eng :=
  e.wr Reg.GRV_REPLAY_STAT_LEAVES (if e.graft.isSome then
    ((e.rowsWhere (·.streamed) (fun r s => !e.isParityRow r s)).filter (fun l => e.isRebuilding (l.1.leaf l.2))).length else 0)

/-- The engine with the fields of the register at an offset as a read shows them. -/
def Eng.viewed (e : Eng) (off : Nat) : Eng :=
  if off = 0x000410 then
    e.wr Reg.GEN_RESET_STAT_IN_WINDOW (e.boot.resetsAt.filter (fun t => e.now < t + 600000000000)).length
  else if off = 0x060010 then e.viewGf
  else if off = 0x060148 then e.viewAdvisor
  else if off = 0x060328 then e.viewReplay
  else if off = 0x070038 then e.countIntake
  else if off = 0x060310 || off = 0x0B0060 then e.noteWaits
  else if off = 0x060400 then e.viewPend
  else if off = 0x060430 then e.viewRings
  else if off = 0x060438 then e.viewSealed
  else if off = 0x060510 then e.viewSession
  else if off = 0x090018 then (if e.locked && e.serving then e.dueFlags else e)
  else if off = 0x0A0058 then e.viewStale
  else if off = 0x0B0030 then e.wr Reg.HLT_IND_X (e.health.x.getD (e.rd Reg.HLT_IND_SEL_INDEX) 0)
  else if off = 0x0B0040 then e.viewLane
  else if off = 0x0B0070 then e.viewEol
  else if off = 0x0C0908 then e.viewMgt
  else if off = 0x010E00 then e.flag Reg.INT_STAT_WIRE (e.intr.delivered.any (fun n => bit (e.target n) 1))
  else if off = 0x010010 then e.wr (Reg.INT_SRC_CFG_TARGET 4) (e.target 4)
  else if off = 0x010304 then e.wr (Reg.INT_SRC_CFG_TARGET 193) (e.target 193)
  else if off = 0x020000 then e.wr Reg.TIM_NOW_NS e.now
  else if off = 0x020110 then e.wr Reg.SYN_VAL_VALUE (e.sync (e.rd Reg.SYN_SEL_OBJ))
  else e

/-- The value that a read of a register returns: a write-only field reads zero (R11). -/
def Eng.readValue (e : Eng) (off : Nat) (flds : List Fld) : Nat :=
  (e.viewed off).regWord (flds.filter (fun f => f.acc != .wo))

/-! ### The capability list (R490 to R492) -/

/-- A capability header. -/
def capHeader (next len id : Nat) : Nat := next * 2 ^ 32 + len * 2 ^ 24 + 2 ^ 16 + id

/-- The words of the capability list, by offset from 0x800. -/
def capWords : List Nat :=
  [capHeader 0x820 3 1, 0x100, 0x108, 0x110,
   capHeader 0x830 1 2, 4 + 256 * 2 ^ 8 + 16 * 2 ^ 24 + 64 * 2 ^ 32 + 128 * 2 ^ 40,
   capHeader 0x840 1 3, 0x1FFF + 16 * 2 ^ 16 + 2 ^ 24 + 256 * 2 ^ 32 + 8 * 2 ^ 48 + 6 * 2 ^ 56,
   capHeader 0x850 1 4, 65536 + 64 * 2 ^ 32,
   capHeader 0x860 1 5, 30,
   capHeader 0x870 1 6, 0x01000000 + 16 * 2 ^ 32,
   capHeader 0 1 7, 0x0000FD03 + 0x7F * 2 ^ 32]

/-! ### The context-table aperture (R488) -/

/-- The 16 B of a context. -/
def Eng.apertureBytes (e : Eng) (leaf : Nat) : List Byte :=
  let c := e.ctx leaf
  let r := if e.locked then e.rgnOver (leaf * leafBytes) else none
  let cls := match r with | some r => r.cls | none => 5
  let num := match r with | some r => r.num | none => 0
  let d := if c.digest then 2 ^ 19 else 0
  natLe 4 (c.heat % 256 * 2 ^ 24 + d + c.st % 8 * 2 ^ 16 + cls % 8 * 2 ^ 12 + num % 4096) ++ natLe 4 c.stamp ++ natLe 4 c.seq
    ++ natLe 4 c.ring

/-- A read or write of the aperture: writes, and reads with the expert bit clear, as it is in the coding core's reset, are errors.
DEDUCED: log entries 41 and 79. -/
def Eng.ctxAccess (e : Eng) (wr : Bool) (off bytes : Nat) : Eng :=
  if e.boot.inReset then e.emit .busError
  else if wr || !e.on Reg.GEN_EXPERT_CONTEXT then (e.flag Reg.GEN_ERR_EXPERT_WR true).emit .busError
  else e.emit (.answer (fieldAt (e.apertureBytes (off / 16)) (off % 16) bytes))

/-! ### Reads -/

/-- An access that R10 or R487 refuses: an error response, counted where the register that counts it answers.
DEDUCED: log entry 7. -/
def Eng.badAccess (e : Eng) : Eng :=
  (if e.answers .coding && !e.boot.inReset then e.bump Reg.GEN_ERR_BAD_ACC else e).emit .busError

/-- A register at its reset values, as the coding core's read from its reset until the resumption (R450, R451). DEDUCED: log entry 41. -/
def resetWord (flds : List Fld) : Nat :=
  (flds.filter (fun f => f.acc != .wo)).foldl (fun a f => a + f.reset * 2 ^ f.lo) 0

/-- A read of a register, with the three effects that reads have (R505). -/
def Eng.readEffect (e : Eng) (r : RegRow) (i j : Nat) : Eng :=
  if r.base = 0x010C00 then e.claim i
  else if r.base = 0x0C1000 then e.headerRead i
  else
    let off := r.base + i * r.str1 + j * r.str2
    let e' := if off = 0x020000 then e.wr Reg.TIM_FRAC_FRAC (bits e.time.acc 31 24) else e
    e'.emit (.answer (if r.dom == .coding && e.boot.inReset then resetWord (r.flds i j) else e.readValue off (r.flds i j)))

/-- A read at an offset of the register window, of a width in bytes. DEDUCED: log entry 7. -/
def Eng.regRead (e : Eng) (off bytes : Nat) : Eng :=
  let word := (bytes == 4 || bytes == 8) && off % bytes == 0
  if !word || 2 ^ 25 ≤ off then e.badAccess
  else if 0x1000000 ≤ off then e.access .coding (fun e => e.ctxAccess false (off - 0x1000000) bytes)
  else if 0x100000 ≤ off && off < 0x140000 then
    e.access .coding (fun e => e.emit (.answer (if e.boot.inReset then 0 else leNat (bytesAt e.descs (off - 0x100000) bytes))))
  else if 0x200000 ≤ off && off < 0x220000 then
    e.access .coding (fun e => e.emit (.answer (leNat (bytesAt e.progs (off - 0x200000) bytes))))
  else if inCaps off then
    if bytes = 8 then e.access .alwaysOn (fun e => e.emit (.answer (capWords.getD ((off - 0x800) / 8) 0))) else e.badAccess
  else
    match regAt off with
    | some (r, i, j) => if r.bits = 8 * bytes then e.access r.dom (fun e => e.readEffect r i j) else e.badAccess
    | none => e.badAccess

end Sys2Proof.Machine
end

