-- ==== Sys2Proof/Machine/RegWrite.lean ====
section
/-!
DEFINITION. Sys2Proof/Machine/RegWrite.lean: a write at any offset of the register window (R10 to R13, R487, R488, R494), and an
access that the window refuses (R10, R487).
-/
namespace Sys2Proof.Machine

/-! ### Registers whose write does more than store fields -/

/-- A write of GP_PWRp: IDLE stays within the bounds of an enabled link-power loop (R426). -/
def Eng.portPower (e : Eng) (p v : Nat) : Eng :=
  let e := e.putFields [Reg.GP_PWR_IDLE p, Reg.GP_PWR_LOW_EN p] v
  if e.on Reg.HLT_LINK_LOOP_EN then e.clampValue Reg.HLT_LINK_LOOP_FLOOR Reg.HLT_LINK_LOOP_CEIL (Reg.GP_PWR_IDLE p) else e

/-- A write of SEC_CTL (R410). -/
def Eng.secWrite (e : Eng) (v : Nat) : Eng :=
  let e := e.putField v Reg.SEC_CTL_TAMPER_KILL
  if Reg.SEC_CTL_ZEROIZE.of v = 1 && Reg.SEC_CTL_ZKEY.of v = 0xC3 then (e.zeroize false).settle else e

/-- ZEROIZE_COMMAND: a write of SEC_CTL (R410). TAMPER_KILL takes the write until the start lock. -/
def execZeroizeCommand (v : Word) (s : State) : Host.Outcome State Fault Refusal :=
  .next (s.run (fun e =>
    e.write .alwaysOn [Reg.SEC_CTL_ZKEY, Reg.SEC_CTL_TAMPER_KILL, Reg.SEC_CTL_ZEROIZE] v.toNat (fun e => e.secWrite v.toNat)))

/-- A write of GEN_EXPERT: the bits that stand in two places follow it (R509). -/
def Eng.expertWrite (e : Eng) (v : Nat) : Eng :=
  let e := (e.sw Reg.GEN_EXPERT_CONTEXT v).spillExpert (Reg.GEN_EXPERT_SPILL.of v == 1)
  e.advisorExpert (Reg.GEN_EXPERT_ADVISOR.of v == 1)

/-- A write of GEN_PLACE: the first one sets VALID (R33), one that finds the place fields locked too. DEDUCED: log entry 8. -/
def Eng.placeWrite (e : Eng) (flds : List Fld) (v : Nat) : Eng :=
  (e.flag Reg.GEN_PLACE_VALID true).putFields flds v

/-- A write of GRV_SEAL_AT or GRV_SEAL_CTL: a scheduled request is made anew, and may be late anew (R160). -/
def Eng.schedWrite (e : Eng) (arms : Bool) (flds : List Fld) (v : Nat) : Eng :=
  let e := e.putFields flds v
  if arms then e.setRings (fun g => { g with lateRaised := false }) else e

/-- A write of RBD_THICK_CTL: rows above a lowered MAX are released (R266). -/
def Eng.thickWrite (e : Eng) (v : Nat) : Eng := (e.sw Reg.RBD_THICK_CTL_MAX v).thickTrim 65536

/-- A write of GEN_ERR: a bit set by the write's own reserved bits ends set, whatever the write clears (R14, R489).
DEDUCED: log entry 8. -/
def Eng.errWrite (e : Eng) (flds : List Fld) (v : Nat) : Eng := (e.putFields flds v).rsvdCheck flds v

/-- A write to a register of the general, security, interrupt and time areas; none where it only stores fields. -/
def Eng.writeLow (e : Eng) (base i : Nat) (flds : List Fld) (v : Nat) : Option Eng :=
  if base = 0x000020 then some (e.errWrite flds v)
  else if base = 0x000030 then some (e.startLock v)
  else if base = 0x000038 then some (e.expertWrite v)
  else if base = 0x000118 then some (e.placeWrite flds v)
  else if base = 0x000408 then some (e.sleepWrite v)
  else if base = 0x00040C then some (e.genReset v none)
  else if base = 0x00041C then some (e.pruneWrite v)
  else if base = 0x010000 then some (e.srcCfgWrite i v)
  else if base = 0x010800 then some (e.groupWrite i v)
  else if base = 0x010C04 then some (e.completeSrc i ((Reg.INT_COMPLETE_SOURCE i).of v))
  else if base = 0x020010 then some (e.correct v)
  else if base = 0x020048 then some ((e.wr Reg.TIM_ALARM_NS v).alarmCheck)
  else if base = 0x020110 then some (e.setSync (e.rd Reg.SYN_SEL_OBJ) v)
  else if base = 0x020118 then some (e.signal (Reg.SYN_SIGNAL_OBJ.of v))
  else if base = 0x020200 then some (e.watchWrite i v)
  else if base = 0x020208 then some ((e.sw (Reg.SYN_WATCH_THR_THRESH i) v).watchCheck i)
  else if base = 0x030004 then some (e.secWrite v)
  else none

/-- The same for the ports, the memory side, the grove, rebuild, anchors, the ledger, health and the software interface. -/
def Eng.writeHigh (e : Eng) (base i : Nat) (flds : List Fld) (v : Nat) : Option Eng :=
  if base = 0x040000 then some ((e.portCtl i v).bootReady)
  else if base = 0x040028 then some (e.portPower i v)
  else if base = 0x040038 then some (e.portTest i v)
  else if base = 0x050000 then some (e.layoutWrite v)
  else if base = 0x060140 then some (e.advisorExpert (Reg.GRV_ADV_CTL_EXPERT.of v == 1))
  else if base = 0x090010 then some (let e := e.putFields flds v; if e.locked && e.serving then e.dueCheck else e)
  else if base = 0x06020C then some (e.spillWrite v)
  else if base = 0x060400 then some (e.schedWrite (Reg.GRV_SEAL_CTL_SCHED_ARM.of v == 1) flds v)
  else if base = 0x060418 then some (e.declareBoundary v)
  else if base = 0x060420 then some (e.schedWrite true flds v)
  else if base = 0x060600 then some (e.mapCtlWrite v)
  else if base = 0x080058 then some (e.thickWrite v)
  else if base = 0x0A0048 then some (e.latchRecord (v % 2 ^ 32))
  else if base = 0x0B0090 then some (e.jobRiskWrite v)
  else if base = 0x0C0000 then some (e.queueBase i v)
  else if base = 0x0C0008 then some (e.queueCtl i v)
  else if base = 0x0C000C then some (e.doorbell i v)
  else if base = 0x0C0010 then some (e.queueHead i v)
  else if base = 0x0C0800 then some (e.mboxAck v)
  else none

/-- A write to a register: its own effect, or its fields are stored and the bound rules applied. -/
def Eng.writeReg (e : Eng) (r : RegRow) (i j v : Nat) : Eng :=
  let flds := r.flds i j
  let off := r.base + i * r.str1 + j * r.str2
  e.write r.dom flds v (fun e =>
    match (if r.base < 0x040000 then e.writeLow r.base i flds v else e.writeHigh r.base i flds v) with
    | some e => e
    | none => (e.putFields flds v).fixWritten e off)

/-! ### The register window (R487) -/

/-- Bits of a word of the capability list that carry something, from bit 0 up (R490, R492): the rest are reserved. -/
def capBits : List Nat := [57, 64, 64, 64, 57, 48, 57, 64, 57, 40, 57, 8, 57, 40, 57, 40]

/-- A write to the capability list, whose words are read-only: reserved bits that are not zero are noted (R11, R13). -/
def Eng.capWrite (e : Eng) (off v : Nat) : Eng :=
  if v < 2 ^ capBits.getD ((off - 0x800) / 8) 64 then e else e.flag Reg.GEN_ERR_RSVD_WR true

/-- A write at an offset of the register window, of a width in bytes. DEDUCED: log entry 7. -/
def Eng.regWrite (e : Eng) (off bytes v : Nat) : Eng :=
  let word := (bytes == 4 || bytes == 8) && off % bytes == 0
  if !word || 2 ^ 25 ≤ off then e.badAccess
  else if 0x1000000 ≤ off then e.change .coding (fun e => e.ctxAccess true (off - 0x1000000) bytes)
  else if 0x100000 ≤ off && off < 0x140000 then
    e.change .coding (fun e => e.descWrite ((off - 0x100000) / descBytes) ((off - 0x100000) % descBytes) (natLe bytes v))
  else if 0x200000 ≤ off && off < 0x220000 then
    e.change .coding (fun e => e.storeWrite (off - 0x200000) (natLe bytes v))
  else if inCaps off then if bytes = 8 then e.access .alwaysOn (fun e => e.capWrite off v) else e.badAccess
  else
    match regAt off with
    | some (r, i, j) => if r.bits = 8 * bytes then e.writeReg r i j v else e.badAccess
    | none => e.badAccess

/-- REGISTER_WRITE (R11). -/
def execRegisterWrite (off : Nat) (wide : Bool) (v : DWord) (s : State) : Host.Outcome State Fault Refusal :=
  .next (s.run (fun e => if wide then e.regWrite off 8 v.toNat else e.regWrite off 4 (v.toNat % 2 ^ 32)))

/-- BAD_REGISTER_ACCESS (R10): the window answers as it answers any access, which a wrong width, a misaligned address or a
reserved range makes an error response; an access that is in order has its ordinary effect. -/
def execBadRegisterAccess (wr : Bool) (off : Nat) (bytes : Nat) (v : DWord) (s : State) : Host.Outcome State Fault Refusal :=
  .next (s.run (fun e => if wr then e.regWrite off bytes (v.toNat % 2 ^ (8 * bytes)) else e.regRead off bytes))

end Sys2Proof.Machine
end

