-- ==== Sys2Proof/Machine/Dispatch.lean ====
section
/-! DEFINITION. Sys2Proof/Machine/Dispatch.lean: one arm per command, each a direct call of its meaning. -/
namespace Sys2Proof.Machine

def exec (i : Instr) (s : State) : Host.Outcome State Fault Refusal :=
  match i with
  | .registerWrite off wide v => Sys2Proof.Machine.execRegisterWrite off wide v s
  | .badRegisterAccess wr off bytes v => Sys2Proof.Machine.execBadRegisterAccess wr off bytes v s
  | .descriptorWrite off wide v => Sys2Proof.Machine.execDescriptorWrite off wide v s
  | .descriptorValid n => Sys2Proof.Machine.execDescriptorValid n s
  | .programStoreWrite off wide v => Sys2Proof.Machine.execProgramStoreWrite off wide v s
  | .programSlotValid slot v => Sys2Proof.Machine.execProgramSlotValid slot v s
  | .startLock v => Sys2Proof.Machine.execStartLock v s
  | .rollCallRecord key requester pos rec => Sys2Proof.Machine.execRollCallRecord key requester pos rec s
  | .rollCallResend completed => Sys2Proof.Machine.execRollCallResend completed s
  | .rollCallTimeout => Sys2Proof.Machine.execRollCallTimeout s
  | .mapArm v => Sys2Proof.Machine.execMapArm v s
  | .mapWrite key requester off data => Sys2Proof.Machine.execMapWrite key requester off data s
  | .mapChildTimeout child => Sys2Proof.Machine.execMapChildTimeout child s
  | .mapWaitExpiry => Sys2Proof.Machine.execMapWaitExpiry s
  | .mapFetchComplete data => Sys2Proof.Machine.execMapFetchComplete data s
  | .coreReset v => Sys2Proof.Machine.execCoreReset v s
  | .coreResumed shadowOk micros => Sys2Proof.Machine.execCoreResumed shadowOk micros s
  | .cryptoReset v failing => Sys2Proof.Machine.execCryptoReset v failing s
  | .watchdogExpiry => Sys2Proof.Machine.execWatchdogExpiry s
  | .pruneCluster v => Sys2Proof.Machine.execPruneCluster v s
  | .pruneLane v => Sys2Proof.Machine.execPruneLane v s
  | .unprune v => Sys2Proof.Machine.execUnprune v s
  | .clusterFault c => Sys2Proof.Machine.execClusterFault c s
  | .sleepRequest v => Sys2Proof.Machine.execSleepRequest v s
  | .fastClockWake demand => Sys2Proof.Machine.execFastClockWake demand s
  | .zeroizeCommand v => Sys2Proof.Machine.execZeroizeCommand v s
  | .portRetrain p v => Sys2Proof.Machine.execPortRetrain p v s
  | .portTestRun p v => Sys2Proof.Machine.execPortTestRun p v s
  | .boundaryDeclare v => Sys2Proof.Machine.execBoundaryDeclare v s
  | .jobRiskWrite v => Sys2Proof.Machine.execJobRiskWrite v s
  | .timeCorrection v => Sys2Proof.Machine.execTimeCorrection v s
  | .timeRead => Sys2Proof.Machine.execTimeRead s
  | .alarmSet v => Sys2Proof.Machine.execAlarmSet v s
  | .timeAlarm => Sys2Proof.Machine.execTimeAlarm s
  | .ppsEdge => Sys2Proof.Machine.execPpsEdge s
  | .ppsLost => Sys2Proof.Machine.execPpsLost s
  | .gcountDelivery v => Sys2Proof.Machine.execGcountDelivery v s
  | .gcntLost => Sys2Proof.Machine.execGcntLost s
  | .syncSignal v => Sys2Proof.Machine.execSyncSignal v s
  | .syncSet v => Sys2Proof.Machine.execSyncSet v s
  | .watchEnable n v => Sys2Proof.Machine.execWatchEnable n v s
  | .groupCoalesceTimer g => Sys2Proof.Machine.execGroupCoalesceTimer g s
  | .holdoffEnd g => Sys2Proof.Machine.execHoldoffEnd g s
  | .groupUnmask g v => Sys2Proof.Machine.execGroupUnmask g v s
  | .interruptClaim t => Sys2Proof.Machine.execInterruptClaim t s
  | .interruptComplete t v => Sys2Proof.Machine.execInterruptComplete t v s
  | .doorbell q v => Sys2Proof.Machine.execDoorbell q v s
  | .queueEnable q v => Sys2Proof.Machine.execQueueEnable q v s
  | .queueDisable q v => Sys2Proof.Machine.execQueueDisable q v s
  | .commandAccept q fetched => Sys2Proof.Machine.execCommandAccept q fetched s
  | .commandTimeout mailbox => Sys2Proof.Machine.execCommandTimeout mailbox s
  | .mailboxHeaderRead b => Sys2Proof.Machine.execMailboxHeaderRead b s
  | .mailboxAck v => Sys2Proof.Machine.execMailboxAck v s
  | .ledgerLatch v => Sys2Proof.Machine.execLedgerLatch v s
  | .nop h => Sys2Proof.Machine.execNop h s
  | .ringOpen h n => Sys2Proof.Machine.execRingOpen h n s
  | .ringSeal h step seq => Sys2Proof.Machine.execRingSeal h step seq s
  | .ringCommit h r => Sys2Proof.Machine.execRingCommit h r s
  | .ringRollback h c n => Sys2Proof.Machine.execRingRollback h c n s
  | .stepRetire h t => Sys2Proof.Machine.execStepRetire h t s
  | .stepRetirement => Sys2Proof.Machine.execStepRetirement s
  | .updateRun h addr => Sys2Proof.Machine.execUpdateRun h addr s
  | .runResume h addr => Sys2Proof.Machine.execRunResume h addr s
  | .runCancel h addr => Sys2Proof.Machine.execRunCancel h addr s
  | .graftBegin h x => Sys2Proof.Machine.execGraftBegin h x s
  | .graftBeginStandby h x => Sys2Proof.Machine.execGraftBeginStandby h x s
  | .resumeSet h addr count => Sys2Proof.Machine.execResumeSet h addr count s
  | .evacuateCopy h spare => Sys2Proof.Machine.execEvacuateCopy h spare s
  | .evacuateCutover h spare => Sys2Proof.Machine.execEvacuateCutover h spare s
  | .evacuateAbort h spare => Sys2Proof.Machine.execEvacuateAbort h spare s
  | .scrubRange h base len flags bad => Sys2Proof.Machine.execScrubRange h base len flags bad s
  | .anchorWrite h addr => Sys2Proof.Machine.execAnchorWrite h addr s
  | .anchorCancel h addr => Sys2Proof.Machine.execAnchorCancel h addr s
  | .anchorRestore h addr => Sys2Proof.Machine.execAnchorRestore h addr s
  | .reLeaf h region step ring => Sys2Proof.Machine.execReLeaf h region step ring s
  | .adopt h addr => Sys2Proof.Machine.execAdopt h addr s
  | .tensorDigest h addr => Sys2Proof.Machine.execTensorDigest h addr s
  | .statusGet inst => Sys2Proof.Machine.execStatusGet inst s
  | .viewSet inst place view => Sys2Proof.Machine.execViewSet inst place view s
  | .viewGet inst place => Sys2Proof.Machine.execViewGet inst place s
  | .keyChallenge inst => Sys2Proof.Machine.execKeyChallenge inst s
  | .keyLoad inst bundle => Sys2Proof.Machine.execKeyLoad inst bundle s
  | .keyZeroize inst => Sys2Proof.Machine.execKeyZeroize inst s
  | .setEndpointId op eid => Sys2Proof.Machine.execSetEndpointId op eid s
  | .getEndpointId => Sys2Proof.Machine.execGetEndpointId s
  | .getMctpVersionSupport msgType => Sys2Proof.Machine.execGetMctpVersionSupport msgType s
  | .getMessageTypeSupport => Sys2Proof.Machine.execGetMessageTypeSupport s
  | .foreignVendorMessage vendor body => Sys2Proof.Machine.execForeignVendorMessage vendor body s
  | .pathDisagree place => Sys2Proof.Machine.execPathDisagree place s
  | .tapPair line old new src obark => Sys2Proof.Machine.execTapPair line old new src obark s
  | .captureIdleClose region row sector ring => Sys2Proof.Machine.execCaptureIdleClose region row sector ring s
  | .barkCorrectedReport line corrected => Sys2Proof.Machine.execBarkCorrectedReport line corrected s
  | .referredRead port id line bad => Sys2Proof.Machine.execReferredRead port id line bad s
  | .heatSample leaf => Sys2Proof.Machine.execHeatSample leaf s
  | .heatDecaySweep => Sys2Proof.Machine.execHeatDecaySweep s
  | .heatQuery leaf => Sys2Proof.Machine.execHeatQuery leaf s
  | .holdQuery port id leaf wr => Sys2Proof.Machine.execHoldQuery port id leaf wr s
  | .memoryReadComplete port tag bad => Sys2Proof.Machine.execMemoryReadComplete port tag bad s
  | .memoryWriteResponse port tag discarded => Sys2Proof.Machine.execMemoryWriteResponse port tag discarded s
  | .readSlow port tag => Sys2Proof.Machine.execReadSlow port tag s
  | .stackReady stack gib => Sys2Proof.Machine.execStackReady stack gib s
  | .memReadyTimeout => Sys2Proof.Machine.execMemReadyTimeout s
  | .fillComplete failed => Sys2Proof.Machine.execFillComplete failed s
  | .shareWindow used exempt => Sys2Proof.Machine.execShareWindow used exempt s
  | .shareLoopDecision ageUs waits => Sys2Proof.Machine.execShareLoopDecision ageUs waits s
  | .sramPatrol bank finding => Sys2Proof.Machine.execSramPatrol bank finding s
  | .intakeRecord hdr payload => Sys2Proof.Machine.execIntakeRecord hdr payload s
  | .chunkComplete handle chunk cluster => Sys2Proof.Machine.execChunkComplete handle chunk cluster s
  | .spanUnblock handle span => Sys2Proof.Machine.execSpanUnblock handle span s
  | .tierDone op => Sys2Proof.Machine.execTierDone op s
  | .flushLate => Sys2Proof.Machine.execFlushLate s
  | .tierLate op => Sys2Proof.Machine.execTierLate op s
  | .streamDelta p => Sys2Proof.Machine.execStreamDelta p s
  | .ringDelta p => Sys2Proof.Machine.execRingDelta p s
  | .deltaAck p => Sys2Proof.Machine.execDeltaAck p s
  | .deltaRelease p => Sys2Proof.Machine.execDeltaRelease p s
  | .deltaBusy p => Sys2Proof.Machine.execDeltaBusy p s
  | .heldPacketResume => Sys2Proof.Machine.execHeldPacketResume s
  | .ackDeadlineMiss k dest => Sys2Proof.Machine.execAckDeadlineMiss k dest s
  | .packetResend k dest => Sys2Proof.Machine.execPacketResend k dest s
  | .releaseTimer region row dest => Sys2Proof.Machine.execReleaseTimer region row dest s
  | .localSeal => Sys2Proof.Machine.execLocalSeal s
  | .sealVote p => Sys2Proof.Machine.execSealVote p s
  | .voteReq p => Sys2Proof.Machine.execVoteReq p s
  | .sealTimeout ring => Sys2Proof.Machine.execSealTimeout ring s
  | .commitLate => Sys2Proof.Machine.execCommitLate s
  | .ringStall => Sys2Proof.Machine.execRingStall s
  | .ringApplyEnd => Sys2Proof.Machine.execRingApplyEnd s
  | .rollFetch p => Sys2Proof.Machine.execRollFetch p s
  | .rollData p => Sys2Proof.Machine.execRollData p s
  | .rollEnd p => Sys2Proof.Machine.execRollEnd p s
  | .rollNone p => Sys2Proof.Machine.execRollNone p s
  | .mirrorData p => Sys2Proof.Machine.execMirrorData p s
  | .mirrorDone p => Sys2Proof.Machine.execMirrorDone p s
  | .mirrorAck p => Sys2Proof.Machine.execMirrorAck p s
  | .mirrorTorn p => Sys2Proof.Machine.execMirrorTorn p s
  | .mirrorAckTimeout region copy dest => Sys2Proof.Machine.execMirrorAckTimeout region copy dest s
  | .mirrorRead p => Sys2Proof.Machine.execMirrorRead p s
  | .mirrorLines p => Sys2Proof.Machine.execMirrorLines p s
  | .mirrorNone p => Sys2Proof.Machine.execMirrorNone p s
  | .mirrorReadRetry req => Sys2Proof.Machine.execMirrorReadRetry req s
  | .classProd p => Sys2Proof.Machine.execClassProd p s
  | .prodAck p => Sys2Proof.Machine.execProdAck p s
  | .logData p => Sys2Proof.Machine.execLogData p s
  | .logScalar p => Sys2Proof.Machine.execLogScalar p s
  | .logAck p => Sys2Proof.Machine.execLogAck p s
  | .logRetire p => Sys2Proof.Machine.execLogRetire p s
  | .pointReport p => Sys2Proof.Machine.execPointReport p s
  | .pointDecide p => Sys2Proof.Machine.execPointDecide p s
  | .pointDone p => Sys2Proof.Machine.execPointDone p s
  | .pointSettled p => Sys2Proof.Machine.execPointSettled p s
  | .pointTimeout x => Sys2Proof.Machine.execPointTimeout x s
  | .heartbeatTimer => Sys2Proof.Machine.execHeartbeatTimer s
  | .heartbeat p => Sys2Proof.Machine.execHeartbeat p s
  | .memberSilent xs => Sys2Proof.Machine.execMemberSilent xs s
  | .lossNotice p => Sys2Proof.Machine.execLossNotice p s
  | .rbReq p => Sys2Proof.Machine.execRbReq p s
  | .rbPart p => Sys2Proof.Machine.execRbPart p s
  | .rbDone p => Sys2Proof.Machine.execRbDone p s
  | .rbCredit p => Sys2Proof.Machine.execRbCredit p s
  | .rbChunkTimeout req => Sys2Proof.Machine.execRbChunkTimeout req s
  | .accFallback req => Sys2Proof.Machine.execAccFallback req s
  | .degradedRead store off len key requester => Sys2Proof.Machine.execDegradedRead store off len key requester s
  | .degradedReadTimeout off => Sys2Proof.Machine.execDegradedReadTimeout off s
  | .graftJoin p => Sys2Proof.Machine.execGraftJoin p s
  | .graftWelcome p => Sys2Proof.Machine.execGraftWelcome p s
  | .graftCount p => Sys2Proof.Machine.execGraftCount p s
  | .graftPhase p => Sys2Proof.Machine.execGraftPhase p s
  | .snapNote p => Sys2Proof.Machine.execSnapNote p s
  | .thickNote p => Sys2Proof.Machine.execThickNote p s
  | .heatCopy p => Sys2Proof.Machine.execHeatCopy p s
  | .evacData p => Sys2Proof.Machine.execEvacData p s
  | .evacState p => Sys2Proof.Machine.execEvacState p s
  | .evacReady => Sys2Proof.Machine.execEvacReady s
  | .handover p => Sys2Proof.Machine.execHandover p s
  | .riskEvaluation => Sys2Proof.Machine.execRiskEvaluation s
  | .rateBucketTick => Sys2Proof.Machine.execRateBucketTick s
  | .laneReport lane corrected received eye => Sys2Proof.Machine.execLaneReport lane corrected received eye s
  | .wearSample hours => Sys2Proof.Machine.execWearSample hours s
  | .droopWarn => Sys2Proof.Machine.execDroopWarn s
  | .droopRecover micros => Sys2Proof.Machine.execDroopRecover micros s
  | .linkLoopDecision p => Sys2Proof.Machine.execLinkLoopDecision p s
  | .anchorDueTimer => Sys2Proof.Machine.execAnchorDueTimer s
  | .storageWriteComplete ok => Sys2Proof.Machine.execStorageWriteComplete ok s
  | .storageRetry => Sys2Proof.Machine.execStorageRetry s
  | .weightDigest => Sys2Proof.Machine.execWeightDigest s
  | .digestRecompute leaf => Sys2Proof.Machine.execDigestRecompute leaf s
  | .powerGood flashA flashB tests stores te => Sys2Proof.Machine.execPowerGood flashA flashB tests stores te s
  | .powerLoss => Sys2Proof.Machine.execPowerLoss s
  | .selfTestFail reseed => Sys2Proof.Machine.execSelfTestFail reseed s
  | .computeReset => Sys2Proof.Machine.execComputeReset s
  | .computeResetRelease => Sys2Proof.Machine.execComputeResetRelease s
  | .tamper => Sys2Proof.Machine.execTamper s
  | .flashShareRequest level => Sys2Proof.Machine.execFlashShareRequest level s
  | .portTrainingStep p step lanes met => Sys2Proof.Machine.execPortTrainingStep p step lanes met s
  | .linkReset p => Sys2Proof.Machine.execLinkReset p s
  | .laneLockLoss p l => Sys2Proof.Machine.execLaneLockLoss p l s
  | .dataFlit p flit fecBad => Sys2Proof.Machine.execDataFlit p flit fecBad s
  | .abortFlit p flit fecBad => Sys2Proof.Machine.execAbortFlit p flit fecBad s
  | .relayStall p vc cls => Sys2Proof.Machine.execRelayStall p vc cls s
  | .init p far present attempt => Sys2Proof.Machine.execInit p far present attempt s
  | .id p place pos noPos => Sys2Proof.Machine.execId p place pos noPos s
  | .width p passing w used final => Sys2Proof.Machine.execWidth p passing w used final s
  | .retryReq p fseq => Sys2Proof.Machine.execRetryReq p fseq s
  | .retryReqRepeat p => Sys2Proof.Machine.execRetryReqRepeat p s
  | .ack p fseq => Sys2Proof.Machine.execAck p fseq s
  | .ackTimer p => Sys2Proof.Machine.execAckTimer p s
  | .credit p vc cls freed => Sys2Proof.Machine.execCredit p vc cls freed s
  | .restripe p used fseq => Sys2Proof.Machine.execRestripe p used fseq s
  | .lowReq p => Sys2Proof.Machine.execLowReq p s
  | .lowAck p => Sys2Proof.Machine.execLowAck p s
  | .lowNak p => Sys2Proof.Machine.execLowNak p s
  | .wake p source => Sys2Proof.Machine.execWake p source s
  | .wakeComplete p => Sys2Proof.Machine.execWakeComplete p s
  | .wakeLockTimeout p l => Sys2Proof.Machine.execWakeLockTimeout p l s
  | .beat p senderLow => Sys2Proof.Machine.execBeat p senderLow s
  | .lowLinkSilence p => Sys2Proof.Machine.execLowLinkSilence p s
  | .spillWrite key requester type p => Sys2Proof.Machine.execSpillWrite key requester type p s
  | .routeWrite key requester type p => Sys2Proof.Machine.execRouteWrite key requester type p s
  | .portIdleTimer p => Sys2Proof.Machine.execPortIdleTimer p s
  | .beatTimer p => Sys2Proof.Machine.execBeatTimer p s
  | .deltaBusyEnd pos => Sys2Proof.Machine.execDeltaBusyEnd pos s
  | .rollFetchTimeout region row ring => Sys2Proof.Machine.execRollFetchTimeout region row ring s
  | .referredReadLimit port id => Sys2Proof.Machine.execReferredReadLimit port id s
  | .mapFetchRetry => Sys2Proof.Machine.execMapFetchRetry s
  | .storageReadComplete data => Sys2Proof.Machine.execStorageReadComplete data s
  | .timeSlewEnd => Sys2Proof.Machine.execTimeSlewEnd s
  | .prbsLockTimeout p l => Sys2Proof.Machine.execPrbsLockTimeout p l s
  | .badMsg code inst => Sys2Proof.Machine.execBadMsg code inst s
  | .dynamicAddressAssignment addr => Sys2Proof.Machine.execDynamicAddressAssignment addr s
  | .wrapperInstructionLoad code => Sys2Proof.Machine.execWrapperInstructionLoad code s
  | .instrumentAccess inst wr v => Sys2Proof.Machine.execInstrumentAccess inst wr v s

end Sys2Proof.Machine
end

