-- ==== Sys2Proof/Machine/Step.lean ====
section
/-!
DEFINITION. Sys2Proof/Machine/Step.lean: one step of the machine: the command at the front of the queue, or, with none waiting, one
cycle of the time clock (R466), which the opcode table gives no row (DESIGN CHOICE, log entry 1).
-/
namespace Sys2Proof.Machine

/-- One step: take the command at the front and run it with the queue's rest; on an empty queue engine time advances by one
cycle of the 400 MHz time clock, if the engine has power. DESIGN CHOICE: log entry 1. DESIGN CHOICE: log entry 2. -/
def step (s : State) : Host.Outcome State Fault Refusal :=
  match s.pending with
  | [] => .next (s.run Eng.idle)
  | c :: rest => exec c { s with pending := rest }

/-- The state with the command that a table word spells at the front of its queue. No row of the table has bits, so no word
spells a command. -/
def State.withFetchWord (s : State) (nbits w : Nat) : State :=
  match decodeTableWord nbits w with
  | some c => { s with pending := c :: s.pending }
  | none => s

end Sys2Proof.Machine
end

