-- ==== Sys2Proof/WellFormed.lean ====
section
/-!
DEFINITION. Sys2Proof/WellFormed.lean: which commands are well formed, that is, which could stand on the engine's
interfaces at all. A command that is not well formed names a thing of the wrong size (a packet whose body is not whole
lines, a register access of the wrong width); the machine still answers it, as its rules say.
-/
namespace Sys2Proof

/-- A register access that can meet a register: inside the 32 MiB window and aligned to its own width (R10, R487). -/
def wfAccess (off : Nat) (wide : Bool) : Bool :=
  off < 0x2000000 && off % (if wide then 8 else 4) == 0

/-- A 32-bit access carries nothing above bit 31 (R10). -/
def wfWidth (wide : Bool) (v : DWord) : Bool :=
  wide || v.toNat < 2 ^ 32

/-- A SAP packet whose payload is whole lines, at most a sector of them (R107). -/
def SapPkt.wf (p : SapPkt) : Bool :=
  p.body.length % 64 == 0 && p.body.length ≤ 4096

/-- A flit is 256 B (R286). -/
def wfFlit (f : List Byte) : Bool := f.length == 256

/-- A descriptor, where the read brought one, is 64 B (R498). -/
def wfDesc : Option (List Byte) → Bool
  | none => true
  | some d => d.length == 64

/-- Well-formedness of one command: the sizes its rule gives to its operands. -/
def WellFormed : Instr → Bool
  | .registerWrite off wide v => wfAccess off wide && wfWidth wide v
  | .badRegisterAccess _ _ _ _ => true
  | .descriptorWrite off wide v => off < 0x40000 && off % (if wide then 8 else 4) == 0 && wfWidth wide v
  | .descriptorValid _ => true
  | .programStoreWrite off wide v => off < 0x20000 && off % (if wide then 8 else 4) == 0 && wfWidth wide v
  | .programSlotValid _ _ => true
  | .startLock _ => true
  | .rollCallRecord _ _ _ r => r.length == 128
  | .rollCallResend _ => true
  | .rollCallTimeout => true
  | .mapArm _ => true
  | .mapWrite _ _ off d => off + d.length ≤ 0x2000000
  | .mapChildTimeout _ => true
  | .mapWaitExpiry => true
  | .mapFetchComplete _ => true
  | .coreReset _ => true
  | .coreResumed _ _ => true
  | .cryptoReset _ _ => true
  | .watchdogExpiry => true
  | .pruneCluster _ => true
  | .pruneLane _ => true
  | .unprune _ => true
  | .clusterFault _ => true
  | .sleepRequest _ => true
  | .fastClockWake _ => true
  | .zeroizeCommand _ => true
  | .portRetrain _ _ => true
  | .portTestRun _ _ => true
  | .boundaryDeclare _ => true
  | .jobRiskWrite _ => true
  | .timeCorrection _ => true
  | .timeRead => true
  | .alarmSet _ => true
  | .timeAlarm => true
  | .ppsEdge => true
  | .ppsLost => true
  | .gcountDelivery _ => true
  | .gcntLost => true
  | .syncSignal _ => true
  | .syncSet _ => true
  | .watchEnable _ _ => true
  | .groupCoalesceTimer _ => true
  | .holdoffEnd _ => true
  | .groupUnmask _ _ => true
  | .interruptClaim _ => true
  | .interruptComplete _ _ => true
  | .doorbell _ _ => true
  | .queueEnable _ _ => true
  | .queueDisable _ _ => true
  | .commandAccept _ d => wfDesc d
  | .commandTimeout _ => true
  | .mailboxHeaderRead _ => true
  | .mailboxAck _ => true
  | .ledgerLatch _ => true
  | .nop _ => true
  | .ringOpen _ _ => true
  | .ringSeal _ _ _ => true
  | .ringCommit _ _ => true
  | .ringRollback _ _ _ => true
  | .stepRetire _ _ => true
  | .stepRetirement => true
  | .updateRun _ _ => true
  | .runResume _ _ => true
  | .runCancel _ _ => true
  | .graftBegin _ _ => true
  | .graftBeginStandby _ _ => true
  | .resumeSet _ _ _ => true
  | .evacuateCopy _ _ => true
  | .evacuateCutover _ _ => true
  | .evacuateAbort _ _ => true
  | .scrubRange _ _ _ _ _ => true
  | .anchorWrite _ _ => true
  | .anchorCancel _ _ => true
  | .anchorRestore _ _ => true
  | .reLeaf _ _ _ _ => true
  | .adopt _ _ => true
  | .tensorDigest _ _ => true
  | .statusGet _ => true
  | .viewSet _ _ _ => true
  | .viewGet _ _ => true
  | .keyChallenge _ => true
  | .keyLoad _ b => b.length == 192
  | .keyZeroize _ => true
  | .setEndpointId _ _ => true
  | .getEndpointId => true
  | .getMctpVersionSupport _ => true
  | .getMessageTypeSupport => true
  | .foreignVendorMessage v _ => v.toNat != 64771
  | .pathDisagree _ => true
  | .tapPair _ _ _ _ _ => true
  | .captureIdleClose _ _ _ _ => true
  | .barkCorrectedReport _ _ => true
  | .referredRead _ _ _ _ => true
  | .heatSample _ => true
  | .heatDecaySweep => true
  | .heatQuery _ => true
  | .holdQuery _ _ _ _ => true
  | .memoryReadComplete _ _ _ => true
  | .memoryWriteResponse _ _ _ => true
  | .readSlow _ _ => true
  | .stackReady _ _ => true
  | .memReadyTimeout => true
  | .fillComplete _ => true
  | .shareWindow u x => u.length == 8 && x.length == 8
  | .shareLoopDecision _ _ => true
  | .sramPatrol _ _ => true
  | .intakeRecord h _ => h.length == 32
  | .chunkComplete _ _ _ => true
  | .spanUnblock _ _ => true
  | .tierDone _ => true
  | .flushLate => true
  | .tierLate _ => true
  | .streamDelta p => p.wf
  | .ringDelta p => p.wf
  | .deltaAck p => p.wf
  | .deltaRelease p => p.wf
  | .deltaBusy p => p.wf
  | .heldPacketResume => true
  | .ackDeadlineMiss _ _ => true
  | .packetResend _ _ => true
  | .releaseTimer _ _ _ => true
  | .localSeal => true
  | .sealVote p => p.wf
  | .voteReq p => p.wf
  | .sealTimeout _ => true
  | .commitLate => true
  | .ringStall => true
  | .ringApplyEnd => true
  | .rollFetch p => p.wf
  | .rollData p => p.wf
  | .rollEnd p => p.wf
  | .rollNone p => p.wf
  | .mirrorData p => p.wf
  | .mirrorDone p => p.wf
  | .mirrorAck p => p.wf
  | .mirrorTorn p => p.wf
  | .mirrorAckTimeout _ _ _ => true
  | .mirrorRead p => p.wf
  | .mirrorLines p => p.wf
  | .mirrorNone p => p.wf
  | .mirrorReadRetry _ => true
  | .classProd p => p.wf
  | .prodAck p => p.wf
  | .logData p => p.wf
  | .logScalar p => p.wf
  | .logAck p => p.wf
  | .logRetire p => p.wf
  | .pointReport p => p.wf
  | .pointDecide p => p.wf
  | .pointDone p => p.wf
  | .pointSettled p => p.wf
  | .pointTimeout _ => true
  | .heartbeatTimer => true
  | .heartbeat p => p.wf
  | .memberSilent _ => true
  | .lossNotice p => p.wf
  | .rbReq p => p.wf
  | .rbPart p => p.wf
  | .rbDone p => p.wf
  | .rbCredit p => p.wf
  | .rbChunkTimeout _ => true
  | .accFallback _ => true
  | .degradedRead _ off len _ _ => off.toNat % 64 == 0 && len % 64 == 0 && 0 < len && len ≤ 4096
  | .degradedReadTimeout _ => true
  | .graftJoin p => p.wf
  | .graftWelcome p => p.wf
  | .graftCount p => p.wf
  | .graftPhase p => p.wf
  | .snapNote p => p.wf
  | .thickNote p => p.wf
  | .heatCopy p => p.wf
  | .evacData p => p.wf
  | .evacState p => p.wf
  | .evacReady => true
  | .handover p => p.wf
  | .riskEvaluation => true
  | .rateBucketTick => true
  | .laneReport _ _ _ _ => true
  | .wearSample t => t.length == 6 && t.all (fun h => h.length == 12)
  | .droopWarn => true
  | .droopRecover _ => true
  | .linkLoopDecision _ => true
  | .anchorDueTimer => true
  | .storageWriteComplete _ => true
  | .storageRetry => true
  | .weightDigest => true
  | .digestRecompute _ => true
  | .powerGood _ _ _ _ _ => true
  | .powerLoss => true
  | .selfTestFail _ => true
  | .computeReset => true
  | .computeResetRelease => true
  | .tamper => true
  | .flashShareRequest _ => true
  | .portTrainingStep _ _ _ _ => true
  | .linkReset _ => true
  | .laneLockLoss _ _ => true
  | .dataFlit _ f _ => wfFlit f
  | .abortFlit _ f _ => wfFlit f
  | .relayStall _ _ _ => true
  | .init _ _ _ _ => true
  | .id _ _ _ _ => true
  | .width _ _ _ _ _ => true
  | .retryReq _ _ => true
  | .retryReqRepeat _ => true
  | .ack _ _ => true
  | .ackTimer _ => true
  | .credit _ _ _ _ => true
  | .restripe _ _ _ => true
  | .lowReq _ => true
  | .lowAck _ => true
  | .lowNak _ => true
  | .wake _ _ => true
  | .wakeComplete _ => true
  | .wakeLockTimeout _ _ => true
  | .beat _ _ => true
  | .lowLinkSilence _ => true
  | .spillWrite _ _ _ p => p.wf
  | .routeWrite _ _ _ p => p.wf
  | .portIdleTimer _ => true
  | .beatTimer _ => true
  | .deltaBusyEnd _ => true
  | .rollFetchTimeout _ _ _ => true
  | .referredReadLimit _ _ => true
  | .mapFetchRetry => true
  | .storageReadComplete _ => true
  | .timeSlewEnd => true
  | .prbsLockTimeout _ _ => true
  | .badMsg _ _ => true
  | .dynamicAddressAssignment _ => true
  | .wrapperInstructionLoad _ => true
  | .instrumentAccess _ _ _ => true

end Sys2Proof
end

