-- ==== Sys2Proof/Safety.lean ====
section
/-!
DEFINITION. Sys2Proof/Safety.lean: the words that statements about the engine are written in: the engine as a command finds it, the
state a command leaves, what a register access and a packet meet on their way in, and the canonical forms every command
keeps.
-/
namespace Sys2Proof

open Sys2Proof.Machine

/-! ### Before and after a command -/

/-- The engine as a command finds it: what the last command did at the interfaces is forgotten. -/
def quiet (s : State) : Eng := { s.eng with out := [] }

/-- The state that a command leaves whose effect on the engine is `e`: the queue of waiting commands stays. -/
def leaving (s : State) (e : Eng) : State := { s with eng := e }

/-! ### Register accesses -/

/-- The engine as an access to a register of a domain finds it: coding-core and crypto registers start the fast clocks
(R438). -/
def reached (d : Dom) (s : State) : Eng :=
  if s.eng.on Reg.GEN_PWR_ASLEEP && (d == .coding || d == .crypto) then (quiet s).startClocks else quiet s

/-- The engine as a write to a register of a domain finds it: besides `reached`, a bit of the value in no field of the
register sets GEN_ERR.RSVD_WR (R13). -/
def written (d : Dom) (flds : List Fld) (v : Nat) (s : State) : Eng := (reached d s).rsvdCheck flds v

/-- A domain takes writes: it answers, and the coding core is in no reset, which takes none (R436, R450). -/
abbrev takesWrites (d : Dom) (s : State) : Prop := s.eng.answers d = true ∧ (d = .coding → s.eng.boot.inReset = false)

/-- An access that meets no register: a width other than 4 and 8 B, an address not aligned to the width, an offset beyond the
window or in no register, or a register of the other width (R10, R487). -/
def meetsNoRegister (off bytes : Nat) : Prop :=
  ¬(bytes = 4 ∨ bytes = 8) ∨ off % bytes ≠ 0 ∨ 2 ^ 25 ≤ off ∨
  (off < 0x1000000 ∧ ¬(0x100000 ≤ off ∧ off < 0x140000) ∧ ¬(0x200000 ≤ off ∧ off < 0x220000) ∧
    if inCaps off then bytes ≠ 8 else ∀ r i j, regAt off = some (r, i, j) → r.bits ≠ 8 * bytes)

/-- Registers whose write does more than store their fields: it is an action (R448, R468, R475, R496 and others), or its
value is bound to another field (R315, R422, R426, R479, R509). -/
def actsOnWrite (base : Nat) : Bool :=
  [0x000020, 0x000030, 0x000038, 0x000118, 0x000408, 0x00040C, 0x00041C, 0x010000, 0x010800, 0x010C04, 0x020010, 0x020048,
   0x020110, 0x020118, 0x020200, 0x020208, 0x030004, 0x040000, 0x040028, 0x040038, 0x050000, 0x060140, 0x06020C, 0x060400,
   0x060418, 0x060420, 0x060600, 0x080058, 0x0A0048, 0x0B0020, 0x0B0080, 0x0B0084, 0x0B0088, 0x0B0090, 0x0B0098, 0x0C0000,
   0x0C0008, 0x0C000C, 0x0C0010, 0x0C0800].contains base

/-- The register that stands at an offset and only stores its fields, with those fields and its domain. -/
def storesAt (off : Nat) (wide : Bool) (flds : List Fld) (d : Dom) : Prop :=
  ∃ r i j, regAt off = some (r, i, j) ∧ off % (if wide then 8 else 4) = 0 ∧ r.bits = (if wide then 64 else 32) ∧
    actsOnWrite r.base = false ∧ flds = r.flds i j ∧ d = r.dom

/-! ### Packets -/

/-- The engine takes packets: in service, not fenced, its module in order, not in a coding-core reset (R119, R237, R406, R452,
R459). -/
def takesPackets (e : Eng) : Prop :=
  e.on Reg.GEN_BOOT_READY = true ∧ e.serving = true ∧ e.on Reg.SEC_STAT_ERROR = false ∧ e.boot.inReset = false

/-- The engine as the checks of R119 find it: an arriving packet starts the fast clocks (R438). -/
def awake (s : State) : Eng := if s.eng.on Reg.GEN_PWR_ASLEEP then (quiet s).startClocks else quiet s

/-- A packet of a TYPE passes the checks of R119: it opens under the session of `place`, with the fields of `q`, and leaves the
engine as `e` before its own effect. -/
def passes (typ : Nat) (p : SapPkt) (s : State) (place : Nat) (q : Pkt) (e : Eng) : Prop :=
  takesPackets s.eng ∧
  ∃ gen payload, (awake s).door typ p = .pass place gen payload ∧ q = sapPlain p typ payload ∧
    e = (awake s).heardAt place gen q.src ∧ e.check3 q = true ∧ e.mayComeFrom place q = true

/-- The rows of the packet types, each with its TYPE (R108). -/
def packetRows (p : SapPkt) : List (Instr × Nat) :=
  [(.streamDelta p, 0x01), (.ringDelta p, 0x02), (.deltaAck p, 0x03), (.deltaRelease p, 0x04), (.deltaBusy p, 0x05),
   (.heartbeat p, 0x10), (.lossNotice p, 0x11), (.rbReq p, 0x12), (.rbPart p, 0x13), (.rbDone p, 0x14), (.rbCredit p, 0x15),
   (.graftJoin p, 0x16), (.graftWelcome p, 0x17), (.graftCount p, 0x18), (.graftPhase p, 0x19), (.snapNote p, 0x1A),
   (.thickNote p, 0x1B), (.evacData p, 0x1C), (.handover p, 0x1D), (.heatCopy p, 0x1E), (.evacState p, 0x1F),
   (.logData p, 0x20), (.logScalar p, 0x21), (.logAck p, 0x22), (.logRetire p, 0x23), (.mirrorData p, 0x24),
   (.mirrorDone p, 0x25), (.mirrorAck p, 0x26), (.mirrorTorn p, 0x27), (.mirrorRead p, 0x28), (.mirrorLines p, 0x29),
   (.mirrorNone p, 0x2A), (.classProd p, 0x2B), (.prodAck p, 0x2C), (.sealVote p, 0x30), (.voteReq p, 0x31),
   (.rollFetch p, 0x32), (.rollData p, 0x33), (.rollEnd p, 0x34), (.rollNone p, 0x35), (.pointReport p, 0x38),
   (.pointDecide p, 0x39), (.pointDone p, 0x3A), (.pointSettled p, 0x3B)]

/-! ### Commands of the queues -/

/-- A descriptor read that queue `h.queue` can take: the queue fetches, nothing waits at its head, the mailbox exists and is
empty, and no coding-core reset is under way (R495, R497, R504, R507). -/
def offered (h : CmdHdr) (s : State) : Prop :=
  s.eng.boot.inReset = false ∧ (quiet s).fetchable h.queue.val = true ∧ look s.eng.q.fetched h.queue.val = none ∧
  h.mailbox.toNat < 256 ∧ s.eng.mboxEmpty h.mailbox.toNat = true

/-- The engine once the descriptor of `h` and `op` has been read and its mailbox opened (R504). -/
def atHead (h : CmdHdr) (op : Op) (s : State) : Eng :=
  ({ quiet s with q := { s.eng.q with asked := s.eng.q.asked.filter (· != h.queue.val) } } : Eng).openMbox h.mailbox.toNat
    op.code h.seq.toNat

/-- The descriptor of `h` and `op` as it stands at the head of its queue, with its mailbox open. -/
def headDesc (h : CmdHdr) (op : Op) : Fetched := { hdrDesc h op with opened := true }

/-- The command is accepted and starts (R500, R501, R506): no reserved flag, the start lock where the opcode needs it, no
FENCE behind an open command, nothing that its chapter makes it wait for, the engine in service and, where the opcode needs
the module, the module in order. -/
def accepts (h : CmdHdr) (op : Op) (s : State) : Prop :=
  offered h s ∧ h.flags.toNat < 4 ∧
  (needsLock op = true → s.eng.locked = true ∧ s.eng.on Reg.GEN_START_BUSY = false) ∧
  (bit h.flags.toNat 0 = true → s.eng.q.opens.all (fun c => c.queue != h.queue.val) = true) ∧
  (atHead h op s).opWaits op = false ∧ s.eng.oos = false ∧ (needsModule op = true → s.eng.on Reg.SEC_STAT_ERROR = false)

/-- The engine once the command of `h` and `op` is open, before its own effect (R501). -/
def opened (h : CmdHdr) (op : Op) (s : State) : Eng := (atHead h op s).openCmd h.queue.val (headDesc h op)

/-! ### Canonical forms -/

/-- Every table of the engine that stands for a function is in its one form. -/
structure WellKept (e : Eng) : Prop where
  regs  : SMap.Sorted e.regs
  mem   : Memory.wf e.mem
  descs : Memory.wf e.descs
  progs : Memory.wf e.progs
  syncs : SMap.Sorted e.syncs
  ctxs  : SMap.Sorted e.ctxs
  digs  : SMap.Sorted e.digs

end Sys2Proof
end

