-- ==== Sys2Proof/Certificates/Slice0/Obligations.lean ====
section
/-!
DEFINITION. Sys2Proof/Certificates/Slice0/Obligations.lean: the statements about the model, for the provers. A statement that a
command completes has as its conclusion that `exec` answers `.next` of an explicit state, under hypotheses on the state and
the operands alone; since the state is explicit, it says at once what the command leaves unchanged.
-/
open Sys2Proof Sys2Proof.Machine

/-! ### The machine -/

/-- The command at the front of the queue is what a step runs, with the queue's rest (the model's own queue, log entry 2). -/
def Obligations.StepRunsTheFrontCommand : Prop :=
  ∀ (c : Instr) (rest : List Instr) (s : State), s.pending = c :: rest → step s = exec c { s with pending := rest }

/-- With no command waiting a step is one cycle of the time clock, which adds TIM_RATE.INC to the accumulator of R466; without
power nothing happens. With a test of lanes running, each checked lane that has locked may count errors in it, and stops at
0xFFFF_FFFE; no other error count moves (R313). That the empty queue stands for the time clock is the model's choice (log
entry 1), as is that the errors and the repeated messages come with it (log entries 13 and 37). -/
def Obligations.EmptyQueueIsOneTimeClockCycle : Prop :=
  ∀ s : State, s.pending = [] →
    (s.eng.pins.pwrGood = false → step s = .next (leaving s (quiet s))) ∧
    (s.eng.pins.pwrGood = true → s.eng.time.slew = none → (∀ q ∈ s.eng.ports, q.asks = []) →
      (∀ p < 4, s.eng.on (Reg.GP_TEST_RUN p) = false ∨ s.eng.rd (Reg.GP_TEST_MODE p) ∉ [1, 2, 4]) →
      (s.eng.rd Reg.TIM_ALARM_NS = 0 ∨
        ((s.eng.time.acc + s.eng.rd Reg.TIM_RATE_INC) % 2 ^ 96) / 2 ^ 32 % 2 ^ 64 < s.eng.rd Reg.TIM_ALARM_NS) →
      step s = .next (leaving s { quiet s with
        time := { s.eng.time with acc := (s.eng.time.acc + s.eng.rd Reg.TIM_RATE_INC) % 2 ^ 96 } })) ∧
    (s.eng.pins.pwrGood = true → ∃ t, step s = .next (leaving s t) ∧ ∀ p < 4, ∀ l < 16,
      let count := s.eng.rd (Reg.GP_PRBS_ERR_COUNT p l)
      let after := t.rd (Reg.GP_PRBS_ERR_COUNT p l)
      let checked := s.eng.on (Reg.GP_TEST_RUN p) = true ∧ s.eng.rd (Reg.GP_TEST_MODE p) ∈ [1, 2, 4] ∧
        bit s.eng.fuses.lanes (16 * p + l) = true ∧ count ≠ 0xFFFFFFFF
      (checked → count ≤ 0xFFFFFFFE → count ≤ after ∧ after ≤ 0xFFFFFFFE) ∧ (¬checked → after = count))

/-- What reset leaves: no command, every register field at its reset value, engine time and every sync object at 0, nothing in
local memory, the start lock clear, no session, no region, no ring, no command open, every mailbox empty. Where the spec gives
a field no reset value the table's is the model's choice (log entry 4). -/
def Obligations.ResetLeavesEverythingClear : Prop :=
  State.reset.pending = [] ∧ (∀ f : Fld, State.reset.eng.rd f = f.reset) ∧ State.reset.eng.now = 0 ∧
  (∀ n, State.reset.eng.sync n = 0) ∧ (∀ a, State.reset.eng.memByte a = 0) ∧ State.reset.eng.locked = false ∧
  State.reset.eng.sess = [] ∧ State.reset.eng.rgns = [] ∧ State.reset.eng.rings.recs = [] ∧ State.reset.eng.q.opens = [] ∧
  (∀ b, State.reset.eng.mboxEmpty b = true) ∧ State.reset.eng.ports.length = 4 ∧ WellKept State.reset.eng

/-- Every command completes, in every state: it has its effect on the engine and leaves the queue of waiting commands. Only a tap
pair and a referred read beyond local memory fault (log entry 86). No command depends on what the one before it showed at the
interfaces, and none is refused. -/
def Obligations.CommandsLeaveTheQueueAndForgetTheLastActions : Prop :=
  ∀ (c : Instr) (s : State),
    (∀ t, exec c s = .next t → t.pending = s.pending) ∧
    (∀ o : List Action, exec c { s with eng := { s.eng with out := o } } = exec c s) ∧
    (∀ r, exec c s ≠ .refused r) ∧
    ((∀ line old new src bark, c = .tapPair line old new src bark → 64 * line.toNat < s.eng.memSize) →
      (∀ port id line bad, c = .referredRead port id line bad → 64 * line.toNat < s.eng.memSize) →
      ∃ e, exec c s = .next (leaving s e))

/-- Every command keeps the canonical forms: the register table and the context, digest and sync tables in rising key order, local
memory, the descriptor space and the microprogram store with rising addresses and no byte listed that an unlisted address
reads as. -/
def Obligations.EveryStepKeepsTheCanonicalForms : Prop :=
  ∀ s t : State, WellKept s.eng → step s = .next t → WellKept t.eng

/-! ### The register window -/

/-- R10: an access that meets no register is answered with an error and counted in GEN_ERR.BAD_ACC, and nothing else changes,
whether it reads or writes; the counter stands in the coding core, which counts nothing in its own reset (R450). -/
def Obligations.BadRegisterAccessIsCountedAndChangesNothing : Prop :=
  ∀ (s : State) (off : Nat) (v : DWord), s.eng.answers .coding = true →
    let counted := if s.eng.boot.inReset then quiet s else (quiet s).bump Reg.GEN_ERR_BAD_ACC
    (∀ (wr : Bool) (bytes : Nat), meetsNoRegister off bytes →
      exec (.badRegisterAccess wr off bytes v) s = .next (leaving s (counted.emit .busError))) ∧
    (∀ wide : Bool, meetsNoRegister off (if wide then 8 else 4) →
      exec (.registerWrite off wide v) s = .next (leaving s (counted.emit .busError)))

/-- R11 and R12: a write to a register that only stores fields sets its RW fields, and its RWL fields while the start lock is
clear, to the written value, clamped to the field's range; a 1 in a W1C bit clears it; RO and WO fields and every other
register stay, but for GEN_ERR's report of a locked or reserved bit and GEN_PWR.ASLEEP, which a starting clock clears. R450: in
its own reset the coding core takes no write. -/
def Obligations.RegisterWriteStoresByAccessCode : Prop :=
  ∀ (off : Nat) (wide : Bool) (v : DWord) (s : State) (flds : List Fld) (d : Dom),
    storesAt off wide flds d → (wide = false → v.toNat < 2 ^ 32) →
    (d = .coding → s.eng.answers .coding = true → s.eng.boot.inReset = true →
      exec (.registerWrite off wide v) s = .next (leaving s (reached .coding s))) ∧
    (takesWrites d s →
    ∃ regs, exec (.registerWrite off wide v) s = .next (leaving s { quiet s with regs := regs }) ∧
      let e : Eng := { quiet s with regs := regs }
      (∀ f ∈ flds, match f.acc with
        | .rw => e.rd f = f.clamp (f.of v.toNat)
        | .rwl => e.rd f = if s.eng.rwlOpen then f.clamp (f.of v.toNat) else s.eng.rd f
        | .w1c => ∀ i < f.width, (e.rd f).testBit i = ((s.eng.rd f).testBit i && !(f.of v.toNat).testBit i)
        | .ro => e.rd f = s.eng.rd f
        | .wo => e.rd f = s.eng.rd f) ∧
      (∀ f : Fld, (∀ g ∈ flds, g.key ≠ f.key) → f.key ≠ Reg.GEN_ERR_RSVD_WR.key → f.key ≠ Reg.GEN_ERR_LOCKED_WR.key →
        f.key ≠ Reg.GEN_PWR_ASLEEP.key → e.rd f = s.eng.rd f) ∧
      ((∃ f ∈ flds, f.acc = .rwl ∧ s.eng.rwlOpen = false ∧ s.eng.rd f ≠ f.clamp (f.of v.toNat)) →
        e.on Reg.GEN_ERR_LOCKED_WR = true) ∧
      (strayBits flds v.toNat = true → e.on Reg.GEN_ERR_RSVD_WR = true))

/-- R436: before its domain answers, an access to a register is an error response and changes no state. -/
def Obligations.RegistersOfASilentDomainAnswerWithAnError : Prop :=
  ∀ s : State,
    (s.eng.answers .coding = false → ∀ (v : DWord) (w : Word) (q : Fin 4) (n : Fin 64) (b : BitVec 8) (r : BitVec 12)
      (slot : Fin 16) (off : Nat) (wide : Bool),
      exec (.startLock w) s = .next (leaving s ((quiet s).emit .busError)) ∧
      exec (.mapArm w) s = .next (leaving s ((quiet s).emit .busError)) ∧
      exec (.boundaryDeclare v) s = .next (leaving s ((quiet s).emit .busError)) ∧
      exec (.syncSignal w) s = .next (leaving s ((quiet s).emit .busError)) ∧
      exec (.syncSet v) s = .next (leaving s ((quiet s).emit .busError)) ∧
      exec (.watchEnable n w) s = .next (leaving s ((quiet s).emit .busError)) ∧
      exec (.doorbell q w) s = .next (leaving s ((quiet s).emit .busError)) ∧
      exec (.queueEnable q w) s = .next (leaving s ((quiet s).emit .busError)) ∧
      exec (.queueDisable q w) s = .next (leaving s ((quiet s).emit .busError)) ∧
      exec (.mailboxHeaderRead b) s = .next (leaving s ((quiet s).emit .busError)) ∧
      exec (.mailboxAck v) s = .next (leaving s ((quiet s).emit .busError)) ∧
      exec (.ledgerLatch v) s = .next (leaving s ((quiet s).emit .busError)) ∧
      exec (.descriptorValid r) s = .next (leaving s ((quiet s).emit .busError)) ∧
      exec (.descriptorWrite off wide v) s = .next (leaving s ((quiet s).emit .busError)) ∧
      exec (.programSlotValid slot w) s = .next (leaving s ((quiet s).emit .busError)) ∧
      exec (.programStoreWrite off wide v) s = .next (leaving s ((quiet s).emit .busError))) ∧
    (s.eng.answers .link = false → ∀ (p : Fin 4) (v : Word),
      exec (.portRetrain p v) s = .next (leaving s ((quiet s).emit .busError)) ∧
      exec (.portTestRun p v) s = .next (leaving s ((quiet s).emit .busError))) ∧
    (s.eng.answers .alwaysOn = false → ∀ (v : DWord) (w : Word) (g : Fin 64) (t : Fin 2) (x : Option (Fin 12)),
      exec (.timeCorrection v) s = .next (leaving s ((quiet s).emit .busError)) ∧
      exec (.alarmSet v) s = .next (leaving s ((quiet s).emit .busError)) ∧
      exec .timeRead s = .next (leaving s ((quiet s).emit .busError)) ∧
      exec (.jobRiskWrite v) s = .next (leaving s ((quiet s).emit .busError)) ∧
      exec (.groupUnmask g w) s = .next (leaving s ((quiet s).emit .busError)) ∧
      exec (.interruptClaim t) s = .next (leaving s ((quiet s).emit .busError)) ∧
      exec (.interruptComplete t w) s = .next (leaving s ((quiet s).emit .busError)) ∧
      exec (.coreReset w) s = .next (leaving s ((quiet s).emit .busError)) ∧
      exec (.cryptoReset w x) s = .next (leaving s ((quiet s).emit .busError)) ∧
      exec (.zeroizeCommand w) s = .next (leaving s ((quiet s).emit .busError)) ∧
      exec (.sleepRequest w) s = .next (leaving s ((quiet s).emit .busError)) ∧
      exec (.pruneCluster w) s = .next (leaving s ((quiet s).emit .busError)) ∧
      exec (.pruneLane w) s = .next (leaving s ((quiet s).emit .busError)) ∧
      exec (.unprune w) s = .next (leaving s ((quiet s).emit .busError))) ∧
    (∀ (off : Nat) (wide : Bool) (v : DWord) (flds : List Fld) (d : Dom), storesAt off wide flds d →
      s.eng.answers d = false → exec (.registerWrite off wide v) s = .next (leaving s ((quiet s).emit .busError)))

/-- A write through the register window at the offset of a register that acts is the command that the table gives that action: the
two ways to say one access never differ. -/
def Obligations.RegisterWriteIsTheCommandOfItsRegister : Prop :=
  ∀ (s : State) (v : DWord) (w : Word) (q p : Fin 4) (n g : Fin 64) (t : Fin 2),
    let x := w.setWidth 64
    exec (.registerWrite 0x000030 false x) s = exec (.startLock w) s ∧
    exec (.registerWrite 0x060600 false x) s = exec (.mapArm w) s ∧
    exec (.registerWrite 0x00040C false x) s = exec (.coreReset w) s ∧
    exec (.registerWrite 0x00041C false x) s = exec (.pruneCluster w) s ∧
    exec (.registerWrite 0x000408 false x) s = exec (.sleepRequest w) s ∧
    exec (.registerWrite 0x030004 false x) s = exec (.zeroizeCommand w) s ∧
    exec (.registerWrite (0x040000 + 0x4000 * p.val) false x) s = exec (.portRetrain p w) s ∧
    exec (.registerWrite (0x040038 + 0x4000 * p.val) false x) s = exec (.portTestRun p w) s ∧
    exec (.registerWrite 0x060418 true v) s = exec (.boundaryDeclare v) s ∧
    exec (.registerWrite 0x0B0090 true v) s = exec (.jobRiskWrite v) s ∧
    exec (.registerWrite 0x020010 true v) s = exec (.timeCorrection v) s ∧
    exec (.registerWrite 0x020048 true v) s = exec (.alarmSet v) s ∧
    exec (.registerWrite 0x020110 true v) s = exec (.syncSet v) s ∧
    exec (.registerWrite 0x020118 false x) s = exec (.syncSignal w) s ∧
    exec (.registerWrite (0x020200 + 16 * n.val) false x) s = exec (.watchEnable n w) s ∧
    exec (.registerWrite (0x010800 + 16 * g.val) false x) s = exec (.groupUnmask g w) s ∧
    exec (.registerWrite (0x010C04 + 8 * t.val) false x) s = exec (.interruptComplete t w) s ∧
    exec (.registerWrite (0x0C000C + 64 * q.val) false x) s = exec (.doorbell q w) s ∧
    exec (.registerWrite (0x0C0008 + 64 * q.val) false x) s = exec (.queueEnable q w) s ∧
    exec (.registerWrite 0x0C0800 true v) s = exec (.mailboxAck v) s ∧
    exec (.registerWrite 0x0A0048 true v) s = exec (.ledgerLatch v) s

/-! ### Engine time and the global count -/

/-- R466: a read of TIM_NOW returns the accumulator's bits from 2^0 ns up, and latches those of 2^-8 ns in TIM_FRAC. R468: a
correction too far away is refused, counted and raised; a forward one becomes engine time in the same cycle with fraction 0; a
backward one leaves engine time and starts a slew towards its path, which replaces any in progress; a slew ends where the half
rate meets that path, and time that passes before that moves the path on at twice the rate of engine time. R470: a write of TIM_ALARM stores the value; a value at or below engine time raises TIME_ALARM at once,
and an alarm that engine time reaches does so then; either way TIM_ALARM is 0 afterwards. -/
def Obligations.EngineTimeIsReadSetAndWatched : Prop :=
  (∀ s : State, s.eng.answers .alwaysOn = true →
     exec .timeRead s = .next (leaving s (((quiet s).wr Reg.TIM_FRAC_FRAC (s.eng.time.acc / 2 ^ 24 % 256)).emit
       (.answer (s.eng.time.acc / 2 ^ 32 % 2 ^ 64))))) ∧
  (∀ (s : State) (v : DWord), s.eng.answers .alwaysOn = true →
     let a := s.eng.time.acc
     let target := v.toNat * 2 ^ 32
     let reach := s.eng.rd Reg.TIM_CTL_MAX_STEP * 1000 * 2 ^ 32
     (reach < target - a ∨ reach < a - target → exec (.timeCorrection v) s =
       .next (leaving s (((quiet s).bump Reg.TIM_PPS_STAT_REJECT).raise .PPS_REJECT))) ∧
     (a ≤ target ∧ target - a ≤ reach → exec (.timeCorrection v) s =
       .next (leaving s ({ quiet s with time := { s.eng.time with acc := target, slew := none, half := false } } : Eng).alarmCheck)) ∧
     (target < a ∧ a - target ≤ reach → exec (.timeCorrection v) s =
       .next (leaving s { quiet s with time := { s.eng.time with slew := some target, half := false } })) ∧
     (∀ path, s.eng.time.slew = some path → path ≤ a → 2 * a - path < 2 ^ 96 → exec .timeSlewEnd s =
       .next (leaving s ({ quiet s with time := { s.eng.time with acc := 2 * a - path, slew := none, half := false } } : Eng).alarmCheck))) ∧
  (∀ (s : State) (v : DWord), s.eng.time.acc < 2 ^ 96 →
     (s.eng.answers .alwaysOn = true →
       (v = 0 ∨ s.eng.now < v.toNat → exec (.alarmSet v) s = .next (leaving s ((quiet s).wr Reg.TIM_ALARM_NS v.toNat))) ∧
       (v ≠ 0 ∧ v.toNat ≤ s.eng.now → exec (.alarmSet v) s =
         .next (leaving s ((((quiet s).wr Reg.TIM_ALARM_NS v.toNat).raise .TIME_ALARM).wr Reg.TIM_ALARM_NS 0)))) ∧
     (s.eng.rd Reg.TIM_ALARM_NS ≠ 0 → s.eng.rd Reg.TIM_ALARM_NS < 2 ^ 64 →
       let a := s.eng.time.acc
       let at_ := s.eng.rd Reg.TIM_ALARM_NS * 2 ^ 32
       let met := fun (path : Option Nat) (half : Bool) => exec .timeAlarm s = .next (leaving s
         ((({ quiet s with time := { s.eng.time with acc := max a at_, slew := path, half := half } } : Eng).raise
           .TIME_ALARM).wr Reg.TIM_ALARM_NS 0))
       (s.eng.time.slew = none ∨ at_ ≤ a → met s.eng.time.slew s.eng.time.half) ∧
       (∀ path, s.eng.time.slew = some path → a < at_ →
         (at_ - a < a - path → met (some (path + 2 * (at_ - a))) s.eng.time.half) ∧
         (a - path ≤ at_ - a → met none false))))

/-- R469: a rising edge of pps_in is captured and measured against TIM_PPS_NEXT, which moves on by a second, and clears LOST; with
ALIGN set it also corrects engine time; an edge within 0.5 s of the last accepted one is a glitch and only counted; 1.5 s
without an edge set LOST, with PPS_EN set. R472: a delivered value of the global count below the held one is ignored and
counted in BACK; any other is held, and delivery ends LOST; 10 µs without one set LOST and raise GCNT_LOST. With no scheduled
seal request armed nothing else happens. Without power none of them does anything (R450). -/
def Obligations.PpsAndGlobalCountAreTaken : Prop :=
  (∀ s : State, s.eng.pins.pwrGood = false →
     exec .ppsEdge s = .next (leaving s (quiet s)) ∧ exec .ppsLost s = .next (leaving s (quiet s)) ∧
     (∀ v, exec (.gcountDelivery v) s = .next (leaving s (quiet s))) ∧ exec .gcntLost s = .next (leaving s (quiet s))) ∧
  (∀ s : State, s.eng.pins.pwrGood = true →
     let now := s.eng.now
     let next := s.eng.rd Reg.TIM_PPS_NEXT_NS
     let cap := ((((quiet s).wr Reg.TIM_PPS_CAP_NS now).wr Reg.TIM_PPS_ERR_NS (now + 2 ^ 64 - next)).flag Reg.TIM_PPS_STAT_LOST false)
     ((∀ t, s.eng.time.lastPps = some t → t + 500000000 < now) →
       (s.eng.on Reg.TIM_CTL_ALIGN = false → exec .ppsEdge s = .next (leaving s
         { cap.wr Reg.TIM_PPS_NEXT_NS (next + 1000000000) with time := { s.eng.time with lastPps := some now } })) ∧
       (s.eng.on Reg.TIM_CTL_ALIGN = true → exec .ppsEdge s = .next (leaving s
         (let e := (cap.correct next).wr Reg.TIM_PPS_NEXT_NS (next + 1000000000)
          { e with time := { e.time with lastPps := some e.now } })))) ∧
     (∀ t, s.eng.time.lastPps = some t → now ≤ t + 500000000 →
       exec .ppsEdge s = .next (leaving s ((quiet s).bump Reg.TIM_PPS_STAT_GLITCH))) ∧
     (s.eng.on Reg.TIM_CTL_PPS_EN = true → s.eng.on Reg.TIM_PPS_STAT_LOST = false →
       exec .ppsLost s = .next (leaving s (((quiet s).flag Reg.TIM_PPS_STAT_LOST true).raise .PPS_LOST)))) ∧
  (∀ (s : State) (v : DWord), s.eng.pins.pwrGood = true →
     (v.toNat < s.eng.rd Reg.TIM_GCOUNT_COUNT →
       exec (.gcountDelivery v) s = .next (leaving s ((quiet s).bump Reg.TIM_GCNT_CTL_BACK))) ∧
     (s.eng.rd Reg.TIM_GCOUNT_COUNT ≤ v.toNat → s.eng.on Reg.GRV_SEAL_CTL_SCHED_ARM = false →
       exec (.gcountDelivery v) s =
         .next (leaving s (((quiet s).wr Reg.TIM_GCOUNT_COUNT v.toNat).flag Reg.TIM_GCNT_CTL_LOST false))) ∧
     (s.eng.on Reg.TIM_GCNT_CTL_LOST = false →
       exec .gcntLost s = .next (leaving s (((quiet s).flag Reg.TIM_GCNT_CTL_LOST true).raise .GCNT_LOST))))

/-! ### Boundaries and the job risk -/

/-- R157: a boundary that follows the last of its sequence serially, or is the first of it, is noted as the last of that sequence;
one that does not is ignored and raises BND_ORDER; KIND 0 declares nothing. With the start lock set, and the engine serving, the
boundary meets the ring, the picks and the anchor. R430 and R431: at every declared boundary, before the start lock too, a
pending job risk of its sequence whose STEP it reaches becomes current, and at a step's boundary PREWAKE wakes ports 0 to 2
from LOW. R431: a job risk whose STEP follows the last of its
sequence, or that comes before the first, is held as pending, in place of any other; one that is late is ignored and sets
LATE. -/
def Obligations.BoundariesAndJobRisksKeepTheirOrder : Prop :=
  (∀ (s : State) (v : DWord), takesWrites .coding s →
     let e := written .coding [Reg.GRV_BND_DECL_KIND, Reg.GRV_BND_DECL_STEP] v.toNat s
     let b : Bnd := { step := Reg.GRV_BND_DECL_STEP.of v.toNat, kind := Reg.GRV_BND_DECL_KIND.of v.toNat,
                      count := s.eng.rd Reg.GRV_BND_COUNT_COUNT }
     let first := if b.kind = 2 then s.eng.rings.seenTstep = false else s.eng.rings.seenStep = false
     let last := if b.kind = 2 then s.eng.rd Reg.GRV_BND_LAST_LAST_TSTEP else s.eng.rd Reg.GRV_BND_LAST_LAST_STEP
     let noted := (if b.kind = 2
         then ({ e with rings := { e.rings with seenTstep := true } } : Eng).wr Reg.GRV_BND_LAST_LAST_TSTEP b.step
         else ({ e with rings := { e.rings with seenStep := true } } : Eng).wr Reg.GRV_BND_LAST_LAST_STEP b.step).wr
       Reg.GRV_RING_STEP_LAST_STEP b.step
     (b.kind = 0 → exec (.boundaryDeclare v) s = .next (leaving s e)) ∧
     (b.kind ≠ 0 → ¬first → precedes last b.step = false →
       exec (.boundaryDeclare v) s = .next (leaving s (e.raise .BND_ORDER))) ∧
     (b.kind ≠ 0 → first ∨ precedes last b.step = true →
       let due := s.eng.on Reg.HLT_JOB_RISK_PENDING = true ∧ s.eng.rd Reg.HLT_JOB_RISK_SEQ = (if b.kind = 2 then 1 else 0) ∧
         atOrBefore (s.eng.rd Reg.HLT_JOB_RISK_STEP) b.step = true
       let now := if due then ({ noted with health := { noted.health with jobRisk := s.eng.rd Reg.HLT_JOB_RISK_RISK } } :
         Eng).flag Reg.HLT_JOB_RISK_PENDING false else noted
       let met := if s.eng.locked = true ∧ s.eng.serving = true then now.meetBoundary b else now
       let woken := if b.kind = 2 ∨ met.on Reg.HLT_LINK_LOOP_PREWAKE = false then met
         else met.each ((List.range 3).filter (fun p => met.portState p == psLow)) (fun p e => e.wakePort p)
       exec (.boundaryDeclare v) s = .next (leaving s woken))) ∧
  (∀ (s : State) (v : DWord), s.eng.answers .alwaysOn = true →
     let w := written .alwaysOn jobRiskFields v.toNat s
     let e := if Reg.HLT_JOB_RISK_LATE.of v.toNat = 1 then w.flag Reg.HLT_JOB_RISK_LATE false else w
     let seq := Reg.HLT_JOB_RISK_SEQ.of v.toNat
     let step := Reg.HLT_JOB_RISK_STEP.of v.toNat
     let first := if seq = 0 then s.eng.rings.seenStep = false else s.eng.rings.seenTstep = false
     let last := if seq = 0 then s.eng.rd Reg.GRV_BND_LAST_LAST_STEP else s.eng.rd Reg.GRV_BND_LAST_LAST_TSTEP
     (first ∨ precedes last step = true → exec (.jobRiskWrite v) s =
       .next (leaving s ((((e.wr Reg.HLT_JOB_RISK_STEP step).wr Reg.HLT_JOB_RISK_SEQ seq).wr Reg.HLT_JOB_RISK_RISK
         (Reg.HLT_JOB_RISK_RISK.of v.toNat)).flag Reg.HLT_JOB_RISK_PENDING true))) ∧
     (¬first → precedes last step = false →
       exec (.jobRiskWrite v) s = .next (leaving s (e.flag Reg.HLT_JOB_RISK_LATE true))))

/-! ### Sync objects -/

/-- R475: a signal adds 1 to its object, wrapping from all ones to 0; a set gives the selected object the written value; every
other object stays. R476 and R477: a changed object whose mirror is on and may be written is followed by an engine write of
its 8 bytes; with the mirror off nothing of memory changes; and with no watch on the object no register changes either. R477:
enabling a watch whose object already stands at or above its threshold, taken serially over 64 bits, sets its bit in SYN_HIT,
raises SYNC_HIT and leaves EN clear; a watch whose condition does not hold is enabled, and changes nothing else. -/
def Obligations.SyncObjectsChangeAndAreWatched : Prop :=
  (∀ (s : State), takesWrites .coding s → SMap.Sorted s.eng.syncs →
     (∀ v : Word, ∃ t, exec (.syncSignal v) s = .next t ∧
       ∀ m, t.eng.sync m = if m = Reg.SYN_SIGNAL_OBJ.of v.toNat then (s.eng.sync m + 1) % 2 ^ 64 else s.eng.sync m) ∧
     (∀ v : DWord, ∃ t, exec (.syncSet v) s = .next t ∧
       ∀ m, t.eng.sync m = if m = s.eng.rd Reg.SYN_SEL_OBJ then v.toNat else s.eng.sync m)) ∧
  (∀ (s : State) (v : Word), takesWrites .coding s →
     let n := Reg.SYN_SIGNAL_OBJ.of v.toNat
     let e := written .coding [Reg.SYN_SIGNAL_OBJ] v.toNat s
     let value := (s.eng.sync n + 1) % 2 ^ 64
     let a := s.eng.rd Reg.SYN_MEM_BASE * 64 + 8 * n
     let changed : Eng := { e with syncs := if value = 0 then cut s.eng.syncs n else put s.eng.syncs n value }
     (∀ i < 64, s.eng.rd (Reg.SYN_WATCH_CTL_OBJ i) ≠ n) →
     (s.eng.on Reg.SYN_MEM_EN = false → exec (.syncSignal v) s = .next (leaving s changed)) ∧
     (s.eng.on Reg.SYN_MEM_EN = true → s.eng.mirrorable a = false →
       exec (.syncSignal v) s = .next (leaving s (changed.flag Reg.SYN_MEM_BAD true))) ∧
     (s.eng.on Reg.SYN_MEM_EN = true → s.eng.mirrorable a = true → SMap.Sorted s.eng.syncs →
       exec (.syncSignal v) s = .next (leaving s (changed.store a (natLe 8 value))))) ∧
  (∀ (s : State) (n : Fin 64) (v : Word), takesWrites .coding s →
     let e := written .coding [Reg.SYN_WATCH_CTL_OBJ n, Reg.SYN_WATCH_CTL_EN n] v.toNat s
     let set := (e.wr (Reg.SYN_WATCH_CTL_OBJ n) ((Reg.SYN_WATCH_CTL_OBJ n).of v.toNat)).wr (Reg.SYN_WATCH_CTL_EN n)
       ((Reg.SYN_WATCH_CTL_EN n).of v.toNat)
     let above := (s.eng.sync ((Reg.SYN_WATCH_CTL_OBJ n).of v.toNat) + 2 ^ 64 - s.eng.rd (Reg.SYN_WATCH_THR_THRESH n)) % 2 ^ 64
       < 2 ^ 63
     ((Reg.SYN_WATCH_CTL_EN n).of v.toNat = 1 ∧ above → exec (.watchEnable n v) s =
       .next (leaving s (((set.wr Reg.SYN_HIT_HIT (setBit (s.eng.rd Reg.SYN_HIT_HIT) n)).raise .SYNC_HIT).flag
         (Reg.SYN_WATCH_CTL_EN n) false))) ∧
     (¬((Reg.SYN_WATCH_CTL_EN n).of v.toNat = 1 ∧ above) → exec (.watchEnable n v) s = .next (leaving s set)))

/-! ### Interrupts -/

/-- R479 to R482: a pulse on an enabled rising-edge source that is not pending makes it pending; in a privileged group that is
neither masked nor holding off it fires at once: the source is delivered, target 0 gets the group's message if the source is
routed to it and the group has an address, and the group holds off. R480 and R481: the time of a coalescing group with unfired
events fires it, and the end of a privileged group's hold-off fires the events that came during it and starts a new one; a
masked group records its firing in FIRED_PEND instead; clearing MASK delivers a recorded firing at once. R484: a claim returns
the lowest-numbered source that is delivered, routed to the target and not in service, and sets it in service; an edge-sensed
one stops pending; a source that has withdrawn its request is counted as spurious and the claim returns 0x3FF, as it does with
no source. A completion ends the service of a source that this target claimed, and any other changes nothing. -/
def Obligations.InterruptsAreDeliveredClaimedAndCompleted : Prop :=
  (∀ (e : Eng) (src : Src), let n := srcNum src
     let g := e.groupOf n
     e.on (Reg.INT_SRC_CFG_EN n) = true → e.on (Reg.INT_SRC_CFG_PENDING n) = false → e.on (Reg.INT_SRC_CFG_RAW n) = false →
     e.rd (Reg.INT_SRC_CFG_SENSE n) = 2 → g < 8 → e.on (Reg.INT_GRP_CFG_MASK g) = false → e.intr.holdoff.contains g = false →
     e.intr.unfired = [] → e.intr.delivered.contains n = false → e.on Reg.GEN_PWR_ASLEEP = false →
     (e.raise src).on (Reg.INT_SRC_CFG_PENDING n) = true ∧
     (e.raise src).intr.delivered = e.intr.delivered ++ [n] ∧ (e.raise src).intr.unfired = [] ∧
     (e.raise src).intr.holdoff = e.intr.holdoff ++ [g] ∧
     (e.raise src).out = e.out ++
       (if bit (e.target n) 0 ∧ 4 * e.rd (Reg.INT_GRP_ADDR_ADDR g) ≠ 0
        then [.message (4 * e.rd (Reg.INT_GRP_ADDR_ADDR g)) (e.rd (Reg.INT_GRP_DATA_DATA g))] else [])) ∧
  (∀ (s : State),
     (∀ g : Fin 64, 8 ≤ g.val → (quiet s).unfiredIn g ≠ [] →
       (s.eng.on (Reg.INT_GRP_CFG_MASK g) = false →
         exec (.groupCoalesceTimer g) s = .next (leaving s ((quiet s).deliver g))) ∧
       (s.eng.on (Reg.INT_GRP_CFG_MASK g) = true →
         exec (.groupCoalesceTimer g) s = .next (leaving s ((quiet s).flag (Reg.INT_GRP_CFG_FIRED_PEND g) true)))) ∧
     (∀ g : Fin 8, s.eng.intr.holdoff.contains g.val = true →
       let e : Eng := { quiet s with intr := { s.eng.intr with holdoff := s.eng.intr.holdoff.filter (· != g.val) } }
       ((quiet s).unfiredIn g = [] → exec (.holdoffEnd g) s = .next (leaving s e)) ∧
       ((quiet s).unfiredIn g ≠ [] → s.eng.on (Reg.INT_GRP_CFG_MASK g) = false → exec (.holdoffEnd g) s = .next (leaving s
         (let d := e.deliver g
          { d with intr := { d.intr with holdoff := e.intr.holdoff ++ [g.val] } })))) ∧
     (∀ (g : Fin 64) (v : Word), s.eng.answers .alwaysOn = true → (Reg.INT_GRP_CFG_MASK g).of v.toNat = 0 →
       s.eng.on (Reg.INT_GRP_CFG_FIRED_PEND g) = true →
       let set := ((written .alwaysOn (grpCfgFields g) v.toNat s).sw (Reg.INT_GRP_CFG_COUNT g) v.toNat).sw (Reg.INT_GRP_CFG_TIME g) v.toNat
       exec (.groupUnmask g v) s = .next (leaving s
         (((set.flag (Reg.INT_GRP_CFG_MASK g) false).flag (Reg.INT_GRP_CFG_FIRED_PEND g) false).deliver g)))) ∧
  (∀ (s : State) (t : Fin 2), s.eng.answers .alwaysOn = true →
     ((∀ n < 512, ¬(s.eng.intr.delivered.contains n = true ∧ bit (s.eng.target n) t = true ∧
         s.eng.on (Reg.INT_SRC_CFG_IN_SERVICE n) = false)) →
       exec (.interruptClaim t) s = .next (leaving s ((quiet s).emit (.answer 0x3FF)))) ∧
     (∀ n < 512, s.eng.intr.delivered.contains n = true → bit (s.eng.target n) t = true →
       s.eng.on (Reg.INT_SRC_CFG_IN_SERVICE n) = false →
       (∀ m < n, ¬(s.eng.intr.delivered.contains m = true ∧ bit (s.eng.target m) t = true ∧
         s.eng.on (Reg.INT_SRC_CFG_IN_SERVICE m) = false)) →
       let rest := s.eng.intr.delivered.filter (· != n)
       (s.eng.on (Reg.INT_SRC_CFG_PENDING n) = false → exec (.interruptClaim t) s =
         .next (leaving s ((({ quiet s with intr := { s.eng.intr with delivered := rest } } : Eng).bump Reg.INT_STAT_SPURIOUS).emit
           (.answer 0x3FF)))) ∧
       (s.eng.on (Reg.INT_SRC_CFG_PENDING n) = true →
         let served := ({ quiet s with intr := { s.eng.intr with delivered := rest, claimedBy := put s.eng.intr.claimedBy n t } } :
           Eng).flag (Reg.INT_SRC_CFG_IN_SERVICE n) true
         (2 ≤ s.eng.rd (Reg.INT_SRC_CFG_SENSE n) → exec (.interruptClaim t) s =
           .next (leaving s ((served.flag (Reg.INT_SRC_CFG_PENDING n) false).emit (.answer n)))) ∧
         (s.eng.rd (Reg.INT_SRC_CFG_SENSE n) < 2 → exec (.interruptClaim t) s = .next (leaving s (served.emit (.answer n)))))) ∧
     (∀ v : Word, let n := (Reg.INT_COMPLETE_SOURCE t).of v.toNat
       let e := written .alwaysOn [Reg.INT_COMPLETE_SOURCE t] v.toNat s
       (s.eng.on (Reg.INT_SRC_CFG_IN_SERVICE n) = true → look s.eng.intr.claimedBy n = some t.val →
         2 ≤ s.eng.rd (Reg.INT_SRC_CFG_SENSE n) → exec (.interruptComplete t v) s = .next (leaving s
           { e.flag (Reg.INT_SRC_CFG_IN_SERVICE n) false with
             intr := { s.eng.intr with claimedBy := cut s.eng.intr.claimedBy n } })) ∧
       (¬(s.eng.on (Reg.INT_SRC_CFG_IN_SERVICE n) = true ∧ look s.eng.intr.claimedBy n = some t.val) →
         exec (.interruptComplete t v) s = .next (leaving s e))))

/-! ### The start lock and the roll call -/

/-- R493, R12: a start-lock write with LOCK 0, or while BUSY or LOCKED is 1, has no effect but the report of reserved bits. R448
and R493 on an engine with no valid region and no accepted or held map: every local check passes, no roll call is made, and
the write ends with the lock set, BUSY clear, STATUS OK and START_DONE raised, once the fits of R118 to R381 hold. -/
def Obligations.StartLockIsTakenOnce : Prop :=
  (∀ (s : State) (v : Word), takesWrites .coding s →
     (Reg.GEN_START_LOCK.of v.toNat = 0 ∨ s.eng.on Reg.GEN_START_BUSY = true ∨ s.eng.locked = true) →
     exec (.startLock v) s = .next (leaving s (written .coding genStartFields v.toNat s))) ∧
  (∀ (s : State) (v : Word), takesWrites .coding s → Reg.GEN_START_LOCK.of v.toNat = 1 →
     s.eng.on Reg.GEN_START_BUSY = false → s.eng.locked = false → s.eng.rgns = [] → s.eng.on Reg.GRV_CFG_VALID = false →
     s.eng.mapState ≠ 4 →
     let e := written .coding genStartFields v.toNat s
     let busy := (((e.flag Reg.GEN_START_BUSY true).wr Reg.GEN_START_STATUS stNotReady).wr Reg.GRV_RGN_DIGEST_DIGEST
       e.rgnDigest).wr Reg.UPD_UPROG_DIGEST_DIGEST (leNat ((sha3_256 (bytesAt s.eng.progs 0 131072)).take 8))
     let staged := busy.wr Reg.GRV_STAGE_SIZE_BYTES 0
     staged.fits.all (·.2) = true →
     exec (.startLock v) s = .next (leaving s
       ((staged.each staged.fits (fun f e => e.flag f.1 true)).flag Reg.SEC_STAT_KEY_NEED false).takeLock))

/-- R446: a roll-call record that arrives with the map key on an engine that is ready and has its place is kept as the newest of
its position, answered, and shown in GRV_RC_STAT.HELD; before the engine's own start lock nothing else happens. One with
another key is refused and counted in KEY_MISS. R446 and R447: the record goes again, with the map key, to every position
whose write has not completed (R34, R435: an engine without its place, or not READY, sends none); the timeout of a roll call that
runs ends it with reason TIMEOUT, the start lock clear and STATUS ROLL_TIMEOUT. -/
def Obligations.RollCallRecordsAreKeptAndResent : Prop :=
  (∀ (s : State) (key : Word) (requester : Place) (pos : Fin 16) (rec : List Byte),
     s.eng.on Reg.GEN_BOOT_READY = true → s.eng.fenced = false → s.eng.boot.inReset = false → rec.length = 128 →
     s.eng.on Reg.GEN_PLACE_VALID = true →
     (key.toNat = s.eng.mapKey → s.eng.rc.active = false →
       exec (.rollCallRecord key requester pos rec) s = .next (leaving s
         ((({ awake s with rc := { s.eng.rc with records := put s.eng.rc.records pos rec } } : Eng).emit
           (.fabricAnswer (some []))).wr Reg.GRV_RC_STAT_HELD (setBit (s.eng.rd Reg.GRV_RC_STAT_HELD) pos)))) ∧
     (key.toNat ≠ s.eng.mapKey →
       exec (.rollCallRecord key requester pos rec) s = .next (leaving s
         (((awake s).bump Reg.GRV_RC_STAT_KEY_MISS).emit (.fabricAnswer none))))) ∧
  (∀ (s : State), s.eng.boot.inReset = false →
     (∀ done : List (Fin 16), s.eng.fenced = false →
       let left := s.eng.rc.unsent.filter (fun p => !(done.map (·.val)).contains p)
       exec (.rollCallResend done) s = .next (leaving s
         { quiet s with
           rc := { s.eng.rc with unsent := left },
           out := if s.eng.on Reg.GEN_PLACE_VALID && s.eng.on Reg.GEN_BOOT_READY then
             left.map (fun p => .fabricWrite (s.eng.placeOf p) apRollCall (128 * s.eng.pos) s.eng.mapKey s.eng.rc.own) else [] })) ∧
     (s.eng.rc.active = true →
       exec .rollCallTimeout s = .next (leaving s
         (((((quiet s).flag Reg.GRV_RC_STAT_FAILED true).flag Reg.GRV_RC_STAT_PASSED false).wr Reg.GRV_RC_STAT_REASON 0x08).wr
           Reg.GRV_RC_STAT_BAD_POS 0 |>.endStart stRollTimeout))))

/-! ### The grove map -/

/-- R442 and R444: ARM, before the start lock, arms the engine and drops the map, its sessions and its records, unless a map of
the same digest is accepted; after the start lock it is ignored and sets LOCKED_WR. The fields beside ARM are stored by their
access codes. R442: a write to the map aperture is refused with an error response on an engine that is not armed, has no
place, or expects another key (which is counted); one that carries part of a map whose LENGTH has not all arrived is kept.
R442 and R443: a child that fails is counted once and not tried again; the end of WAIT starts the first fetch of an armed, ready
engine that has accepted no map, and a retry the next; a failed attempt before the third leaves the engine as it was, the
third ends the fetching with REASON FETCH, unarmed, and MAP_FAIL; a fetched map that matches its digest is taken, and not
forwarded. -/
def Obligations.MapIsArmedWrittenAndFetched : Prop :=
  (∀ (s : State) (v : Word), takesWrites .coding s → Reg.GRV_MAP_CTL_ARM.of v.toNat = 1 →
     let e := (written .coding mapCtlFields v.toNat s).putFields
       [Reg.GRV_MAP_CTL_WAIT, Reg.GRV_MAP_CTL_STANDBY, Reg.GRV_MAP_CTL_GRAFT] v.toNat
     (s.eng.locked = true → exec (.mapArm v) s = .next (leaving s (e.flag Reg.GEN_ERR_LOCKED_WR true))) ∧
     (s.eng.rwlOpen = true → s.eng.mapState = 3 → s.eng.map.digest = s.eng.mapDigest →
       exec (.mapArm v) s = .next (leaving s (e.flag Reg.GRV_MAP_CTL_ARMED true))) ∧
     (s.eng.rwlOpen = true → s.eng.mapState ≠ 3 ∨ s.eng.map.digest ≠ s.eng.mapDigest →
       ∃ t, exec (.mapArm v) s = .next (leaving s t) ∧ t.on Reg.GRV_MAP_CTL_ARMED = true ∧ t.mapState = 1 ∧
         t.on Reg.GRV_CFG_VALID = false ∧ t.sess = [] ∧ t.rc.records = [] ∧ t.map.len = 0 ∧ t.mem = s.eng.mem)) ∧
  (∀ (s : State) (key : Word) (requester : Place) (off : Nat) (data : List Byte),
     s.eng.on Reg.GEN_BOOT_READY = true → s.eng.fenced = false → s.eng.boot.inReset = false →
     (s.eng.on Reg.GRV_MAP_CTL_ARMED = false ∨ s.eng.on Reg.GEN_PLACE_VALID = false →
       exec (.mapWrite key requester off data) s = .next (leaving s ((awake s).emit (.fabricAnswer none)))) ∧
     (off + data.length ≤ 2 ^ 25 → s.eng.on Reg.GRV_MAP_CTL_ARMED = true → s.eng.on Reg.GEN_PLACE_VALID = true →
       (key.toNat ≠ s.eng.mapKey → exec (.mapWrite key requester off data) s =
         .next (leaving s (((awake s).bump Reg.GRV_RC_STAT_KEY_MISS).emit (.fabricAnswer none)))) ∧
       (key.toNat = s.eng.mapKey → s.eng.mapState = 1 →
         let kept := ((awake s).emit (.fabricAnswer (some []))).setMap (fun m =>
           { m with buf := data.zipIdx.foldl (fun b x => put b (off + x.2) x.1) m.buf })
         (kept.bufferMap off data).mapWhole = false →
         exec (.mapWrite key requester off data) s = .next (leaving s (kept.bufferMap off data))))) ∧
  (∀ (s : State),
     (∀ child, s.eng.map.waiting.contains child = true → exec (.mapChildTimeout child) s = .next (leaving s
       (({ quiet s with map := { s.eng.map with waiting := s.eng.map.waiting.filter (· != child) } } : Eng).bump
         Reg.GRV_MAP_STAT_CHILD_FAIL))) ∧
     (s.eng.boot.inReset = false → s.eng.on Reg.GEN_BOOT_READY = true → s.eng.on Reg.GRV_MAP_CTL_ARMED = true →
       s.eng.mapState = 1 ∨ s.eng.mapState = 4 ∨ s.eng.mapState = 5 →
       s.eng.rd Reg.GRV_MAP_STAT_TRIES = 0 → exec .mapWaitExpiry s = .next (leaving s
         ((((quiet s).wr Reg.GRV_MAP_STAT_STATE 2).bump Reg.GRV_MAP_STAT_TRIES).emit
           (.storageRead (s.eng.rd Reg.GRV_MAP_HANDLE_HANDLE) 0 (4096 * s.eng.rd Reg.GRV_MAP_BASE_LEN))))) ∧
     (s.eng.boot.inReset = false → s.eng.mapState = 2 → s.eng.rd Reg.GRV_MAP_STAT_TRIES < 3 →
       exec .mapFetchRetry s = .next (leaving s
         ((((quiet s).wr Reg.GRV_MAP_STAT_STATE 2).bump Reg.GRV_MAP_STAT_TRIES).emit
           (.storageRead (s.eng.rd Reg.GRV_MAP_HANDLE_HANDLE) 0 (4096 * s.eng.rd Reg.GRV_MAP_BASE_LEN))))) ∧
     (s.eng.mapState = 2 →
       (s.eng.rd Reg.GRV_MAP_STAT_TRIES < 3 → exec (.mapFetchComplete none) s = .next (leaving s (quiet s))) ∧
       (3 ≤ s.eng.rd Reg.GRV_MAP_STAT_TRIES → exec (.mapFetchComplete none) s = .next (leaving s
         (((((quiet s).wr Reg.GRV_MAP_STAT_STATE 5).wr Reg.GRV_MAP_STAT_REASON 5).flag Reg.GRV_MAP_CTL_ARMED false).raise
           .MAP_FAIL))) ∧
       (∀ b : List Byte, let m := b.take (mapLength b)
         sha3_256 m = s.eng.mapDigest →
         exec (.mapFetchComplete (some b)) s = .next (leaving s (((quiet s).bufferMap 0 m).takeMap m 2)))))

/-! ### Resets, pruning and power modes -/

/-- R450, R451, R457 and R458: a write of GEN_RESET without KEY 0x5A is ignored; with it, and CORE alone, the coding core resets:
the reset is counted and recorded, and withholds the core until its resumption; the watchdog's expiry does the same with its
own cause. The fourth reset within 600 s takes the engine out of service instead. R451 to R453: the resumption ends the reset:
RESUME_US holds its length, the coding-core counters restart, the core works again and CORE_RESUMED is raised (`Eng.resumed`),
and what was withheld is taken; here nothing was. A shadow that fails its check takes the engine out of service. -/
def Obligations.CodingCoreResetsAndResumes : Prop :=
  (∀ (s : State),
     let recent := s.eng.boot.resetsAt.filter (fun t => s.eng.now < t + 600000000000)
     let began := fun (e : Eng) (cause : Nat) =>
       let r : Eng := { e with
         boot := { e.boot with inReset := true, watchdog := cause == 2, resetsAt := recent ++ [s.eng.now] },
         loss := { e.loss with hbLosses := e.rd Reg.GRV_PT_STAT_LOSSES, hbMap := e.rd Reg.RBD_LOSS_STAT_LOST_MAP } }
       ((r.bump Reg.GEN_RESET_STAT_CORE_TOTAL).wr Reg.GEN_RESET_STAT_IN_WINDOW (recent.length + 1)).wr
         Reg.GEN_RESET_STAT_LAST_CAUSE cause
     (∀ (v : Word), s.eng.answers .alwaysOn = true →
       let e := written .alwaysOn genResetFields v.toNat s
       (Reg.GEN_RESET_KEY.of v.toNat ≠ 0x5A → exec (.coreReset v) s = .next (leaving s e) ∧
         ∀ x, exec (.cryptoReset v x) s = .next (leaving s e)) ∧
       (Reg.GEN_RESET_KEY.of v.toNat = 0x5A → Reg.GEN_RESET_CORE.of v.toNat = 1 → Reg.GEN_RESET_CRYPTO.of v.toNat = 0 →
         s.eng.boot.inReset = false → s.eng.oos = false →
         (recent.length < 3 → exec (.coreReset v) s = .next (leaving s (began e 1))) ∧
         (3 ≤ recent.length → exec (.coreReset v) s = .next (leaving s (e.leaveService 1)))) ∧
       (Reg.GEN_RESET_KEY.of v.toNat = 0x5A → Reg.GEN_RESET_CORE.of v.toNat = 0 → Reg.GEN_RESET_CRYPTO.of v.toNat = 1 →
         exec (.cryptoReset v none) s = .next (leaving s ((e.bump Reg.GEN_RESET_STAT_CRYPTO_TOTAL).zeroize false)))) ∧
     (s.eng.boot.inReset = false → s.eng.oos = false → recent.length < 3 →
       exec .watchdogExpiry s = .next (leaving s (began (quiet s) 2)))) ∧
  (∀ (s : State) (micros : Nat), s.eng.boot.inReset = true →
     exec (.coreResumed false micros) s = .next (leaving s ((quiet s).leaveService 3)) ∧
     (s.eng.late = [] → exec (.coreResumed true micros) s = .next (leaving s
       ((((quiet s).resumed micros).each (List.range 4) (fun p e => e.pump p)).settle))))

/-- R460 to R462: a prune with KEY 0xA5 of a present unit that is not pruned marks it and raises UNIT_PRUNED, and below CLU_MIN
clusters CLUSTER_LOW too; one of a fused or pruned unit changes nothing; an UNPRUNE before the start lock ends the prune, and
after it sets LOCKED_WR; a cluster fault prunes with AUTO_CLU set. Without the key the write is ignored. -/
def Obligations.PruningMarksUnits : Prop :=
  ∀ (s : State) (v : Word), s.eng.answers .alwaysOn = true →
    let e := written .alwaysOn pruneFields v.toNat s
    let unit := Reg.GEN_PRUNE_UNIT.of v.toNat
    let holes := s.eng.rd Reg.GEN_HOLE_CLU_PRUNED
    let cluster := fun (e : Eng) (c : Nat) =>
      let m := (e.wr Reg.GEN_HOLE_CLU_PRUNED (setBit holes c)).raise .UNIT_PRUNED
      (if m.clustersLeft < m.rd Reg.GEN_PRUNE_CTL_CLU_MIN then m.raise .CLUSTER_LOW else m).dropCluster c
    (Reg.GEN_PRUNE_KEY.of v.toNat ≠ 0xA5 →
      exec (.pruneCluster v) s = .next (leaving s e) ∧ exec (.pruneLane v) s = .next (leaving s e) ∧
      exec (.unprune v) s = .next (leaving s e)) ∧
    (Reg.GEN_PRUNE_KEY.of v.toNat = 0xA5 → Reg.GEN_PRUNE_UNPRUNE.of v.toNat = 0 →
      (Reg.GEN_PRUNE_KIND.of v.toNat = 0 →
        (bit s.eng.fuses.clusters unit = false ∨ bit holes unit = true → exec (.pruneCluster v) s = .next (leaving s e)) ∧
        (bit s.eng.fuses.clusters unit = true → bit holes unit = false →
          (let m := (e.wr Reg.GEN_HOLE_CLU_PRUNED (setBit holes unit)).raise .UNIT_PRUNED
           (if m.clustersLeft < m.rd Reg.GEN_PRUNE_CTL_CLU_MIN then m.raise .CLUSTER_LOW else m).clustersLeft ≠ 0) →
          exec (.pruneCluster v) s = .next (leaving s (cluster e unit)))) ∧
      (Reg.GEN_PRUNE_KIND.of v.toNat = 1 → bit (e.presentLanes (unit / 16)) (unit % 16) = true →
        bit (s.eng.rd (Reg.GP_LANES_PRUNED (unit / 16))) (unit % 16) = false →
        exec (.pruneLane v) s = .next (leaving s (((e.wr (Reg.GP_LANES_PRUNED (unit / 16))
          (setBit (s.eng.rd (Reg.GP_LANES_PRUNED (unit / 16))) (unit % 16))).loseLane (unit / 16) (unit % 16)).raise
            .UNIT_PRUNED)))) ∧
    (Reg.GEN_PRUNE_KEY.of v.toNat = 0xA5 → Reg.GEN_PRUNE_UNPRUNE.of v.toNat = 1 →
      (s.eng.locked = true → exec (.unprune v) s = .next (leaving s (e.flag Reg.GEN_ERR_LOCKED_WR true))) ∧
      (s.eng.locked = false → Reg.GEN_PRUNE_KIND.of v.toNat = 0 → exec (.unprune v) s =
        .next (leaving s (e.wr Reg.GEN_HOLE_CLU_PRUNED (clearBit holes unit)))) ∧
      (s.eng.locked = false → Reg.GEN_PRUNE_KIND.of v.toNat = 1 → exec (.unprune v) s =
        .next (leaving s (e.wr (Reg.GP_LANES_PRUNED (unit / 16))
          (clearBit (s.eng.rd (Reg.GP_LANES_PRUNED (unit / 16))) (unit % 16)))))) ∧
    (∀ c : Fin 64, s.eng.on Reg.GEN_PRUNE_CTL_AUTO_CLU = true → bit s.eng.fuses.clusters c = true → bit holes c = false →
      (let m := ((quiet s).wr Reg.GEN_HOLE_CLU_PRUNED (setBit holes c)).raise .UNIT_PRUNED
       (if m.clustersLeft < m.rd Reg.GEN_PRUNE_CTL_CLU_MIN then m.raise .CLUSTER_LOW else m).clustersLeft ≠ 0) →
      exec (.clusterFault c) s = .next (leaving s (cluster (quiet s) c)))

/-- R438 and R310: a SLEEP write with no map accepted and no command in progress enters keep-alive, saves the wear records and
takes every UP port to LOW; any other sets REFUSED; a demand starts the fast clocks, an interrupt only where a watch names it.
R540: a request for the flash is granted once GEN_BOOT.STAGE has reached 2, and its end makes the wear writes that waited. R455:
cmp_rst_l falling begins a new generation of gradient intake: unfinished slices are discarded and counted as stale, the reset
is counted, and everything else stays; its rise issues every unanswered tier operation again. -/
def Obligations.KeepAliveAndComputeResets : Prop :=
  (∀ (s : State),
     (∀ v : Word, s.eng.answers .alwaysOn = true → Reg.GEN_PWR_SLEEP.of v.toNat = 1 →
       let w := written .alwaysOn [Reg.GEN_PWR_REFUSED, Reg.GEN_PWR_SLEEP, Reg.GEN_PWR_ASLEEP] v.toNat s
       let e := if Reg.GEN_PWR_REFUSED.of v.toNat = 1 then w.flag Reg.GEN_PWR_REFUSED false else w
       (s.eng.on Reg.GRV_CFG_VALID = true ∨ s.eng.q.opens ≠ [] →
         exec (.sleepRequest v) s = .next (leaving s (e.flag Reg.GEN_PWR_REFUSED true))) ∧
       (s.eng.on Reg.GRV_CFG_VALID = false → s.eng.q.opens = [] → s.eng.on Reg.GEN_PWR_ASLEEP = false →
         exec (.sleepRequest v) s = .next (leaving s (let z := ((e.flag Reg.GEN_PWR_SLEEP true).flag Reg.GEN_PWR_ASLEEP true).saveWear
          z.each ((List.range 4).filter (fun p => z.portState p == psUp)) (fun p e => e.enterLow p))))) ∧
     (∀ d : Demand, s.eng.on Reg.GEN_PWR_ASLEEP = true →
       (match d with | .interrupt n => s.eng.watched n = true | _ => True) →
       exec (.fastClockWake d) s = .next (leaving s ((quiet s).flag Reg.GEN_PWR_ASLEEP false))) ∧
     (s.eng.pins.pwrGood = true → 2 ≤ s.eng.rd Reg.GEN_BOOT_STAGE → exec (.flashShareRequest true) s = .next (leaving s
       { quiet s with pins := { s.eng.pins with flShareReq := true, flShareGnt := true } })) ∧
     (exec (.flashShareRequest false) s = .next (leaving s
       (({ quiet s with pins := { s.eng.pins with flShareReq := false, flShareGnt := false },
                        edge := { s.eng.edge with wearQ := [] } } : Eng).each s.eng.edge.wearQ
         (fun w e => ({ e with health := { e.health with nvmNo := w.1, nvm := w.2 } } : Eng).emit .nvm))))) ∧
  (∀ (s : State),
     (s.eng.pins.cmpRstL = true → exec .computeReset s = .next (leaving s
       ((((({ quiet s with
           pins := { s.eng.pins with cmpRstL := false },
           upd := { s.eng.upd with gen := (s.eng.upd.gen + 1) % 256, slices := s.eng.upd.slices.filter (·.full) } } : Eng).wr
             Reg.UPD_INTAKE_CTL_GEN_NOW ((s.eng.upd.gen + 1) % 256 % 2)).bumpBy Reg.UPD_INTAKE_STAT_STALE
               (s.eng.upd.slices.filter (fun x => !x.full)).length).bump Reg.HLT_RESETS_TOTAL).minute
                 (fun b => { b with resets := b.resets + 1 })).retryIntake)) ∧
     (s.eng.pins.cmpRstL = false → exec .computeResetRelease s = .next (leaving s
       { quiet s with pins := { s.eng.pins with cmpRstL := true }, out := s.eng.tier.map (fun t => .tier t.op t.what) })))

/-- R410 to R413: a zeroization, commanded with ZKEY 0xC3 or by the tamper input, leaves no key in the store, no challenge and no
state of the random bit generator, makes the key state of every open session unusable, shows
ZEROIZED and its cause, ends what needs the keys, and on a locked engine fences it; tamper also blocks the root key until
power-off. R406 and R407: the first test that fails while the engine runs puts the module in its error state: ERROR and
FAILED say so, CRYPTO_ERROR is raised, the keys are overwritten as above, digests that need the module end with CRYPTO_ERROR,
and a locked engine leaves service; a later one changes nothing. -/
def Obligations.ZeroizationLeavesNoKey : Prop :=
  ∀ (s : State),
    let cleared := fun (e : Eng) (tamper : Bool) =>
      let d := e.dropOwnTx
      let k : Eng := { d with
        sess := d.sess.map (fun x => (x.1, { x.2 with keyLost := x.2.keyLost || x.2.st == 1 })),
        sec := { d.sec with jlk := none, amk := none, atk := none, challenge := none, drbg := zeros 48, reseed := 0 } }
      (((((k.flag Reg.SEC_STAT_ZEROIZED true).flag Reg.SEC_STAT_TAMPER tamper).wr Reg.SEC_STAT_KEYS 0).wr Reg.SEC_JOB_ID_JOB_ID
        0).flag Reg.LED_CTL_KEY false).raise .ZEROIZED
    let ended := fun (e : Eng) (tamper : Bool) =>
      let x := ((cleared e tamper).abortAnchor stNoKey 0).endRestores stNoKey
      if x.locked then x.selfFence else x
    (∀ v : Word, s.eng.answers .alwaysOn = true → Reg.SEC_CTL_ZEROIZE.of v.toNat = 1 → Reg.SEC_CTL_ZKEY.of v.toNat = 0xC3 →
      exec (.zeroizeCommand v) s = .next (leaving s
        (ended ((written .alwaysOn [Reg.SEC_CTL_ZKEY, Reg.SEC_CTL_TAMPER_KILL, Reg.SEC_CTL_ZEROIZE] v.toNat s).putField v.toNat
          Reg.SEC_CTL_TAMPER_KILL) false).settle)) ∧
    (let e := ended (quiet s) true
     exec .tamper s = .next (leaving s (({ e with
       fuses := { e.fuses with rootKill := e.fuses.rootKill || e.on Reg.SEC_CTL_TAMPER_KILL } } : Eng).flag
         Reg.SEC_STAT_ROOT_BLOCKED true).settle)) ∧
    (∀ b : Bool,
      (s.eng.on Reg.SEC_STAT_ERROR = true → exec (.selfTestFail b) s = .next (leaving s (quiet s).settle)) ∧
      (s.eng.on Reg.SEC_STAT_ERROR = false →
        let x := ended ((((quiet s).flag Reg.SEC_STAT_ERROR true).wr Reg.SEC_STAT_FAILED (if b then 11 else 10)).setLevel
          .CRYPTO_ERROR true) false
        let y := (({ x with keep := { x.keep with hashes := [] } } : Eng).endOpen stCryptoError
          (fun o => match o with | .tensorDigest _ => true | _ => false)).releaseHeld
        exec (.selfTestFail b) s = .next (leaving s (if y.locked then y.leaveService 4 else y).settle))) ∧
    (∀ e b, (cleared e b).sec.jlk = none ∧ (cleared e b).sec.amk = none ∧ (cleared e b).sec.atk = none ∧
      (cleared e b).sec.challenge = none ∧ (cleared e b).sec.drbg = zeros 48 ∧ (cleared e b).on Reg.SEC_STAT_ZEROIZED = true)

/-! ### Region descriptors and the microprogram store -/

/-- R70: while the start lock is set, or its write is processed, a write to a descriptor or to the store is ignored and sets
GEN_ERR.LOCKED_WR. R69 and R70: a 32-bit word below CTL of a descriptor that is not valid stores its defined bits, reports
reserved ones, and leaves every other byte; in a valid descriptor it stores nothing, and reports WRITE_VALID where it would
change a byte. -/
def Obligations.DescriptorsAreWrittenUntilLocked : Prop :=
  (∀ (s : State) (off : Nat) (wide : Bool) (v : DWord) (n : BitVec 12) (slot : Fin 16) (w : Word),
     takesWrites .coding s → s.eng.rwlOpen = false →
     let after := (reached .coding s).flag Reg.GEN_ERR_LOCKED_WR true
     exec (.descriptorValid n) s = .next (leaving s after) ∧
     exec (.programSlotValid slot w) s = .next (leaving s after) ∧
     (off % (if wide then 8 else 4) = 0 → off + (if wide then 8 else 4) ≤ 0x40000 →
       exec (.descriptorWrite off wide v) s = .next (leaving s after)) ∧
     (off % (if wide then 8 else 4) = 0 → off + (if wide then 8 else 4) ≤ 0x20000 →
       exec (.programStoreWrite off wide v) s = .next (leaving s after))) ∧
  (∀ (s : State) (n i : Nat) (v : DWord), takesWrites .coding s → s.eng.rwlOpen = true → n < 4096 → i < 15 →
     Memory.wf s.eng.descs →
     let at_ := descBytes * n + 4 * i
     let word := natLe 4 v.toNat
     let kept := word.zipIdx.map (fun b => b.1 &&& descMask (4 * i + b.2))
     (s.eng.descValid n = false →
       ∃ t, exec (.descriptorWrite at_ false v) s = .next (leaving s t) ∧
         bytesAt t.descs at_ 4 = kept ∧ (∀ a, a < at_ ∨ at_ + 4 ≤ a → byteAt t.descs a = byteAt s.eng.descs a) ∧
         t.on Reg.GEN_ERR_RSVD_WR = (s.eng.on Reg.GEN_ERR_RSVD_WR || kept != word) ∧ t.rgns = s.eng.rgns ∧ t.mem = s.eng.mem) ∧
     (s.eng.descValid n = true →
       ∃ t, exec (.descriptorWrite at_ false v) s = .next (leaving s t) ∧ t.descs = s.eng.descs ∧ t.rgns = s.eng.rgns ∧
         (kept ≠ bytesAt s.eng.descs at_ 4 → s.eng.on Reg.GRV_RGN_CHECK_FAIL = false →
           t.on Reg.GRV_RGN_CHECK_FAIL = true ∧ t.rd Reg.GRV_RGN_CHECK_REASON = 0x0B ∧ t.rd Reg.GRV_RGN_CHECK_REGION = n)))

/-- R69 and R71: writing VALID to 1 makes a descriptor that passes every check a region, and sets VALID; one that fails a check
leaves VALID at 0 and reports the first failure; one that is valid already is not looked at again. R201 and R202: writing word
0 of a slot with VALID at 1 stores the word and checks the program: one that passes has VALID, one that fails has VALID 0 and
its first failure in UPD_PROG_CHECK; a write to any other byte is stored and clears VALID. -/
def Obligations.RegionsAndProgramsAreCheckedWhenMadeValid : Prop :=
  (∀ (s : State) (n : BitVec 12), takesWrites .coding s → s.eng.rwlOpen = true →
     let e := reached .coding s
     (s.eng.descValid n.toNat = true → exec (.descriptorValid n) s = .next (leaving s e)) ∧
     (s.eng.descValid n.toNat = false → s.eng.validCheck (s.eng.readRgn n.toNat) = none →
       exec (.descriptorValid n) s = .next (leaving s { e with
         descs := splice s.eng.descs (descBytes * n.toNat + 0x3C) [1], rgns := insertRgn (s.eng.readRgn n.toNat) s.eng.rgns })) ∧
     (∀ why, s.eng.descValid n.toNat = false → s.eng.validCheck (s.eng.readRgn n.toNat) = some why →
       s.eng.on Reg.GRV_RGN_CHECK_FAIL = false →
       exec (.descriptorValid n) s = .next (leaving s
         (((e.wr Reg.GRV_RGN_CHECK_REASON why).wr Reg.GRV_RGN_CHECK_REGION n.toNat).flag Reg.GRV_RGN_CHECK_FAIL true)))) ∧
  (∀ (s : State) (slot : Fin 16) (v : Word), takesWrites .coding s → s.eng.rwlOpen = true → v.toNat % 2 = 1 →
     v.toNat / 2 % 2 ^ 15 = 0 →
     let e := reached .coding s
     let stored : Eng := { e with progs := splice s.eng.progs (slot * 8192) (natLe 4 v.toNat) }
     (stored.progCheck slot = none → exec (.programSlotValid slot v) s = .next (leaving s
       { stored with progs := splice stored.progs (slot * 8192) [1] })) ∧
     (∀ i r, stored.progCheck slot = some (i, r) → s.eng.on Reg.UPD_PROG_CHECK_FAIL = false →
       exec (.programSlotValid slot v) s = .next (leaving s
         (({ stored with progs := splice stored.progs (slot * 8192) [0] } : Eng).wr Reg.UPD_PROG_CHECK_REASON r |>.wr
           Reg.UPD_PROG_CHECK_SLOT slot |>.wr Reg.UPD_PROG_CHECK_INSTR i |>.flag Reg.UPD_PROG_CHECK_FAIL true))) ∧
     (∀ (o : Nat) (w : DWord), 64 ≤ o → o + 8 ≤ 0x1040 → o % 8 = 0 →
       exec (.programStoreWrite (slot * 8192 + o) true w) s = .next (leaving s
         { e with progs := splice (splice s.eng.progs (slot * 8192 + o) (natLe 8 w.toNat)) (slot * 8192) [0] })))

/-! ### Power -/

/-- R434, R436, R545: the rise of pwr_good on an unpowered engine reads the fuses as step 1; a fuse map beyond R26 or a high
te_mode ends the sequence there; with both images rejected self-test 2 fails and ends it; with a sound image A, every
self-test passed and no SRAM bank faulty it comes through steps 2 to 4 to the wait for the stacks, the repairs counted; a faulty
bank ends the sequence, with the repairs counted too (R337). R425: a wear record that fails its check is read as no samples and
the largest stress of any other unit of its kind. A fall of pwr_good is an always-on reset, which keeps the fuses and the NVM
records (R450). -/
def Obligations.PowerOnRunsItsSteps : Prop :=
  ∀ (s : State) (a b : FlashRead) (tests : BitVec 9) (stores : StoreTest),
    let bad := stores.nvmBad
    let on : Bool → Eng := fun te =>
      ((({ quiet s with pins := { s.eng.pins with pwrGood := true, teMode := te } } : Eng).wr Reg.GEN_BOOT_STAGE 1).readFuses bad)
    (s.eng.pins.pwrGood = false →
      (s.eng.fuses.ok = true → exec (.powerGood a b tests stores true) s = .next (leaving s (on true))) ∧
      (s.eng.fuses.ok = false → ∀ te, exec (.powerGood a b tests stores te) s = .next (leaving s
        (((on te).flag Reg.GEN_FLOOR_SUM_FUSE_BAD true).bootFails 1))) ∧
      (∀ ca cb, s.eng.fuses.ok = true → s.eng.pins.flShareReq = false →
        checkImage s.eng.fuses (s.eng.rd Reg.GEN_ID_SILICON) a = .rejected ca →
        checkImage s.eng.fuses (s.eng.rd Reg.GEN_ID_SILICON) b = .rejected cb →
        exec (.powerGood a b 0x1FF stores false) s = .next (leaving s
          ((((((on false).wr Reg.GEN_BOOT_STAGE 2).testPassed 1).wr Reg.GEN_BOOT_IMG_A ca).wr Reg.GEN_BOOT_IMG_B cb).testFailed 2 2))) ∧
      (∀ head recs, s.eng.fuses.ok = true → s.eng.pins.flShareReq = false → s.eng.boot.stackCaps = [] →
        checkImage s.eng.fuses (s.eng.rd Reg.GEN_ID_SILICON) a = .accepted head recs → bit (fieldAt head 0x0C 4) 0 = false →
        let two := ((((on false).wr Reg.GEN_BOOT_STAGE 2).testPassed 1).wr Reg.GEN_BOOT_IMG_A 1).takeImage 1 head
        let three := ((List.range 7).map (· + 3)).foldl (fun e n => e.testPassed n) ((two.testPassed 2).wr Reg.GEN_BOOT_STAGE 3)
        let repaired := ((three.flag Reg.SEC_STAT_ST_DONE true).wr Reg.GEN_BOOT_STAGE 4).bumpBy Reg.MEM_SRAM_STAT_SOFT stores.soft
        let four := repaired.each recs (fun r e => e.loadRecord r)
        (four.boot.stackCaps = [] → stores.faulty = none →
          exec (.powerGood a b 0x1FF stores false) s = .next (leaving s (four.wr Reg.GEN_BOOT_STAGE 5))) ∧
        (∀ bank, stores.faulty = some bank → exec (.powerGood a b 0x1FF stores false) s = .next (leaving s
          (((repaired.flag Reg.MEM_SRAM_STAT_FAIL true).wr Reg.MEM_SRAM_STAT_FAIL_BANK bank.val).bootFails 4))))) ∧
    (∀ te u, SMap.Sorted s.eng.health.nvm →
      (u ∉ bad → look (on te).health.wear u = look s.eng.health.nvm u) ∧
      (u ∈ bad → ∃ most, look (on te).health.wear u = some { stress := most, samples := [] } ∧
        (∀ v w, v ∉ bad → v / 128 = u / 128 → look s.eng.health.nvm v = some w → w.stress ≤ most) ∧
        (most = 0 ∨ ∃ v w, v ∉ bad ∧ v / 128 = u / 128 ∧ look s.eng.health.nvm v = some w ∧ w.stress = most))) ∧
    exec .powerLoss s = .next (leaving s { Eng.reset with
      free := s.eng.free, fuses := s.eng.fuses,
      pins := { s.eng.pins with pwrGood := false, flShareGnt := false, engReady := false, compHold := true },
      sec := { Eng.reset.sec with seeds := s.eng.sec.seeds },
      health := { Eng.reset.health with nvmNo := s.eng.health.nvmNo, nvm := s.eng.health.nvm } })

/-- R546 and R547: a wrapper instruction takes effect with te_mode high where its code is 0 to 4, and is WS_BYPASS else; an
instrument that reads answers what it shows (the eye, the lane counter, the temperature); one written with te_mode low does
nothing. Results and fuse words that the spec does not lay out are free values (log entry 57). -/
def Obligations.TestNetworkAnswers : Prop :=
  ∀ (s : State) (code : BitVec 4) (v : DWord),
    exec (.wrapperInstructionLoad code) s = .next (leaving s { quiet s with
      edge := { s.eng.edge with wir := if code.toNat ≤ 4 ∧ s.eng.pins.teMode = true then code.toNat else 0 } }) ∧
    (∀ l : Fin 64, exec (.instrumentAccess (.laneTest l) false v) s = .next (leaving s
      ((quiet s).emit (.testAnswer (s.eng.rd (Reg.GP_PRBS_ERR_COUNT (l.val / 16) (l.val % 16))))))) ∧
    (∀ q : Fin 4, exec (.instrumentAccess (.temperature q) false v) s = .next (leaving s
      ((quiet s).emit (.testAnswer (s.eng.quadTemp q.val))))) ∧
    (∀ w : Fin 64, exec (.instrumentAccess (.fuseRead w) false v) s = .next (leaving s
      (({ quiet s with free := s.eng.free + 1 } : Eng).emit (.testAnswer (Config.freeWord s.eng.free).toNat)))) ∧
    (∀ (b : Fin 112) r, s.eng.pins.teMode = true → look s.eng.edge.bist b.val = some r →
      exec (.instrumentAccess (.sramBist b) false v) s = .next (leaving s ((quiet s).emit (.testAnswer r)))) ∧
    (s.eng.pins.teMode = false → ∀ i, exec (.instrumentAccess i true v) s = .next (leaving s (quiet s)))

/-! ### The management path -/

/-- R511, R398 and R400: the management port, with power and step 1 done, answers each message with its code plus 0x80, its
instance and a status: STATUS_GET with the status registers; KEY_CHALLENGE with 32 bytes drawn from the generator (R395), which replace
the last challenge, and the serial, unless the module is not ready; KEY_LOAD with NO_CHALLENGE where no challenge stands; a message of
an unknown code or wrong length with BAD_MSG; KEY_ZEROIZE after the zeroization. R399 and R400: where a challenge stands KEY_LOAD
consumes it; the first check that fails, in the order of the table, gives the status, a tag that fails is counted, and no key
changes; a bundle that is sound and opens under the transport key and the challenge installs the keys it contains, shows them
and the job, and answers 0. R510: the endpoint takes the ID it is given, unless it is 0 or 0xFF, and reports it; it supports the
base specification, control messages and the vendor type, and one message type, 0x7F; it takes its dynamic address; a message
under another enterprise number is discarded, one under its own is answered. The messages' layout and the free version bytes
are log entry 52, the status of the body's last bytes log entry 21. -/
def Obligations.ManagementAndControlMessagesAreAnswered : Prop :=
  (∀ (s : State) (inst : Byte), s.eng.alive = true →
     (exec (.statusGet inst) s = .next (leaving s ((quiet s).emit (.mgmt 0x81 inst.toNat 0
       (natLe 8 (s.eng.regRaw 0x000400) ++ natLe 4 (s.eng.regRaw 0x030000) ++ natLe 4 (s.eng.regRaw 0x000118)
         ++ natLe 2 (bits (s.eng.regRaw 0x080008) 47 32) ++ natLe 1 (bits (s.eng.regRaw 0x080008) 31 30)))))) ∧
     (s.eng.moduleReady = true →
       let seeded := s.eng.sec.seeded
       let c := drbgBlocks seeded.drbg 2
       exec (.keyChallenge inst) s = .next (leaving s
         (({ quiet s with sec := { seeded with challenge := some c, drbg := (drbgGenerate seeded.drbg).1, reseed := seeded.reseed + 1 } } : Eng).emit
           (.mgmt 0x90 inst.toNat 0 (c ++ natLe 8 s.eng.fuses.serial))))) ∧
     (s.eng.moduleReady = false →
       exec (.keyChallenge inst) s = .next (leaving s ((quiet s).emit (.mgmt 0x90 inst.toNat 6 [])))) ∧
     (∀ bundle, s.eng.sec.challenge = none →
       exec (.keyLoad inst bundle) s = .next (leaving s ((quiet s).emit (.mgmt 0x91 inst.toNat 1 [])))) ∧
     (∀ code : Byte, exec (.badMsg code inst) s = .next (leaving s
       ((quiet s).emit (.mgmt ((code.toNat + 0x80) % 256) inst.toNat 1 [])))) ∧
     exec (.keyZeroize inst) s = .next (leaving s (((quiet s).zeroize false).emit (.mgmt 0x92 inst.toNat 0 [])))) ∧
  (∀ (s : State) (inst : Byte) (b ch : List Byte), s.eng.alive = true → s.eng.sec.challenge = some ch →
     let used : Eng := { quiet s with sec := { s.eng.sec with challenge := none } }
     let answers := fun (e : Eng) (st : Nat) => exec (.keyLoad inst b) s = .next (leaving s (e.emit (.mgmt 0x91 inst.toNat st [])))
     let opened := gcmOpen s.eng.transportKey ((b.drop 12).take 12) (b.take 24 ++ ch ++ natLe 8 s.eng.fuses.serial)
       ((b.drop 24).take 148) ((b.drop 0xAC).take 16)
     (bundleOk b = false → answers used 2) ∧
     (bundleOk b = true → s.eng.locked = true → answers used 3) ∧
     (bundleOk b = true → s.eng.locked = false →
       (opened = none → answers (used.authFail Reg.SEC_AUTH_FAIL_BUNDLE) 4) ∧
       (∀ body, opened = some body →
         (absentZero (fieldAt b 2 2) body = false → answers used 4) ∧
         (absentZero (fieldAt b 2 2) body = true → zeroAt body 96 52 = false → answers used 2) ∧
         (absentZero (fieldAt b 2 2) body = true → zeroAt body 96 52 = true →
           let mismatch := s.eng.rd Reg.SEC_STAT_KEYS ≠ 0 ∧ s.eng.rd Reg.SEC_JOB_ID_JOB_ID ≠ fieldAt b 4 8
           (mismatch → answers used 5) ∧
           (¬mismatch → s.eng.moduleReady = false → answers used 6) ∧
           (¬mismatch → s.eng.moduleReady = true → s.eng.on Reg.SEC_STAT_ROOT_BLOCKED = true → answers used 7))))) ∧
  (∀ (s : State) (inst : Byte) (b ch body : List Byte), s.eng.alive = true → s.eng.sec.challenge = some ch →
     bundleOk b = true → s.eng.locked = false → s.eng.moduleReady = true → s.eng.on Reg.SEC_STAT_ROOT_BLOCKED = false →
     s.eng.rd Reg.SEC_STAT_KEYS = 0 ∨ s.eng.rd Reg.SEC_JOB_ID_JOB_ID = fieldAt b 4 8 →
     gcmOpen s.eng.transportKey ((b.drop 12).take 12) (b.take 24 ++ ch ++ natLe 8 s.eng.fuses.serial) ((b.drop 24).take 148)
       ((b.drop 0xAC).take 16) = some body →
     absentZero (fieldAt b 2 2) body = true → zeroAt body 96 52 = true →
     let key := fun (i : Nat) (old : Option (List Byte)) =>
       if bit (fieldAt b 2 2) i then some ((body.drop (32 * i)).take 32) else old
     let sec : Sec := { s.eng.sec with
       challenge := none, jlk := key 0 s.eng.sec.jlk, amk := key 1 s.eng.sec.amk, atk := key 2 s.eng.sec.atk }
     exec (.keyLoad inst b) s = .next (leaving s
       (((((({ quiet s with sec := sec } : Eng).wr Reg.SEC_STAT_KEYS (s.eng.rd Reg.SEC_STAT_KEYS ||| fieldAt b 2 2)).wr
         Reg.SEC_JOB_ID_JOB_ID (fieldAt b 4 8)).flag Reg.LED_CTL_KEY sec.atk.isSome).emit (.mgmt 0x91 inst.toNat 0 []))))) ∧
  (∀ (s : State), s.eng.alive = true →
     (∀ (op : BitVec 2) (eid : Byte), op.toNat < 2 → eid ≠ 0 → eid ≠ 255 → exec (.setEndpointId op eid) s = .next (leaving s
       (({ quiet s with mgmt := { s.eng.mgmt with eid := eid.toNat } } : Eng).emit (.mctp 1 [0, 0, eid, 0])))) ∧
     (∀ (op : BitVec 2) (eid : Byte), 2 ≤ op.toNat ∨ eid = 0 ∨ eid = 255 →
       exec (.setEndpointId op eid) s = .next (leaving s ((quiet s).emit (.mctp 1 [2])))) ∧
     exec .getEndpointId s = .next (leaving s ((quiet s).emit (.mctp 2 [0, byteOf s.eng.mgmt.eid, 0, 0]))) ∧
     (∀ t : Byte, t = 0xFF ∨ t = 0x00 ∨ t = 0x7F → exec (.getMctpVersionSupport t) s = .next (leaving s
       (({ quiet s with free := s.eng.free + 4 } : Eng).emit
         (.mctp 4 ([0, 1] ++ (List.range 4).map (fun i => Config.freeByte (s.eng.free + i))))))) ∧
     (∀ t : Byte, ¬(t = 0xFF ∨ t = 0x00 ∨ t = 0x7F) →
       exec (.getMctpVersionSupport t) s = .next (leaving s ((quiet s).emit (.mctp 4 [0x80])))) ∧
     exec .getMessageTypeSupport s = .next (leaving s ((quiet s).emit (.mctp 5 [0, 1, 0x7F]))) ∧
     (∀ a : BitVec 7, exec (.dynamicAddressAssignment a) s = .next (leaving s
       { quiet s with mgmt := { s.eng.mgmt with dynAddr := a.toNat } })) ∧
     (∀ (vendor : Word) (body : List Byte), vendor.toNat ≠ 64771 →
       exec (.foreignVendorMessage vendor body) s = .next (leaving s (quiet s))) ∧
     (∀ (code inst : Byte) (body : List Byte), exec (.foreignVendorMessage 64771 (code :: inst :: body)) s = .next (leaving s
       ((quiet s).ownMessage code.toNat inst.toNat body))))

/-- R511 to R515: VIEW_SET of an unlisted view answers BAD_MSG; of 0 it forgets the place; of ALIVE or LOST it answers OK and
notes the view, and LOST fences the engine itself or, once locked, declares the position lost; VIEW_GET answers the data view,
the management view and the age; a disagreement that stands is recorded once. -/
def Obligations.ViewsAreKeptAndReported : Prop :=
  ∀ (s : State) (inst : Byte) (place : Word), s.eng.alive = true →
    (∀ view : Byte, 2 < view.toNat →
      exec (.viewSet inst place view) s = .next (leaving s ((quiet s).emit (.mgmt 0x82 inst.toNat 1 [])))) ∧
    (∀ view : Byte, view.toNat ≤ 2 → (quiet s).viewsWith place.toNat view.toNat = none →
      exec (.viewSet inst place view) s = .next (leaving s ((quiet s).emit (.mgmt 0x82 inst.toNat 2 [])))) ∧
    (∀ (view : Byte) vs, view.toNat ≤ 2 → (quiet s).viewsWith place.toNat view.toNat = some vs →
      let noted := ({ quiet s with mgmt := { s.eng.mgmt with views := vs } } : Eng).emit (.mgmt 0x82 inst.toNat 0 [])
      (view.toNat = 0 → exec (.viewSet inst place view) s = .next (leaving s noted.settle)) ∧
      (view.toNat = 1 → exec (.viewSet inst place view) s = .next (leaving s noted.admitHeld.settle)) ∧
      (view.toNat = 2 → s.eng.on Reg.GEN_PLACE_VALID = true → place.toNat = s.eng.place →
        exec (.viewSet inst place view) s = .next (leaving s noted.selfFence.settle)) ∧
      (∀ x, view.toNat = 2 → (s.eng.on Reg.GEN_PLACE_VALID = false ∨ place.toNat ≠ s.eng.place) →
        s.eng.boundPos place.toNat = some x → s.eng.locked = true →
        exec (.viewSet inst place view) s = .next (leaving s (noted.declareLost x 2).settle))) ∧
    (let e := (quiet s).noteViews
     let v := e.mgmt.views.find? (fun x => x.place == place.toNat)
     exec (.viewGet inst place) s = .next (leaving s (e.emit (.mgmt 0x83 inst.toNat 0
       (natLe 1 (e.dataView place.toNat) ++ natLe 1 ((v.map (·.mgt)).getD 0) ++
         natLe 4 ((v.map (fun x => min (2 ^ 32 - 1) ((e.now - x.since) / 1000000))).getD 0)))))) ∧
    (∀ (p : Place) (v : View), let e := (quiet s).noteViews
      e.mgmt.views.find? (fun x => x.place == p.toNat) = some v → v.reported = false → disagree v.data v.mgt = true →
      exec (.pathDisagree p) s = .next (leaving s
        ((((((({ e with mgmt := { e.mgmt with
            views := e.mgmt.views.map (fun x => if x.place == p.toNat then { x with reported := true } else x) } } : Eng).flag
          Reg.MGT_DISAGREE_VALID true).wr Reg.MGT_DISAGREE_PLACE p.toNat).wr Reg.MGT_DISAGREE_DATA v.data).wr
          Reg.MGT_DISAGREE_MGT v.mgt).wr Reg.MGT_DISAGREE_TIME (e.now / 1000000)).raise .PATH_DISAGREE)))

/-! ### Command queues and mailboxes -/

/-- R496 and R497: a write of CQ_TAIL below the queue's size is taken and a descriptor fetched where one is valid; at or above it
is counted in BAD_DB alone. A write of CQ_CTL with EN at 1 clears the halt and its source and fetches on; LOG2SIZE is taken
only from an EN of 0. With EN at 0 fetching stops and the descriptor that waits is dropped. -/
def Obligations.QueueRegistersSteerTheQueue : Prop :=
  ∀ (s : State) (q : Fin 4) (v : Word), takesWrites .coding s →
    (let e := written .coding [Reg.CQ_TAIL_TAIL q] v.toNat s
     let t := (Reg.CQ_TAIL_TAIL q).of v.toNat
     (t < e.queueSize q → exec (.doorbell q v) s = .next (leaving s ((e.wr (Reg.CQ_TAIL_TAIL q) t).fetchNext q))) ∧
     (e.queueSize q ≤ t → exec (.doorbell q v) s = .next (leaving s (e.bump (Reg.CQ_STAT_BAD_DB q))))) ∧
    (let e := written .coding (queueCtlFields q) v.toNat s
     let sized := if s.eng.on (Reg.CQ_CTL_EN q) then e else e.sw (Reg.CQ_CTL_LOG2SIZE q) v.toNat
     ((Reg.CQ_CTL_EN q).of v.toNat = 1 → exec (.queueEnable q v) s = .next (leaving s
       (((((sized.flag (Reg.CQ_CTL_EN q) true).flag (Reg.CQ_CTL_HALTED q) false).wr (Reg.CQ_CTL_HALT_WHY q) 0).setLevel
         (.CQ_HALT q) false).fetchNext q))) ∧
     ((Reg.CQ_CTL_EN q).of v.toNat = 0 → exec (.queueDisable q v) s = .next (leaving s
       ((sized.flag (Reg.CQ_CTL_EN q) false).dropFetched q))))

/-- R498 and R499: the command rows are descriptors of 64 B read at the head of their queue, with the opcode, the fields of the
header and the operands at their places. A row of an update run or an anchor is the same whatever its descriptor in memory
asks for. -/
def Obligations.CommandRowsAreTheirDescriptors : Prop :=
  ∀ (s : State) (h : CmdHdr) (a b : Word) (addr len : DWord) (x : Byte) (n : BitVec 16),
    let read := fun (opcode : Byte) (operands : List Byte) => exec (.commandAccept h.queue (some
      ([opcode, h.flags] ++ natLe 2 h.mailbox.toNat ++ natLe 4 h.seq.toNat ++ natLe 4 h.timeout.toNat ++ zeros 4
        ++ padTo 48 operands))) s
    let wd := fun (w : Word) => natLe 4 w.toNat
    let dw := fun (w : DWord) => natLe 8 w.toNat
    exec (.nop h) s = read 0x00 [] ∧ exec (.ringOpen h a) s = read 0x01 (wd a) ∧
    exec (.ringSeal h a x) s = read 0x02 (wd a ++ [x]) ∧ exec (.ringCommit h a) s = read 0x03 (wd a) ∧
    exec (.ringRollback h a b) s = read 0x04 (wd a ++ wd b) ∧ exec (.stepRetire h a) s = read 0x05 (wd a) ∧
    exec (.updateRun h addr) s = read 0x10 (dw addr) ∧ exec (.runResume h addr) s = read 0x10 (dw addr) ∧
    exec (.runCancel h addr) s = read 0x10 (dw addr) ∧ exec (.graftBegin h x) s = read 0x20 [x] ∧
    exec (.graftBeginStandby h x) s = read 0x20 [x, 1] ∧
    exec (.resumeSet h addr n) s = read 0x21 (dw addr ++ natLe 2 n.toNat) ∧
    exec (.evacuateCopy h a) s = read 0x22 ([0, 0, 0, 0] ++ wd a) ∧
    exec (.evacuateCutover h a) s = read 0x22 ([1, 0, 0, 0] ++ wd a) ∧
    exec (.evacuateAbort h a) s = read 0x22 ([2, 0, 0, 0] ++ wd a) ∧
    exec (.scrubRange h addr len a []) s = read 0x30 (dw addr ++ dw len ++ wd a) ∧
    exec (.anchorWrite h addr) s = read 0x40 (dw addr) ∧ exec (.anchorCancel h addr) s = read 0x40 (dw addr) ∧
    exec (.anchorRestore h addr) s = read 0x41 (dw addr) ∧
    exec (.reLeaf h n a b) s = read 0x42 (natLe 2 n.toNat ++ [0, 0] ++ wd a ++ wd b) ∧
    exec (.adopt h addr) s = read 0x43 (dw addr) ∧ exec (.tensorDigest h addr) s = read 0x44 (dw addr)

/-- R497, R500, R501, R506 and R507: what a queue that may fetch does with the descriptor it reads. An error response and a
mailbox at or above 256 halt it; a mailbox that is not empty makes the descriptor wait, and counts it; else the mailbox opens,
and the descriptor waits behind a FENCE, be it refused or not, or is refused with its reason (an unknown opcode, a reserved
field, no start lock), or is accepted: HEAD moves past it, and an engine out of service completes it so (the order of those two is log entry 60). -/
def Obligations.DescriptorsAreAcceptedInTurn : Prop :=
  ∀ (s : State) (q : Fin 4), s.eng.boot.inReset = false → (quiet s).fetchable q = true →
    look s.eng.q.fetched q.val = none →
    let e : Eng := { quiet s with q := { s.eng.q with asked := s.eng.q.asked.filter (· != q.val) } }
    exec (.commandAccept q none) s = .next (leaving s (e.haltQueue q 1)) ∧
    ∀ d : List Byte,
      let f := readDesc d
      let opened := e.openMbox f.mailbox f.opcode f.seq
      let at_ := { f with opened := true }
      let id := s.eng.q.nextId
      (256 ≤ f.mailbox → exec (.commandAccept q (some d)) s = .next (leaving s (e.haltQueue q 2))) ∧
      (f.mailbox < 256 → e.mboxEmpty f.mailbox = false → exec (.commandAccept q (some d)) s = .next (leaving s
        ((e.bump (Reg.CQ_STAT_MBOX_WAIT q)).keepFetched q { f with counted := true }))) ∧
      (f.mailbox < 256 → e.mboxEmpty f.mailbox = true →
        (bit f.flags 0 = true → s.eng.q.opens.any (fun c => c.queue == q.val) = true →
          exec (.commandAccept q (some d)) s = .next (leaving s (opened.keepFetched q at_))) ∧
        (f.op = none → bit f.flags 0 = false ∨ s.eng.q.opens.any (fun c => c.queue == q.val) = false →
          exec (.commandAccept q (some d)) s = .next (leaving s (((opened.openCmd q at_).refuse id f.bad []).fetchNext q))) ∧
        (∀ op, f.op = some op →
          (needsLock op = true → s.eng.locked = false → s.eng.on Reg.GEN_START_BUSY = false →
            bit f.flags 0 = false ∨ s.eng.q.opens.any (fun c => c.queue == q.val) = false →
            exec (.commandAccept q (some d)) s = .next (leaving s
              (((opened.openCmd q at_).refuse id 3 []).fetchNext q))) ∧
          (needsLock op = true → s.eng.on Reg.GEN_START_BUSY = true →
            exec (.commandAccept q (some d)) s = .next (leaving s (opened.keepFetched q at_))) ∧
          ((needsLock op = true → s.eng.locked = true ∧ s.eng.on Reg.GEN_START_BUSY = false) → bit f.flags 0 = false →
            opened.opWaits op = false → s.eng.oos = true →
            exec (.commandAccept q (some d)) s = .next (leaving s
              (((opened.openCmd q at_).complete id 0x0052 []).fetchNext q)))))

/-- R499 and R501: each accepted command starts the operation of its opcode, with its operands, under the number it has been
given, and its queue fetches on. NOP completes at once with OK. -/
def Obligations.AcceptedCommandsStartTheirOperation : Prop :=
  ∀ (s : State) (h : CmdHdr) (a b : Word) (addr len : DWord) (x : Byte) (n : BitVec 16),
    let id := s.eng.q.nextId
    let q := h.queue.val
    let runs := fun (i : Instr) (op : Op) (f : Eng → Eng) =>
      accepts h op s → exec i s = .next (leaving s ((f (opened h op s)).fetchNext q))
    runs (.nop h) .nop (fun e => e.complete id 0 []) ∧
    runs (.ringOpen h a) (.ringOpen a.toNat) (fun e => (e.opRingOpen id a.toNat).settle) ∧
    runs (.ringSeal h a x) (.ringSeal a.toNat x.toNat) (fun e => e.ringSeal id a.toNat x.toNat) ∧
    runs (.ringCommit h a) (.ringCommit a.toNat) (fun e => (e.ringCommit id a.toNat).settle) ∧
    runs (.ringRollback h a b) (.ringRollback a.toNat b.toNat) (fun e => (e.opRollback id a.toNat b.toNat).settle) ∧
    runs (.stepRetire h a) (.stepRetire a.toNat) (fun e => (e.stepRetire id a.toNat).settle) ∧
    runs (.updateRun h addr) (.updateRun addr.toNat) (fun e => e.updateRun id addr.toNat) ∧
    runs (.runResume h addr) (.updateRun addr.toNat) (fun e => e.updateRun id addr.toNat) ∧
    runs (.runCancel h addr) (.updateRun addr.toNat) (fun e => e.updateRun id addr.toNat) ∧
    runs (.graftBegin h x) (.graftBegin x.toNat 0) (fun e => (e.graftBegin id x.toNat 0).settle) ∧
    runs (.graftBeginStandby h x) (.graftBegin x.toNat 1) (fun e => (e.graftBegin id x.toNat 1).settle) ∧
    runs (.resumeSet h addr n) (.resumeSet addr.toNat n.toNat) (fun e => (e.opResumeSet id addr.toNat n.toNat).settle) ∧
    runs (.evacuateCopy h a) (.evacuate 0 a.toNat) (fun e => (e.evacuate id 0 a.toNat).settle) ∧
    runs (.evacuateCutover h a) (.evacuate 1 a.toNat) (fun e => (e.evacuate id 1 a.toNat).settle) ∧
    runs (.evacuateAbort h a) (.evacuate 2 a.toNat) (fun e => (e.evacuate id 2 a.toNat).settle) ∧
    runs (.scrubRange h addr len a []) (.scrubRange addr.toNat len.toNat a.toNat)
      (fun e => (e.startScrub id addr.toNat len.toNat a.toNat []).settle) ∧
    runs (.anchorWrite h addr) (.anchorWrite addr.toNat) (fun e => e.anchorWrite id addr.toNat) ∧
    runs (.anchorCancel h addr) (.anchorWrite addr.toNat) (fun e => e.anchorWrite id addr.toNat) ∧
    runs (.anchorRestore h addr) (.anchorRestore addr.toNat) (fun e => e.anchorRestore id addr.toNat) ∧
    runs (.reLeaf h n a b) (.reLeaf n.toNat a.toNat b.toNat) (fun e => (e.reLeaf id n.toNat a.toNat b.toNat).settle) ∧
    runs (.adopt h addr) (.adopt addr.toNat) (fun e => (e.adopt id addr.toNat).settle) ∧
    runs (.tensorDigest h addr) (.tensorDigest addr.toNat) (fun e => (e.tensorDigest id addr.toNat).hashNext id)

/-- R505: a read of a ready mailbox's header counts itself, up to 255, and answers the new count beside the other fields, which
stay; a read of any other mailbox counts nothing, and one in the coding core's reset shows 0 (R450). R506: an acknowledgement that names a ready mailbox with its SEQ empties it;
any other is counted in BAD_ACK alone. R391: a write of LED_SEL latches the record of its RING, the newest one of that ring:
as it finished, as it stands with MAC 0 where it is pending, nothing where it is lost or absent; STATE says which, and
LED_DATA0 to 63 show the bytes. -/
def Obligations.ResultsAreReadAcknowledgedAndLatched : Prop :=
  (∀ (s : State) (b : BitVec 8), takesWrites .coding s →
     let e := reached .coding s
     let n := min 255 (s.eng.rd (Reg.MBX_HDR_READS b.toNat) + 1)
     let header := fun (reads : Nat) => s.eng.rd (Reg.MBX_HDR_STATUS b.toNat) * 2 ^ 48 + reads * 2 ^ 40
       + s.eng.rd (Reg.MBX_HDR_OPCODE b.toNat) * 2 ^ 32 + s.eng.rd (Reg.MBX_HDR_SEQ b.toNat)
     (look s.eng.q.mbox b.toNat = some .ready →
       exec (.mailboxHeaderRead b) s = .next (leaving s ((e.wr (Reg.MBX_HDR_READS b.toNat) n).emit (.answer (header n))))) ∧
     (look s.eng.q.mbox b.toNat ≠ some .ready →
       exec (.mailboxHeaderRead b) s = .next (leaving s
         (e.emit (.answer (header (s.eng.rd (Reg.MBX_HDR_READS b.toNat))))))) ∧
     (∀ x : State, x.eng.answers .coding = true → x.eng.boot.inReset = true →
       exec (.mailboxHeaderRead b) x = .next (leaving x ((reached .coding x).emit (.answer 0)))) ∧
     ∀ v : DWord, v.toNat % 256 = b.toNat →
       let w := written .coding [Reg.MBX_ACK_SEQ, Reg.MBX_ACK_MAILBOX] v.toNat s
       (look s.eng.q.mbox b.toNat = some .ready → s.eng.rd (Reg.MBX_HDR_SEQ b.toNat) = v.toNat / 2 ^ 32 →
         exec (.mailboxAck v) s = .next (leaving s ((w.emptyMbox b.toNat).bump Reg.MBX_STAT_ACKED))) ∧
       (look s.eng.q.mbox b.toNat ≠ some .ready ∨ s.eng.rd (Reg.MBX_HDR_SEQ b.toNat) ≠ v.toNat / 2 ^ 32 →
         exec (.mailboxAck v) s = .next (leaving s (w.bump Reg.MBX_STAT_BAD_ACK)))) ∧
  (∀ (s : State) (v : DWord), takesWrites .coding s →
     let e := (written .coding [Reg.LED_SEL_STATE, Reg.LED_SEL_RING] v.toNat s).wr Reg.LED_SEL_RING (v.toNat % 2 ^ 32)
     let rec? := (s.eng.keep.led.recs.filter (fun r => r.ring == v.toNat % 2 ^ 32)).getLast?
     let shows := fun (st : Nat) (b : List Byte) =>
       exec (.ledgerLatch v) s = .next (leaving s ((List.range 64).foldl (fun e n => e.wr (Reg.LED_DATA_WORD n)
         (fieldAt b (4 * n) 4)) (e.wr Reg.LED_SEL_STATE st)))
     (rec? = none → shows 2 (zeros 256)) ∧ (∀ r, rec? = some r → r.lost = true → shows 3 (zeros 256)) ∧
     (∀ r b, rec? = some r → r.lost = false → r.bytes = some b → shows 0 b) ∧
     (∀ r, rec? = some r → r.lost = false → r.bytes = none → shows 1 (e.recBody r false ++ zeros 32)))

/-- R456 and R502: the timeout of an open command completes it with TIMEOUT and raises CMD_TIMEOUT; its mailbox becomes ready, its
queue counts it done, and no later completion of it changes anything. Other mailboxes, local memory and the rings stay. -/
def Obligations.TimeoutsCompleteTheirCommand : Prop :=
  ∀ (s : State) (b : BitVec 8) (c : OpenCmd), s.eng.q.opens.find? (fun x => x.mailbox == b.toNat) = some c →
    (∀ x ∈ s.eng.q.opens, x.id = c.id → x = c) → c.queue < 4 →
    ∃ t, exec (.commandTimeout b) s = .next (leaving s t) ∧
      t = (((quiet s).endCmd c 0x0050).raise .CMD_TIMEOUT).dropJoin c.op ∧
      look t.q.mbox b.toNat = some .ready ∧ t.rd (Reg.MBX_HDR_STATUS b.toNat) = 0x0050 ∧
      t.q.opens = s.eng.q.opens.filter (fun x => x.id != c.id) ∧
      (∀ st reason addr data, t.completeWith c.id st reason addr data = t) ∧
      (∀ n, n ≠ b.toNat → look t.q.mbox n = look s.eng.q.mbox n) ∧ t.mem = s.eng.mem ∧ t.rings = s.eng.rings

/-! ### Packets -/

/-- R119, R305 and the tables of the types (R83, R108, R135, R142, R189, R238): a packet that passes the checks is taken by what
its TYPE does, and what that makes possible goes on. The two types that only a standby spare takes are malformed elsewhere. -/
def Obligations.PacketsThatPassTheChecksAreTaken : Prop :=
  ∀ (p : SapPkt) (s : State) (place : Nat) (q : Pkt) (e : Eng),
    let takes := fun (typ : Nat) (i : Instr) (t : Eng) => passes typ p s place q e → exec i s = .next (leaving s t.settle)
    takes 0x01 (.streamDelta p) (e.rxStreamDelta q) ∧ takes 0x02 (.ringDelta p) (e.rxRingDelta q) ∧
    takes 0x03 (.deltaAck p) (e.takeAck q) ∧
    takes 0x04 (.deltaRelease p) (e.takeRelease q.region q.row q.src q.thick q.release) ∧
    takes 0x05 (.deltaBusy p) (if e.busy.contains q.src then e else { e with busy := e.busy ++ [q.src] }) ∧
    takes 0x10 (.heartbeat p) (e.mergeMap q.release).recompute ∧
    takes 0x11 (.lossNotice p) (if q.sector = 0 ∨ 3 < q.sector then e.malformed else e.declareLost q.row q.sector) ∧
    takes 0x12 (.rbReq p) (e.rxRbReq q) ∧ takes 0x13 (.rbPart p) (e.rxRbPart q) ∧
    takes 0x14 (.rbDone p) (e.rxRbDone place q) ∧ takes 0x15 (.rbCredit p) (e.rxRbCredit q) ∧
    takes 0x16 (.graftJoin p) (e.rxJoin q) ∧ takes 0x17 (.graftWelcome p) (e.rxWelcome q) ∧
    takes 0x18 (.graftCount p) (e.rxCount q) ∧ takes 0x19 (.graftPhase p) (e.rxPhase q) ∧
    takes 0x1A (.snapNote p) (e.rxSnapNote q) ∧ takes 0x1B (.thickNote p) (e.rxThickNote q) ∧
    takes 0x1C (.evacData p) (if e.on Reg.GRV_MAP_CTL_STANDBY then e.rxEvacData place q else e.malformed) ∧
    takes 0x1D (.handover p) (e.rxHandover q) ∧ takes 0x1E (.heatCopy p) (e.rxHeat q) ∧
    takes 0x1F (.evacState p) (if e.on Reg.GRV_MAP_CTL_STANDBY then e.rxEvacState place q else e.malformed) ∧
    takes 0x20 (.logData p) (e.rxLog q) ∧ takes 0x21 (.logScalar p) (e.rxLog q) ∧
    takes 0x22 (.logAck p) (e.rxLogAck q) ∧ takes 0x23 (.logRetire p) (e.rxLogRetire q) ∧
    takes 0x24 (.mirrorData p) (e.rxMirrorData q) ∧ takes 0x25 (.mirrorDone p) (e.rxMirrorDone q) ∧
    takes 0x26 (.mirrorAck p) (e.rxMirrorAck q) ∧ takes 0x27 (.mirrorTorn p) (e.rxMirrorTorn q) ∧
    takes 0x28 (.mirrorRead p) (e.rxMirrorRead q) ∧ takes 0x29 (.mirrorLines p) (e.rxMirrorLines q) ∧
    takes 0x2A (.mirrorNone p) (e.rxMirrorNone q) ∧ takes 0x2B (.classProd p) (e.rxProd q) ∧
    takes 0x2C (.prodAck p) (e.rxProdAck q) ∧ takes 0x30 (.sealVote p) (e.rxVote q) ∧
    takes 0x31 (.voteReq p) (e.rxVoteReq q) ∧ takes 0x32 (.rollFetch p) (e.rxRollFetch q) ∧
    takes 0x33 (.rollData p) (e.rxRollData q) ∧ takes 0x34 (.rollEnd p) (e.rxRollEnd q) ∧
    takes 0x35 (.rollNone p) (e.rxRollNone q) ∧
    takes 0x38 (.pointReport p) (e.roundGate q (fun e => e.rxReport q)) ∧
    takes 0x39 (.pointDecide p) (e.rxPointDecide q) ∧
    takes 0x3A (.pointDone p) (e.roundGate q (fun e => e.rxDone q)) ∧
    takes 0x3B (.pointSettled p) (e.roundGate q (fun e => e.rxSettled q))

/-- R119, R237, R404, R406, R452 and R459: what becomes of a packet that is not taken. An engine that is not ready (R26, R435),
fenced, out of service or whose module is in error ignores it; in a coding-core reset it waits; a generation of no session is
counted as GEN, a tag that does not verify as MALFORMED and as an authentication failure, a broken header as MALFORMED; after a
zeroization what no key opens is not counted (R412). Nothing else changes. R90, R126 and R254: a packet written into the spill aperture is taken as if it had come by a port where
its key is that of its region, of class 1 to 4, and one written into the route aperture where its key is RBD_ROUTE_KEY and
not 0; else it is answered with an error, counted and recorded with its requester, and nothing else happens. An engine that is
not ready answers with an error; in a coding-core reset the write waits. -/
def Obligations.PacketsThatFailACheckAreNotTaken : Prop :=
  (∀ (p : SapPkt) (s : State), ∀ x ∈ packetRows p,
     (s.eng.on Reg.GEN_BOOT_READY = false ∨ s.eng.serving = false ∨ s.eng.on Reg.SEC_STAT_ERROR = true →
       exec x.1 s = .next (leaving s (quiet s))) ∧
     (s.eng.on Reg.GEN_BOOT_READY = true → s.eng.serving = true → s.eng.on Reg.SEC_STAT_ERROR = false → s.eng.boot.inReset = true →
       exec x.1 s = .next (leaving s { quiet s with late := s.eng.late ++ [.packet x.2 p] })) ∧
     (takesPackets s.eng →
       ((awake s).door x.2 p = .gen → exec x.1 s = .next (leaving s
         (((awake s).bump Reg.GRV_SAP_DROP_GEN).stillHeard (p.pos.toNat % 16)))) ∧
       ((awake s).door x.2 p = .tag → exec x.1 s = .next (leaving s ((awake s).malformed.authFail Reg.SEC_AUTH_FAIL_LINK))) ∧
       ((awake s).door x.2 p = .keyless → exec x.1 s = .next (leaving s (awake s))) ∧
       (∀ place gen payload, (awake s).door x.2 p = .pass place gen payload →
         let q := sapPlain p x.2 payload
         let e := (awake s).heardAt place gen q.src
         e.check3 q = false ∨ e.mayComeFrom place q = false → exec x.1 s = .next (leaving s e.malformed)))) ∧
  (∀ (s : State) (key : Word) (requester : Place) (typ : Byte) (p : SapPkt),
     (s.eng.on Reg.GEN_BOOT_READY = false →
       exec (.routeWrite key requester typ p) s = .next (leaving s ((quiet s).emit (.fabricAnswer none))) ∧
       exec (.spillWrite key requester typ p) s = .next (leaving s ((quiet s).emit (.fabricAnswer none)))) ∧
     (s.eng.on Reg.GEN_BOOT_READY = true → s.eng.boot.inReset = true →
       exec (.routeWrite key requester typ p) s = .next (leaving s { quiet s with
         late := s.eng.late ++ [.fabric true key.toNat requester.toNat typ.toNat p] }) ∧
       exec (.spillWrite key requester typ p) s = .next (leaving s { quiet s with
         late := s.eng.late ++ [.fabric false key.toNat requester.toNat typ.toNat p] }))) ∧
  (∀ (s : State) (key : Word) (requester : Place) (typ : Byte) (p : SapPkt), s.eng.on Reg.GEN_BOOT_READY = true →
     s.eng.boot.inReset = false →
     let e := awake s
     let taken := (e.emit (.fabricAnswer (some []))).receive typ.toNat p
     let missed := fun (r : Option Nat) =>
       (((((e.bump Reg.GRV_KEY_MISS_CNT_COUNT).wr Reg.GRV_KEY_MISS_LAST_REGION (r.getD 0)).flag
         Reg.GRV_KEY_MISS_LAST_NO_REGION r.isNone).wr Reg.GRV_KEY_MISS_LAST_PLACE requester.toNat).raise .KEY_MISS).emit
         (.fabricAnswer none)
     (key.toNat = s.eng.rd Reg.RBD_ROUTE_KEY_KEY → key ≠ 0 →
       exec (.routeWrite key requester typ p) s = .next (leaving s taken)) ∧
     (key.toNat ≠ s.eng.rd Reg.RBD_ROUTE_KEY_KEY ∨ key = 0 →
       exec (.routeWrite key requester typ p) s = .next (leaving s (missed none))) ∧
     (s.eng.rgn? (p.region.toNat % 4096) = none →
       exec (.spillWrite key requester typ p) s = .next (leaving s (missed none))) ∧
     (∀ r, s.eng.rgn? (p.region.toNat % 4096) = some r →
       (r.protectedCls = false → exec (.spillWrite key requester typ p) s = .next (leaving s (missed none))) ∧
       (r.protectedCls = true → key.toNat ≠ r.key →
         exec (.spillWrite key requester typ p) s = .next (leaving s (missed (some r.num)))) ∧
       (r.protectedCls = true → key.toNat = r.key → exec (.spillWrite key requester typ p) s = .next (leaving s taken))))

/-- R49, R113, R114, R119 and R120: a streamed packet at its holder. One at or before the applied SEQ is counted and acknowledged
again, and changes no memory; the next one adds its product to its parity sector, becomes the applied SEQ and is acknowledged,
and below the heartwood area, and the dirty bitmaps of an evacuation, no other byte of local memory changes; a later one waits,
within the credit of its source. -/
def Obligations.StreamedPacketsAreAppliedInOrder : Prop :=
  ∀ (e : Eng) (r : Rgn) (p : Pkt) (j : Nat),
    let a := (e.appliedRec p.region p.row p.src p.thick).a
    (atOrBefore p.seq a = true → e.orderStream r p j = (e.bump Reg.GRV_SAP_DROP_DUP).ackPkt p ∧ (e.orderStream r p j).mem = e.mem) ∧
    (atOrBefore p.seq a = false → (p.seq ≠ w32 (a + 1) ∨ e.parityBusy r p.row p.thick = true) →
      e.orderStream r p j = e.hold p ∧ (e.orderStream r p j).mem = e.mem) ∧
    (atOrBefore p.seq a = false → p.seq = w32 (a + 1) → p.thick = false → e.parityBusy r p.row false = false →
      r.rowAddr p.row % 4096 = 0 → r.rowAddr p.row + p.sector * 4096 + 4096 ≤ e.hwBase → Memory.wf e.mem →
      (e.bitmapsOn = true → r.rowAddr p.row + p.sector * 4096 + 4096 ≤ e.bitmapBase) →
      let at_ := r.rowAddr p.row + p.sector * 4096
      let prod := e.productOf r p.row p.src j p.lineMap p.payload
      let t := e.orderStream r p j
      (prod.length = 4096 → t.memRead at_ 4096 = xorBytes (e.memRead at_ 4096) prod) ∧
      (prod.length ≤ 4096 → ∀ x, x < e.hwBase → (e.bitmapsOn = true → x < e.bitmapBase) → (x < at_ ∨ at_ + 4096 ≤ x) →
        t.memByte x = e.memByte x) ∧
      (t.appliedRec p.region p.row p.src false).a = p.seq ∧ Memory.wf t.mem)

/-- R166 and R167: a ringed packet at its holder. It is for ring BASE or BASE + 1, waits for ring BASE + 2, and is discarded and
counted for any other ring, or for one beyond a rollback's target; in a slot the next SEQ of its source, in R112's serial
order, is staged, XORed into the sector staged there, and acknowledged; one at or before the last staged is counted and
acknowledged, a later one waits. Memory never changes. -/
def Obligations.RingedPacketsAreStagedInOrder : Prop :=
  ∀ (e : Eng) (r : Rgn) (p : Pkt),
    let past := ∃ c, e.rings.frozen = some c ∧ precedes c p.stamp = true
    let slot := p.stamp = e.base ∨ p.stamp = w32 (e.base + 1)
    let ah := e.stagedTo p.stamp p.region p.row p.src p.thick
    (e.orderRing r p).mem = e.mem ∧
    (past → e.orderRing r p = e.bump Reg.GRV_RING_DROP_COUNT) ∧
    (¬past → ¬slot → p.stamp = w32 (e.base + 2) → e.orderRing r p = e.hold p) ∧
    (¬slot → p.stamp ≠ w32 (e.base + 2) → e.orderRing r p = e.bump Reg.GRV_RING_DROP_COUNT) ∧
    (¬past → slot → atOrBefore p.seq ah = true → e.orderRing r p = (e.bump Reg.GRV_SAP_DROP_DUP).ackPkt p) ∧
    (¬past → slot → atOrBefore p.seq ah = false → (p.seq ≠ w32 (ah + 1) ∨ e.parityBusy r p.row p.thick = true) →
      e.orderRing r p = e.hold p) ∧
    (¬past → slot → atOrBefore p.seq ah = false → p.seq = w32 (ah + 1) → e.parityBusy r p.row p.thick = false →
      let t := e.orderRing r p
      let d := expand (elemWidth r.fmt) p.lineMap p.payload
      let secs := ((e.stage? p.stamp p.region p.row p.src p.thick).map (·.secs)).getD []
      ∃ g, t.stage? p.stamp p.region p.row p.src p.thick = some g ∧ g.ah = p.seq ∧
        g.secs = put secs p.sector ((look secs p.sector).elim d (fun old => xorBytes old d)) ∧
        (∀ n region row src thick, (n, region, row, src, thick) ≠ (p.stamp, p.region, p.row, p.src, p.thick) →
          t.stage? n region row src thick = e.stage? n region row src thick))

/-! ### Timers of the transport and of the rings -/

/-- R83, R115, R117, R121 to R123, R241, R242: the timers of the transport. A deadline missed marks the leaf lagging, counts and
raises it, and sends the packet again; the resend timer sends it again; the release timer tells a holder a release point it
has not been told; a pause ends; a copy's receiver that has not answered is told that the copy is torn; a read of a copy, the
requests of a chunk go again; a memory slot is granted where the SRAM has none. A timer of nothing does nothing. -/
def Obligations.TransportTimersAct : Prop :=
  ∀ (s : State),
    let e := quiet s
    (∀ k dest i m r, e.sentIdx k dest.val = some i → e.sent[i]? = some m → m.typ ≤ 2 → e.rgn? m.region = some r →
      m.dests.any (fun d => d.pos == dest.val && d.gone && !d.missed) = true →
      exec (.ackDeadlineMiss k dest) s = .next (leaving s
        ((((e.markLag (r.leaf m.row)).bump Reg.GRV_LAG_CNT_COUNT).raise .DELTA_LAG).resendTo i dest))) ∧
    (∀ k dest i, e.sentIdx k dest.val = some i → exec (.packetResend k dest) s = .next (leaving s (e.resendTo i dest))) ∧
    (∀ k dest, e.sentIdx k dest.val = none → exec (.packetResend k dest) s = .next (leaving s e) ∧
      exec (.ackDeadlineMiss k dest) s = .next (leaving s e)) ∧
    (∀ (region : BitVec 12) (row : BitVec 20) (dest : Fin 16) r, e.rgn? region.toNat = some r → r.streamed = true →
      e.destsOf region.toNat row.toNat = [{ pos := dest.val, thick := false, gone := false, resends := 0, missed := false }] →
      e.relSent.find? (fun x => x.1 == region.toNat && x.2.1 == row.toNat && x.2.2.1 == dest.val) = none →
      let rel := e.relPoint region.toNat row.toNat (e.ctx (r.leaf row.toNat)).seq
      (rel = 0 → exec (.releaseTimer region row dest) s = .next (leaving s e)) ∧
      (rel ≠ 0 → ∃ t, exec (.releaseTimer region row dest) s = .next (leaving s t) ∧
        t.relSent = e.relSent ++ [(region.toNat, row.toNat, dest.val, rel)] ∧
        t.sent = e.sent ∧ t.mem = e.mem)) ∧
    (∀ pos : Fin 16, exec (.deltaBusyEnd pos) s = .next (leaving s
      (({ e with busy := e.busy.filter (· != pos.val) } : Eng).transmitReady))) ∧
    (∀ (region : BitVec 12) (copy : Word) (dest : Fin 16) m, e.mtx? region.toNat copy.toNat = some m → m.done = true →
      m.waiting.any (fun w => w.2 == dest.val) = true →
      exec (.mirrorAckTimeout region copy dest) s = .next (leaving s
        (((e.send dest { typ := tMirrorTorn, region := region.toNat, seq := copy.toNat }).bump
          Reg.GRV_MIRROR_TORN_COUNT).dropReceiver (fun x w => x.is region.toNat copy.toNat && w == dest.val)))) ∧
    (∀ (req : BitVec 16) q, e.mreq.find? (fun q => q.id == req.toNat && q.asked < 16) = some q →
      exec (.mirrorReadRetry req) s = .next (leaving s (e.send q.asked
        { typ := tMirrorRead, region := q.region, row := q.row, sector := q.sector, stamp := q.stamp,
          release := q.whose % 16 + (if q.byRing then 256 else 0) + q.id * 65536 }))) ∧
    (∀ (req : Word) c, e.recons.find? (fun c => c.id == req.toNat && c.asked) = some c → c.got.length < c.count →
      let again : Recon := { c with got := [], granted := 0 }
      exec (.rbChunkTimeout req) s = .next (leaving s ((e.setRecon again).sendRequests again).recon)) ∧
    (∀ (req : Word) k need p want,
      e.accNeeds.find? (fun x => match x.2 with | .place _ i _ => i == req.toNat | .coll i => i == req.toNat) = some (k, need) →
      e.accWant need = some (p, want) → 0 < want → e.slotsFree = 0 →
      e.slotsTaken < 512 + e.rd Reg.RBD_ACC_CTL_MEM * 16384 → e.acc.raised = true →
      exec (.accFallback req) s = .next (leaving s
        (((e.bump Reg.RBD_ACC_STAT_FALLBACKS).grantTo p 1).accNote 1 need).accView))

/-- R148, R161, R173, R175, R180 and R189: the timers of the rings, and what they leave. Each raises its source, and asks again
for what is missing, only while what it times still stands; the end of an apply takes the oldest committed ring off the list. -/
def Obligations.RingTimersAct : Prop :=
  ∀ (s : State),
    let e := quiet s
    ((∀ r ∈ e.rings.recs, e.canLocalSeal r.num = false) → exec .localSeal s = .next (leaving s e)) ∧
    (∀ r, e.rings.recs = [r] → e.canLocalSeal r.num = true → exec .localSeal s = .next (leaving s (e.sealLocally r.num))) ∧
    (∀ n : Word,
      (e.ringSt n.toNat = .localSealed → exec (.sealTimeout n) s = .next (leaving s ((e.askVotes n.toNat).raise .SEAL_STUCK))) ∧
      (e.ringSt n.toNat = .flushing ∨ e.ringSt n.toNat = .sending →
        exec (.sealTimeout n) s = .next (leaving s (e.raise .SEAL_STUCK))) ∧
      (¬(e.ringSt n.toNat = .localSealed ∨ e.ringSt n.toNat = .flushing ∨ e.ringSt n.toNat = .sending) →
        exec (.sealTimeout n) s = .next (leaving s e))) ∧
    (exec .commitLate s = .next (leaving s (if e.ringSt e.base = .groveSealed then e.raise .COMMIT_LATE else e))) ∧
    (exec .flushLate s = .next (leaving s
      (if e.rings.recs.any (fun r => r.st == .flushing) then e.raise .FLUSH_LATE else e))) ∧
    (exec .ringStall s = .next (leaving s (if e.rings.stallAt.isSome ∧ e.rings.stallRaised = false then
      ({ e with rings := { e.rings with stallRaised := true } } : Eng).raise .RING_STALL else e))) ∧
    (∀ cmd n b rest, e.working = true → e.rings.commits = (cmd, n, b) :: rest →
      (e.rings.applies.any (fun j => j.ring == n) = true → exec .ringApplyEnd s = .next (leaving s e)) ∧
      (e.rings.applies.any (fun j => j.ring == n) = false →
        exec .ringApplyEnd s = .next (leaving s ((e.applyEnd.commitRows n).settle)))) ∧
    (∀ (region : BitVec 12) (row : BitVec 20) (ring : Word) ro f, e.rings.roll = some ro →
      ro.fetches.find? (fun f => f.region == region.toNat && f.row == row.toNat && f.ring == ring.toNat && f.live && !f.ended)
        = some f →
      exec (.rollFetchTimeout region row ring) s = .next (leaving s ((e.setFetch f { f with got := [], ah := 0 }).send f.holder
        { typ := tRollFetch, region := region.toNat, row := row.toNat, stamp := ring.toNat, release := ro.target }))) ∧
    (e.waits = [] → exec .heldPacketResume s = .next (leaving s e)) ∧
    (∀ p r j, e.waits = [p] → p.typ = tStreamDelta → e.rgn? p.region = some r → e.parityBusy r p.row p.thick = false →
      p.seq = w32 ((e.appliedRec p.region p.row p.src p.thick).a + 1) → e.parityRowFor p.region p.row p.thick = some j →
      exec .heldPacketResume s = .next (leaving s (({ e with waits := [] } : Eng).applyStream r p j))) ∧
    (∀ x : Fin 16, e.agrees.all (fun a => !(a.x == x.val && !a.settled)) = true →
      exec (.pointTimeout x) s = .next (leaving s e)) ∧
    (∀ x : Fin 16, e.agrees.any (fun a => a.x == x.val && !a.settled) = true →
      ∃ t, exec (.pointTimeout x) s = .next (leaving s t) ∧ t.agrees = e.agrees ∧ t.mem = e.mem ∧ t.rings = e.rings ∧
        t.rd Reg.GRV_PT_STAT_STUCK = min (e.rd Reg.GRV_PT_STAT_STUCK + 1) (2 ^ Reg.GRV_PT_STAT_STUCK.width - 1))

/-! ### The memory side -/

/-- R44, R75, R76, R96, R99, R164, R165, R247, R260, R316 and R452: a tap pair outside local memory faults. One whose
acceptance is withheld waits. One that writes a reserved area, a parity row, a region that its source may not write, or a
ringed region while rings are closed, has its old line written back, and is counted, recorded and raised. Any other has its
effect: its new line stands, and below the heartwood area, and the dirty bitmaps of an evacuation, no other byte of memory
changes. R327: a pair whose old line reads uncorrectable waits for a repair of its sector that is under way; else it is taken
with the line decoded by erasure where no other line of its sector fails, and its old line is lost where one does. An engine out of service only stores the line. -/
def Obligations.TapPairsAreCheckedAndTaken : Prop :=
  ∀ (s : State) (line : BitVec 34) (old new : Line) (src : WrSource) (bark : Bark),
    let a := 64 * line.toNat
    let e := awake s
    let t : HeldTap := { landed := false, line := line.toNat, old := lineBytes old, new := lineBytes new, src := src, bark := bark }
    let pair := exec (.tapPair line old new src bark) s
    (s.eng.memSize ≤ a → pair = .fault .outsideMemory) ∧
    (a < s.eng.memSize →
      (src ≠ .engine → e.tapBlocked a = true ∨ e.taps.any (fun x => x.line == line.toNat && !x.landed) = true →
        pair = .next (leaving s (({ e with taps := e.taps ++ [t] } : Eng).emit .withheld))) ∧
      (src = .engine ∨ (e.tapBlocked a = false ∧ e.taps.any (fun x => x.line == line.toNat && !x.landed) = false) →
        (e.oos = true → pair = .next (leaving s ((e.memWrite a (lineBytes new)).freshLines a 64))) ∧
        (e.oos = false → src = .engine → pair = .next (leaving s (e.tapEffect t (e.memRead a 64)))) ∧
        (e.oos = false → src ≠ .engine → bark ≠ .uncorrectable →
          let undone := e.undoTap a (lineBytes old)
          (e.on Reg.MEM_FILL_DONE = true → e.journalBase ≤ a →
            pair = .next (leaving s (((undone.bump Reg.MEM_ERR_EVT_RSVD_WR).wr Reg.GRV_STRAY_ADDR_LINE line.toNat).raise
              .RESERVED_WR))) ∧
          ((e.on Reg.MEM_FILL_DONE = false ∨ a < e.journalBase) → e.fenced = false → ∀ r, e.rgnAt a = some r →
            let stray := e.isParityRow r (r.rowOf a)
            let foreign := r.protectedCls && !bit r.writer (srcCode src - 1)
            (stray = true → pair = .next (leaving s
              (((undone.bump Reg.GRV_STRAY_CNT_COUNT).wr Reg.GRV_STRAY_ADDR_LINE line.toNat).raise .STRAY_PARITY_WR))) ∧
            (stray = false → foreign = true → pair = .next (leaving s ((((undone.bump Reg.GRV_WRITER_CNT_COUNT).wr
              Reg.GRV_WRITER_ADDR_SOURCE (srcCode src)).wr Reg.GRV_WRITER_ADDR_LINE line.toNat).raise .WRITER_VIOLATION))) ∧
            (stray = false → foreign = false → r.ringed = true → e.closed = true → pair = .next (leaving s
              (((undone.bump Reg.GRV_RING_CLOSED_WR_COUNT).wr Reg.GRV_STRAY_ADDR_LINE line.toNat).raise .RING_WRITE_CLOSED))) ∧
            (stray = false → foreign = false → (r.ringed = false ∨ e.closed = false) →
              pair = .next (leaving s (e.tapEffect t (lineBytes old))))) ∧
          ((e.on Reg.MEM_FILL_DONE = false ∨ a < e.journalBase) → (e.fenced = true ∨ e.rgnAt a = none) → Memory.wf e.mem →
            a + 64 ≤ e.hwBase → (e.bitmapsOn = true → a + 64 ≤ e.bitmapBase) →
            ∃ u, pair = .next (leaving s u) ∧ u.memRead a 64 = lineBytes new ∧ u.sent = e.sent ∧ u.caps = e.caps ∧
              (∀ x, x < e.hwBase → (e.bitmapsOn = true → x < e.bitmapBase) → (x < a ∨ a + 64 ≤ x) →
                u.memByte x = e.memByte x))) ∧
        (e.oos = false → src ≠ .engine → bark = .uncorrectable →
          let alone := e.hasHeart a = true ∧ (e.unrepIn (line.toNat / 64)).all (· == line.toNat) = true
          let landed := ((e.memWrite a (lineBytes new)).markDirty a).noteWrote a 64
          (e.repairing (line.toNat / 64) = true →
            pair = .next (leaving s { landed with taps := landed.taps ++ [{ t with landed := true }] })) ∧
          (e.repairing (line.toNat / 64) = false →
            (alone → pair = .next (leaving s (e.tapWith t (e.eraseLine line.toNat)))) ∧
            (¬alone → pair = .next (leaving s (e.tapOldLost t)))))))

/-- R100, R164, R321 to R323 and R326: an idle capture entry closes if its ring has opened; a corrected line is confirmed, and a
line of the heartwood area, which has no line of its own there, is written back as it was corrected; a referred read is
answered by erasure where no other line of its sector fails, repaired from the grove where it may be, and else refused and
listed; one that has waited too long is answered with an error, and its repair goes on. -/
def Obligations.LinesAreMendedAndEntriesClose : Prop :=
  ∀ (s : State),
    let e := quiet s
    (∀ (region : BitVec 12) (row : BitVec 20) (sector : Byte) (ring : Word),
      let it := e.caps.find? (fun c => c.region == region.toNat && c.row == row.toNat && c.sector == sector.toNat &&
        c.ring == ring.toNat)
      (∀ c, it = some c → (e.ring? c.ring).isSome = true →
        exec (.captureIdleClose region row sector ring) s = .next (leaving s (e.closeEntry c).retryTaps)) ∧
      ((∀ c, it = some c → (e.ring? c.ring).isSome = false) →
        exec (.captureIdleClose region row sector ring) s = .next (leaving s e))) ∧
    (∀ (line : BitVec 34) (l : Line), e.oos = false →
      (e.health.confirms.filter (fun t => e.now ≤ t + 20000)).length < 256 →
      let taken := e.barkCount line.toNat
      let noted : Eng := { taken with health := { taken.health with
        confirms := e.health.confirms.filter (fun t => e.now ≤ t + 20000) ++ [e.now] } }
      exec (.barkCorrectedReport line l) s = .next (leaving s (noted.confirm line.toNat (lineBytes l))) ∧
      (e.hwBase ≤ 64 * line.toNat → exec (.barkCorrectedReport line l) s = .next (leaving s
        (noted.cwrite line.toNat (lineBytes l))))) ∧
    (∀ (port : Fin 8) (id : Byte) (line : BitVec 34) (bad : List (Fin 64)),
      let f : Referral := { port := port.val, id := id.toNat, line := line.toNat, late := false }
      let refused := e.emit (.referral port.val id.toNat false [])
      let alone := bad.all (fun l => l.val == line.toNat % 64)
      (s.eng.memSize ≤ 64 * line.toNat → exec (.referredRead port id line bad) s = .fault .outsideMemory) ∧
      (64 * line.toNat < s.eng.memSize →
        (e.oos = true → exec (.referredRead port id line bad) s = .next (leaving s refused.recon)) ∧
        (e.oos = false → alone = true → 64 * line.toNat < e.hwBase →
          exec (.referredRead port id line bad) s = .next (leaving s
            ((e.restoreLine line.toNat).emit (.referral port.val id.toNat true (e.eraseLine line.toNat))).recon)) ∧
        (e.oos = false → (alone = false ∨ e.hwBase ≤ 64 * line.toNat) → e.groveRepairable (line.toNat / 64) = true →
          exec (.referredRead port id line bad) s = .next (leaving s
            (({ e with refs := e.refs ++ [f] } : Eng).startRepair (line.toNat / 64)).recon)) ∧
        (e.oos = false → (alone = false ∨ e.hwBase ≤ 64 * line.toNat) → e.groveRepairable (line.toNat / 64) = false →
          exec (.referredRead port id line bad) s = .next (leaving s (refused.unrepaired line.toNat).recon)))) ∧
    (∀ (port : Fin 8) (id : Byte) f, e.refs.find? (fun f => f.port == port.val && f.id == id.toNat && !f.late) = some f →
      exec (.referredReadLimit port id) s = .next (leaving s
        (({ e with refs := e.refs.map (fun x => if x == f then { f with late := true } else x) } : Eng).emit
          (.referral port.val id.toNat false []))))

/-- R317 to R320, R332, R333, R338, R429 and R534: a heat sample adds one to its leaf, up to 255; a sweep divides every leaf's
heat and asks for the hot ones; a query answers it. An access that need not wait is let go, another is held and its leaf made
urgent. The answer to an operation of a transfer brings its next one, or ends it, and a conditional write stores its line
unless it was discarded. A window's bytes are charged to their port, which takes up its queue again. A corrected SRAM word is counted; an uncorrectable one is counted, raised, and costs what lay in
it. The share's loop moves within its bounds, on the age of the oldest request that waits and on the last 16 windows. -/
def Obligations.MemorySideCommandsAct : Prop :=
  ∀ (s : State), s.eng.working = true →
    let e := quiet s
    (∀ leaf : BitVec 20, exec (.heatSample leaf) s = .next (leaving s
      (e.setCtx leaf.toNat { e.ctx leaf.toNat with heat := min 255 ((e.ctx leaf.toNat).heat + 1) }))) ∧
    exec .heatDecaySweep s = .next (leaving s (({ e with ctxs := e.ctxs.map (fun c =>
      (c.1, { c.2 with heat := c.2.heat - c.2.heat / 2 ^ e.rd Reg.MEM_HEAT_CTL_SHIFT })) } : Eng).hotNotices.heatDecision)) ∧
    (∀ leaf : BitVec 20, exec (.heatQuery leaf) s = .next (leaving s (e.emit (.answer (e.ctx leaf.toNat).heat)))) ∧
    (∀ (port : Fin 8) (id : Byte) (leaf : BitVec 20) (wr : Bool),
      (e.holds leaf.toNat wr = false →
        exec (.holdQuery port id leaf wr) s = .next (leaving s (e.emit (.hold port.val id.toNat false)))) ∧
      (e.holds leaf.toNat wr = true → exec (.holdQuery port id leaf wr) s = .next (leaving s
        (((({ e.emit (.hold port.val id.toNat true) with
            held := e.held ++ [{ port := port.val, id := id.toNat, leaf := leaf.toNat, wr := wr }] } : Eng).urgent
          leaf.toNat).makeUrgent leaf.toNat).settle)))) ∧
    (∀ (port : Fin 8) (tag : BitVec 10) (x : Xfer), e.xfers.find? (fun x => x.tag == tag.toNat) = some x →
      let rest : Eng := { e with xfers := e.xfers.erase x }
      let last := x.len ≤ x.off + x.size
      (∀ bads, x.isRead = true → exec (.readSlow port tag) s = .next (leaving s (e.bump Reg.MEM_SHARE_STAT_SLOW)) ∧
        (¬last → exec (.memoryReadComplete port tag bads) s = .next (leaving s (e.nextPiece x bads)))) ∧
      (∀ bads leaf, x.kind = .anchorRead leaf → last →
        exec (.memoryReadComplete port tag bads) s = .next (leaving s (rest.anchorReadDone leaf (x.bads ++ bads)).settle)) ∧
      (∀ bads cmd leaf, x.kind = .hashRead cmd leaf → last →
        exec (.memoryReadComplete port tag bads) s = .next (leaving s (rest.hashReadDone cmd leaf (x.bads ++ bads)).settle)) ∧
      (∀ bads region copy, x.kind = .mirrorRead region copy → last →
        exec (.memoryReadComplete port tag bads) s = .next (leaving s
          (rest.mirrorReadDone region copy x (x.bads ++ bads)).settle)) ∧
      (∀ bads, x.kind = .lineRead → last → exec (.memoryReadComplete port tag bads) s = .next (leaving s rest)) ∧
      (x.kind = .applyWrite → ∀ d,
        (last → exec (.memoryWriteResponse port tag d) s = .next (leaving s (rest.applyWritten x).settle)) ∧
        (¬last → exec (.memoryWriteResponse port tag d) s = .next (leaving s (e.nextPiece x [])))) ∧
      (x.kind = .cwrite → exec (.memoryWriteResponse port tag true) s = .next (leaving s rest) ∧
        exec (.memoryWriteResponse port tag false) s = .next (leaving s
          ((rest.memWrite x.addr x.data).freshLines x.addr x.data.length)))) ∧
    (∀ used exempt : List Nat, exec (.shareWindow used exempt) s = .next (leaving s
      ((List.range 8).foldl (fun e p => (e.portWindow p (used.getD p 0) (exempt.getD p 0)).newWindow p) e))) ∧
    (∀ bank : Fin 112, s.eng.alive = true →
      exec (.sramPatrol bank .corrected) s = .next (leaving s
        (((e.bump Reg.MEM_SRAM_STAT_CE).unitErr (256 + bank.val) 1).minute (fun b => { b with sram := b.sram + 1 }))) ∧
      (∀ f, f ≠ .corrected → exec (.sramPatrol bank f) s = .next (leaving s
        ((((e.bump Reg.MEM_SRAM_STAT_UE).raise .SRAM_UE).sramLoss f).settle)))) ∧
    (∀ (ageUs : Nat) (waits : Bool), s.eng.on Reg.GEN_BOOT_READY = true → e.on Reg.HLT_SHARE_LOOP_EN = true →
      let age := ((e.xfers.filter (fun x => !x.out && 2 ≤ x.cls && x.cls ≤ 6)).map (fun x => (e.now - x.since) / 1000)).foldl max (if waits then ageUs else 0)
      let idle := ∀ p < 8, let ws := (look e.health.windows p).getD []
        2 * (ws.map (·.1)).foldl (· + ·) 0 < (ws.map (·.2)).foldl (· + ·) 0
      let now := e.rd Reg.MEM_SHARE_NOW
      let hi := 10 * e.rd Reg.HLT_SHARE_LOOP_WAIT_HI
      let lo := e.rd Reg.HLT_SHARE_LOOP_FLOOR
      let up := e.rd Reg.HLT_SHARE_LOOP_CEIL
      let step := e.rd Reg.HLT_SHARE_LOOP_STEP
      (hi < age → now + step ≤ up →
        exec (.shareLoopDecision ageUs waits) s = .next (leaving s (e.wr Reg.MEM_SHARE_NOW (clampTo lo up (now + step))))) ∧
      (age ≤ hi → 4 * age < hi → idle → now ≤ up →
        exec (.shareLoopDecision ageUs waits) s = .next (leaving s (e.wr Reg.MEM_SHARE_NOW (clampTo lo up (now - step))))) ∧
      (hi < age → up < now + step → exec (.shareLoopDecision ageUs waits) s = .next (leaving s
        ((e.wr Reg.MEM_SHARE_NOW (clampTo lo up (now + step))).advise 1 0 (now + step) Reg.HLT_ADVICE_SHARE .SHARE_ADVICE))))

/-- R25, R314, R336, R434 and R435: the eighth stack to report with the sequence at step 5 starts the fill when all capacities are
one of 16 to 128 GiB, with the areas laid out below the top; else the sequence ends there. A stack missing at the bound ends
it with cause 6, and the fill runs on those that have reported, whose capacities are held to the same rule. The end of the fill leaves memory zero; with no failure it lets the cores go and trains the ports. -/
def Obligations.MemoryComesUp : Prop :=
  ∀ (s : State),
    let e := quiet s
    (∀ (n : Fin 8) (gib : Byte), s.eng.pins.pwrGood = true → s.eng.boot.filling = false → s.eng.rd Reg.GEN_BOOT_FAIL = 0 →
      look s.eng.boot.stackCaps n.val = none →
      let heard : Eng := { e with boot := { e.boot with stackCaps := put e.boot.stackCaps n.val gib.toNat } }
      (heard.boot.stackCaps.length ≠ 8 ∨ s.eng.rd Reg.GEN_BOOT_STAGE ≠ 5 → exec (.stackReady n gib) s = .next (leaving s heard)) ∧
      (heard.boot.stackCaps.length = 8 → s.eng.rd Reg.GEN_BOOT_STAGE = 5 →
        ((∀ x ∈ heard.boot.stackCaps, x.2 = gib.toNat) → 16 ≤ gib.toNat → gib.toNat ≤ 128 →
          ∃ t, exec (.stackReady n gib) s = .next (leaving s t) ∧ t.boot.filling = true ∧ t.rd Reg.GEN_BOOT_STAGE = 6 ∧
            t.rd Reg.GEN_FLOOR_SUM_STACK_GIB = gib.toNat ∧
            t.rd Reg.MEM_HW_BASE_BASE = 8192 * gib.toNat - 128 * gib.toNat ∧
            t.rd Reg.MEM_USABLE_TOP_TOP = t.rd Reg.MEM_JOURNAL_BASE_BASE) ∧
        ((∃ x ∈ heard.boot.stackCaps, x.2 ≠ gib.toNat) ∨ gib.toNat < 16 ∨ 128 < gib.toNat →
          ∃ t, exec (.stackReady n gib) s = .next (leaving s t) ∧ t.boot.filling = false ∧
            t.on Reg.GEN_FLOOR_SUM_MEM_GEOM_BAD = true ∧ t.rd Reg.GEN_BOOT_FAIL = 5))) ∧
    (s.eng.rd Reg.GEN_BOOT_STAGE = 5 → s.eng.rd Reg.GEN_BOOT_FAIL = 0 → s.eng.boot.filling = false →
      let missing := bitsWhere 8 (fun i => (look s.eng.boot.stackCaps i).isNone)
      let ended := ((e.wr Reg.MEM_FILL_STACKS missing).wr Reg.GEN_BOOT_FAIL 6).wr Reg.GEN_BOOT_MS (min 65535 (e.now / 1000000))
      let sound := ∀ x ∈ s.eng.boot.stackCaps, 16 ≤ x.2 ∧ x.2 ≤ 128 ∧ ∀ y ∈ s.eng.boot.stackCaps, x.2 = y.2
      (sound → exec .memReadyTimeout s = .next (leaving s { ended with boot := { e.boot with filling := true } })) ∧
      (¬sound → exec .memReadyTimeout s = .next (leaving s
        { ended.flag Reg.GEN_FLOOR_SUM_MEM_GEOM_BAD true with boot := { e.boot with filling := true } }))) ∧
    (s.eng.boot.filling = true → s.eng.on Reg.MEM_FILL_DONE = false → s.eng.rd Reg.GEN_BOOT_FAIL = 0 →
      let done := ({ e with boot := { e.boot with filling := false }, mem := [] } : Eng).flag Reg.MEM_FILL_DONE true
      exec (.fillComplete 0) s = .next (leaving s
        ((({ done with pins := { e.pins with compHold := false } } : Eng).wr Reg.GEN_BOOT_STAGE 7).trainAll)) ∧
      (∀ failed : Byte, failed ≠ 0 → ∃ t, exec (.fillComplete failed) s = .next (leaving s t) ∧
        (∀ a, t.memByte a = 0) ∧ t.on Reg.MEM_FILL_FAIL = true ∧ t.rd Reg.GEN_BOOT_FAIL = 7 ∧ t.pins = s.eng.pins ∧
        t.rd Reg.MEM_FILL_STACKS = (s.eng.rd Reg.MEM_FILL_STACKS ||| failed.toNat) % 2 ^ 8))

/-! ### The update unit and the tier manager -/

/-- R217 to R220 and R459: what becomes of an intake record whose generation, switch or tag bars it: while intake is off or no
start lock stands it is bad, one of another generation is stale, a native one of a frozen region is counted, one of no region
is counted and raised; each is dropped with no byte of it kept. The first contribution of a slice, in fast mode and with room
for it, begins the slice with its values; a record without room is withheld. Out of service it is dropped uncounted; in a
coding-core reset it waits. R207, R210, R223, R225, R228, R329: a chunk that its cluster finishes ends the run with MEM_ERROR
where a line it needs stands unrepaired, at that line's address; in pass 1 it adds its part; a chunk that was not issued to
that cluster changes nothing. A span that unblocks sends its run on. -/
def Obligations.IntakeAndChunksAreTaken : Prop :=
  (∀ (s : State) (hdr payload : List Byte),
     let e := awake s
     let rec_ := exec (.intakeRecord hdr payload) s
     (e.oos = true → rec_ = .next (leaving s e)) ∧
     (e.oos = false → e.boot.inReset = true → e.upd.held = [] → rec_ = .next (leaving s
       (({ e with upd := { e.upd with held := [(hdr, payload)], heldAt := e.now } } : Eng).emit .withheld))) ∧
     (e.oos = false → e.boot.inReset = false →
       (e.on Reg.UPD_INTAKE_CTL_EN = false ∨ e.locked = false → rec_ = .next (leaving s e.intakeBad.pumpRuns)) ∧
       (e.on Reg.UPD_INTAKE_CTL_EN = true → e.locked = true →
         (fieldAt hdr 0 1 ≠ e.upd.gen % 256 →
           rec_ = .next (leaving s (e.bump Reg.UPD_INTAKE_STAT_STALE).pumpRuns)) ∧
         (fieldAt hdr 0 1 = e.upd.gen % 256 → bit (fieldAt hdr 1 1) 0 = false → e.on Reg.UPD_INTAKE_CTL_B5 = false →
           ((e.tagged (fieldAt hdr 4 4) (·.frozen)).isSome = true →
             rec_ = .next (leaving s (e.bump Reg.UPD_INTAKE_STAT_FROZEN).pumpRuns)) ∧
           ((e.tagged (fieldAt hdr 4 4) (fun _ => true)).isNone = true → (e.tagged (fieldAt hdr 4 4) (·.frozen)).isNone = true →
             rec_ = .next (leaving s ((e.bump Reg.UPD_INTAKE_STAT_UNKNOWN).raise .INTAKE_UNKNOWN).pumpRuns))) ∧
         (∀ c, fieldAt hdr 0 1 = e.upd.gen % 256 → e.contributions hdr payload = some [c] → e.screen c = (e, true) →
           e.sliceOf c = none → 1 < c.n → e.on Reg.UPD_CTL_STRICT = false →
           e.intakeUsed + 4 * c.count + intakeReserve ≤ e.intakeLen →
           rec_ = .next (leaving s ({ e with upd := { e.upd with slices := e.upd.slices ++ [
             { tag := c.tag, step := c.step, eoff := c.eoff, count := c.count, n := c.n, sum := c.vals, added := [c.index],
               early := [], full := false, row := none }] } } : Eng).pumpRuns))) ∧
       (∀ t, e.tryIntake hdr payload = some t → rec_ = .next (leaving s t.pumpRuns)) ∧
       (e.tryIntake hdr payload = none → e.upd.held = [] → rec_ = .next (leaving s
         (({ e with upd := { e.upd with held := [(hdr, payload)], heldAt := e.now } } : Eng).emit .withheld).pumpRuns)))) ∧
  (∀ (s : State) (h : BitVec 16) (chunk : Nat) (cluster : Fin 64),
     let e := quiet s
     let done := exec (.chunkComplete h chunk cluster) s
     (e.run? h.toNat = none → done = .next (leaving s e)) ∧
     (∀ u, e.run? h.toNat = some u →
       (u.issued.contains (chunk, cluster.val) = false → done = .next (leaving s e)) ∧
       (u.issued.contains (chunk, cluster.val) = true →
         let u' := { u with issued := u.issued.erase (chunk, cluster.val) }
         (∀ l, e.chunkDead u' chunk = some l → u.phase = .pass1 → done = .next (leaving s
           ((e.setRun (e.partialSectors u')).endRun (e.partialSectors u') 0x0040 0 (64 * l)).pumpRuns)) ∧
         (e.chunkDead u' chunk = none → u.phase = .pass1 → done = .next (leaving s
           ((e.setRun { u' with parts := u.parts ++ [e.passOne u' chunk], done := u.done ++ [chunk] }).pumpRuns))))) ∧
     (∀ span : Nat, e.boot.inReset = false → e.serving = true →
       exec (.spanUnblock h span) s = .next (leaving s (e.runGo 8 h.toNat))))

/-- R161, R182, R230, R268 and R335: an answer of the tier manager takes its operation off the list; the last flush of a ring ends
its flush and lets an anchor cut, the last discard of a rollback lets it go on, the last flush of an evacuation and one
operation of a run let the work that waited go on; an answer to nothing changes nothing. An operation of a run that is late is
counted and raised. -/
def Obligations.TierAnswersLetWorkGoOn : Prop :=
  ∀ (s : State) (op : Nat), s.eng.working = true →
    let e := quiet s
    (e.tier.find? (fun t => t.op == op) = none → exec (.tierDone op) s = .next (leaving s e.settle)) ∧
    (∀ t, e.tier.find? (fun t => t.op == op) = some t →
      let rest : Eng := { e with tier := e.tier.erase t }
      (rest.tierWaits t.why = true → exec (.tierDone op) s = .next (leaving s rest.settle)) ∧
      (rest.tierWaits t.why = false →
        (t.why = .ringFlush → exec (.tierDone op) s = .next (leaving s (rest.flushEndRing.anchorCut).settle)) ∧
        (t.why = .rollDiscard → exec (.tierDone op) s = .next (leaving s rest.rollStep.settle)) ∧
        (t.why = .evacFlush → exec (.tierDone op) s = .next (leaving s rest.settle)) ∧
        (∀ h, t.why = .run h → exec (.tierDone op) s = .next (leaving s rest.settle)))) ∧
    (∀ t h, t ∈ e.tier → t.op = op → t.why = .run h →
      exec (.tierLate op) s = .next (leaving s ((e.bump Reg.UPD_TIER_LATE_COUNT).raise .TIER_LATE))) ∧
    ((∀ t ∈ e.tier, t.op = op → ∀ h, t.why ≠ .run h) → exec (.tierLate op) s = .next (leaving s e))

/-! ### Losses, fences and degraded reads -/

/-- R138, R233, R234, R242 to R245, R268, R448 and R452: from the start lock on the heartbeat goes to every other present member with
the losses and the map of the lost, after sessions near their limit have advanced; members that fall silent are declared lost while no more than m are
away, and else the engine is isolated; a wait for an evacuation's first copy ends; a degraded load that waits too long is
answered with an error, and no register but its count moves. -/
def Obligations.LossTimersAct : Prop :=
  ∀ (s : State),
    let e := quiet s
    (e.locked = false → exec .heartbeatTimer s = .next (leaving s e) ∧
      ∀ xs, exec (.memberSilent xs) s = .next (leaving s e.settle)) ∧
    (e.locked = true → e.boot.inReset = false → exec .heartbeatTimer s = .next (leaving s
      (e.peers.foldl (fun e d => e.send d
        { typ := tHeartbeat, stamp := s.eng.rd Reg.GRV_PT_STAT_LOSSES, release := s.eng.lostMap }) e.advanceSessions))) ∧
    (∀ xs : List (Fin 16), e.canTalk = true → e.locked = true →
      let new := ((xs.map (·.val)).filter (fun x => e.isPresent x && x != e.pos && !e.loss.silent.contains x)).eraseDups
      let noted : Eng := { e with loss := { e.loss with silent := e.loss.silent ++ new } }
      (noted.awayCount ≤ e.m → e.on Reg.RBD_LOSS_STAT_ISOLATED = false → exec (.memberSilent xs) s = .next (leaving s
        ((noted.loss.silent.foldl (fun e x => e.declareLost x 1) noted).settle))) ∧
      (e.m < noted.awayCount → e.on Reg.RBD_LOSS_STAT_ISOLATED = false → exec (.memberSilent xs) s = .next (leaving s
        (((noted.flag Reg.RBD_LOSS_STAT_ISOLATED true).setLevel .GROVE_ISOLATED true).settle)))) ∧
    (∀ xs : List (Fin 16), e.canTalk = false → exec (.memberSilent xs) s = .next (leaving s e.settle)) ∧
    (e.rd Reg.RBD_EVAC_STAT_PHASE ≠ 1 → exec .evacReady s = .next (leaving s e)) ∧
    (e.rd Reg.RBD_EVAC_STAT_PHASE = 1 → e.evac.copyCmd = none →
      exec .evacReady s = .next (leaving s ((e.wr Reg.RBD_EVAC_STAT_PHASE 2).raise .EVAC_READY))) ∧
    (∀ off : BitVec 40,
      let mine := e.drLoads.filter (fun l => l.off == off.toNat)
      exec (.degradedReadTimeout off) s = .next (leaving s (mine.foldl
        (fun e _ => (e.bump Reg.RBD_DR_FAIL_TIMEOUT).emit (.fabricAnswer none))
        { e with drLoads := e.drLoads.filter (fun l => l.off != off.toNat) }))) ∧
    exec .stepRetirement s = .next (leaving s e.retireReady.settle) ∧
    (e.log.retires = [] → e.retireReady = e)

/-- R90, R243 and R244: an access of the degraded-read aperture is answered with an error where it names no region of class 1 to 4 or
its key is wrong, either of which is counted and recorded with the requester, where it is a store, where the engine is out of
service or fenced, where its size is none of 64, 128 and 256 B or its address not aligned to it, and where this engine is no
front; a store, and an access that names no such region, is counted as refused too. At the front of a lost position a load of
a sector held there is answered at once with its bytes, and any other waits for the sector, which is sought. In a coding-core
reset it waits for the reset's end. -/
def Obligations.DegradedReadsAreAnsweredAtTheFront : Prop :=
  ∀ (s : State) (store : Bool) (off : BitVec 40) (len : Nat) (key : Word) (requester : Place),
    let e := awake s
    let load := exec (.degradedRead store off len key requester) s
    let rgn := (e.rgnAt off.toNat).filter (fun r => r.protectedCls)
    let counted := if store = true ∨ rgn = none then e.bump Reg.RBD_DR_FAIL_REFUSED else e
    let error := fun (x : Eng) => load = .next (leaving s (x.emit (.fabricAnswer none)).recon)
    (e.boot.inReset = true → load = .next (leaving s ({ e with
      late := e.late ++ [.load store off.toNat len key.toNat requester.toNat] } : Eng).recon)) ∧
    (e.boot.inReset = false →
      (rgn = none → error (counted.keyMiss none requester.toNat)) ∧
      (∀ r, rgn = some r →
        (key.toNat ≠ r.key → error (counted.keyMiss (some r.num) requester.toNat)) ∧
        (key.toNat = r.key →
          (store = true ∨ e.serving = false ∨ ¬(len = 64 ∨ len = 128 ∨ len = 256) ∨ off.toNat % len ≠ 0 → error counted) ∧
          (store = false → e.serving = true → len = 64 ∨ len = 128 ∨ len = 256 → off.toNat % len = 0 →
            (e.frontFor = none → error e) ∧
            (∀ x, e.frontFor = some x →
              let row := r.rowOf off.toNat
              let sector := off.toNat % leafBytes / 4096
              let waiting : Eng := { e with drLoads := e.drLoads ++ [{ x := x, off := off.toNat, len := len }] }
              (∀ d, e.drHas x r off.toNat = some d → load = .next (leaving s
                ((e.bump Reg.RBD_DR_SERVED_LOADS).emit (.fabricAnswer (some ((d.data.drop (off.toNat % 4096)).take len)))).recon)) ∧
              (e.drHas x r off.toNat = none →
                (r.mirror = false → load = .next (leaving s (waiting.addRecon r.num row sector 1 x false 0 .degraded).recon)) ∧
                (r.mirror = true → load = .next (leaving s (waiting.newMirrorReq r row sector x).recon))))))))

/-! ### Health and risk -/

/-- R416 to R425 and R430: a minute's counts join the last 1,440; a used lane's report is kept and counted, with BER_CODE
floor(16 (log10 BER + 12)) within 0 to 255, and prunes the lane at its tenth bad report where that is enabled; a droop and the half rate it brought are counted; every six hours the temperatures
are taken and every unit sampled; each second the risk is computed, kept at its peak, and acted on once the engine is in its
job; the link loop sets a port's idle time within its bounds. -/
def Obligations.HealthCommandsMeasureAndDecide : Prop :=
  ∀ (s : State), s.eng.alive = true →
    let e := quiet s
    (let bs := (e.health.now :: e.health.buckets).take 1440
     let full := ((List.range 64).filter e.laneFull).foldl (fun m l => put m l ((look m l).getD 0 + 1)) e.health.full
     exec .rateBucketTick s = .next (leaving s
       (({ e with health := { e.health with buckets := bs, now := Bucket.zero, full := full } } : Eng).wr Reg.HLT_RESETS_DAY
         (min 65535 ((bs.map (·.resets)).foldl (· + ·) 0))))) ∧
    (∀ (n : Fin 64) (corr received : Nat) (eye : BitVec 16),
      let ber := berCode corr received
      (corr = 0 → ber = 0) ∧
      (0 < corr → ∀ c, 0 < c → c ≤ 255 → (c ≤ ber ↔ received ^ 16 * 10 ^ c ≤ corr ^ 16 * 10 ^ 192)) ∧
      (e.laneUsed n = false → exec (.laneReport n corr received eye) s = .next (leaving s e)) ∧
      (e.laneUsed n = true →
        let l := e.laneHealth n
        let bad := e.rd Reg.GEN_PRUNE_CTL_LANE_BER ≤ ber
        let l' : LaneHealth := { ber := ber, eye := min 500 eye.toNat, corr := min (2 ^ 32 - 1) (l.corr + corr),
                                 high := if bad then l.high + 1 else 0 }
        let kept := ({ e with health := { e.health with lanes := put e.health.lanes n l', fec := e.health.fec + corr } } : Eng).unitErr
          (128 + n) corr
        (e.on Reg.GEN_PRUNE_CTL_AUTO_LANE = false ∨ l'.high < 10 →
          exec (.laneReport n corr received eye) s = .next (leaving s kept)) ∧
        (e.on Reg.GEN_PRUNE_CTL_AUTO_LANE = true → 10 ≤ l'.high → exec (.laneReport n corr received eye) s = .next (leaving s
          (({ kept with health := { kept.health with lanes := put kept.health.lanes n { l' with high := 0 } } } : Eng).pruneLane n))))) ∧
    (s.eng.pins.droopWarnL = true → exec .droopWarn s = .next (leaving s
      ((({ e with pins := { e.pins with droopWarnL := false } } : Eng).bump Reg.HLT_TEMP_DROOP).minute
        (fun b => { b with droop := b.droop + 1 })))) ∧
    (s.eng.pins.droopWarnL = false → ∀ us, exec (.droopRecover us) s = .next (leaving s
      (({ e with pins := { e.pins with droopWarnL := true } } : Eng).bumpBy Reg.HLT_THROTTLE_MICROS us))) ∧
    (∀ hours : List (List Nat), ∃ t, exec (.wearSample hours) s = .next (leaving s t) ∧
      t.health.wearNo = s.eng.health.wearNo + 1 ∧ t.health.errs = [] ∧ t.health.full = [] ∧ t.mem = s.eng.mem ∧
      t.rings = s.eng.rings ∧ (∀ q, q < 4 → t.quadTemp q = min 150 ((hours.getLastD []).getD (8 + q) 0))) ∧
    (let x := e.indicators
     let risk := riskOf (e.rd Reg.HLT_RISK_W2_BASE) e.weights x
     let known := (({ e with health := { e.health with x := x, fec := 0 } } : Eng).wr Reg.HLT_RISK_RISK risk).wr
       Reg.HLT_RISK_PEAK (max (e.rd Reg.HLT_RISK_PEAK) risk)
     (s.eng.locked = false → exec .riskEvaluation s = .next (leaving s known.settle)) ∧
     (s.eng.locked = true → s.eng.serving = true → s.eng.boot.inReset = false →
       exec .riskEvaluation s = .next (leaving s (((known.thickRule risk).evacRule risk).dueCheck).settle))) ∧
    (∀ p : Fin 4, s.eng.on Reg.GEN_BOOT_READY = true → e.on Reg.HLT_LINK_LOOP_EN = true →
      let total := e.rd (Reg.GP_WAKES_COUNT p)
      let w := total - (look e.health.wakes p).getD 0
      let noted : Eng := { e with health := { e.health with wakes := put e.health.wakes p total } }
      let idle := e.rd (Reg.GP_PWR_IDLE p)
      let hi := e.rd Reg.HLT_LINK_LOOP_WAKE_HI
      let set := fun (wish : Nat) =>
        noted.wr (Reg.GP_PWR_IDLE p) (clampTo (e.rd Reg.HLT_LINK_LOOP_FLOOR) (e.rd Reg.HLT_LINK_LOOP_CEIL) wish)
      (hi < w → 2 * idle ≤ e.rd Reg.HLT_LINK_LOOP_CEIL → exec (.linkLoopDecision p) s = .next (leaving s (set (2 * idle)))) ∧
      (hi < w → e.rd Reg.HLT_LINK_LOOP_CEIL < 2 * idle → exec (.linkLoopDecision p) s = .next (leaving s
        ((set (2 * idle)).advise 2 p (2 * idle) Reg.HLT_ADVICE_LINK .LINK_ADVICE))) ∧
      (w ≤ hi → hi ≤ 4 * w → idle ≤ e.rd Reg.HLT_LINK_LOOP_CEIL →
        exec (.linkLoopDecision p) s = .next (leaving s (set idle))) ∧
      (4 * w < hi → max 1 (idle / 2) ≤ e.rd Reg.HLT_LINK_LOOP_CEIL →
        exec (.linkLoopDecision p) s = .next (leaving s (set (max 1 (idle / 2))))))

/-! ### Anchors, digests and storage -/

/-- R344, R356 to R358, R361, R372, R378 and R379: the three reasons of an anchor are looked at; a part of an object that is
persistent joins it, and the anchor goes on to its next part or completes; a failed write goes again, three times, and then
aborts the anchor; a restore takes what its read brings; a weight digest that is owed and ready is formed; a leaf that is not
current is recomputed. -/
def Obligations.AnchorAndDigestCommandsAct : Prop :=
  ∀ (s : State),
    let e := quiet s
    let active := s.eng.locked = true ∧ s.eng.serving = true ∧ s.eng.boot.inReset = false
    (active → e.rd Reg.ANC_DUE_CTL_STEPS = 0 → e.rd Reg.ANC_DUE_CTL_RISK = 0 → e.keep.due.raised = [] →
      let mins := e.rd Reg.ANC_DUE_CTL_MINUTES
      let none_ := ((e.flag Reg.ANC_DUE_STAT_STEPS false).flag Reg.ANC_DUE_STAT_TIME false).flag Reg.ANC_DUE_STAT_RISK false
      (mins = 0 ∨ e.now < e.keep.due.at_ + mins * 60000000000 → exec .anchorDueTimer s = .next (leaving s none_)) ∧
      (mins ≠ 0 → e.keep.due.at_ + mins * 60000000000 ≤ e.now → ∃ t, exec .anchorDueTimer s = .next (leaving s t) ∧
        t.on Reg.ANC_DUE_STAT_TIME = true ∧ t.on Reg.ANC_DUE_STAT_DUE = true ∧ t.on Reg.ANC_DUE_STAT_STEPS = false ∧
        t.on Reg.ANC_DUE_STAT_RISK = false ∧ t.keep.due.raised = [1] ∧ t.mem = s.eng.mem)) ∧
    (∀ a w, e.keep.anchor = some a → a.writing = some w →
      let joined : Anchor := { a with object := a.object ++ [w], writing := none }
      let goes := fun (x : Anchor) => exec (.storageWriteComplete true) s = .next (leaving s
        (({ e with keep := { e.keep with anchor := some x } } : Eng).anchorStep))
      (a.part = .manifest → goes { joined with part := .records }) ∧
      (a.part = .records → goes { joined with sent := a.sent + 1 }) ∧
      (a.part = .chunks → goes { joined with part := .header }) ∧
      (a.part = .header → goes { joined with part := .trailer }) ∧
      (a.part = .trailer → exec (.storageWriteComplete true) s = .next (leaving s
        (({ e with keep := { e.keep with anchor := some joined } } : Eng).anchorDone joined))) ∧
      (a.retries < 3 → exec (.storageWriteComplete false) s = .next (leaving s e) ∧
        exec .storageRetry s = .next (leaving s
          ((({ e with keep := { e.keep with anchor := some { a with retries := a.retries + 1 } } } : Eng).bump
            Reg.ANC_ERR_RETRIES).emit (.storageWrite a.handle w.1 w.2)))) ∧
      (3 ≤ a.retries → exec (.storageWriteComplete false) s = .next (leaving s (e.abortAnchor 0x0041 0)) ∧
        exec .storageRetry s = .next (leaving s e))) ∧
    (∀ data, s.eng.working = true → exec (.storageReadComplete data) s = .next (leaving s (e.restoreRead data).settle)) ∧
    (∀ data, s.eng.working = true → e.keep.restore = none →
      exec (.storageReadComplete data) s = .next (leaving s e.settle)) ∧
    (active → e.openWeights = [] → exec .weightDigest s = .next (leaving s e)) ∧
    (active → ∀ w rest, e.openWeights = w :: rest →
      let f := e.weightDigestAt w
      (e.weightReady w = false → exec .weightDigest s = .next (leaving s e)) ∧
      (e.weightReady w = true → exec .weightDigest s = .next (leaving s
        ((f.1.keepWeight w f.2).finishReady.pumpRuns.anchorStep)))) ∧
    (active → ∀ leaf : BitVec 20, e.digLeaf (leaf.toNat * leafBytes) = true →
      ((e.dig leaf.toNat).current = true → exec (.digestRecompute leaf) s = .next (leaving s e)) ∧
      ((e.dig leaf.toNat).current = false → ∃ t, exec (.digestRecompute leaf) s = .next (leaving s t) ∧
        (t.dig leaf.toNat).cur = e.leafCrc leaf.toNat ∧ (t.dig leaf.toNat).current = true ∧
        (t.dig leaf.toNat).priorValid = false ∧ t.mem = e.mem ∧ (∀ n, n ≠ leaf.toNat → t.dig n = e.dig n)))

/-! ### Ports -/

/-- R278 to R283: the steps of a training. Detection within its bound, and else another attempt; the lanes that equalise and lock;
the width that both ends agree; the port UP. A link reset starts an attempt at a port that is neither excluded nor held. A
lane out of lock leaves the set, and the port re-stripes where it carries traffic. -/
def Obligations.PortsTrain : Prop :=
  ∀ (s : State) (p : Fin 4),
    let e := quiet s
    let st := e.portState p
    let step := fun (n : Fin 6) (lanes : BitVec 16) (met : Bool) (t : Eng) =>
      exec (.portTrainingStep p n lanes met) s = .next (leaving s t.bootReady)
    (st = psDetect →
      (∀ l, step 1 l true ((e.wr (Reg.GP_STAT_STATE p) psEqualise).updPort p (fun q => { q with asks := [] }))) ∧
      (∀ l, (e.port p).attempt < 3 → step 1 l false (e.startAttempt p ((e.port p).attempt + 1))) ∧
      (∀ l, 3 ≤ (e.port p).attempt → step 1 l false (e.excludePort p (if (e.port p).resetting then 3 else 1)))) ∧
    (st = psEqualise → ∀ l m, step 2 l m
      ((e.wr (Reg.GP_LANES_TRAINED p) (l.toNat &&& e.presentLanes p)).wr (Reg.GP_STAT_STATE p) psLock)) ∧
    (st = psLock → ∀ l m, step 3 l m (((e.wr (Reg.GP_LANES_TRAINED p) (l.toNat &&& e.rd (Reg.GP_LANES_TRAINED p))).wr
      (Reg.GP_STAT_STATE p) psWidth).widthMsg p false)) ∧
    (st = psWidth → e.widthOfPort p ≠ 0 → ∀ l, step 4 l true (e.setUsed p (e.usedLanes p))) ∧
    (st = psWidth → e.rd (Reg.GP_STAT_WIDTH p) ≠ 0 → ∀ l, step 5 l true (e.portGoesUp p)) ∧
    (st < 1 ∨ psWake < st → exec (.linkReset p) s = .next (leaving s e)) ∧
    (1 ≤ st → st ≤ psWake → exec (.linkReset p) s = .next (leaving s ((e.updPort p (fun q =>
      { q with resetting := true, kept := true, reqCount := 0, reqTimes := [] })).startAttempt p 1))) ∧
    (∀ l : Fin 16, let lost := e.updPort p (fun q => { q with lost := setBit q.lost l })
      exec (.laneLockLoss p l) s = .next (leaving s (if st = psUp ∨ st = psLow then lost.restripe p else lost))) ∧
    (∀ v : Word, s.eng.answers .link = true →
      exec (.portRetrain p v) s = .next (leaving s
        (((written .link [Reg.GP_CTL_RETRAIN p, Reg.GP_CTL_HOLD p] v.toNat s).portCtl p v.toNat).bootReady))) ∧
    (∀ v : Word, s.eng.answers .link = true → v.toNat / 2 ^ 30 = 2 → e.on (Reg.GP_TEST_RUN p) = false →
      let w := written .link [Reg.GP_TEST_RUN p, Reg.GP_TEST_REFUSED p, Reg.GP_TEST_PATTERN p, Reg.GP_TEST_MODE p] v.toNat s
      let set := (w.sw (Reg.GP_TEST_PATTERN p) v.toNat).sw (Reg.GP_TEST_MODE p) v.toNat
      (e.locked = true → st ≠ psExcluded → e.on (Reg.GP_CTL_HOLD p) = false →
        exec (.portTestRun p v) s = .next (leaving s (set.flag (Reg.GP_TEST_REFUSED p) true))) ∧
      (e.locked = false ∨ st = psExcluded ∨ e.on (Reg.GP_CTL_HOLD p) = true →
        exec (.portTestRun p v) s = .next (leaving s (((((List.range 16).foldl (fun e l => e.wr (Reg.GP_PRBS_ERR_COUNT p l) 0)
          ((set.flag (Reg.GP_TEST_RUN p) true).updPort p (fun q => { q with stBefore := st }))).abortInbound p).linkDown p psTest).emit
            (.lanesTest p (set.rd (Reg.GP_TEST_MODE p)) (set.rd (Reg.GP_TEST_PATTERN p))))))) ∧
    (∀ l : Fin 16, e.on (Reg.GP_TEST_RUN p) = true → e.rd (Reg.GP_TEST_MODE p) ∈ [1, 2, 4] → bit (e.presentLanes p) l = true →
      exec (.prbsLockTimeout p l) s = .next (leaving s (e.wr (Reg.GP_PRBS_ERR_COUNT p l) 0xFFFFFFFF)))

/-- R63, R278 to R283 and R292 to R296: the control messages of a port. INIT detects the far end; ID that is not the neighbour's
excludes the port; WIDTH agrees the lanes, or is answered with this end's own proposal; RESTRIPE of the lanes already used ends
the repetition of this end's own or is answered; R299: INIT and ID too are answered, and what is answered repeats no more; RETRY_REQ resends from the flit it names, and its sixteenth in a row resets the link; ACK empties the replay buffer up to
the flit it names; CREDIT lets waiting packets go. -/
def Obligations.ControlMessagesAct : Prop :=
  ∀ (s : State) (p : Fin 4),
    let e := awake s
    let q := e.port p
    let st := e.portState p
    (∀ far present attempt,
      (st = psDetect → exec (.init p far present attempt) s = .next (leaving s
        ((e.updPort p (fun q => { q with farPresent := present.toNat, asks := [] })).wr (Reg.GP_STAT_STATE p) psEqualise))) ∧
      (st = psEqualise → exec (.init p far present attempt) s = .next (leaving s
        (e.ctl p (.init p (e.presentLanes p) q.attempt)))) ∧
      (st < psDetect ∨ st = psLock ∨ st = psWidth ∨ psWake < st →
        exec (.init p far present attempt) s = .next (leaving s e))) ∧
    (∀ (place : Place) (pos : BitVec 4) (standby : Bool),
      let noted := (((e.wr (Reg.GP_STAT_FAR_PLACE p) place.toNat).wr (Reg.GP_STAT_FAR_POS p) pos.toNat).flag
        (Reg.GP_STAT_FAR_NONE p) standby).updPort p (fun q => { q with farId := true })
      let told := if noted.asking p noted.idMsg then noted.answered p noted.idMsg
        else if e.on Reg.GRV_CFG_VALID = true ∧ psUp ≤ st ∧ st ≤ psWake then noted.ctl p noted.idMsg else noted
      (e.on Reg.GRV_CFG_VALID = false ∨ e.on Reg.GRV_MAP_CTL_STANDBY = true ∨ p.val = 3 ∨ e.portUp p = false →
        exec (.id p place pos standby) s = .next (leaving s told.bootReady)) ∧
      (e.on Reg.GRV_CFG_VALID = true → e.on Reg.GRV_MAP_CTL_STANDBY = false → p.val < 3 → e.portUp p = true →
        (standby = true ∨ farOf e.w e.pos p ≠ some pos.toNat →
          exec (.id p place pos standby) s = .next (leaving s (told.excludePort p 2).bootReady)) ∧
        (standby = false → farOf e.w e.pos p = some pos.toNat →
          exec (.id p place pos standby) s = .next (leaving s told.bootReady)))) ∧
    (∀ (passing used : BitVec 16) (w : Byte) (final : Bool),
      let heard := e.updPort p (fun q => { q with farPassing := passing.toNat })
      (st = psLock → exec (.width p passing w used final) s = .next (leaving s heard)) ∧
      (st = psWidth → w ≠ 0 → w.toNat = heard.widthOfPort p → used.toNat = heard.usedLanes p →
        exec (.width p passing w used final) s = .next (leaving s
          (if final then (heard.setUsed p used.toNat).updPort p (fun q => { q with asks := [] })
           else (heard.setUsed p used.toNat).widthMsg p true))) ∧
      (st = psWidth → ¬(w ≠ 0 ∧ w.toNat = heard.widthOfPort p ∧ used.toNat = heard.usedLanes p) →
        exec (.width p passing w used final) s = .next (leaving s (heard.widthMsg p false)))) ∧
    (∀ (used : BitVec 16) (fseq : BitVec 12), st = psUp → used.toNat = e.rd (Reg.GP_LANES_USED p) →
      let heard := e.updPort p (fun q => { q with farUsed := used.toNat, farFrom := fseq.toNat })
      exec (.restripe p used fseq) s = .next (leaving s
        (if heard.asking p (.restripe 0 0) then heard.answered p (.restripe 0 0)
         else heard.ctl p (.restripe used.toNat (heard.port p).txFseq)))) ∧
    (∀ fseq : BitVec 12,
      let n := if q.reqFseq = fseq.toNat then q.reqCount + 1 else 1
      let ts := q.reqTimes.filter (fun t => e.now < t + 1000000) ++ [e.now]
      let noted := (e.bump (Reg.GP_RETRY_REQS p)).updPort p (fun q => { q with reqFseq := fseq.toNat, reqCount := n, reqTimes := ts })
      (n < 16 → ts.length < 256 → exec (.retryReq p fseq) s = .next (leaving s
        (noted.resendFlits p (q.replay.dropWhile (fun f => f.1 != fseq.toNat))))) ∧
      (16 ≤ n ∨ 256 ≤ ts.length → exec (.retryReq p fseq) s = .next (leaving s
        ((noted.bump (Reg.GP_RETRY_RESETS p)).linkReset p)))) ∧
    exec (.retryReqRepeat p) s = .next (leaving s
      (if q.retrying then (quiet s).ctl p (.retryReq q.rxFseq) else quiet s)) ∧
    (∀ fseq : BitVec 12, q.resetting = false →
      let rest := if q.replay.any (fun f => f.1 == fseq.toNat) then (q.replay.dropWhile (fun f => f.1 != fseq.toNat)).drop 1
        else q.replay
      exec (.ack p fseq) s = .next (leaving s ((e.updPort p (fun q => { q with replay := rest })).pump p))) ∧
    (q.unacked = 0 → exec (.ackTimer p) s = .next (leaving s (quiet s))) ∧
    (q.unacked ≠ 0 → exec (.ackTimer p) s = .next (leaving s
      (((quiet s).updPort p (fun q => { q with unacked := 0 })).ctl p (.ack ((q.rxFseq + 4095) % 4096))))) ∧
    (∀ (vc : Fin 4) (cls : Fin 17) (freed : BitVec 16), exec (.credit p vc cls freed) s = .next (leaving s
      ((e.updPort p (fun q => { q with freedFar := put q.freedFar (credKey vc cls) freed.toNat })).pump p)))

/-- R299 and R306 to R310: a port enters LOW where it may and both ends agree: an idle one asks, one asked agrees or declines, an
answer completes the entry where its conditions still hold, and else ends the attempt and wakes the far end. In LOW it beats,
takes a link reset after silence, and wakes when either end asks, the end that asks sending WAKE; awake it re-stripes and
carries on, or, in keep-alive, returns to LOW. -/
def Obligations.PortsSaveAndReturnPower : Prop :=
  ∀ (s : State) (p : Fin 4),
    let e := quiet s
    let st := e.portState p
    let w := awake s
    let noReq := fun (e : Eng) => (e.updPort p (fun q => { q with lowSent := false })).answered p .lowReq
    (st = psUp → e.on (Reg.GP_PWR_LOW_EN p) = true → e.portBusy p = false →
      exec (.portIdleTimer p) s = .next (leaving s ((e.updPort p (fun q => { q with lowSent := true })).ask p .lowReq)) ∧
      exec (.lowReq p) s = .next (leaving s
        (if (e.port p).lowSent then w.enterLow p else (w.ctl p .lowAck).enterLow p))) ∧
    (st = psUp → (e.on (Reg.GP_PWR_LOW_EN p) = false ∨ e.portBusy p = true) →
      exec (.portIdleTimer p) s = .next (leaving s e) ∧
      exec (.lowReq p) s = .next (leaving s ((noReq w).ctl p .lowNak))) ∧
    (st = psUp → e.asking p .lowReq = true →
      let stands := (e.port p).lowSent = true ∧ e.on (Reg.GP_PWR_LOW_EN p) = true ∧ e.portBusy p = false
      (stands → exec (.lowAck p) s = .next (leaving s (w.enterLow p)) ∧ exec (.beat p true) s = .next (leaving s (e.enterLow p))) ∧
      (¬stands → exec (.lowAck p) s = .next (leaving s ((noReq w).ctl p .wake)) ∧
        exec (.beat p true) s = .next (leaving s ((noReq e).ctl p .wake)))) ∧
    ((st ≠ psUp ∨ e.asking p .lowReq = false) → exec (.lowAck p) s = .next (leaving s w) ∧
      exec (.beat p true) s = .next (leaving s e)) ∧
    exec (.beat p false) s = .next (leaving s e) ∧ exec (.lowNak p) s = .next (leaving s (noReq w)) ∧
    (st = psLow → exec (.beatTimer p) s = .next (leaving s (e.ctl p (.beat true))) ∧
      exec (.lowLinkSilence p) s = .next (leaving s (e.linkReset p)) ∧
      (∀ src, exec (.wake p src) s = .next (leaving s (((((if src = .farEnd then w else w.ask p .wake).wr (Reg.GP_STAT_STATE p)
        psWake).flag (Reg.GP_PWR_LOW_NOW p) false)).updPort p (fun q => { q with stBefore := 0 }))))) ∧
    (st ≠ psLow → exec (.beatTimer p) s = .next (leaving s e) ∧ exec (.lowLinkSilence p) s = .next (leaving s e)) ∧
    (st = psWake →
      (e.widthOfPort p = 0 → exec (.wakeComplete p) s = .next (leaving s (e.linkReset p))) ∧
      (e.widthOfPort p ≠ 0 →
        let used := e.usedLanes p
        let up := ((((e.wr (Reg.GP_STAT_STATE p) psUp).setUsed p used).answered p .wake).ask p
          (.restripe used (e.port p).txFseq)).bump (Reg.GP_WAKES_COUNT p)
        exec (.wakeComplete p) s = .next (leaving s
          (if e.on Reg.GEN_PWR_ASLEEP = true then up.enterLow p else up.pump p))) ∧
      (∀ l : Fin 16, exec (.wakeLockTimeout p l) s = .next (leaving s
        (((if (e.port p).stBefore = 0 then e.bump (Reg.GP_PWR_WAKE_LATE p) else e)).updPort p
          (fun q => { q with stBefore := 1, lost := setBit q.lost l })))))

/-- R276, R286, R287, R291, R293, R299 and R438: a flit at a port. One at a port that carries no traffic changes nothing, but for a CTRL
flit at a port in training. A failed FEC or CRC is counted, and where traffic is carried it asks for the flit expected, as a
sequenced flit out of order does. IDLE and CTRL flits have no sequence: the first says nothing, the second's messages are
taken in their order. The sequenced flit expected starts the clocks, is taken and, at 64 unacknowledged, acknowledged: a DATA
flit's body goes on its stream, an ABORT ends the packet in progress there. A stalled relayed packet is dropped, here and on its way on. -/
def Obligations.FlitsAreTakenInOrder : Prop :=
  ∀ (s : State) (p : Fin 4) (f : List Byte) (bad : Bool),
    let e := quiet s
    let st := e.portState p
    let up := st = psUp ∨ st = psLow ∨ st = psWake
    let training := psDetect ≤ st ∧ st ≤ psWidth
    let ftype := fieldAt f 0 1
    let vc := fieldAt f 1 1 % 4
    let cls := fieldAt f 1 1 / 4
    let both := fun (t : Eng) => exec (.dataFlit p f bad) s = .next (leaving s t) ∧ exec (.abortFlit p f bad) s = .next (leaving s t)
    (¬up → ¬(ftype = 2 ∧ training) → both e) ∧
    (¬up → ftype = 2 → training →
      (bad = true → both (e.bump (Reg.GP_FLIT_ERR_FEC_BAD p))) ∧
      (bad = false → flitOk f = false → both (e.bump (Reg.GP_FLIT_ERR_CRC p))) ∧
      (bad = false → flitOk f = true → both (e.ctrlBody p f))) ∧
    (up →
      (bad = true → both ((e.bump (Reg.GP_FLIT_ERR_FEC_BAD p)).askRetry p)) ∧
      (bad = false → flitOk f = false → both ((e.bump (Reg.GP_FLIT_ERR_CRC p)).askRetry p)) ∧
      (bad = false → flitOk f = true → ftype = 0 → both e) ∧
      (bad = false → flitOk f = true → ftype = 2 → both (e.ctrlBody p f)) ∧
      (bad = false → flitOk f = true → ftype ≠ 0 → ftype ≠ 2 → fieldAt f 2 2 ≠ (e.port p).rxFseq → both (e.askRetry p)) ∧
      (bad = false → flitOk f = true → fieldAt f 2 2 = (e.port p).rxFseq →
        let next := (awake s).setPort p { e.port p with
          rxFseq := ((e.port p).rxFseq + 1) % 4096, unacked := (e.port p).unacked + 1, retrying := false }
        let taken := if 64 ≤ (next.port p).unacked then next.sendAck p else next
        (ftype = 1 → exec (.dataFlit p f bad) s = .next (leaving s (taken.dataBody p f))) ∧
        (ftype = 3 → exec (.abortFlit p f bad) s = .next (leaving s (taken.streamAbort p vc cls))) ∧
        (ftype = 3 → taken.stream p vc cls = none → exec (.abortFlit p f bad) s = .next (leaving s taken)))) ∧
    (∀ (v : Fin 4) (c : Fin 17), e.stream p v c = none → exec (.relayStall p v c) s = .next (leaving s e)) ∧
    (∀ (v : Fin 4) (c : Fin 17) r, e.stream p v c = some r →
      (r.relayed = false → exec (.relayStall p v c) s = .next (leaving s e)) ∧
      (r.relayed = true → exec (.relayStall p v c) s = .next (leaving s
        ((e.setStream p v c (some { r with relayed := false, drop := true })).abortArriving (p.val, v.val, c.val)))))

/-! ### Placement and coding -/

/-- R42 and R43: within the stripe at a row, data index i and parity row j live where the placement puts them, every position
holds exactly one leaf of the stripe, and the role that a position derives from its own number is the leaf that lives there. -/
def Obligations.EveryPositionHoldsOneLeafOfAStripe : Prop :=
  ∀ (w k m s : Nat), 0 < k → 0 < m → w = k + m →
    (∀ i < k, dataPos w s i = (s + i) % w ∧ roleOf w (dataPos w s i) s = i) ∧
    (∀ j < m, parityPos w k s j = (s + k + j) % w ∧ roleOf w (parityPos w k s j) s = k + j) ∧
    (∀ p < w, let r := roleOf w p s
      r < w ∧ r = (p + w * s - s) % w ∧ (r < k → dataPos w s r = p) ∧ (k ≤ r → parityPos w k s (r - k) = p))

/-- R47: the coefficients, row by row, and their origin: each is the inverse of 0x10 ⊕ (j ⊕ i). -/
def Obligations.CoefficientsAreThoseOfTheTable : Prop :=
  let table : List (List Nat) :=
    [[0xD8, 0x72, 0xC0, 0x58, 0xE0, 0x3E, 0x4C, 0x66, 0x90, 0xDE, 0x55, 0x80, 0xA0, 0x83, 0x4B, 0x2A],
     [0x72, 0xD8, 0x58, 0xC0, 0x3E, 0xE0, 0x66, 0x4C, 0xDE, 0x90, 0x80, 0x55, 0x83, 0xA0, 0x2A, 0x4B],
     [0xC0, 0x58, 0xD8, 0x72, 0x4C, 0x66, 0xE0, 0x3E, 0x55, 0x80, 0x90, 0xDE, 0x4B, 0x2A, 0xA0, 0x83],
     [0x58, 0xC0, 0x72, 0xD8, 0x66, 0x4C, 0x3E, 0xE0, 0x80, 0x55, 0xDE, 0x90, 0x2A, 0x4B, 0x83, 0xA0]]
  ∀ j < 4, ∀ i < 16, coeff j i = (table.getD j []).getD i 0 ∧ gfMul (coeff j i) (0x10 ^^^ (j ^^^ i)) = 1

/-- R48 to R50: a parity leaf formed from its data leaves stays the one of the changed data when the delta of one of them, times
its coefficient, is added to it; deltas may be added in any order or merged first, and the same delta twice changes nothing. -/
def Obligations.ParityFollowsItsData : Prop :=
  ∀ (n j : Nat) (ds : List (List Byte)), (∀ d ∈ ds, d.length = n) →
    let parity := fun (ds : List (List Byte)) =>
      ds.zipIdx.foldl (fun acc d => xorBytes acc (gfScale (coeff j d.2) d.1)) (zeros n)
    (∀ (i : Nat) (new : List Byte), i < ds.length → new.length = n →
      parity (ds.set i new) = xorBytes (parity ds) (gfScale (coeff j i) (xorBytes (ds.getD i []) new))) ∧
    (∀ (c : Nat) (a b : List Byte), a.length = n → b.length = n →
      xorBytes (xorBytes (parity ds) a) b = xorBytes (xorBytes (parity ds) b) a ∧
      xorBytes (xorBytes (parity ds) (gfScale c a)) (gfScale c b) = xorBytes (parity ds) (gfScale c (xorBytes a b)) ∧
      xorBytes (xorBytes (parity ds) a) a = parity ds)

/-- R323 to R325: the check bytes of a sector make both syndromes of each codeword zero; they follow a change of its bytes by the
change's own check bytes; and they give back a sector with one byte wrong, and one with a whole line lost. -/
def Obligations.HeartwoodMendsItsSector : Prop :=
  ∀ sector : List Byte, sector.length = 4096 →
    (∀ i < 32, syndromes (codeword sector (heartwood sector) i) = (0, 0)) ∧
    (∀ (l : Nat) (line : List Byte), l < 64 → line.length = 64 →
      heartwood (overlay sector (64 * l) line) =
        xorBytes (heartwood sector) (heartChange (64 * l) (xorBytes ((sector.drop (64 * l)).take 64) line)) ∧
      heartErasure (overlay sector (64 * l) line) (heartwood sector) l = sector) ∧
    (∀ (o : Nat) (v : Byte), o < 4096 →
      heartError (sector.set o (sector.getD o 0 ^^^ v)) (heartwood sector) = some sector)

/-! ### The forms of packets -/

/-- R102 to R105: whatever the element format, thinning loses nothing: a sector's delta is recovered from its line map and its
payload, which holds exactly the plane lines that the map names. -/
def Obligations.ThinningLosesNothing : Prop :=
  ∀ (fmt : Nat) (delta : List Byte), delta.length = 4096 →
    let w := elemWidth fmt
    expand w (lineMapOf w delta) (thin w delta) = delta ∧ lineMapOf w delta < 2 ^ 64 ∧
    (thin w delta).length = 64 * ((List.range 64).filter (fun t => bit (lineMapOf w delta) t)).length

/-- R107, R108 and R289: the wire form of a packet, its envelope before it and its tag behind, is read back with every field at
every value, and the body of any length. -/
def Obligations.WireFormKeepsEveryField : Prop :=
  ∀ (p : SapPkt) (typ : Nat), typ < 256 → parseWire (sapWire p typ) = some (typ, p)

/-- R301, R397 and R402: a packet sealed by the member at `place` for this engine, under a generation and a counter, opens here
with the payload and every field that it was sent with; what its header can not say is lost, so the fields are in their
widths. -/
def Obligations.SealedPacketsOpenAsTheyWereSent : Prop :=
  ∀ (e : Eng) (jlk : List Byte) (place ctr : Nat) (q : Pkt), e.sec.jlk = some jlk → q.flags < 2 ^ 8 → q.gen < 2 ^ 8 →
    q.planes < 2 ^ 8 → q.sector < 2 ^ 8 → q.src < 2 ^ 4 → q.dst < 2 ^ 4 → q.region < 2 ^ 16 → q.row < 2 ^ 32 →
    q.stamp < 2 ^ 32 → q.seq < 2 ^ 32 → q.release < 2 ^ 32 → q.lineMap < 2 ^ 64 → ctr < 2 ^ 64 →
    let sent := sealPkt (sessionKey jlk place e.place q.gen) ctr q
    e.openPkt place q.gen q.typ sent = some q.payload ∧ sapPlain sent q.typ q.payload = q
end

