-- ==== Sys2Proof/Laws/State.lean ====
section
/-!
SUPPORT. Sys2Proof/Laws/State.lean: what each named update of the engine leaves alone, one lemma per field.
-/
namespace Sys2Proof.Machine

/-! ### `Eng.wr` -/

@[simp] theorem Eng.wr_out (e : Eng) (f : Fld) (v : Nat) : (e.wr f v).out = e.out := (rfl)
@[simp] theorem Eng.wr_free (e : Eng) (f : Fld) (v : Nat) : (e.wr f v).free = e.free := (rfl)
@[simp] theorem Eng.wr_mem (e : Eng) (f : Fld) (v : Nat) : (e.wr f v).mem = e.mem := (rfl)
@[simp] theorem Eng.wr_ctxs (e : Eng) (f : Fld) (v : Nat) : (e.wr f v).ctxs = e.ctxs := (rfl)
@[simp] theorem Eng.wr_descs (e : Eng) (f : Fld) (v : Nat) : (e.wr f v).descs = e.descs := (rfl)
@[simp] theorem Eng.wr_progs (e : Eng) (f : Fld) (v : Nat) : (e.wr f v).progs = e.progs := (rfl)
@[simp] theorem Eng.wr_syncs (e : Eng) (f : Fld) (v : Nat) : (e.wr f v).syncs = e.syncs := (rfl)
@[simp] theorem Eng.wr_pins (e : Eng) (f : Fld) (v : Nat) : (e.wr f v).pins = e.pins := (rfl)
@[simp] theorem Eng.wr_fuses (e : Eng) (f : Fld) (v : Nat) : (e.wr f v).fuses = e.fuses := (rfl)
@[simp] theorem Eng.wr_boot (e : Eng) (f : Fld) (v : Nat) : (e.wr f v).boot = e.boot := (rfl)
@[simp] theorem Eng.wr_time (e : Eng) (f : Fld) (v : Nat) : (e.wr f v).time = e.time := (rfl)
@[simp] theorem Eng.wr_intr (e : Eng) (f : Fld) (v : Nat) : (e.wr f v).intr = e.intr := (rfl)
@[simp] theorem Eng.wr_q (e : Eng) (f : Fld) (v : Nat) : (e.wr f v).q = e.q := (rfl)
@[simp] theorem Eng.wr_rc (e : Eng) (f : Fld) (v : Nat) : (e.wr f v).rc = e.rc := (rfl)
@[simp] theorem Eng.wr_map (e : Eng) (f : Fld) (v : Nat) : (e.wr f v).map = e.map := (rfl)
@[simp] theorem Eng.wr_mgmt (e : Eng) (f : Fld) (v : Nat) : (e.wr f v).mgmt = e.mgmt := (rfl)
@[simp] theorem Eng.wr_sess (e : Eng) (f : Fld) (v : Nat) : (e.wr f v).sess = e.sess := (rfl)
@[simp] theorem Eng.wr_ports (e : Eng) (f : Fld) (v : Nat) : (e.wr f v).ports = e.ports := (rfl)
@[simp] theorem Eng.wr_linksDown (e : Eng) (f : Fld) (v : Nat) : (e.wr f v).linksDown = e.linksDown := (rfl)
@[simp] theorem Eng.wr_rgns (e : Eng) (f : Fld) (v : Nat) : (e.wr f v).rgns = e.rgns := (rfl)
@[simp] theorem Eng.wr_caps (e : Eng) (f : Fld) (v : Nat) : (e.wr f v).caps = e.caps := (rfl)
@[simp] theorem Eng.wr_sent (e : Eng) (f : Fld) (v : Nat) : (e.wr f v).sent = e.sent := (rfl)
@[simp] theorem Eng.wr_relSent (e : Eng) (f : Fld) (v : Nat) : (e.wr f v).relSent = e.relSent := (rfl)
@[simp] theorem Eng.wr_busy (e : Eng) (f : Fld) (v : Nat) : (e.wr f v).busy = e.busy := (rfl)
@[simp] theorem Eng.wr_dataAt (e : Eng) (f : Fld) (v : Nat) : (e.wr f v).dataAt = e.dataAt := (rfl)
@[simp] theorem Eng.wr_applied (e : Eng) (f : Fld) (v : Nat) : (e.wr f v).applied = e.applied := (rfl)
@[simp] theorem Eng.wr_window (e : Eng) (f : Fld) (v : Nat) : (e.wr f v).window = e.window := (rfl)
@[simp] theorem Eng.wr_waits (e : Eng) (f : Fld) (v : Nat) : (e.wr f v).waits = e.waits := (rfl)
@[simp] theorem Eng.wr_advs (e : Eng) (f : Fld) (v : Nat) : (e.wr f v).advs = e.advs := (rfl)
@[simp] theorem Eng.wr_rings (e : Eng) (f : Fld) (v : Nat) : (e.wr f v).rings = e.rings := (rfl)
@[simp] theorem Eng.wr_agrees (e : Eng) (f : Fld) (v : Nat) : (e.wr f v).agrees = e.agrees := (rfl)
@[simp] theorem Eng.wr_early (e : Eng) (f : Fld) (v : Nat) : (e.wr f v).early = e.early := (rfl)
@[simp] theorem Eng.wr_log (e : Eng) (f : Fld) (v : Nat) : (e.wr f v).log = e.log := (rfl)
@[simp] theorem Eng.wr_mtx (e : Eng) (f : Fld) (v : Nat) : (e.wr f v).mtx = e.mtx := (rfl)
@[simp] theorem Eng.wr_mrx (e : Eng) (f : Fld) (v : Nat) : (e.wr f v).mrx = e.mrx := (rfl)
@[simp] theorem Eng.wr_mreq (e : Eng) (f : Fld) (v : Nat) : (e.wr f v).mreq = e.mreq := (rfl)
@[simp] theorem Eng.wr_mcopy (e : Eng) (f : Fld) (v : Nat) : (e.wr f v).mcopy = e.mcopy := (rfl)
@[simp] theorem Eng.wr_tier (e : Eng) (f : Fld) (v : Nat) : (e.wr f v).tier = e.tier := (rfl)
@[simp] theorem Eng.wr_tierNo (e : Eng) (f : Fld) (v : Nat) : (e.wr f v).tierNo = e.tierNo := (rfl)
@[simp] theorem Eng.wr_xfers (e : Eng) (f : Fld) (v : Nat) : (e.wr f v).xfers = e.xfers := (rfl)
@[simp] theorem Eng.wr_xferNo (e : Eng) (f : Fld) (v : Nat) : (e.wr f v).xferNo = e.xferNo := (rfl)
@[simp] theorem Eng.wr_taps (e : Eng) (f : Fld) (v : Nat) : (e.wr f v).taps = e.taps := (rfl)
@[simp] theorem Eng.wr_sec (e : Eng) (f : Fld) (v : Nat) : (e.wr f v).sec = e.sec := (rfl)
@[simp] theorem Eng.wr_loss (e : Eng) (f : Fld) (v : Nat) : (e.wr f v).loss = e.loss := (rfl)
@[simp] theorem Eng.wr_thickDests (e : Eng) (f : Fld) (v : Nat) : (e.wr f v).thickDests = e.thickDests := (rfl)
@[simp] theorem Eng.wr_hosted (e : Eng) (f : Fld) (v : Nat) : (e.wr f v).hosted = e.hosted := (rfl)
@[simp] theorem Eng.wr_thickEnds (e : Eng) (f : Fld) (v : Nat) : (e.wr f v).thickEnds = e.thickEnds := (rfl)
@[simp] theorem Eng.wr_rowSets (e : Eng) (f : Fld) (v : Nat) : (e.wr f v).rowSets = e.rowSets := (rfl)
@[simp] theorem Eng.wr_gen0 (e : Eng) (f : Fld) (v : Nat) : (e.wr f v).gen0 = e.gen0 := (rfl)
@[simp] theorem Eng.wr_digs (e : Eng) (f : Fld) (v : Nat) : (e.wr f v).digs = e.digs := (rfl)
@[simp] theorem Eng.wr_hwc (e : Eng) (f : Fld) (v : Nat) : (e.wr f v).hwc = e.hwc := (rfl)
@[simp] theorem Eng.wr_evac (e : Eng) (f : Fld) (v : Nat) : (e.wr f v).evac = e.evac := (rfl)
@[simp] theorem Eng.wr_unrep (e : Eng) (f : Fld) (v : Nat) : (e.wr f v).unrep = e.unrep := (rfl)
@[simp] theorem Eng.wr_miscorr (e : Eng) (f : Fld) (v : Nat) : (e.wr f v).miscorr = e.miscorr := (rfl)
@[simp] theorem Eng.wr_prods (e : Eng) (f : Fld) (v : Nat) : (e.wr f v).prods = e.prods := (rfl)
@[simp] theorem Eng.wr_inputs (e : Eng) (f : Fld) (v : Nat) : (e.wr f v).inputs = e.inputs := (rfl)
@[simp] theorem Eng.wr_recons (e : Eng) (f : Fld) (v : Nat) : (e.wr f v).recons = e.recons := (rfl)
@[simp] theorem Eng.wr_reconNo (e : Eng) (f : Fld) (v : Nat) : (e.wr f v).reconNo = e.reconNo := (rfl)
@[simp] theorem Eng.wr_chains (e : Eng) (f : Fld) (v : Nat) : (e.wr f v).chains = e.chains := (rfl)
@[simp] theorem Eng.wr_acc (e : Eng) (f : Fld) (v : Nat) : (e.wr f v).acc = e.acc := (rfl)
@[simp] theorem Eng.wr_snaps (e : Eng) (f : Fld) (v : Nat) : (e.wr f v).snaps = e.snaps := (rfl)
@[simp] theorem Eng.wr_builds (e : Eng) (f : Fld) (v : Nat) : (e.wr f v).builds = e.builds := (rfl)
@[simp] theorem Eng.wr_drLoads (e : Eng) (f : Fld) (v : Nat) : (e.wr f v).drLoads = e.drLoads := (rfl)
@[simp] theorem Eng.wr_drStore (e : Eng) (f : Fld) (v : Nat) : (e.wr f v).drStore = e.drStore := (rfl)
@[simp] theorem Eng.wr_refs (e : Eng) (f : Fld) (v : Nat) : (e.wr f v).refs = e.refs := (rfl)
@[simp] theorem Eng.wr_scrubs (e : Eng) (f : Fld) (v : Nat) : (e.wr f v).scrubs = e.scrubs := (rfl)
@[simp] theorem Eng.wr_graft (e : Eng) (f : Fld) (v : Nat) : (e.wr f v).graft = e.graft := (rfl)
@[simp] theorem Eng.wr_heats (e : Eng) (f : Fld) (v : Nat) : (e.wr f v).heats = e.heats := (rfl)
@[simp] theorem Eng.wr_heldJoins (e : Eng) (f : Fld) (v : Nat) : (e.wr f v).heldJoins = e.heldJoins := (rfl)
@[simp] theorem Eng.wr_held (e : Eng) (f : Fld) (v : Nat) : (e.wr f v).held = e.held := (rfl)
@[simp] theorem Eng.wr_oldLost (e : Eng) (f : Fld) (v : Nat) : (e.wr f v).oldLost = e.oldLost := (rfl)
@[simp] theorem Eng.wr_advised (e : Eng) (f : Fld) (v : Nat) : (e.wr f v).advised = e.advised := (rfl)
@[simp] theorem Eng.wr_upd (e : Eng) (f : Fld) (v : Nat) : (e.wr f v).upd = e.upd := (rfl)
@[simp] theorem Eng.wr_keep (e : Eng) (f : Fld) (v : Nat) : (e.wr f v).keep = e.keep := (rfl)
@[simp] theorem Eng.wr_selfQ (e : Eng) (f : Fld) (v : Nat) : (e.wr f v).selfQ = e.selfQ := (rfl)
@[simp] theorem Eng.wr_draining (e : Eng) (f : Fld) (v : Nat) : (e.wr f v).draining = e.draining := (rfl)
@[simp] theorem Eng.wr_cuts (e : Eng) (f : Fld) (v : Nat) : (e.wr f v).cuts = e.cuts := (rfl)
@[simp] theorem Eng.wr_late (e : Eng) (f : Fld) (v : Nat) : (e.wr f v).late = e.late := (rfl)
@[simp] theorem Eng.wr_health (e : Eng) (f : Fld) (v : Nat) : (e.wr f v).health = e.health := (rfl)
@[simp] theorem Eng.wr_edge (e : Eng) (f : Fld) (v : Nat) : (e.wr f v).edge = e.edge := (rfl)

/-! ### `Eng.flag` -/

@[simp] theorem Eng.flag_out (e : Eng) (f : Fld) (b : Bool) : (e.flag f b).out = e.out := (rfl)
@[simp] theorem Eng.flag_free (e : Eng) (f : Fld) (b : Bool) : (e.flag f b).free = e.free := (rfl)
@[simp] theorem Eng.flag_mem (e : Eng) (f : Fld) (b : Bool) : (e.flag f b).mem = e.mem := (rfl)
@[simp] theorem Eng.flag_ctxs (e : Eng) (f : Fld) (b : Bool) : (e.flag f b).ctxs = e.ctxs := (rfl)
@[simp] theorem Eng.flag_descs (e : Eng) (f : Fld) (b : Bool) : (e.flag f b).descs = e.descs := (rfl)
@[simp] theorem Eng.flag_progs (e : Eng) (f : Fld) (b : Bool) : (e.flag f b).progs = e.progs := (rfl)
@[simp] theorem Eng.flag_syncs (e : Eng) (f : Fld) (b : Bool) : (e.flag f b).syncs = e.syncs := (rfl)
@[simp] theorem Eng.flag_pins (e : Eng) (f : Fld) (b : Bool) : (e.flag f b).pins = e.pins := (rfl)
@[simp] theorem Eng.flag_fuses (e : Eng) (f : Fld) (b : Bool) : (e.flag f b).fuses = e.fuses := (rfl)
@[simp] theorem Eng.flag_boot (e : Eng) (f : Fld) (b : Bool) : (e.flag f b).boot = e.boot := (rfl)
@[simp] theorem Eng.flag_time (e : Eng) (f : Fld) (b : Bool) : (e.flag f b).time = e.time := (rfl)
@[simp] theorem Eng.flag_intr (e : Eng) (f : Fld) (b : Bool) : (e.flag f b).intr = e.intr := (rfl)
@[simp] theorem Eng.flag_q (e : Eng) (f : Fld) (b : Bool) : (e.flag f b).q = e.q := (rfl)
@[simp] theorem Eng.flag_rc (e : Eng) (f : Fld) (b : Bool) : (e.flag f b).rc = e.rc := (rfl)
@[simp] theorem Eng.flag_map (e : Eng) (f : Fld) (b : Bool) : (e.flag f b).map = e.map := (rfl)
@[simp] theorem Eng.flag_mgmt (e : Eng) (f : Fld) (b : Bool) : (e.flag f b).mgmt = e.mgmt := (rfl)
@[simp] theorem Eng.flag_sess (e : Eng) (f : Fld) (b : Bool) : (e.flag f b).sess = e.sess := (rfl)
@[simp] theorem Eng.flag_ports (e : Eng) (f : Fld) (b : Bool) : (e.flag f b).ports = e.ports := (rfl)
@[simp] theorem Eng.flag_linksDown (e : Eng) (f : Fld) (b : Bool) : (e.flag f b).linksDown = e.linksDown := (rfl)
@[simp] theorem Eng.flag_rgns (e : Eng) (f : Fld) (b : Bool) : (e.flag f b).rgns = e.rgns := (rfl)
@[simp] theorem Eng.flag_caps (e : Eng) (f : Fld) (b : Bool) : (e.flag f b).caps = e.caps := (rfl)
@[simp] theorem Eng.flag_sent (e : Eng) (f : Fld) (b : Bool) : (e.flag f b).sent = e.sent := (rfl)
@[simp] theorem Eng.flag_relSent (e : Eng) (f : Fld) (b : Bool) : (e.flag f b).relSent = e.relSent := (rfl)
@[simp] theorem Eng.flag_busy (e : Eng) (f : Fld) (b : Bool) : (e.flag f b).busy = e.busy := (rfl)
@[simp] theorem Eng.flag_dataAt (e : Eng) (f : Fld) (b : Bool) : (e.flag f b).dataAt = e.dataAt := (rfl)
@[simp] theorem Eng.flag_applied (e : Eng) (f : Fld) (b : Bool) : (e.flag f b).applied = e.applied := (rfl)
@[simp] theorem Eng.flag_window (e : Eng) (f : Fld) (b : Bool) : (e.flag f b).window = e.window := (rfl)
@[simp] theorem Eng.flag_waits (e : Eng) (f : Fld) (b : Bool) : (e.flag f b).waits = e.waits := (rfl)
@[simp] theorem Eng.flag_advs (e : Eng) (f : Fld) (b : Bool) : (e.flag f b).advs = e.advs := (rfl)
@[simp] theorem Eng.flag_rings (e : Eng) (f : Fld) (b : Bool) : (e.flag f b).rings = e.rings := (rfl)
@[simp] theorem Eng.flag_agrees (e : Eng) (f : Fld) (b : Bool) : (e.flag f b).agrees = e.agrees := (rfl)
@[simp] theorem Eng.flag_early (e : Eng) (f : Fld) (b : Bool) : (e.flag f b).early = e.early := (rfl)
@[simp] theorem Eng.flag_log (e : Eng) (f : Fld) (b : Bool) : (e.flag f b).log = e.log := (rfl)
@[simp] theorem Eng.flag_mtx (e : Eng) (f : Fld) (b : Bool) : (e.flag f b).mtx = e.mtx := (rfl)
@[simp] theorem Eng.flag_mrx (e : Eng) (f : Fld) (b : Bool) : (e.flag f b).mrx = e.mrx := (rfl)
@[simp] theorem Eng.flag_mreq (e : Eng) (f : Fld) (b : Bool) : (e.flag f b).mreq = e.mreq := (rfl)
@[simp] theorem Eng.flag_mcopy (e : Eng) (f : Fld) (b : Bool) : (e.flag f b).mcopy = e.mcopy := (rfl)
@[simp] theorem Eng.flag_tier (e : Eng) (f : Fld) (b : Bool) : (e.flag f b).tier = e.tier := (rfl)
@[simp] theorem Eng.flag_tierNo (e : Eng) (f : Fld) (b : Bool) : (e.flag f b).tierNo = e.tierNo := (rfl)
@[simp] theorem Eng.flag_xfers (e : Eng) (f : Fld) (b : Bool) : (e.flag f b).xfers = e.xfers := (rfl)
@[simp] theorem Eng.flag_xferNo (e : Eng) (f : Fld) (b : Bool) : (e.flag f b).xferNo = e.xferNo := (rfl)
@[simp] theorem Eng.flag_taps (e : Eng) (f : Fld) (b : Bool) : (e.flag f b).taps = e.taps := (rfl)
@[simp] theorem Eng.flag_sec (e : Eng) (f : Fld) (b : Bool) : (e.flag f b).sec = e.sec := (rfl)
@[simp] theorem Eng.flag_loss (e : Eng) (f : Fld) (b : Bool) : (e.flag f b).loss = e.loss := (rfl)
@[simp] theorem Eng.flag_thickDests (e : Eng) (f : Fld) (b : Bool) : (e.flag f b).thickDests = e.thickDests := (rfl)
@[simp] theorem Eng.flag_hosted (e : Eng) (f : Fld) (b : Bool) : (e.flag f b).hosted = e.hosted := (rfl)
@[simp] theorem Eng.flag_thickEnds (e : Eng) (f : Fld) (b : Bool) : (e.flag f b).thickEnds = e.thickEnds := (rfl)
@[simp] theorem Eng.flag_rowSets (e : Eng) (f : Fld) (b : Bool) : (e.flag f b).rowSets = e.rowSets := (rfl)
@[simp] theorem Eng.flag_gen0 (e : Eng) (f : Fld) (b : Bool) : (e.flag f b).gen0 = e.gen0 := (rfl)
@[simp] theorem Eng.flag_digs (e : Eng) (f : Fld) (b : Bool) : (e.flag f b).digs = e.digs := (rfl)
@[simp] theorem Eng.flag_hwc (e : Eng) (f : Fld) (b : Bool) : (e.flag f b).hwc = e.hwc := (rfl)
@[simp] theorem Eng.flag_evac (e : Eng) (f : Fld) (b : Bool) : (e.flag f b).evac = e.evac := (rfl)
@[simp] theorem Eng.flag_unrep (e : Eng) (f : Fld) (b : Bool) : (e.flag f b).unrep = e.unrep := (rfl)
@[simp] theorem Eng.flag_miscorr (e : Eng) (f : Fld) (b : Bool) : (e.flag f b).miscorr = e.miscorr := (rfl)
@[simp] theorem Eng.flag_prods (e : Eng) (f : Fld) (b : Bool) : (e.flag f b).prods = e.prods := (rfl)
@[simp] theorem Eng.flag_inputs (e : Eng) (f : Fld) (b : Bool) : (e.flag f b).inputs = e.inputs := (rfl)
@[simp] theorem Eng.flag_recons (e : Eng) (f : Fld) (b : Bool) : (e.flag f b).recons = e.recons := (rfl)
@[simp] theorem Eng.flag_reconNo (e : Eng) (f : Fld) (b : Bool) : (e.flag f b).reconNo = e.reconNo := (rfl)
@[simp] theorem Eng.flag_chains (e : Eng) (f : Fld) (b : Bool) : (e.flag f b).chains = e.chains := (rfl)
@[simp] theorem Eng.flag_acc (e : Eng) (f : Fld) (b : Bool) : (e.flag f b).acc = e.acc := (rfl)
@[simp] theorem Eng.flag_snaps (e : Eng) (f : Fld) (b : Bool) : (e.flag f b).snaps = e.snaps := (rfl)
@[simp] theorem Eng.flag_builds (e : Eng) (f : Fld) (b : Bool) : (e.flag f b).builds = e.builds := (rfl)
@[simp] theorem Eng.flag_drLoads (e : Eng) (f : Fld) (b : Bool) : (e.flag f b).drLoads = e.drLoads := (rfl)
@[simp] theorem Eng.flag_drStore (e : Eng) (f : Fld) (b : Bool) : (e.flag f b).drStore = e.drStore := (rfl)
@[simp] theorem Eng.flag_refs (e : Eng) (f : Fld) (b : Bool) : (e.flag f b).refs = e.refs := (rfl)
@[simp] theorem Eng.flag_scrubs (e : Eng) (f : Fld) (b : Bool) : (e.flag f b).scrubs = e.scrubs := (rfl)
@[simp] theorem Eng.flag_graft (e : Eng) (f : Fld) (b : Bool) : (e.flag f b).graft = e.graft := (rfl)
@[simp] theorem Eng.flag_heats (e : Eng) (f : Fld) (b : Bool) : (e.flag f b).heats = e.heats := (rfl)
@[simp] theorem Eng.flag_heldJoins (e : Eng) (f : Fld) (b : Bool) : (e.flag f b).heldJoins = e.heldJoins := (rfl)
@[simp] theorem Eng.flag_held (e : Eng) (f : Fld) (b : Bool) : (e.flag f b).held = e.held := (rfl)
@[simp] theorem Eng.flag_oldLost (e : Eng) (f : Fld) (b : Bool) : (e.flag f b).oldLost = e.oldLost := (rfl)
@[simp] theorem Eng.flag_advised (e : Eng) (f : Fld) (b : Bool) : (e.flag f b).advised = e.advised := (rfl)
@[simp] theorem Eng.flag_upd (e : Eng) (f : Fld) (b : Bool) : (e.flag f b).upd = e.upd := (rfl)
@[simp] theorem Eng.flag_keep (e : Eng) (f : Fld) (b : Bool) : (e.flag f b).keep = e.keep := (rfl)
@[simp] theorem Eng.flag_selfQ (e : Eng) (f : Fld) (b : Bool) : (e.flag f b).selfQ = e.selfQ := (rfl)
@[simp] theorem Eng.flag_draining (e : Eng) (f : Fld) (b : Bool) : (e.flag f b).draining = e.draining := (rfl)
@[simp] theorem Eng.flag_cuts (e : Eng) (f : Fld) (b : Bool) : (e.flag f b).cuts = e.cuts := (rfl)
@[simp] theorem Eng.flag_late (e : Eng) (f : Fld) (b : Bool) : (e.flag f b).late = e.late := (rfl)
@[simp] theorem Eng.flag_health (e : Eng) (f : Fld) (b : Bool) : (e.flag f b).health = e.health := (rfl)
@[simp] theorem Eng.flag_edge (e : Eng) (f : Fld) (b : Bool) : (e.flag f b).edge = e.edge := (rfl)

/-! ### `Eng.bumpBy` -/

@[simp] theorem Eng.bumpBy_out (e : Eng) (f : Fld) (n : Nat) : (e.bumpBy f n).out = e.out := (rfl)
@[simp] theorem Eng.bumpBy_free (e : Eng) (f : Fld) (n : Nat) : (e.bumpBy f n).free = e.free := (rfl)
@[simp] theorem Eng.bumpBy_mem (e : Eng) (f : Fld) (n : Nat) : (e.bumpBy f n).mem = e.mem := (rfl)
@[simp] theorem Eng.bumpBy_ctxs (e : Eng) (f : Fld) (n : Nat) : (e.bumpBy f n).ctxs = e.ctxs := (rfl)
@[simp] theorem Eng.bumpBy_descs (e : Eng) (f : Fld) (n : Nat) : (e.bumpBy f n).descs = e.descs := (rfl)
@[simp] theorem Eng.bumpBy_progs (e : Eng) (f : Fld) (n : Nat) : (e.bumpBy f n).progs = e.progs := (rfl)
@[simp] theorem Eng.bumpBy_syncs (e : Eng) (f : Fld) (n : Nat) : (e.bumpBy f n).syncs = e.syncs := (rfl)
@[simp] theorem Eng.bumpBy_pins (e : Eng) (f : Fld) (n : Nat) : (e.bumpBy f n).pins = e.pins := (rfl)
@[simp] theorem Eng.bumpBy_fuses (e : Eng) (f : Fld) (n : Nat) : (e.bumpBy f n).fuses = e.fuses := (rfl)
@[simp] theorem Eng.bumpBy_boot (e : Eng) (f : Fld) (n : Nat) : (e.bumpBy f n).boot = e.boot := (rfl)
@[simp] theorem Eng.bumpBy_time (e : Eng) (f : Fld) (n : Nat) : (e.bumpBy f n).time = e.time := (rfl)
@[simp] theorem Eng.bumpBy_intr (e : Eng) (f : Fld) (n : Nat) : (e.bumpBy f n).intr = e.intr := (rfl)
@[simp] theorem Eng.bumpBy_q (e : Eng) (f : Fld) (n : Nat) : (e.bumpBy f n).q = e.q := (rfl)
@[simp] theorem Eng.bumpBy_rc (e : Eng) (f : Fld) (n : Nat) : (e.bumpBy f n).rc = e.rc := (rfl)
@[simp] theorem Eng.bumpBy_map (e : Eng) (f : Fld) (n : Nat) : (e.bumpBy f n).map = e.map := (rfl)
@[simp] theorem Eng.bumpBy_mgmt (e : Eng) (f : Fld) (n : Nat) : (e.bumpBy f n).mgmt = e.mgmt := (rfl)
@[simp] theorem Eng.bumpBy_sess (e : Eng) (f : Fld) (n : Nat) : (e.bumpBy f n).sess = e.sess := (rfl)
@[simp] theorem Eng.bumpBy_ports (e : Eng) (f : Fld) (n : Nat) : (e.bumpBy f n).ports = e.ports := (rfl)
@[simp] theorem Eng.bumpBy_linksDown (e : Eng) (f : Fld) (n : Nat) : (e.bumpBy f n).linksDown = e.linksDown := (rfl)
@[simp] theorem Eng.bumpBy_rgns (e : Eng) (f : Fld) (n : Nat) : (e.bumpBy f n).rgns = e.rgns := (rfl)
@[simp] theorem Eng.bumpBy_caps (e : Eng) (f : Fld) (n : Nat) : (e.bumpBy f n).caps = e.caps := (rfl)
@[simp] theorem Eng.bumpBy_sent (e : Eng) (f : Fld) (n : Nat) : (e.bumpBy f n).sent = e.sent := (rfl)
@[simp] theorem Eng.bumpBy_relSent (e : Eng) (f : Fld) (n : Nat) : (e.bumpBy f n).relSent = e.relSent := (rfl)
@[simp] theorem Eng.bumpBy_busy (e : Eng) (f : Fld) (n : Nat) : (e.bumpBy f n).busy = e.busy := (rfl)
@[simp] theorem Eng.bumpBy_dataAt (e : Eng) (f : Fld) (n : Nat) : (e.bumpBy f n).dataAt = e.dataAt := (rfl)
@[simp] theorem Eng.bumpBy_applied (e : Eng) (f : Fld) (n : Nat) : (e.bumpBy f n).applied = e.applied := (rfl)
@[simp] theorem Eng.bumpBy_window (e : Eng) (f : Fld) (n : Nat) : (e.bumpBy f n).window = e.window := (rfl)
@[simp] theorem Eng.bumpBy_waits (e : Eng) (f : Fld) (n : Nat) : (e.bumpBy f n).waits = e.waits := (rfl)
@[simp] theorem Eng.bumpBy_advs (e : Eng) (f : Fld) (n : Nat) : (e.bumpBy f n).advs = e.advs := (rfl)
@[simp] theorem Eng.bumpBy_rings (e : Eng) (f : Fld) (n : Nat) : (e.bumpBy f n).rings = e.rings := (rfl)
@[simp] theorem Eng.bumpBy_agrees (e : Eng) (f : Fld) (n : Nat) : (e.bumpBy f n).agrees = e.agrees := (rfl)
@[simp] theorem Eng.bumpBy_early (e : Eng) (f : Fld) (n : Nat) : (e.bumpBy f n).early = e.early := (rfl)
@[simp] theorem Eng.bumpBy_log (e : Eng) (f : Fld) (n : Nat) : (e.bumpBy f n).log = e.log := (rfl)
@[simp] theorem Eng.bumpBy_mtx (e : Eng) (f : Fld) (n : Nat) : (e.bumpBy f n).mtx = e.mtx := (rfl)
@[simp] theorem Eng.bumpBy_mrx (e : Eng) (f : Fld) (n : Nat) : (e.bumpBy f n).mrx = e.mrx := (rfl)
@[simp] theorem Eng.bumpBy_mreq (e : Eng) (f : Fld) (n : Nat) : (e.bumpBy f n).mreq = e.mreq := (rfl)
@[simp] theorem Eng.bumpBy_mcopy (e : Eng) (f : Fld) (n : Nat) : (e.bumpBy f n).mcopy = e.mcopy := (rfl)
@[simp] theorem Eng.bumpBy_tier (e : Eng) (f : Fld) (n : Nat) : (e.bumpBy f n).tier = e.tier := (rfl)
@[simp] theorem Eng.bumpBy_tierNo (e : Eng) (f : Fld) (n : Nat) : (e.bumpBy f n).tierNo = e.tierNo := (rfl)
@[simp] theorem Eng.bumpBy_xfers (e : Eng) (f : Fld) (n : Nat) : (e.bumpBy f n).xfers = e.xfers := (rfl)
@[simp] theorem Eng.bumpBy_xferNo (e : Eng) (f : Fld) (n : Nat) : (e.bumpBy f n).xferNo = e.xferNo := (rfl)
@[simp] theorem Eng.bumpBy_taps (e : Eng) (f : Fld) (n : Nat) : (e.bumpBy f n).taps = e.taps := (rfl)
@[simp] theorem Eng.bumpBy_sec (e : Eng) (f : Fld) (n : Nat) : (e.bumpBy f n).sec = e.sec := (rfl)
@[simp] theorem Eng.bumpBy_loss (e : Eng) (f : Fld) (n : Nat) : (e.bumpBy f n).loss = e.loss := (rfl)
@[simp] theorem Eng.bumpBy_thickDests (e : Eng) (f : Fld) (n : Nat) : (e.bumpBy f n).thickDests = e.thickDests := (rfl)
@[simp] theorem Eng.bumpBy_hosted (e : Eng) (f : Fld) (n : Nat) : (e.bumpBy f n).hosted = e.hosted := (rfl)
@[simp] theorem Eng.bumpBy_thickEnds (e : Eng) (f : Fld) (n : Nat) : (e.bumpBy f n).thickEnds = e.thickEnds := (rfl)
@[simp] theorem Eng.bumpBy_rowSets (e : Eng) (f : Fld) (n : Nat) : (e.bumpBy f n).rowSets = e.rowSets := (rfl)
@[simp] theorem Eng.bumpBy_gen0 (e : Eng) (f : Fld) (n : Nat) : (e.bumpBy f n).gen0 = e.gen0 := (rfl)
@[simp] theorem Eng.bumpBy_digs (e : Eng) (f : Fld) (n : Nat) : (e.bumpBy f n).digs = e.digs := (rfl)
@[simp] theorem Eng.bumpBy_hwc (e : Eng) (f : Fld) (n : Nat) : (e.bumpBy f n).hwc = e.hwc := (rfl)
@[simp] theorem Eng.bumpBy_evac (e : Eng) (f : Fld) (n : Nat) : (e.bumpBy f n).evac = e.evac := (rfl)
@[simp] theorem Eng.bumpBy_unrep (e : Eng) (f : Fld) (n : Nat) : (e.bumpBy f n).unrep = e.unrep := (rfl)
@[simp] theorem Eng.bumpBy_miscorr (e : Eng) (f : Fld) (n : Nat) : (e.bumpBy f n).miscorr = e.miscorr := (rfl)
@[simp] theorem Eng.bumpBy_prods (e : Eng) (f : Fld) (n : Nat) : (e.bumpBy f n).prods = e.prods := (rfl)
@[simp] theorem Eng.bumpBy_inputs (e : Eng) (f : Fld) (n : Nat) : (e.bumpBy f n).inputs = e.inputs := (rfl)
@[simp] theorem Eng.bumpBy_recons (e : Eng) (f : Fld) (n : Nat) : (e.bumpBy f n).recons = e.recons := (rfl)
@[simp] theorem Eng.bumpBy_reconNo (e : Eng) (f : Fld) (n : Nat) : (e.bumpBy f n).reconNo = e.reconNo := (rfl)
@[simp] theorem Eng.bumpBy_chains (e : Eng) (f : Fld) (n : Nat) : (e.bumpBy f n).chains = e.chains := (rfl)
@[simp] theorem Eng.bumpBy_acc (e : Eng) (f : Fld) (n : Nat) : (e.bumpBy f n).acc = e.acc := (rfl)
@[simp] theorem Eng.bumpBy_snaps (e : Eng) (f : Fld) (n : Nat) : (e.bumpBy f n).snaps = e.snaps := (rfl)
@[simp] theorem Eng.bumpBy_builds (e : Eng) (f : Fld) (n : Nat) : (e.bumpBy f n).builds = e.builds := (rfl)
@[simp] theorem Eng.bumpBy_drLoads (e : Eng) (f : Fld) (n : Nat) : (e.bumpBy f n).drLoads = e.drLoads := (rfl)
@[simp] theorem Eng.bumpBy_drStore (e : Eng) (f : Fld) (n : Nat) : (e.bumpBy f n).drStore = e.drStore := (rfl)
@[simp] theorem Eng.bumpBy_refs (e : Eng) (f : Fld) (n : Nat) : (e.bumpBy f n).refs = e.refs := (rfl)
@[simp] theorem Eng.bumpBy_scrubs (e : Eng) (f : Fld) (n : Nat) : (e.bumpBy f n).scrubs = e.scrubs := (rfl)
@[simp] theorem Eng.bumpBy_graft (e : Eng) (f : Fld) (n : Nat) : (e.bumpBy f n).graft = e.graft := (rfl)
@[simp] theorem Eng.bumpBy_heats (e : Eng) (f : Fld) (n : Nat) : (e.bumpBy f n).heats = e.heats := (rfl)
@[simp] theorem Eng.bumpBy_heldJoins (e : Eng) (f : Fld) (n : Nat) : (e.bumpBy f n).heldJoins = e.heldJoins := (rfl)
@[simp] theorem Eng.bumpBy_held (e : Eng) (f : Fld) (n : Nat) : (e.bumpBy f n).held = e.held := (rfl)
@[simp] theorem Eng.bumpBy_oldLost (e : Eng) (f : Fld) (n : Nat) : (e.bumpBy f n).oldLost = e.oldLost := (rfl)
@[simp] theorem Eng.bumpBy_advised (e : Eng) (f : Fld) (n : Nat) : (e.bumpBy f n).advised = e.advised := (rfl)
@[simp] theorem Eng.bumpBy_upd (e : Eng) (f : Fld) (n : Nat) : (e.bumpBy f n).upd = e.upd := (rfl)
@[simp] theorem Eng.bumpBy_keep (e : Eng) (f : Fld) (n : Nat) : (e.bumpBy f n).keep = e.keep := (rfl)
@[simp] theorem Eng.bumpBy_selfQ (e : Eng) (f : Fld) (n : Nat) : (e.bumpBy f n).selfQ = e.selfQ := (rfl)
@[simp] theorem Eng.bumpBy_draining (e : Eng) (f : Fld) (n : Nat) : (e.bumpBy f n).draining = e.draining := (rfl)
@[simp] theorem Eng.bumpBy_cuts (e : Eng) (f : Fld) (n : Nat) : (e.bumpBy f n).cuts = e.cuts := (rfl)
@[simp] theorem Eng.bumpBy_late (e : Eng) (f : Fld) (n : Nat) : (e.bumpBy f n).late = e.late := (rfl)
@[simp] theorem Eng.bumpBy_health (e : Eng) (f : Fld) (n : Nat) : (e.bumpBy f n).health = e.health := (rfl)
@[simp] theorem Eng.bumpBy_edge (e : Eng) (f : Fld) (n : Nat) : (e.bumpBy f n).edge = e.edge := (rfl)

/-! ### `Eng.bump` -/

@[simp] theorem Eng.bump_out (e : Eng) (f : Fld) : (e.bump f).out = e.out := (rfl)
@[simp] theorem Eng.bump_free (e : Eng) (f : Fld) : (e.bump f).free = e.free := (rfl)
@[simp] theorem Eng.bump_mem (e : Eng) (f : Fld) : (e.bump f).mem = e.mem := (rfl)
@[simp] theorem Eng.bump_ctxs (e : Eng) (f : Fld) : (e.bump f).ctxs = e.ctxs := (rfl)
@[simp] theorem Eng.bump_descs (e : Eng) (f : Fld) : (e.bump f).descs = e.descs := (rfl)
@[simp] theorem Eng.bump_progs (e : Eng) (f : Fld) : (e.bump f).progs = e.progs := (rfl)
@[simp] theorem Eng.bump_syncs (e : Eng) (f : Fld) : (e.bump f).syncs = e.syncs := (rfl)
@[simp] theorem Eng.bump_pins (e : Eng) (f : Fld) : (e.bump f).pins = e.pins := (rfl)
@[simp] theorem Eng.bump_fuses (e : Eng) (f : Fld) : (e.bump f).fuses = e.fuses := (rfl)
@[simp] theorem Eng.bump_boot (e : Eng) (f : Fld) : (e.bump f).boot = e.boot := (rfl)
@[simp] theorem Eng.bump_time (e : Eng) (f : Fld) : (e.bump f).time = e.time := (rfl)
@[simp] theorem Eng.bump_intr (e : Eng) (f : Fld) : (e.bump f).intr = e.intr := (rfl)
@[simp] theorem Eng.bump_q (e : Eng) (f : Fld) : (e.bump f).q = e.q := (rfl)
@[simp] theorem Eng.bump_rc (e : Eng) (f : Fld) : (e.bump f).rc = e.rc := (rfl)
@[simp] theorem Eng.bump_map (e : Eng) (f : Fld) : (e.bump f).map = e.map := (rfl)
@[simp] theorem Eng.bump_mgmt (e : Eng) (f : Fld) : (e.bump f).mgmt = e.mgmt := (rfl)
@[simp] theorem Eng.bump_sess (e : Eng) (f : Fld) : (e.bump f).sess = e.sess := (rfl)
@[simp] theorem Eng.bump_ports (e : Eng) (f : Fld) : (e.bump f).ports = e.ports := (rfl)
@[simp] theorem Eng.bump_linksDown (e : Eng) (f : Fld) : (e.bump f).linksDown = e.linksDown := (rfl)
@[simp] theorem Eng.bump_rgns (e : Eng) (f : Fld) : (e.bump f).rgns = e.rgns := (rfl)
@[simp] theorem Eng.bump_caps (e : Eng) (f : Fld) : (e.bump f).caps = e.caps := (rfl)
@[simp] theorem Eng.bump_sent (e : Eng) (f : Fld) : (e.bump f).sent = e.sent := (rfl)
@[simp] theorem Eng.bump_relSent (e : Eng) (f : Fld) : (e.bump f).relSent = e.relSent := (rfl)
@[simp] theorem Eng.bump_busy (e : Eng) (f : Fld) : (e.bump f).busy = e.busy := (rfl)
@[simp] theorem Eng.bump_dataAt (e : Eng) (f : Fld) : (e.bump f).dataAt = e.dataAt := (rfl)
@[simp] theorem Eng.bump_applied (e : Eng) (f : Fld) : (e.bump f).applied = e.applied := (rfl)
@[simp] theorem Eng.bump_window (e : Eng) (f : Fld) : (e.bump f).window = e.window := (rfl)
@[simp] theorem Eng.bump_waits (e : Eng) (f : Fld) : (e.bump f).waits = e.waits := (rfl)
@[simp] theorem Eng.bump_advs (e : Eng) (f : Fld) : (e.bump f).advs = e.advs := (rfl)
@[simp] theorem Eng.bump_rings (e : Eng) (f : Fld) : (e.bump f).rings = e.rings := (rfl)
@[simp] theorem Eng.bump_agrees (e : Eng) (f : Fld) : (e.bump f).agrees = e.agrees := (rfl)
@[simp] theorem Eng.bump_early (e : Eng) (f : Fld) : (e.bump f).early = e.early := (rfl)
@[simp] theorem Eng.bump_log (e : Eng) (f : Fld) : (e.bump f).log = e.log := (rfl)
@[simp] theorem Eng.bump_mtx (e : Eng) (f : Fld) : (e.bump f).mtx = e.mtx := (rfl)
@[simp] theorem Eng.bump_mrx (e : Eng) (f : Fld) : (e.bump f).mrx = e.mrx := (rfl)
@[simp] theorem Eng.bump_mreq (e : Eng) (f : Fld) : (e.bump f).mreq = e.mreq := (rfl)
@[simp] theorem Eng.bump_mcopy (e : Eng) (f : Fld) : (e.bump f).mcopy = e.mcopy := (rfl)
@[simp] theorem Eng.bump_tier (e : Eng) (f : Fld) : (e.bump f).tier = e.tier := (rfl)
@[simp] theorem Eng.bump_tierNo (e : Eng) (f : Fld) : (e.bump f).tierNo = e.tierNo := (rfl)
@[simp] theorem Eng.bump_xfers (e : Eng) (f : Fld) : (e.bump f).xfers = e.xfers := (rfl)
@[simp] theorem Eng.bump_xferNo (e : Eng) (f : Fld) : (e.bump f).xferNo = e.xferNo := (rfl)
@[simp] theorem Eng.bump_taps (e : Eng) (f : Fld) : (e.bump f).taps = e.taps := (rfl)
@[simp] theorem Eng.bump_sec (e : Eng) (f : Fld) : (e.bump f).sec = e.sec := (rfl)
@[simp] theorem Eng.bump_loss (e : Eng) (f : Fld) : (e.bump f).loss = e.loss := (rfl)
@[simp] theorem Eng.bump_thickDests (e : Eng) (f : Fld) : (e.bump f).thickDests = e.thickDests := (rfl)
@[simp] theorem Eng.bump_hosted (e : Eng) (f : Fld) : (e.bump f).hosted = e.hosted := (rfl)
@[simp] theorem Eng.bump_thickEnds (e : Eng) (f : Fld) : (e.bump f).thickEnds = e.thickEnds := (rfl)
@[simp] theorem Eng.bump_rowSets (e : Eng) (f : Fld) : (e.bump f).rowSets = e.rowSets := (rfl)
@[simp] theorem Eng.bump_gen0 (e : Eng) (f : Fld) : (e.bump f).gen0 = e.gen0 := (rfl)
@[simp] theorem Eng.bump_digs (e : Eng) (f : Fld) : (e.bump f).digs = e.digs := (rfl)
@[simp] theorem Eng.bump_hwc (e : Eng) (f : Fld) : (e.bump f).hwc = e.hwc := (rfl)
@[simp] theorem Eng.bump_evac (e : Eng) (f : Fld) : (e.bump f).evac = e.evac := (rfl)
@[simp] theorem Eng.bump_unrep (e : Eng) (f : Fld) : (e.bump f).unrep = e.unrep := (rfl)
@[simp] theorem Eng.bump_miscorr (e : Eng) (f : Fld) : (e.bump f).miscorr = e.miscorr := (rfl)
@[simp] theorem Eng.bump_prods (e : Eng) (f : Fld) : (e.bump f).prods = e.prods := (rfl)
@[simp] theorem Eng.bump_inputs (e : Eng) (f : Fld) : (e.bump f).inputs = e.inputs := (rfl)
@[simp] theorem Eng.bump_recons (e : Eng) (f : Fld) : (e.bump f).recons = e.recons := (rfl)
@[simp] theorem Eng.bump_reconNo (e : Eng) (f : Fld) : (e.bump f).reconNo = e.reconNo := (rfl)
@[simp] theorem Eng.bump_chains (e : Eng) (f : Fld) : (e.bump f).chains = e.chains := (rfl)
@[simp] theorem Eng.bump_acc (e : Eng) (f : Fld) : (e.bump f).acc = e.acc := (rfl)
@[simp] theorem Eng.bump_snaps (e : Eng) (f : Fld) : (e.bump f).snaps = e.snaps := (rfl)
@[simp] theorem Eng.bump_builds (e : Eng) (f : Fld) : (e.bump f).builds = e.builds := (rfl)
@[simp] theorem Eng.bump_drLoads (e : Eng) (f : Fld) : (e.bump f).drLoads = e.drLoads := (rfl)
@[simp] theorem Eng.bump_drStore (e : Eng) (f : Fld) : (e.bump f).drStore = e.drStore := (rfl)
@[simp] theorem Eng.bump_refs (e : Eng) (f : Fld) : (e.bump f).refs = e.refs := (rfl)
@[simp] theorem Eng.bump_scrubs (e : Eng) (f : Fld) : (e.bump f).scrubs = e.scrubs := (rfl)
@[simp] theorem Eng.bump_graft (e : Eng) (f : Fld) : (e.bump f).graft = e.graft := (rfl)
@[simp] theorem Eng.bump_heats (e : Eng) (f : Fld) : (e.bump f).heats = e.heats := (rfl)
@[simp] theorem Eng.bump_heldJoins (e : Eng) (f : Fld) : (e.bump f).heldJoins = e.heldJoins := (rfl)
@[simp] theorem Eng.bump_held (e : Eng) (f : Fld) : (e.bump f).held = e.held := (rfl)
@[simp] theorem Eng.bump_oldLost (e : Eng) (f : Fld) : (e.bump f).oldLost = e.oldLost := (rfl)
@[simp] theorem Eng.bump_advised (e : Eng) (f : Fld) : (e.bump f).advised = e.advised := (rfl)
@[simp] theorem Eng.bump_upd (e : Eng) (f : Fld) : (e.bump f).upd = e.upd := (rfl)
@[simp] theorem Eng.bump_keep (e : Eng) (f : Fld) : (e.bump f).keep = e.keep := (rfl)
@[simp] theorem Eng.bump_selfQ (e : Eng) (f : Fld) : (e.bump f).selfQ = e.selfQ := (rfl)
@[simp] theorem Eng.bump_draining (e : Eng) (f : Fld) : (e.bump f).draining = e.draining := (rfl)
@[simp] theorem Eng.bump_cuts (e : Eng) (f : Fld) : (e.bump f).cuts = e.cuts := (rfl)
@[simp] theorem Eng.bump_late (e : Eng) (f : Fld) : (e.bump f).late = e.late := (rfl)
@[simp] theorem Eng.bump_health (e : Eng) (f : Fld) : (e.bump f).health = e.health := (rfl)
@[simp] theorem Eng.bump_edge (e : Eng) (f : Fld) : (e.bump f).edge = e.edge := (rfl)

/-! ### `Eng.sw` -/

@[simp] theorem Eng.sw_out (e : Eng) (f : Fld) (v : Nat) : (e.sw f v).out = e.out := (rfl)
@[simp] theorem Eng.sw_free (e : Eng) (f : Fld) (v : Nat) : (e.sw f v).free = e.free := (rfl)
@[simp] theorem Eng.sw_mem (e : Eng) (f : Fld) (v : Nat) : (e.sw f v).mem = e.mem := (rfl)
@[simp] theorem Eng.sw_ctxs (e : Eng) (f : Fld) (v : Nat) : (e.sw f v).ctxs = e.ctxs := (rfl)
@[simp] theorem Eng.sw_descs (e : Eng) (f : Fld) (v : Nat) : (e.sw f v).descs = e.descs := (rfl)
@[simp] theorem Eng.sw_progs (e : Eng) (f : Fld) (v : Nat) : (e.sw f v).progs = e.progs := (rfl)
@[simp] theorem Eng.sw_syncs (e : Eng) (f : Fld) (v : Nat) : (e.sw f v).syncs = e.syncs := (rfl)
@[simp] theorem Eng.sw_pins (e : Eng) (f : Fld) (v : Nat) : (e.sw f v).pins = e.pins := (rfl)
@[simp] theorem Eng.sw_fuses (e : Eng) (f : Fld) (v : Nat) : (e.sw f v).fuses = e.fuses := (rfl)
@[simp] theorem Eng.sw_boot (e : Eng) (f : Fld) (v : Nat) : (e.sw f v).boot = e.boot := (rfl)
@[simp] theorem Eng.sw_time (e : Eng) (f : Fld) (v : Nat) : (e.sw f v).time = e.time := (rfl)
@[simp] theorem Eng.sw_intr (e : Eng) (f : Fld) (v : Nat) : (e.sw f v).intr = e.intr := (rfl)
@[simp] theorem Eng.sw_q (e : Eng) (f : Fld) (v : Nat) : (e.sw f v).q = e.q := (rfl)
@[simp] theorem Eng.sw_rc (e : Eng) (f : Fld) (v : Nat) : (e.sw f v).rc = e.rc := (rfl)
@[simp] theorem Eng.sw_map (e : Eng) (f : Fld) (v : Nat) : (e.sw f v).map = e.map := (rfl)
@[simp] theorem Eng.sw_mgmt (e : Eng) (f : Fld) (v : Nat) : (e.sw f v).mgmt = e.mgmt := (rfl)
@[simp] theorem Eng.sw_sess (e : Eng) (f : Fld) (v : Nat) : (e.sw f v).sess = e.sess := (rfl)
@[simp] theorem Eng.sw_ports (e : Eng) (f : Fld) (v : Nat) : (e.sw f v).ports = e.ports := (rfl)
@[simp] theorem Eng.sw_linksDown (e : Eng) (f : Fld) (v : Nat) : (e.sw f v).linksDown = e.linksDown := (rfl)
@[simp] theorem Eng.sw_rgns (e : Eng) (f : Fld) (v : Nat) : (e.sw f v).rgns = e.rgns := (rfl)
@[simp] theorem Eng.sw_caps (e : Eng) (f : Fld) (v : Nat) : (e.sw f v).caps = e.caps := (rfl)
@[simp] theorem Eng.sw_sent (e : Eng) (f : Fld) (v : Nat) : (e.sw f v).sent = e.sent := (rfl)
@[simp] theorem Eng.sw_relSent (e : Eng) (f : Fld) (v : Nat) : (e.sw f v).relSent = e.relSent := (rfl)
@[simp] theorem Eng.sw_busy (e : Eng) (f : Fld) (v : Nat) : (e.sw f v).busy = e.busy := (rfl)
@[simp] theorem Eng.sw_dataAt (e : Eng) (f : Fld) (v : Nat) : (e.sw f v).dataAt = e.dataAt := (rfl)
@[simp] theorem Eng.sw_applied (e : Eng) (f : Fld) (v : Nat) : (e.sw f v).applied = e.applied := (rfl)
@[simp] theorem Eng.sw_window (e : Eng) (f : Fld) (v : Nat) : (e.sw f v).window = e.window := (rfl)
@[simp] theorem Eng.sw_waits (e : Eng) (f : Fld) (v : Nat) : (e.sw f v).waits = e.waits := (rfl)
@[simp] theorem Eng.sw_advs (e : Eng) (f : Fld) (v : Nat) : (e.sw f v).advs = e.advs := (rfl)
@[simp] theorem Eng.sw_rings (e : Eng) (f : Fld) (v : Nat) : (e.sw f v).rings = e.rings := (rfl)
@[simp] theorem Eng.sw_agrees (e : Eng) (f : Fld) (v : Nat) : (e.sw f v).agrees = e.agrees := (rfl)
@[simp] theorem Eng.sw_early (e : Eng) (f : Fld) (v : Nat) : (e.sw f v).early = e.early := (rfl)
@[simp] theorem Eng.sw_log (e : Eng) (f : Fld) (v : Nat) : (e.sw f v).log = e.log := (rfl)
@[simp] theorem Eng.sw_mtx (e : Eng) (f : Fld) (v : Nat) : (e.sw f v).mtx = e.mtx := (rfl)
@[simp] theorem Eng.sw_mrx (e : Eng) (f : Fld) (v : Nat) : (e.sw f v).mrx = e.mrx := (rfl)
@[simp] theorem Eng.sw_mreq (e : Eng) (f : Fld) (v : Nat) : (e.sw f v).mreq = e.mreq := (rfl)
@[simp] theorem Eng.sw_mcopy (e : Eng) (f : Fld) (v : Nat) : (e.sw f v).mcopy = e.mcopy := (rfl)
@[simp] theorem Eng.sw_tier (e : Eng) (f : Fld) (v : Nat) : (e.sw f v).tier = e.tier := (rfl)
@[simp] theorem Eng.sw_tierNo (e : Eng) (f : Fld) (v : Nat) : (e.sw f v).tierNo = e.tierNo := (rfl)
@[simp] theorem Eng.sw_xfers (e : Eng) (f : Fld) (v : Nat) : (e.sw f v).xfers = e.xfers := (rfl)
@[simp] theorem Eng.sw_xferNo (e : Eng) (f : Fld) (v : Nat) : (e.sw f v).xferNo = e.xferNo := (rfl)
@[simp] theorem Eng.sw_taps (e : Eng) (f : Fld) (v : Nat) : (e.sw f v).taps = e.taps := (rfl)
@[simp] theorem Eng.sw_sec (e : Eng) (f : Fld) (v : Nat) : (e.sw f v).sec = e.sec := (rfl)
@[simp] theorem Eng.sw_loss (e : Eng) (f : Fld) (v : Nat) : (e.sw f v).loss = e.loss := (rfl)
@[simp] theorem Eng.sw_thickDests (e : Eng) (f : Fld) (v : Nat) : (e.sw f v).thickDests = e.thickDests := (rfl)
@[simp] theorem Eng.sw_hosted (e : Eng) (f : Fld) (v : Nat) : (e.sw f v).hosted = e.hosted := (rfl)
@[simp] theorem Eng.sw_thickEnds (e : Eng) (f : Fld) (v : Nat) : (e.sw f v).thickEnds = e.thickEnds := (rfl)
@[simp] theorem Eng.sw_rowSets (e : Eng) (f : Fld) (v : Nat) : (e.sw f v).rowSets = e.rowSets := (rfl)
@[simp] theorem Eng.sw_gen0 (e : Eng) (f : Fld) (v : Nat) : (e.sw f v).gen0 = e.gen0 := (rfl)
@[simp] theorem Eng.sw_digs (e : Eng) (f : Fld) (v : Nat) : (e.sw f v).digs = e.digs := (rfl)
@[simp] theorem Eng.sw_hwc (e : Eng) (f : Fld) (v : Nat) : (e.sw f v).hwc = e.hwc := (rfl)
@[simp] theorem Eng.sw_evac (e : Eng) (f : Fld) (v : Nat) : (e.sw f v).evac = e.evac := (rfl)
@[simp] theorem Eng.sw_unrep (e : Eng) (f : Fld) (v : Nat) : (e.sw f v).unrep = e.unrep := (rfl)
@[simp] theorem Eng.sw_miscorr (e : Eng) (f : Fld) (v : Nat) : (e.sw f v).miscorr = e.miscorr := (rfl)
@[simp] theorem Eng.sw_prods (e : Eng) (f : Fld) (v : Nat) : (e.sw f v).prods = e.prods := (rfl)
@[simp] theorem Eng.sw_inputs (e : Eng) (f : Fld) (v : Nat) : (e.sw f v).inputs = e.inputs := (rfl)
@[simp] theorem Eng.sw_recons (e : Eng) (f : Fld) (v : Nat) : (e.sw f v).recons = e.recons := (rfl)
@[simp] theorem Eng.sw_reconNo (e : Eng) (f : Fld) (v : Nat) : (e.sw f v).reconNo = e.reconNo := (rfl)
@[simp] theorem Eng.sw_chains (e : Eng) (f : Fld) (v : Nat) : (e.sw f v).chains = e.chains := (rfl)
@[simp] theorem Eng.sw_acc (e : Eng) (f : Fld) (v : Nat) : (e.sw f v).acc = e.acc := (rfl)
@[simp] theorem Eng.sw_snaps (e : Eng) (f : Fld) (v : Nat) : (e.sw f v).snaps = e.snaps := (rfl)
@[simp] theorem Eng.sw_builds (e : Eng) (f : Fld) (v : Nat) : (e.sw f v).builds = e.builds := (rfl)
@[simp] theorem Eng.sw_drLoads (e : Eng) (f : Fld) (v : Nat) : (e.sw f v).drLoads = e.drLoads := (rfl)
@[simp] theorem Eng.sw_drStore (e : Eng) (f : Fld) (v : Nat) : (e.sw f v).drStore = e.drStore := (rfl)
@[simp] theorem Eng.sw_refs (e : Eng) (f : Fld) (v : Nat) : (e.sw f v).refs = e.refs := (rfl)
@[simp] theorem Eng.sw_scrubs (e : Eng) (f : Fld) (v : Nat) : (e.sw f v).scrubs = e.scrubs := (rfl)
@[simp] theorem Eng.sw_graft (e : Eng) (f : Fld) (v : Nat) : (e.sw f v).graft = e.graft := (rfl)
@[simp] theorem Eng.sw_heats (e : Eng) (f : Fld) (v : Nat) : (e.sw f v).heats = e.heats := (rfl)
@[simp] theorem Eng.sw_heldJoins (e : Eng) (f : Fld) (v : Nat) : (e.sw f v).heldJoins = e.heldJoins := (rfl)
@[simp] theorem Eng.sw_held (e : Eng) (f : Fld) (v : Nat) : (e.sw f v).held = e.held := (rfl)
@[simp] theorem Eng.sw_oldLost (e : Eng) (f : Fld) (v : Nat) : (e.sw f v).oldLost = e.oldLost := (rfl)
@[simp] theorem Eng.sw_advised (e : Eng) (f : Fld) (v : Nat) : (e.sw f v).advised = e.advised := (rfl)
@[simp] theorem Eng.sw_upd (e : Eng) (f : Fld) (v : Nat) : (e.sw f v).upd = e.upd := (rfl)
@[simp] theorem Eng.sw_keep (e : Eng) (f : Fld) (v : Nat) : (e.sw f v).keep = e.keep := (rfl)
@[simp] theorem Eng.sw_selfQ (e : Eng) (f : Fld) (v : Nat) : (e.sw f v).selfQ = e.selfQ := (rfl)
@[simp] theorem Eng.sw_draining (e : Eng) (f : Fld) (v : Nat) : (e.sw f v).draining = e.draining := (rfl)
@[simp] theorem Eng.sw_cuts (e : Eng) (f : Fld) (v : Nat) : (e.sw f v).cuts = e.cuts := (rfl)
@[simp] theorem Eng.sw_late (e : Eng) (f : Fld) (v : Nat) : (e.sw f v).late = e.late := (rfl)
@[simp] theorem Eng.sw_health (e : Eng) (f : Fld) (v : Nat) : (e.sw f v).health = e.health := (rfl)
@[simp] theorem Eng.sw_edge (e : Eng) (f : Fld) (v : Nat) : (e.sw f v).edge = e.edge := (rfl)

/-! ### `Eng.startClocks` -/

@[simp] theorem Eng.startClocks_out (e : Eng) : (e.startClocks).out = e.out := (rfl)
@[simp] theorem Eng.startClocks_free (e : Eng) : (e.startClocks).free = e.free := (rfl)
@[simp] theorem Eng.startClocks_mem (e : Eng) : (e.startClocks).mem = e.mem := (rfl)
@[simp] theorem Eng.startClocks_ctxs (e : Eng) : (e.startClocks).ctxs = e.ctxs := (rfl)
@[simp] theorem Eng.startClocks_descs (e : Eng) : (e.startClocks).descs = e.descs := (rfl)
@[simp] theorem Eng.startClocks_progs (e : Eng) : (e.startClocks).progs = e.progs := (rfl)
@[simp] theorem Eng.startClocks_syncs (e : Eng) : (e.startClocks).syncs = e.syncs := (rfl)
@[simp] theorem Eng.startClocks_pins (e : Eng) : (e.startClocks).pins = e.pins := (rfl)
@[simp] theorem Eng.startClocks_fuses (e : Eng) : (e.startClocks).fuses = e.fuses := (rfl)
@[simp] theorem Eng.startClocks_boot (e : Eng) : (e.startClocks).boot = e.boot := (rfl)
@[simp] theorem Eng.startClocks_time (e : Eng) : (e.startClocks).time = e.time := (rfl)
@[simp] theorem Eng.startClocks_intr (e : Eng) : (e.startClocks).intr = e.intr := (rfl)
@[simp] theorem Eng.startClocks_q (e : Eng) : (e.startClocks).q = e.q := (rfl)
@[simp] theorem Eng.startClocks_rc (e : Eng) : (e.startClocks).rc = e.rc := (rfl)
@[simp] theorem Eng.startClocks_map (e : Eng) : (e.startClocks).map = e.map := (rfl)
@[simp] theorem Eng.startClocks_mgmt (e : Eng) : (e.startClocks).mgmt = e.mgmt := (rfl)
@[simp] theorem Eng.startClocks_sess (e : Eng) : (e.startClocks).sess = e.sess := (rfl)
@[simp] theorem Eng.startClocks_ports (e : Eng) : (e.startClocks).ports = e.ports := (rfl)
@[simp] theorem Eng.startClocks_linksDown (e : Eng) : (e.startClocks).linksDown = e.linksDown := (rfl)
@[simp] theorem Eng.startClocks_rgns (e : Eng) : (e.startClocks).rgns = e.rgns := (rfl)
@[simp] theorem Eng.startClocks_caps (e : Eng) : (e.startClocks).caps = e.caps := (rfl)
@[simp] theorem Eng.startClocks_sent (e : Eng) : (e.startClocks).sent = e.sent := (rfl)
@[simp] theorem Eng.startClocks_relSent (e : Eng) : (e.startClocks).relSent = e.relSent := (rfl)
@[simp] theorem Eng.startClocks_busy (e : Eng) : (e.startClocks).busy = e.busy := (rfl)
@[simp] theorem Eng.startClocks_dataAt (e : Eng) : (e.startClocks).dataAt = e.dataAt := (rfl)
@[simp] theorem Eng.startClocks_applied (e : Eng) : (e.startClocks).applied = e.applied := (rfl)
@[simp] theorem Eng.startClocks_window (e : Eng) : (e.startClocks).window = e.window := (rfl)
@[simp] theorem Eng.startClocks_waits (e : Eng) : (e.startClocks).waits = e.waits := (rfl)
@[simp] theorem Eng.startClocks_advs (e : Eng) : (e.startClocks).advs = e.advs := (rfl)
@[simp] theorem Eng.startClocks_rings (e : Eng) : (e.startClocks).rings = e.rings := (rfl)
@[simp] theorem Eng.startClocks_agrees (e : Eng) : (e.startClocks).agrees = e.agrees := (rfl)
@[simp] theorem Eng.startClocks_early (e : Eng) : (e.startClocks).early = e.early := (rfl)
@[simp] theorem Eng.startClocks_log (e : Eng) : (e.startClocks).log = e.log := (rfl)
@[simp] theorem Eng.startClocks_mtx (e : Eng) : (e.startClocks).mtx = e.mtx := (rfl)
@[simp] theorem Eng.startClocks_mrx (e : Eng) : (e.startClocks).mrx = e.mrx := (rfl)
@[simp] theorem Eng.startClocks_mreq (e : Eng) : (e.startClocks).mreq = e.mreq := (rfl)
@[simp] theorem Eng.startClocks_mcopy (e : Eng) : (e.startClocks).mcopy = e.mcopy := (rfl)
@[simp] theorem Eng.startClocks_tier (e : Eng) : (e.startClocks).tier = e.tier := (rfl)
@[simp] theorem Eng.startClocks_tierNo (e : Eng) : (e.startClocks).tierNo = e.tierNo := (rfl)
@[simp] theorem Eng.startClocks_xfers (e : Eng) : (e.startClocks).xfers = e.xfers := (rfl)
@[simp] theorem Eng.startClocks_xferNo (e : Eng) : (e.startClocks).xferNo = e.xferNo := (rfl)
@[simp] theorem Eng.startClocks_taps (e : Eng) : (e.startClocks).taps = e.taps := (rfl)
@[simp] theorem Eng.startClocks_sec (e : Eng) : (e.startClocks).sec = e.sec := (rfl)
@[simp] theorem Eng.startClocks_loss (e : Eng) : (e.startClocks).loss = e.loss := (rfl)
@[simp] theorem Eng.startClocks_thickDests (e : Eng) : (e.startClocks).thickDests = e.thickDests := (rfl)
@[simp] theorem Eng.startClocks_hosted (e : Eng) : (e.startClocks).hosted = e.hosted := (rfl)
@[simp] theorem Eng.startClocks_thickEnds (e : Eng) : (e.startClocks).thickEnds = e.thickEnds := (rfl)
@[simp] theorem Eng.startClocks_rowSets (e : Eng) : (e.startClocks).rowSets = e.rowSets := (rfl)
@[simp] theorem Eng.startClocks_gen0 (e : Eng) : (e.startClocks).gen0 = e.gen0 := (rfl)
@[simp] theorem Eng.startClocks_digs (e : Eng) : (e.startClocks).digs = e.digs := (rfl)
@[simp] theorem Eng.startClocks_hwc (e : Eng) : (e.startClocks).hwc = e.hwc := (rfl)
@[simp] theorem Eng.startClocks_evac (e : Eng) : (e.startClocks).evac = e.evac := (rfl)
@[simp] theorem Eng.startClocks_unrep (e : Eng) : (e.startClocks).unrep = e.unrep := (rfl)
@[simp] theorem Eng.startClocks_miscorr (e : Eng) : (e.startClocks).miscorr = e.miscorr := (rfl)
@[simp] theorem Eng.startClocks_prods (e : Eng) : (e.startClocks).prods = e.prods := (rfl)
@[simp] theorem Eng.startClocks_inputs (e : Eng) : (e.startClocks).inputs = e.inputs := (rfl)
@[simp] theorem Eng.startClocks_recons (e : Eng) : (e.startClocks).recons = e.recons := (rfl)
@[simp] theorem Eng.startClocks_reconNo (e : Eng) : (e.startClocks).reconNo = e.reconNo := (rfl)
@[simp] theorem Eng.startClocks_chains (e : Eng) : (e.startClocks).chains = e.chains := (rfl)
@[simp] theorem Eng.startClocks_acc (e : Eng) : (e.startClocks).acc = e.acc := (rfl)
@[simp] theorem Eng.startClocks_snaps (e : Eng) : (e.startClocks).snaps = e.snaps := (rfl)
@[simp] theorem Eng.startClocks_builds (e : Eng) : (e.startClocks).builds = e.builds := (rfl)
@[simp] theorem Eng.startClocks_drLoads (e : Eng) : (e.startClocks).drLoads = e.drLoads := (rfl)
@[simp] theorem Eng.startClocks_drStore (e : Eng) : (e.startClocks).drStore = e.drStore := (rfl)
@[simp] theorem Eng.startClocks_refs (e : Eng) : (e.startClocks).refs = e.refs := (rfl)
@[simp] theorem Eng.startClocks_scrubs (e : Eng) : (e.startClocks).scrubs = e.scrubs := (rfl)
@[simp] theorem Eng.startClocks_graft (e : Eng) : (e.startClocks).graft = e.graft := (rfl)
@[simp] theorem Eng.startClocks_heats (e : Eng) : (e.startClocks).heats = e.heats := (rfl)
@[simp] theorem Eng.startClocks_heldJoins (e : Eng) : (e.startClocks).heldJoins = e.heldJoins := (rfl)
@[simp] theorem Eng.startClocks_held (e : Eng) : (e.startClocks).held = e.held := (rfl)
@[simp] theorem Eng.startClocks_oldLost (e : Eng) : (e.startClocks).oldLost = e.oldLost := (rfl)
@[simp] theorem Eng.startClocks_advised (e : Eng) : (e.startClocks).advised = e.advised := (rfl)
@[simp] theorem Eng.startClocks_upd (e : Eng) : (e.startClocks).upd = e.upd := (rfl)
@[simp] theorem Eng.startClocks_keep (e : Eng) : (e.startClocks).keep = e.keep := (rfl)
@[simp] theorem Eng.startClocks_selfQ (e : Eng) : (e.startClocks).selfQ = e.selfQ := (rfl)
@[simp] theorem Eng.startClocks_draining (e : Eng) : (e.startClocks).draining = e.draining := (rfl)
@[simp] theorem Eng.startClocks_cuts (e : Eng) : (e.startClocks).cuts = e.cuts := (rfl)
@[simp] theorem Eng.startClocks_late (e : Eng) : (e.startClocks).late = e.late := (rfl)
@[simp] theorem Eng.startClocks_health (e : Eng) : (e.startClocks).health = e.health := (rfl)
@[simp] theorem Eng.startClocks_edge (e : Eng) : (e.startClocks).edge = e.edge := (rfl)

/-! ### `Eng.emit` -/

@[simp] theorem Eng.emit_free (e : Eng) (a : Action) : (e.emit a).free = e.free := (rfl)
@[simp] theorem Eng.emit_regs (e : Eng) (a : Action) : (e.emit a).regs = e.regs := (rfl)
@[simp] theorem Eng.emit_mem (e : Eng) (a : Action) : (e.emit a).mem = e.mem := (rfl)
@[simp] theorem Eng.emit_ctxs (e : Eng) (a : Action) : (e.emit a).ctxs = e.ctxs := (rfl)
@[simp] theorem Eng.emit_descs (e : Eng) (a : Action) : (e.emit a).descs = e.descs := (rfl)
@[simp] theorem Eng.emit_progs (e : Eng) (a : Action) : (e.emit a).progs = e.progs := (rfl)
@[simp] theorem Eng.emit_syncs (e : Eng) (a : Action) : (e.emit a).syncs = e.syncs := (rfl)
@[simp] theorem Eng.emit_pins (e : Eng) (a : Action) : (e.emit a).pins = e.pins := (rfl)
@[simp] theorem Eng.emit_fuses (e : Eng) (a : Action) : (e.emit a).fuses = e.fuses := (rfl)
@[simp] theorem Eng.emit_boot (e : Eng) (a : Action) : (e.emit a).boot = e.boot := (rfl)
@[simp] theorem Eng.emit_time (e : Eng) (a : Action) : (e.emit a).time = e.time := (rfl)
@[simp] theorem Eng.emit_intr (e : Eng) (a : Action) : (e.emit a).intr = e.intr := (rfl)
@[simp] theorem Eng.emit_q (e : Eng) (a : Action) : (e.emit a).q = e.q := (rfl)
@[simp] theorem Eng.emit_rc (e : Eng) (a : Action) : (e.emit a).rc = e.rc := (rfl)
@[simp] theorem Eng.emit_map (e : Eng) (a : Action) : (e.emit a).map = e.map := (rfl)
@[simp] theorem Eng.emit_mgmt (e : Eng) (a : Action) : (e.emit a).mgmt = e.mgmt := (rfl)
@[simp] theorem Eng.emit_sess (e : Eng) (a : Action) : (e.emit a).sess = e.sess := (rfl)
@[simp] theorem Eng.emit_ports (e : Eng) (a : Action) : (e.emit a).ports = e.ports := (rfl)
@[simp] theorem Eng.emit_linksDown (e : Eng) (a : Action) : (e.emit a).linksDown = e.linksDown := (rfl)
@[simp] theorem Eng.emit_rgns (e : Eng) (a : Action) : (e.emit a).rgns = e.rgns := (rfl)
@[simp] theorem Eng.emit_caps (e : Eng) (a : Action) : (e.emit a).caps = e.caps := (rfl)
@[simp] theorem Eng.emit_sent (e : Eng) (a : Action) : (e.emit a).sent = e.sent := (rfl)
@[simp] theorem Eng.emit_relSent (e : Eng) (a : Action) : (e.emit a).relSent = e.relSent := (rfl)
@[simp] theorem Eng.emit_busy (e : Eng) (a : Action) : (e.emit a).busy = e.busy := (rfl)
@[simp] theorem Eng.emit_dataAt (e : Eng) (a : Action) : (e.emit a).dataAt = e.dataAt := (rfl)
@[simp] theorem Eng.emit_applied (e : Eng) (a : Action) : (e.emit a).applied = e.applied := (rfl)
@[simp] theorem Eng.emit_window (e : Eng) (a : Action) : (e.emit a).window = e.window := (rfl)
@[simp] theorem Eng.emit_waits (e : Eng) (a : Action) : (e.emit a).waits = e.waits := (rfl)
@[simp] theorem Eng.emit_advs (e : Eng) (a : Action) : (e.emit a).advs = e.advs := (rfl)
@[simp] theorem Eng.emit_rings (e : Eng) (a : Action) : (e.emit a).rings = e.rings := (rfl)
@[simp] theorem Eng.emit_agrees (e : Eng) (a : Action) : (e.emit a).agrees = e.agrees := (rfl)
@[simp] theorem Eng.emit_early (e : Eng) (a : Action) : (e.emit a).early = e.early := (rfl)
@[simp] theorem Eng.emit_log (e : Eng) (a : Action) : (e.emit a).log = e.log := (rfl)
@[simp] theorem Eng.emit_mtx (e : Eng) (a : Action) : (e.emit a).mtx = e.mtx := (rfl)
@[simp] theorem Eng.emit_mrx (e : Eng) (a : Action) : (e.emit a).mrx = e.mrx := (rfl)
@[simp] theorem Eng.emit_mreq (e : Eng) (a : Action) : (e.emit a).mreq = e.mreq := (rfl)
@[simp] theorem Eng.emit_mcopy (e : Eng) (a : Action) : (e.emit a).mcopy = e.mcopy := (rfl)
@[simp] theorem Eng.emit_tier (e : Eng) (a : Action) : (e.emit a).tier = e.tier := (rfl)
@[simp] theorem Eng.emit_tierNo (e : Eng) (a : Action) : (e.emit a).tierNo = e.tierNo := (rfl)
@[simp] theorem Eng.emit_xfers (e : Eng) (a : Action) : (e.emit a).xfers = e.xfers := (rfl)
@[simp] theorem Eng.emit_xferNo (e : Eng) (a : Action) : (e.emit a).xferNo = e.xferNo := (rfl)
@[simp] theorem Eng.emit_taps (e : Eng) (a : Action) : (e.emit a).taps = e.taps := (rfl)
@[simp] theorem Eng.emit_sec (e : Eng) (a : Action) : (e.emit a).sec = e.sec := (rfl)
@[simp] theorem Eng.emit_loss (e : Eng) (a : Action) : (e.emit a).loss = e.loss := (rfl)
@[simp] theorem Eng.emit_thickDests (e : Eng) (a : Action) : (e.emit a).thickDests = e.thickDests := (rfl)
@[simp] theorem Eng.emit_hosted (e : Eng) (a : Action) : (e.emit a).hosted = e.hosted := (rfl)
@[simp] theorem Eng.emit_thickEnds (e : Eng) (a : Action) : (e.emit a).thickEnds = e.thickEnds := (rfl)
@[simp] theorem Eng.emit_rowSets (e : Eng) (a : Action) : (e.emit a).rowSets = e.rowSets := (rfl)
@[simp] theorem Eng.emit_gen0 (e : Eng) (a : Action) : (e.emit a).gen0 = e.gen0 := (rfl)
@[simp] theorem Eng.emit_digs (e : Eng) (a : Action) : (e.emit a).digs = e.digs := (rfl)
@[simp] theorem Eng.emit_hwc (e : Eng) (a : Action) : (e.emit a).hwc = e.hwc := (rfl)
@[simp] theorem Eng.emit_evac (e : Eng) (a : Action) : (e.emit a).evac = e.evac := (rfl)
@[simp] theorem Eng.emit_unrep (e : Eng) (a : Action) : (e.emit a).unrep = e.unrep := (rfl)
@[simp] theorem Eng.emit_miscorr (e : Eng) (a : Action) : (e.emit a).miscorr = e.miscorr := (rfl)
@[simp] theorem Eng.emit_prods (e : Eng) (a : Action) : (e.emit a).prods = e.prods := (rfl)
@[simp] theorem Eng.emit_inputs (e : Eng) (a : Action) : (e.emit a).inputs = e.inputs := (rfl)
@[simp] theorem Eng.emit_recons (e : Eng) (a : Action) : (e.emit a).recons = e.recons := (rfl)
@[simp] theorem Eng.emit_reconNo (e : Eng) (a : Action) : (e.emit a).reconNo = e.reconNo := (rfl)
@[simp] theorem Eng.emit_chains (e : Eng) (a : Action) : (e.emit a).chains = e.chains := (rfl)
@[simp] theorem Eng.emit_acc (e : Eng) (a : Action) : (e.emit a).acc = e.acc := (rfl)
@[simp] theorem Eng.emit_snaps (e : Eng) (a : Action) : (e.emit a).snaps = e.snaps := (rfl)
@[simp] theorem Eng.emit_builds (e : Eng) (a : Action) : (e.emit a).builds = e.builds := (rfl)
@[simp] theorem Eng.emit_drLoads (e : Eng) (a : Action) : (e.emit a).drLoads = e.drLoads := (rfl)
@[simp] theorem Eng.emit_drStore (e : Eng) (a : Action) : (e.emit a).drStore = e.drStore := (rfl)
@[simp] theorem Eng.emit_refs (e : Eng) (a : Action) : (e.emit a).refs = e.refs := (rfl)
@[simp] theorem Eng.emit_scrubs (e : Eng) (a : Action) : (e.emit a).scrubs = e.scrubs := (rfl)
@[simp] theorem Eng.emit_graft (e : Eng) (a : Action) : (e.emit a).graft = e.graft := (rfl)
@[simp] theorem Eng.emit_heats (e : Eng) (a : Action) : (e.emit a).heats = e.heats := (rfl)
@[simp] theorem Eng.emit_heldJoins (e : Eng) (a : Action) : (e.emit a).heldJoins = e.heldJoins := (rfl)
@[simp] theorem Eng.emit_held (e : Eng) (a : Action) : (e.emit a).held = e.held := (rfl)
@[simp] theorem Eng.emit_oldLost (e : Eng) (a : Action) : (e.emit a).oldLost = e.oldLost := (rfl)
@[simp] theorem Eng.emit_advised (e : Eng) (a : Action) : (e.emit a).advised = e.advised := (rfl)
@[simp] theorem Eng.emit_upd (e : Eng) (a : Action) : (e.emit a).upd = e.upd := (rfl)
@[simp] theorem Eng.emit_keep (e : Eng) (a : Action) : (e.emit a).keep = e.keep := (rfl)
@[simp] theorem Eng.emit_selfQ (e : Eng) (a : Action) : (e.emit a).selfQ = e.selfQ := (rfl)
@[simp] theorem Eng.emit_draining (e : Eng) (a : Action) : (e.emit a).draining = e.draining := (rfl)
@[simp] theorem Eng.emit_cuts (e : Eng) (a : Action) : (e.emit a).cuts = e.cuts := (rfl)
@[simp] theorem Eng.emit_late (e : Eng) (a : Action) : (e.emit a).late = e.late := (rfl)
@[simp] theorem Eng.emit_health (e : Eng) (a : Action) : (e.emit a).health = e.health := (rfl)
@[simp] theorem Eng.emit_edge (e : Eng) (a : Action) : (e.emit a).edge = e.edge := (rfl)

/-! ### `Eng.memWrite` -/

@[simp] theorem Eng.memWrite_out (e : Eng) (a : Nat) (bs : List Byte) : (e.memWrite a bs).out = e.out := (rfl)
@[simp] theorem Eng.memWrite_free (e : Eng) (a : Nat) (bs : List Byte) : (e.memWrite a bs).free = e.free := (rfl)
@[simp] theorem Eng.memWrite_regs (e : Eng) (a : Nat) (bs : List Byte) : (e.memWrite a bs).regs = e.regs := (rfl)
@[simp] theorem Eng.memWrite_ctxs (e : Eng) (a : Nat) (bs : List Byte) : (e.memWrite a bs).ctxs = e.ctxs := (rfl)
@[simp] theorem Eng.memWrite_descs (e : Eng) (a : Nat) (bs : List Byte) : (e.memWrite a bs).descs = e.descs := (rfl)
@[simp] theorem Eng.memWrite_progs (e : Eng) (a : Nat) (bs : List Byte) : (e.memWrite a bs).progs = e.progs := (rfl)
@[simp] theorem Eng.memWrite_syncs (e : Eng) (a : Nat) (bs : List Byte) : (e.memWrite a bs).syncs = e.syncs := (rfl)
@[simp] theorem Eng.memWrite_pins (e : Eng) (a : Nat) (bs : List Byte) : (e.memWrite a bs).pins = e.pins := (rfl)
@[simp] theorem Eng.memWrite_fuses (e : Eng) (a : Nat) (bs : List Byte) : (e.memWrite a bs).fuses = e.fuses := (rfl)
@[simp] theorem Eng.memWrite_boot (e : Eng) (a : Nat) (bs : List Byte) : (e.memWrite a bs).boot = e.boot := (rfl)
@[simp] theorem Eng.memWrite_time (e : Eng) (a : Nat) (bs : List Byte) : (e.memWrite a bs).time = e.time := (rfl)
@[simp] theorem Eng.memWrite_intr (e : Eng) (a : Nat) (bs : List Byte) : (e.memWrite a bs).intr = e.intr := (rfl)
@[simp] theorem Eng.memWrite_q (e : Eng) (a : Nat) (bs : List Byte) : (e.memWrite a bs).q = e.q := (rfl)
@[simp] theorem Eng.memWrite_rc (e : Eng) (a : Nat) (bs : List Byte) : (e.memWrite a bs).rc = e.rc := (rfl)
@[simp] theorem Eng.memWrite_map (e : Eng) (a : Nat) (bs : List Byte) : (e.memWrite a bs).map = e.map := (rfl)
@[simp] theorem Eng.memWrite_mgmt (e : Eng) (a : Nat) (bs : List Byte) : (e.memWrite a bs).mgmt = e.mgmt := (rfl)
@[simp] theorem Eng.memWrite_sess (e : Eng) (a : Nat) (bs : List Byte) : (e.memWrite a bs).sess = e.sess := (rfl)
@[simp] theorem Eng.memWrite_ports (e : Eng) (a : Nat) (bs : List Byte) : (e.memWrite a bs).ports = e.ports := (rfl)
@[simp] theorem Eng.memWrite_linksDown (e : Eng) (a : Nat) (bs : List Byte) : (e.memWrite a bs).linksDown = e.linksDown := (rfl)
@[simp] theorem Eng.memWrite_rgns (e : Eng) (a : Nat) (bs : List Byte) : (e.memWrite a bs).rgns = e.rgns := (rfl)
@[simp] theorem Eng.memWrite_caps (e : Eng) (a : Nat) (bs : List Byte) : (e.memWrite a bs).caps = e.caps := (rfl)
@[simp] theorem Eng.memWrite_sent (e : Eng) (a : Nat) (bs : List Byte) : (e.memWrite a bs).sent = e.sent := (rfl)
@[simp] theorem Eng.memWrite_relSent (e : Eng) (a : Nat) (bs : List Byte) : (e.memWrite a bs).relSent = e.relSent := (rfl)
@[simp] theorem Eng.memWrite_busy (e : Eng) (a : Nat) (bs : List Byte) : (e.memWrite a bs).busy = e.busy := (rfl)
@[simp] theorem Eng.memWrite_dataAt (e : Eng) (a : Nat) (bs : List Byte) : (e.memWrite a bs).dataAt = e.dataAt := (rfl)
@[simp] theorem Eng.memWrite_applied (e : Eng) (a : Nat) (bs : List Byte) : (e.memWrite a bs).applied = e.applied := (rfl)
@[simp] theorem Eng.memWrite_window (e : Eng) (a : Nat) (bs : List Byte) : (e.memWrite a bs).window = e.window := (rfl)
@[simp] theorem Eng.memWrite_waits (e : Eng) (a : Nat) (bs : List Byte) : (e.memWrite a bs).waits = e.waits := (rfl)
@[simp] theorem Eng.memWrite_advs (e : Eng) (a : Nat) (bs : List Byte) : (e.memWrite a bs).advs = e.advs := (rfl)
@[simp] theorem Eng.memWrite_rings (e : Eng) (a : Nat) (bs : List Byte) : (e.memWrite a bs).rings = e.rings := (rfl)
@[simp] theorem Eng.memWrite_agrees (e : Eng) (a : Nat) (bs : List Byte) : (e.memWrite a bs).agrees = e.agrees := (rfl)
@[simp] theorem Eng.memWrite_early (e : Eng) (a : Nat) (bs : List Byte) : (e.memWrite a bs).early = e.early := (rfl)
@[simp] theorem Eng.memWrite_log (e : Eng) (a : Nat) (bs : List Byte) : (e.memWrite a bs).log = e.log := (rfl)
@[simp] theorem Eng.memWrite_mtx (e : Eng) (a : Nat) (bs : List Byte) : (e.memWrite a bs).mtx = e.mtx := (rfl)
@[simp] theorem Eng.memWrite_mrx (e : Eng) (a : Nat) (bs : List Byte) : (e.memWrite a bs).mrx = e.mrx := (rfl)
@[simp] theorem Eng.memWrite_mreq (e : Eng) (a : Nat) (bs : List Byte) : (e.memWrite a bs).mreq = e.mreq := (rfl)
@[simp] theorem Eng.memWrite_mcopy (e : Eng) (a : Nat) (bs : List Byte) : (e.memWrite a bs).mcopy = e.mcopy := (rfl)
@[simp] theorem Eng.memWrite_tier (e : Eng) (a : Nat) (bs : List Byte) : (e.memWrite a bs).tier = e.tier := (rfl)
@[simp] theorem Eng.memWrite_tierNo (e : Eng) (a : Nat) (bs : List Byte) : (e.memWrite a bs).tierNo = e.tierNo := (rfl)
@[simp] theorem Eng.memWrite_xfers (e : Eng) (a : Nat) (bs : List Byte) : (e.memWrite a bs).xfers = e.xfers := (rfl)
@[simp] theorem Eng.memWrite_xferNo (e : Eng) (a : Nat) (bs : List Byte) : (e.memWrite a bs).xferNo = e.xferNo := (rfl)
@[simp] theorem Eng.memWrite_taps (e : Eng) (a : Nat) (bs : List Byte) : (e.memWrite a bs).taps = e.taps := (rfl)
@[simp] theorem Eng.memWrite_sec (e : Eng) (a : Nat) (bs : List Byte) : (e.memWrite a bs).sec = e.sec := (rfl)
@[simp] theorem Eng.memWrite_loss (e : Eng) (a : Nat) (bs : List Byte) : (e.memWrite a bs).loss = e.loss := (rfl)
@[simp] theorem Eng.memWrite_thickDests (e : Eng) (a : Nat) (bs : List Byte) : (e.memWrite a bs).thickDests = e.thickDests := (rfl)
@[simp] theorem Eng.memWrite_hosted (e : Eng) (a : Nat) (bs : List Byte) : (e.memWrite a bs).hosted = e.hosted := (rfl)
@[simp] theorem Eng.memWrite_thickEnds (e : Eng) (a : Nat) (bs : List Byte) : (e.memWrite a bs).thickEnds = e.thickEnds := (rfl)
@[simp] theorem Eng.memWrite_rowSets (e : Eng) (a : Nat) (bs : List Byte) : (e.memWrite a bs).rowSets = e.rowSets := (rfl)
@[simp] theorem Eng.memWrite_gen0 (e : Eng) (a : Nat) (bs : List Byte) : (e.memWrite a bs).gen0 = e.gen0 := (rfl)
@[simp] theorem Eng.memWrite_digs (e : Eng) (a : Nat) (bs : List Byte) : (e.memWrite a bs).digs = e.digs := (rfl)
@[simp] theorem Eng.memWrite_hwc (e : Eng) (a : Nat) (bs : List Byte) : (e.memWrite a bs).hwc = e.hwc := (rfl)
@[simp] theorem Eng.memWrite_evac (e : Eng) (a : Nat) (bs : List Byte) : (e.memWrite a bs).evac = e.evac := (rfl)
@[simp] theorem Eng.memWrite_unrep (e : Eng) (a : Nat) (bs : List Byte) : (e.memWrite a bs).unrep = e.unrep := (rfl)
@[simp] theorem Eng.memWrite_miscorr (e : Eng) (a : Nat) (bs : List Byte) : (e.memWrite a bs).miscorr = e.miscorr := (rfl)
@[simp] theorem Eng.memWrite_prods (e : Eng) (a : Nat) (bs : List Byte) : (e.memWrite a bs).prods = e.prods := (rfl)
@[simp] theorem Eng.memWrite_inputs (e : Eng) (a : Nat) (bs : List Byte) : (e.memWrite a bs).inputs = e.inputs := (rfl)
@[simp] theorem Eng.memWrite_recons (e : Eng) (a : Nat) (bs : List Byte) : (e.memWrite a bs).recons = e.recons := (rfl)
@[simp] theorem Eng.memWrite_reconNo (e : Eng) (a : Nat) (bs : List Byte) : (e.memWrite a bs).reconNo = e.reconNo := (rfl)
@[simp] theorem Eng.memWrite_chains (e : Eng) (a : Nat) (bs : List Byte) : (e.memWrite a bs).chains = e.chains := (rfl)
@[simp] theorem Eng.memWrite_acc (e : Eng) (a : Nat) (bs : List Byte) : (e.memWrite a bs).acc = e.acc := (rfl)
@[simp] theorem Eng.memWrite_snaps (e : Eng) (a : Nat) (bs : List Byte) : (e.memWrite a bs).snaps = e.snaps := (rfl)
@[simp] theorem Eng.memWrite_builds (e : Eng) (a : Nat) (bs : List Byte) : (e.memWrite a bs).builds = e.builds := (rfl)
@[simp] theorem Eng.memWrite_drLoads (e : Eng) (a : Nat) (bs : List Byte) : (e.memWrite a bs).drLoads = e.drLoads := (rfl)
@[simp] theorem Eng.memWrite_drStore (e : Eng) (a : Nat) (bs : List Byte) : (e.memWrite a bs).drStore = e.drStore := (rfl)
@[simp] theorem Eng.memWrite_refs (e : Eng) (a : Nat) (bs : List Byte) : (e.memWrite a bs).refs = e.refs := (rfl)
@[simp] theorem Eng.memWrite_scrubs (e : Eng) (a : Nat) (bs : List Byte) : (e.memWrite a bs).scrubs = e.scrubs := (rfl)
@[simp] theorem Eng.memWrite_graft (e : Eng) (a : Nat) (bs : List Byte) : (e.memWrite a bs).graft = e.graft := (rfl)
@[simp] theorem Eng.memWrite_heats (e : Eng) (a : Nat) (bs : List Byte) : (e.memWrite a bs).heats = e.heats := (rfl)
@[simp] theorem Eng.memWrite_heldJoins (e : Eng) (a : Nat) (bs : List Byte) : (e.memWrite a bs).heldJoins = e.heldJoins := (rfl)
@[simp] theorem Eng.memWrite_held (e : Eng) (a : Nat) (bs : List Byte) : (e.memWrite a bs).held = e.held := (rfl)
@[simp] theorem Eng.memWrite_oldLost (e : Eng) (a : Nat) (bs : List Byte) : (e.memWrite a bs).oldLost = e.oldLost := (rfl)
@[simp] theorem Eng.memWrite_advised (e : Eng) (a : Nat) (bs : List Byte) : (e.memWrite a bs).advised = e.advised := (rfl)
@[simp] theorem Eng.memWrite_upd (e : Eng) (a : Nat) (bs : List Byte) : (e.memWrite a bs).upd = e.upd := (rfl)
@[simp] theorem Eng.memWrite_keep (e : Eng) (a : Nat) (bs : List Byte) : (e.memWrite a bs).keep = e.keep := (rfl)
@[simp] theorem Eng.memWrite_selfQ (e : Eng) (a : Nat) (bs : List Byte) : (e.memWrite a bs).selfQ = e.selfQ := (rfl)
@[simp] theorem Eng.memWrite_draining (e : Eng) (a : Nat) (bs : List Byte) : (e.memWrite a bs).draining = e.draining := (rfl)
@[simp] theorem Eng.memWrite_cuts (e : Eng) (a : Nat) (bs : List Byte) : (e.memWrite a bs).cuts = e.cuts := (rfl)
@[simp] theorem Eng.memWrite_late (e : Eng) (a : Nat) (bs : List Byte) : (e.memWrite a bs).late = e.late := (rfl)
@[simp] theorem Eng.memWrite_health (e : Eng) (a : Nat) (bs : List Byte) : (e.memWrite a bs).health = e.health := (rfl)
@[simp] theorem Eng.memWrite_edge (e : Eng) (a : Nat) (bs : List Byte) : (e.memWrite a bs).edge = e.edge := (rfl)

/-! ### `Eng.useFree` -/

@[simp] theorem Eng.useFree_out (e : Eng) (n : Nat) : (e.useFree n).out = e.out := (rfl)
@[simp] theorem Eng.useFree_regs (e : Eng) (n : Nat) : (e.useFree n).regs = e.regs := (rfl)
@[simp] theorem Eng.useFree_mem (e : Eng) (n : Nat) : (e.useFree n).mem = e.mem := (rfl)
@[simp] theorem Eng.useFree_ctxs (e : Eng) (n : Nat) : (e.useFree n).ctxs = e.ctxs := (rfl)
@[simp] theorem Eng.useFree_descs (e : Eng) (n : Nat) : (e.useFree n).descs = e.descs := (rfl)
@[simp] theorem Eng.useFree_progs (e : Eng) (n : Nat) : (e.useFree n).progs = e.progs := (rfl)
@[simp] theorem Eng.useFree_syncs (e : Eng) (n : Nat) : (e.useFree n).syncs = e.syncs := (rfl)
@[simp] theorem Eng.useFree_pins (e : Eng) (n : Nat) : (e.useFree n).pins = e.pins := (rfl)
@[simp] theorem Eng.useFree_fuses (e : Eng) (n : Nat) : (e.useFree n).fuses = e.fuses := (rfl)
@[simp] theorem Eng.useFree_boot (e : Eng) (n : Nat) : (e.useFree n).boot = e.boot := (rfl)
@[simp] theorem Eng.useFree_time (e : Eng) (n : Nat) : (e.useFree n).time = e.time := (rfl)
@[simp] theorem Eng.useFree_intr (e : Eng) (n : Nat) : (e.useFree n).intr = e.intr := (rfl)
@[simp] theorem Eng.useFree_q (e : Eng) (n : Nat) : (e.useFree n).q = e.q := (rfl)
@[simp] theorem Eng.useFree_rc (e : Eng) (n : Nat) : (e.useFree n).rc = e.rc := (rfl)
@[simp] theorem Eng.useFree_map (e : Eng) (n : Nat) : (e.useFree n).map = e.map := (rfl)
@[simp] theorem Eng.useFree_mgmt (e : Eng) (n : Nat) : (e.useFree n).mgmt = e.mgmt := (rfl)
@[simp] theorem Eng.useFree_sess (e : Eng) (n : Nat) : (e.useFree n).sess = e.sess := (rfl)
@[simp] theorem Eng.useFree_ports (e : Eng) (n : Nat) : (e.useFree n).ports = e.ports := (rfl)
@[simp] theorem Eng.useFree_linksDown (e : Eng) (n : Nat) : (e.useFree n).linksDown = e.linksDown := (rfl)
@[simp] theorem Eng.useFree_rgns (e : Eng) (n : Nat) : (e.useFree n).rgns = e.rgns := (rfl)
@[simp] theorem Eng.useFree_caps (e : Eng) (n : Nat) : (e.useFree n).caps = e.caps := (rfl)
@[simp] theorem Eng.useFree_sent (e : Eng) (n : Nat) : (e.useFree n).sent = e.sent := (rfl)
@[simp] theorem Eng.useFree_relSent (e : Eng) (n : Nat) : (e.useFree n).relSent = e.relSent := (rfl)
@[simp] theorem Eng.useFree_busy (e : Eng) (n : Nat) : (e.useFree n).busy = e.busy := (rfl)
@[simp] theorem Eng.useFree_dataAt (e : Eng) (n : Nat) : (e.useFree n).dataAt = e.dataAt := (rfl)
@[simp] theorem Eng.useFree_applied (e : Eng) (n : Nat) : (e.useFree n).applied = e.applied := (rfl)
@[simp] theorem Eng.useFree_window (e : Eng) (n : Nat) : (e.useFree n).window = e.window := (rfl)
@[simp] theorem Eng.useFree_waits (e : Eng) (n : Nat) : (e.useFree n).waits = e.waits := (rfl)
@[simp] theorem Eng.useFree_advs (e : Eng) (n : Nat) : (e.useFree n).advs = e.advs := (rfl)
@[simp] theorem Eng.useFree_rings (e : Eng) (n : Nat) : (e.useFree n).rings = e.rings := (rfl)
@[simp] theorem Eng.useFree_agrees (e : Eng) (n : Nat) : (e.useFree n).agrees = e.agrees := (rfl)
@[simp] theorem Eng.useFree_early (e : Eng) (n : Nat) : (e.useFree n).early = e.early := (rfl)
@[simp] theorem Eng.useFree_log (e : Eng) (n : Nat) : (e.useFree n).log = e.log := (rfl)
@[simp] theorem Eng.useFree_mtx (e : Eng) (n : Nat) : (e.useFree n).mtx = e.mtx := (rfl)
@[simp] theorem Eng.useFree_mrx (e : Eng) (n : Nat) : (e.useFree n).mrx = e.mrx := (rfl)
@[simp] theorem Eng.useFree_mreq (e : Eng) (n : Nat) : (e.useFree n).mreq = e.mreq := (rfl)
@[simp] theorem Eng.useFree_mcopy (e : Eng) (n : Nat) : (e.useFree n).mcopy = e.mcopy := (rfl)
@[simp] theorem Eng.useFree_tier (e : Eng) (n : Nat) : (e.useFree n).tier = e.tier := (rfl)
@[simp] theorem Eng.useFree_tierNo (e : Eng) (n : Nat) : (e.useFree n).tierNo = e.tierNo := (rfl)
@[simp] theorem Eng.useFree_xfers (e : Eng) (n : Nat) : (e.useFree n).xfers = e.xfers := (rfl)
@[simp] theorem Eng.useFree_xferNo (e : Eng) (n : Nat) : (e.useFree n).xferNo = e.xferNo := (rfl)
@[simp] theorem Eng.useFree_taps (e : Eng) (n : Nat) : (e.useFree n).taps = e.taps := (rfl)
@[simp] theorem Eng.useFree_sec (e : Eng) (n : Nat) : (e.useFree n).sec = e.sec := (rfl)
@[simp] theorem Eng.useFree_loss (e : Eng) (n : Nat) : (e.useFree n).loss = e.loss := (rfl)
@[simp] theorem Eng.useFree_thickDests (e : Eng) (n : Nat) : (e.useFree n).thickDests = e.thickDests := (rfl)
@[simp] theorem Eng.useFree_hosted (e : Eng) (n : Nat) : (e.useFree n).hosted = e.hosted := (rfl)
@[simp] theorem Eng.useFree_thickEnds (e : Eng) (n : Nat) : (e.useFree n).thickEnds = e.thickEnds := (rfl)
@[simp] theorem Eng.useFree_rowSets (e : Eng) (n : Nat) : (e.useFree n).rowSets = e.rowSets := (rfl)
@[simp] theorem Eng.useFree_gen0 (e : Eng) (n : Nat) : (e.useFree n).gen0 = e.gen0 := (rfl)
@[simp] theorem Eng.useFree_digs (e : Eng) (n : Nat) : (e.useFree n).digs = e.digs := (rfl)
@[simp] theorem Eng.useFree_hwc (e : Eng) (n : Nat) : (e.useFree n).hwc = e.hwc := (rfl)
@[simp] theorem Eng.useFree_evac (e : Eng) (n : Nat) : (e.useFree n).evac = e.evac := (rfl)
@[simp] theorem Eng.useFree_unrep (e : Eng) (n : Nat) : (e.useFree n).unrep = e.unrep := (rfl)
@[simp] theorem Eng.useFree_miscorr (e : Eng) (n : Nat) : (e.useFree n).miscorr = e.miscorr := (rfl)
@[simp] theorem Eng.useFree_prods (e : Eng) (n : Nat) : (e.useFree n).prods = e.prods := (rfl)
@[simp] theorem Eng.useFree_inputs (e : Eng) (n : Nat) : (e.useFree n).inputs = e.inputs := (rfl)
@[simp] theorem Eng.useFree_recons (e : Eng) (n : Nat) : (e.useFree n).recons = e.recons := (rfl)
@[simp] theorem Eng.useFree_reconNo (e : Eng) (n : Nat) : (e.useFree n).reconNo = e.reconNo := (rfl)
@[simp] theorem Eng.useFree_chains (e : Eng) (n : Nat) : (e.useFree n).chains = e.chains := (rfl)
@[simp] theorem Eng.useFree_acc (e : Eng) (n : Nat) : (e.useFree n).acc = e.acc := (rfl)
@[simp] theorem Eng.useFree_snaps (e : Eng) (n : Nat) : (e.useFree n).snaps = e.snaps := (rfl)
@[simp] theorem Eng.useFree_builds (e : Eng) (n : Nat) : (e.useFree n).builds = e.builds := (rfl)
@[simp] theorem Eng.useFree_drLoads (e : Eng) (n : Nat) : (e.useFree n).drLoads = e.drLoads := (rfl)
@[simp] theorem Eng.useFree_drStore (e : Eng) (n : Nat) : (e.useFree n).drStore = e.drStore := (rfl)
@[simp] theorem Eng.useFree_refs (e : Eng) (n : Nat) : (e.useFree n).refs = e.refs := (rfl)
@[simp] theorem Eng.useFree_scrubs (e : Eng) (n : Nat) : (e.useFree n).scrubs = e.scrubs := (rfl)
@[simp] theorem Eng.useFree_graft (e : Eng) (n : Nat) : (e.useFree n).graft = e.graft := (rfl)
@[simp] theorem Eng.useFree_heats (e : Eng) (n : Nat) : (e.useFree n).heats = e.heats := (rfl)
@[simp] theorem Eng.useFree_heldJoins (e : Eng) (n : Nat) : (e.useFree n).heldJoins = e.heldJoins := (rfl)
@[simp] theorem Eng.useFree_held (e : Eng) (n : Nat) : (e.useFree n).held = e.held := (rfl)
@[simp] theorem Eng.useFree_oldLost (e : Eng) (n : Nat) : (e.useFree n).oldLost = e.oldLost := (rfl)
@[simp] theorem Eng.useFree_advised (e : Eng) (n : Nat) : (e.useFree n).advised = e.advised := (rfl)
@[simp] theorem Eng.useFree_upd (e : Eng) (n : Nat) : (e.useFree n).upd = e.upd := (rfl)
@[simp] theorem Eng.useFree_keep (e : Eng) (n : Nat) : (e.useFree n).keep = e.keep := (rfl)
@[simp] theorem Eng.useFree_selfQ (e : Eng) (n : Nat) : (e.useFree n).selfQ = e.selfQ := (rfl)
@[simp] theorem Eng.useFree_draining (e : Eng) (n : Nat) : (e.useFree n).draining = e.draining := (rfl)
@[simp] theorem Eng.useFree_cuts (e : Eng) (n : Nat) : (e.useFree n).cuts = e.cuts := (rfl)
@[simp] theorem Eng.useFree_late (e : Eng) (n : Nat) : (e.useFree n).late = e.late := (rfl)
@[simp] theorem Eng.useFree_health (e : Eng) (n : Nat) : (e.useFree n).health = e.health := (rfl)
@[simp] theorem Eng.useFree_edge (e : Eng) (n : Nat) : (e.useFree n).edge = e.edge := (rfl)

/-! ### `Eng.setRings` -/

@[simp] theorem Eng.setRings_out (e : Eng) (f : Rings → Rings) : (e.setRings f).out = e.out := (rfl)
@[simp] theorem Eng.setRings_free (e : Eng) (f : Rings → Rings) : (e.setRings f).free = e.free := (rfl)
@[simp] theorem Eng.setRings_regs (e : Eng) (f : Rings → Rings) : (e.setRings f).regs = e.regs := (rfl)
@[simp] theorem Eng.setRings_mem (e : Eng) (f : Rings → Rings) : (e.setRings f).mem = e.mem := (rfl)
@[simp] theorem Eng.setRings_ctxs (e : Eng) (f : Rings → Rings) : (e.setRings f).ctxs = e.ctxs := (rfl)
@[simp] theorem Eng.setRings_descs (e : Eng) (f : Rings → Rings) : (e.setRings f).descs = e.descs := (rfl)
@[simp] theorem Eng.setRings_progs (e : Eng) (f : Rings → Rings) : (e.setRings f).progs = e.progs := (rfl)
@[simp] theorem Eng.setRings_syncs (e : Eng) (f : Rings → Rings) : (e.setRings f).syncs = e.syncs := (rfl)
@[simp] theorem Eng.setRings_pins (e : Eng) (f : Rings → Rings) : (e.setRings f).pins = e.pins := (rfl)
@[simp] theorem Eng.setRings_fuses (e : Eng) (f : Rings → Rings) : (e.setRings f).fuses = e.fuses := (rfl)
@[simp] theorem Eng.setRings_boot (e : Eng) (f : Rings → Rings) : (e.setRings f).boot = e.boot := (rfl)
@[simp] theorem Eng.setRings_time (e : Eng) (f : Rings → Rings) : (e.setRings f).time = e.time := (rfl)
@[simp] theorem Eng.setRings_intr (e : Eng) (f : Rings → Rings) : (e.setRings f).intr = e.intr := (rfl)
@[simp] theorem Eng.setRings_q (e : Eng) (f : Rings → Rings) : (e.setRings f).q = e.q := (rfl)
@[simp] theorem Eng.setRings_rc (e : Eng) (f : Rings → Rings) : (e.setRings f).rc = e.rc := (rfl)
@[simp] theorem Eng.setRings_map (e : Eng) (f : Rings → Rings) : (e.setRings f).map = e.map := (rfl)
@[simp] theorem Eng.setRings_mgmt (e : Eng) (f : Rings → Rings) : (e.setRings f).mgmt = e.mgmt := (rfl)
@[simp] theorem Eng.setRings_sess (e : Eng) (f : Rings → Rings) : (e.setRings f).sess = e.sess := (rfl)
@[simp] theorem Eng.setRings_ports (e : Eng) (f : Rings → Rings) : (e.setRings f).ports = e.ports := (rfl)
@[simp] theorem Eng.setRings_linksDown (e : Eng) (f : Rings → Rings) : (e.setRings f).linksDown = e.linksDown := (rfl)
@[simp] theorem Eng.setRings_rgns (e : Eng) (f : Rings → Rings) : (e.setRings f).rgns = e.rgns := (rfl)
@[simp] theorem Eng.setRings_caps (e : Eng) (f : Rings → Rings) : (e.setRings f).caps = e.caps := (rfl)
@[simp] theorem Eng.setRings_sent (e : Eng) (f : Rings → Rings) : (e.setRings f).sent = e.sent := (rfl)
@[simp] theorem Eng.setRings_relSent (e : Eng) (f : Rings → Rings) : (e.setRings f).relSent = e.relSent := (rfl)
@[simp] theorem Eng.setRings_busy (e : Eng) (f : Rings → Rings) : (e.setRings f).busy = e.busy := (rfl)
@[simp] theorem Eng.setRings_dataAt (e : Eng) (f : Rings → Rings) : (e.setRings f).dataAt = e.dataAt := (rfl)
@[simp] theorem Eng.setRings_applied (e : Eng) (f : Rings → Rings) : (e.setRings f).applied = e.applied := (rfl)
@[simp] theorem Eng.setRings_window (e : Eng) (f : Rings → Rings) : (e.setRings f).window = e.window := (rfl)
@[simp] theorem Eng.setRings_waits (e : Eng) (f : Rings → Rings) : (e.setRings f).waits = e.waits := (rfl)
@[simp] theorem Eng.setRings_advs (e : Eng) (f : Rings → Rings) : (e.setRings f).advs = e.advs := (rfl)
@[simp] theorem Eng.setRings_agrees (e : Eng) (f : Rings → Rings) : (e.setRings f).agrees = e.agrees := (rfl)
@[simp] theorem Eng.setRings_early (e : Eng) (f : Rings → Rings) : (e.setRings f).early = e.early := (rfl)
@[simp] theorem Eng.setRings_log (e : Eng) (f : Rings → Rings) : (e.setRings f).log = e.log := (rfl)
@[simp] theorem Eng.setRings_mtx (e : Eng) (f : Rings → Rings) : (e.setRings f).mtx = e.mtx := (rfl)
@[simp] theorem Eng.setRings_mrx (e : Eng) (f : Rings → Rings) : (e.setRings f).mrx = e.mrx := (rfl)
@[simp] theorem Eng.setRings_mreq (e : Eng) (f : Rings → Rings) : (e.setRings f).mreq = e.mreq := (rfl)
@[simp] theorem Eng.setRings_mcopy (e : Eng) (f : Rings → Rings) : (e.setRings f).mcopy = e.mcopy := (rfl)
@[simp] theorem Eng.setRings_tier (e : Eng) (f : Rings → Rings) : (e.setRings f).tier = e.tier := (rfl)
@[simp] theorem Eng.setRings_tierNo (e : Eng) (f : Rings → Rings) : (e.setRings f).tierNo = e.tierNo := (rfl)
@[simp] theorem Eng.setRings_xfers (e : Eng) (f : Rings → Rings) : (e.setRings f).xfers = e.xfers := (rfl)
@[simp] theorem Eng.setRings_xferNo (e : Eng) (f : Rings → Rings) : (e.setRings f).xferNo = e.xferNo := (rfl)
@[simp] theorem Eng.setRings_taps (e : Eng) (f : Rings → Rings) : (e.setRings f).taps = e.taps := (rfl)
@[simp] theorem Eng.setRings_sec (e : Eng) (f : Rings → Rings) : (e.setRings f).sec = e.sec := (rfl)
@[simp] theorem Eng.setRings_loss (e : Eng) (f : Rings → Rings) : (e.setRings f).loss = e.loss := (rfl)
@[simp] theorem Eng.setRings_thickDests (e : Eng) (f : Rings → Rings) : (e.setRings f).thickDests = e.thickDests := (rfl)
@[simp] theorem Eng.setRings_hosted (e : Eng) (f : Rings → Rings) : (e.setRings f).hosted = e.hosted := (rfl)
@[simp] theorem Eng.setRings_thickEnds (e : Eng) (f : Rings → Rings) : (e.setRings f).thickEnds = e.thickEnds := (rfl)
@[simp] theorem Eng.setRings_rowSets (e : Eng) (f : Rings → Rings) : (e.setRings f).rowSets = e.rowSets := (rfl)
@[simp] theorem Eng.setRings_gen0 (e : Eng) (f : Rings → Rings) : (e.setRings f).gen0 = e.gen0 := (rfl)
@[simp] theorem Eng.setRings_digs (e : Eng) (f : Rings → Rings) : (e.setRings f).digs = e.digs := (rfl)
@[simp] theorem Eng.setRings_hwc (e : Eng) (f : Rings → Rings) : (e.setRings f).hwc = e.hwc := (rfl)
@[simp] theorem Eng.setRings_evac (e : Eng) (f : Rings → Rings) : (e.setRings f).evac = e.evac := (rfl)
@[simp] theorem Eng.setRings_unrep (e : Eng) (f : Rings → Rings) : (e.setRings f).unrep = e.unrep := (rfl)
@[simp] theorem Eng.setRings_miscorr (e : Eng) (f : Rings → Rings) : (e.setRings f).miscorr = e.miscorr := (rfl)
@[simp] theorem Eng.setRings_prods (e : Eng) (f : Rings → Rings) : (e.setRings f).prods = e.prods := (rfl)
@[simp] theorem Eng.setRings_inputs (e : Eng) (f : Rings → Rings) : (e.setRings f).inputs = e.inputs := (rfl)
@[simp] theorem Eng.setRings_recons (e : Eng) (f : Rings → Rings) : (e.setRings f).recons = e.recons := (rfl)
@[simp] theorem Eng.setRings_reconNo (e : Eng) (f : Rings → Rings) : (e.setRings f).reconNo = e.reconNo := (rfl)
@[simp] theorem Eng.setRings_chains (e : Eng) (f : Rings → Rings) : (e.setRings f).chains = e.chains := (rfl)
@[simp] theorem Eng.setRings_acc (e : Eng) (f : Rings → Rings) : (e.setRings f).acc = e.acc := (rfl)
@[simp] theorem Eng.setRings_snaps (e : Eng) (f : Rings → Rings) : (e.setRings f).snaps = e.snaps := (rfl)
@[simp] theorem Eng.setRings_builds (e : Eng) (f : Rings → Rings) : (e.setRings f).builds = e.builds := (rfl)
@[simp] theorem Eng.setRings_drLoads (e : Eng) (f : Rings → Rings) : (e.setRings f).drLoads = e.drLoads := (rfl)
@[simp] theorem Eng.setRings_drStore (e : Eng) (f : Rings → Rings) : (e.setRings f).drStore = e.drStore := (rfl)
@[simp] theorem Eng.setRings_refs (e : Eng) (f : Rings → Rings) : (e.setRings f).refs = e.refs := (rfl)
@[simp] theorem Eng.setRings_scrubs (e : Eng) (f : Rings → Rings) : (e.setRings f).scrubs = e.scrubs := (rfl)
@[simp] theorem Eng.setRings_graft (e : Eng) (f : Rings → Rings) : (e.setRings f).graft = e.graft := (rfl)
@[simp] theorem Eng.setRings_heats (e : Eng) (f : Rings → Rings) : (e.setRings f).heats = e.heats := (rfl)
@[simp] theorem Eng.setRings_heldJoins (e : Eng) (f : Rings → Rings) : (e.setRings f).heldJoins = e.heldJoins := (rfl)
@[simp] theorem Eng.setRings_held (e : Eng) (f : Rings → Rings) : (e.setRings f).held = e.held := (rfl)
@[simp] theorem Eng.setRings_oldLost (e : Eng) (f : Rings → Rings) : (e.setRings f).oldLost = e.oldLost := (rfl)
@[simp] theorem Eng.setRings_advised (e : Eng) (f : Rings → Rings) : (e.setRings f).advised = e.advised := (rfl)
@[simp] theorem Eng.setRings_upd (e : Eng) (f : Rings → Rings) : (e.setRings f).upd = e.upd := (rfl)
@[simp] theorem Eng.setRings_keep (e : Eng) (f : Rings → Rings) : (e.setRings f).keep = e.keep := (rfl)
@[simp] theorem Eng.setRings_selfQ (e : Eng) (f : Rings → Rings) : (e.setRings f).selfQ = e.selfQ := (rfl)
@[simp] theorem Eng.setRings_draining (e : Eng) (f : Rings → Rings) : (e.setRings f).draining = e.draining := (rfl)
@[simp] theorem Eng.setRings_cuts (e : Eng) (f : Rings → Rings) : (e.setRings f).cuts = e.cuts := (rfl)
@[simp] theorem Eng.setRings_late (e : Eng) (f : Rings → Rings) : (e.setRings f).late = e.late := (rfl)
@[simp] theorem Eng.setRings_health (e : Eng) (f : Rings → Rings) : (e.setRings f).health = e.health := (rfl)
@[simp] theorem Eng.setRings_edge (e : Eng) (f : Rings → Rings) : (e.setRings f).edge = e.edge := (rfl)

/-! ### `Eng.setKeep` -/

@[simp] theorem Eng.setKeep_out (e : Eng) (f : Keep → Keep) : (e.setKeep f).out = e.out := (rfl)
@[simp] theorem Eng.setKeep_free (e : Eng) (f : Keep → Keep) : (e.setKeep f).free = e.free := (rfl)
@[simp] theorem Eng.setKeep_regs (e : Eng) (f : Keep → Keep) : (e.setKeep f).regs = e.regs := (rfl)
@[simp] theorem Eng.setKeep_mem (e : Eng) (f : Keep → Keep) : (e.setKeep f).mem = e.mem := (rfl)
@[simp] theorem Eng.setKeep_ctxs (e : Eng) (f : Keep → Keep) : (e.setKeep f).ctxs = e.ctxs := (rfl)
@[simp] theorem Eng.setKeep_descs (e : Eng) (f : Keep → Keep) : (e.setKeep f).descs = e.descs := (rfl)
@[simp] theorem Eng.setKeep_progs (e : Eng) (f : Keep → Keep) : (e.setKeep f).progs = e.progs := (rfl)
@[simp] theorem Eng.setKeep_syncs (e : Eng) (f : Keep → Keep) : (e.setKeep f).syncs = e.syncs := (rfl)
@[simp] theorem Eng.setKeep_pins (e : Eng) (f : Keep → Keep) : (e.setKeep f).pins = e.pins := (rfl)
@[simp] theorem Eng.setKeep_fuses (e : Eng) (f : Keep → Keep) : (e.setKeep f).fuses = e.fuses := (rfl)
@[simp] theorem Eng.setKeep_boot (e : Eng) (f : Keep → Keep) : (e.setKeep f).boot = e.boot := (rfl)
@[simp] theorem Eng.setKeep_time (e : Eng) (f : Keep → Keep) : (e.setKeep f).time = e.time := (rfl)
@[simp] theorem Eng.setKeep_intr (e : Eng) (f : Keep → Keep) : (e.setKeep f).intr = e.intr := (rfl)
@[simp] theorem Eng.setKeep_q (e : Eng) (f : Keep → Keep) : (e.setKeep f).q = e.q := (rfl)
@[simp] theorem Eng.setKeep_rc (e : Eng) (f : Keep → Keep) : (e.setKeep f).rc = e.rc := (rfl)
@[simp] theorem Eng.setKeep_map (e : Eng) (f : Keep → Keep) : (e.setKeep f).map = e.map := (rfl)
@[simp] theorem Eng.setKeep_mgmt (e : Eng) (f : Keep → Keep) : (e.setKeep f).mgmt = e.mgmt := (rfl)
@[simp] theorem Eng.setKeep_sess (e : Eng) (f : Keep → Keep) : (e.setKeep f).sess = e.sess := (rfl)
@[simp] theorem Eng.setKeep_ports (e : Eng) (f : Keep → Keep) : (e.setKeep f).ports = e.ports := (rfl)
@[simp] theorem Eng.setKeep_linksDown (e : Eng) (f : Keep → Keep) : (e.setKeep f).linksDown = e.linksDown := (rfl)
@[simp] theorem Eng.setKeep_rgns (e : Eng) (f : Keep → Keep) : (e.setKeep f).rgns = e.rgns := (rfl)
@[simp] theorem Eng.setKeep_caps (e : Eng) (f : Keep → Keep) : (e.setKeep f).caps = e.caps := (rfl)
@[simp] theorem Eng.setKeep_sent (e : Eng) (f : Keep → Keep) : (e.setKeep f).sent = e.sent := (rfl)
@[simp] theorem Eng.setKeep_relSent (e : Eng) (f : Keep → Keep) : (e.setKeep f).relSent = e.relSent := (rfl)
@[simp] theorem Eng.setKeep_busy (e : Eng) (f : Keep → Keep) : (e.setKeep f).busy = e.busy := (rfl)
@[simp] theorem Eng.setKeep_dataAt (e : Eng) (f : Keep → Keep) : (e.setKeep f).dataAt = e.dataAt := (rfl)
@[simp] theorem Eng.setKeep_applied (e : Eng) (f : Keep → Keep) : (e.setKeep f).applied = e.applied := (rfl)
@[simp] theorem Eng.setKeep_window (e : Eng) (f : Keep → Keep) : (e.setKeep f).window = e.window := (rfl)
@[simp] theorem Eng.setKeep_waits (e : Eng) (f : Keep → Keep) : (e.setKeep f).waits = e.waits := (rfl)
@[simp] theorem Eng.setKeep_advs (e : Eng) (f : Keep → Keep) : (e.setKeep f).advs = e.advs := (rfl)
@[simp] theorem Eng.setKeep_rings (e : Eng) (f : Keep → Keep) : (e.setKeep f).rings = e.rings := (rfl)
@[simp] theorem Eng.setKeep_agrees (e : Eng) (f : Keep → Keep) : (e.setKeep f).agrees = e.agrees := (rfl)
@[simp] theorem Eng.setKeep_early (e : Eng) (f : Keep → Keep) : (e.setKeep f).early = e.early := (rfl)
@[simp] theorem Eng.setKeep_log (e : Eng) (f : Keep → Keep) : (e.setKeep f).log = e.log := (rfl)
@[simp] theorem Eng.setKeep_mtx (e : Eng) (f : Keep → Keep) : (e.setKeep f).mtx = e.mtx := (rfl)
@[simp] theorem Eng.setKeep_mrx (e : Eng) (f : Keep → Keep) : (e.setKeep f).mrx = e.mrx := (rfl)
@[simp] theorem Eng.setKeep_mreq (e : Eng) (f : Keep → Keep) : (e.setKeep f).mreq = e.mreq := (rfl)
@[simp] theorem Eng.setKeep_mcopy (e : Eng) (f : Keep → Keep) : (e.setKeep f).mcopy = e.mcopy := (rfl)
@[simp] theorem Eng.setKeep_tier (e : Eng) (f : Keep → Keep) : (e.setKeep f).tier = e.tier := (rfl)
@[simp] theorem Eng.setKeep_tierNo (e : Eng) (f : Keep → Keep) : (e.setKeep f).tierNo = e.tierNo := (rfl)
@[simp] theorem Eng.setKeep_xfers (e : Eng) (f : Keep → Keep) : (e.setKeep f).xfers = e.xfers := (rfl)
@[simp] theorem Eng.setKeep_xferNo (e : Eng) (f : Keep → Keep) : (e.setKeep f).xferNo = e.xferNo := (rfl)
@[simp] theorem Eng.setKeep_taps (e : Eng) (f : Keep → Keep) : (e.setKeep f).taps = e.taps := (rfl)
@[simp] theorem Eng.setKeep_sec (e : Eng) (f : Keep → Keep) : (e.setKeep f).sec = e.sec := (rfl)
@[simp] theorem Eng.setKeep_loss (e : Eng) (f : Keep → Keep) : (e.setKeep f).loss = e.loss := (rfl)
@[simp] theorem Eng.setKeep_thickDests (e : Eng) (f : Keep → Keep) : (e.setKeep f).thickDests = e.thickDests := (rfl)
@[simp] theorem Eng.setKeep_hosted (e : Eng) (f : Keep → Keep) : (e.setKeep f).hosted = e.hosted := (rfl)
@[simp] theorem Eng.setKeep_thickEnds (e : Eng) (f : Keep → Keep) : (e.setKeep f).thickEnds = e.thickEnds := (rfl)
@[simp] theorem Eng.setKeep_rowSets (e : Eng) (f : Keep → Keep) : (e.setKeep f).rowSets = e.rowSets := (rfl)
@[simp] theorem Eng.setKeep_gen0 (e : Eng) (f : Keep → Keep) : (e.setKeep f).gen0 = e.gen0 := (rfl)
@[simp] theorem Eng.setKeep_digs (e : Eng) (f : Keep → Keep) : (e.setKeep f).digs = e.digs := (rfl)
@[simp] theorem Eng.setKeep_hwc (e : Eng) (f : Keep → Keep) : (e.setKeep f).hwc = e.hwc := (rfl)
@[simp] theorem Eng.setKeep_evac (e : Eng) (f : Keep → Keep) : (e.setKeep f).evac = e.evac := (rfl)
@[simp] theorem Eng.setKeep_unrep (e : Eng) (f : Keep → Keep) : (e.setKeep f).unrep = e.unrep := (rfl)
@[simp] theorem Eng.setKeep_miscorr (e : Eng) (f : Keep → Keep) : (e.setKeep f).miscorr = e.miscorr := (rfl)
@[simp] theorem Eng.setKeep_prods (e : Eng) (f : Keep → Keep) : (e.setKeep f).prods = e.prods := (rfl)
@[simp] theorem Eng.setKeep_inputs (e : Eng) (f : Keep → Keep) : (e.setKeep f).inputs = e.inputs := (rfl)
@[simp] theorem Eng.setKeep_recons (e : Eng) (f : Keep → Keep) : (e.setKeep f).recons = e.recons := (rfl)
@[simp] theorem Eng.setKeep_reconNo (e : Eng) (f : Keep → Keep) : (e.setKeep f).reconNo = e.reconNo := (rfl)
@[simp] theorem Eng.setKeep_chains (e : Eng) (f : Keep → Keep) : (e.setKeep f).chains = e.chains := (rfl)
@[simp] theorem Eng.setKeep_acc (e : Eng) (f : Keep → Keep) : (e.setKeep f).acc = e.acc := (rfl)
@[simp] theorem Eng.setKeep_snaps (e : Eng) (f : Keep → Keep) : (e.setKeep f).snaps = e.snaps := (rfl)
@[simp] theorem Eng.setKeep_builds (e : Eng) (f : Keep → Keep) : (e.setKeep f).builds = e.builds := (rfl)
@[simp] theorem Eng.setKeep_drLoads (e : Eng) (f : Keep → Keep) : (e.setKeep f).drLoads = e.drLoads := (rfl)
@[simp] theorem Eng.setKeep_drStore (e : Eng) (f : Keep → Keep) : (e.setKeep f).drStore = e.drStore := (rfl)
@[simp] theorem Eng.setKeep_refs (e : Eng) (f : Keep → Keep) : (e.setKeep f).refs = e.refs := (rfl)
@[simp] theorem Eng.setKeep_scrubs (e : Eng) (f : Keep → Keep) : (e.setKeep f).scrubs = e.scrubs := (rfl)
@[simp] theorem Eng.setKeep_graft (e : Eng) (f : Keep → Keep) : (e.setKeep f).graft = e.graft := (rfl)
@[simp] theorem Eng.setKeep_heats (e : Eng) (f : Keep → Keep) : (e.setKeep f).heats = e.heats := (rfl)
@[simp] theorem Eng.setKeep_heldJoins (e : Eng) (f : Keep → Keep) : (e.setKeep f).heldJoins = e.heldJoins := (rfl)
@[simp] theorem Eng.setKeep_held (e : Eng) (f : Keep → Keep) : (e.setKeep f).held = e.held := (rfl)
@[simp] theorem Eng.setKeep_oldLost (e : Eng) (f : Keep → Keep) : (e.setKeep f).oldLost = e.oldLost := (rfl)
@[simp] theorem Eng.setKeep_advised (e : Eng) (f : Keep → Keep) : (e.setKeep f).advised = e.advised := (rfl)
@[simp] theorem Eng.setKeep_upd (e : Eng) (f : Keep → Keep) : (e.setKeep f).upd = e.upd := (rfl)
@[simp] theorem Eng.setKeep_selfQ (e : Eng) (f : Keep → Keep) : (e.setKeep f).selfQ = e.selfQ := (rfl)
@[simp] theorem Eng.setKeep_draining (e : Eng) (f : Keep → Keep) : (e.setKeep f).draining = e.draining := (rfl)
@[simp] theorem Eng.setKeep_cuts (e : Eng) (f : Keep → Keep) : (e.setKeep f).cuts = e.cuts := (rfl)
@[simp] theorem Eng.setKeep_late (e : Eng) (f : Keep → Keep) : (e.setKeep f).late = e.late := (rfl)
@[simp] theorem Eng.setKeep_health (e : Eng) (f : Keep → Keep) : (e.setKeep f).health = e.health := (rfl)
@[simp] theorem Eng.setKeep_edge (e : Eng) (f : Keep → Keep) : (e.setKeep f).edge = e.edge := (rfl)

/-! ### `Eng.setPort` -/

@[simp] theorem Eng.setPort_out (e : Eng) (p : Nat) (q : Port) : (e.setPort p q).out = e.out := (rfl)
@[simp] theorem Eng.setPort_free (e : Eng) (p : Nat) (q : Port) : (e.setPort p q).free = e.free := (rfl)
@[simp] theorem Eng.setPort_regs (e : Eng) (p : Nat) (q : Port) : (e.setPort p q).regs = e.regs := (rfl)
@[simp] theorem Eng.setPort_mem (e : Eng) (p : Nat) (q : Port) : (e.setPort p q).mem = e.mem := (rfl)
@[simp] theorem Eng.setPort_ctxs (e : Eng) (p : Nat) (q : Port) : (e.setPort p q).ctxs = e.ctxs := (rfl)
@[simp] theorem Eng.setPort_descs (e : Eng) (p : Nat) (q : Port) : (e.setPort p q).descs = e.descs := (rfl)
@[simp] theorem Eng.setPort_progs (e : Eng) (p : Nat) (q : Port) : (e.setPort p q).progs = e.progs := (rfl)
@[simp] theorem Eng.setPort_syncs (e : Eng) (p : Nat) (q : Port) : (e.setPort p q).syncs = e.syncs := (rfl)
@[simp] theorem Eng.setPort_pins (e : Eng) (p : Nat) (q : Port) : (e.setPort p q).pins = e.pins := (rfl)
@[simp] theorem Eng.setPort_fuses (e : Eng) (p : Nat) (q : Port) : (e.setPort p q).fuses = e.fuses := (rfl)
@[simp] theorem Eng.setPort_boot (e : Eng) (p : Nat) (q : Port) : (e.setPort p q).boot = e.boot := (rfl)
@[simp] theorem Eng.setPort_time (e : Eng) (p : Nat) (q : Port) : (e.setPort p q).time = e.time := (rfl)
@[simp] theorem Eng.setPort_intr (e : Eng) (p : Nat) (q : Port) : (e.setPort p q).intr = e.intr := (rfl)
@[simp] theorem Eng.setPort_q (e : Eng) (p : Nat) (q : Port) : (e.setPort p q).q = e.q := (rfl)
@[simp] theorem Eng.setPort_rc (e : Eng) (p : Nat) (q : Port) : (e.setPort p q).rc = e.rc := (rfl)
@[simp] theorem Eng.setPort_map (e : Eng) (p : Nat) (q : Port) : (e.setPort p q).map = e.map := (rfl)
@[simp] theorem Eng.setPort_mgmt (e : Eng) (p : Nat) (q : Port) : (e.setPort p q).mgmt = e.mgmt := (rfl)
@[simp] theorem Eng.setPort_sess (e : Eng) (p : Nat) (q : Port) : (e.setPort p q).sess = e.sess := (rfl)
@[simp] theorem Eng.setPort_linksDown (e : Eng) (p : Nat) (q : Port) : (e.setPort p q).linksDown = e.linksDown := (rfl)
@[simp] theorem Eng.setPort_rgns (e : Eng) (p : Nat) (q : Port) : (e.setPort p q).rgns = e.rgns := (rfl)
@[simp] theorem Eng.setPort_caps (e : Eng) (p : Nat) (q : Port) : (e.setPort p q).caps = e.caps := (rfl)
@[simp] theorem Eng.setPort_sent (e : Eng) (p : Nat) (q : Port) : (e.setPort p q).sent = e.sent := (rfl)
@[simp] theorem Eng.setPort_relSent (e : Eng) (p : Nat) (q : Port) : (e.setPort p q).relSent = e.relSent := (rfl)
@[simp] theorem Eng.setPort_busy (e : Eng) (p : Nat) (q : Port) : (e.setPort p q).busy = e.busy := (rfl)
@[simp] theorem Eng.setPort_dataAt (e : Eng) (p : Nat) (q : Port) : (e.setPort p q).dataAt = e.dataAt := (rfl)
@[simp] theorem Eng.setPort_applied (e : Eng) (p : Nat) (q : Port) : (e.setPort p q).applied = e.applied := (rfl)
@[simp] theorem Eng.setPort_window (e : Eng) (p : Nat) (q : Port) : (e.setPort p q).window = e.window := (rfl)
@[simp] theorem Eng.setPort_waits (e : Eng) (p : Nat) (q : Port) : (e.setPort p q).waits = e.waits := (rfl)
@[simp] theorem Eng.setPort_advs (e : Eng) (p : Nat) (q : Port) : (e.setPort p q).advs = e.advs := (rfl)
@[simp] theorem Eng.setPort_rings (e : Eng) (p : Nat) (q : Port) : (e.setPort p q).rings = e.rings := (rfl)
@[simp] theorem Eng.setPort_agrees (e : Eng) (p : Nat) (q : Port) : (e.setPort p q).agrees = e.agrees := (rfl)
@[simp] theorem Eng.setPort_early (e : Eng) (p : Nat) (q : Port) : (e.setPort p q).early = e.early := (rfl)
@[simp] theorem Eng.setPort_log (e : Eng) (p : Nat) (q : Port) : (e.setPort p q).log = e.log := (rfl)
@[simp] theorem Eng.setPort_mtx (e : Eng) (p : Nat) (q : Port) : (e.setPort p q).mtx = e.mtx := (rfl)
@[simp] theorem Eng.setPort_mrx (e : Eng) (p : Nat) (q : Port) : (e.setPort p q).mrx = e.mrx := (rfl)
@[simp] theorem Eng.setPort_mreq (e : Eng) (p : Nat) (q : Port) : (e.setPort p q).mreq = e.mreq := (rfl)
@[simp] theorem Eng.setPort_mcopy (e : Eng) (p : Nat) (q : Port) : (e.setPort p q).mcopy = e.mcopy := (rfl)
@[simp] theorem Eng.setPort_tier (e : Eng) (p : Nat) (q : Port) : (e.setPort p q).tier = e.tier := (rfl)
@[simp] theorem Eng.setPort_tierNo (e : Eng) (p : Nat) (q : Port) : (e.setPort p q).tierNo = e.tierNo := (rfl)
@[simp] theorem Eng.setPort_xfers (e : Eng) (p : Nat) (q : Port) : (e.setPort p q).xfers = e.xfers := (rfl)
@[simp] theorem Eng.setPort_xferNo (e : Eng) (p : Nat) (q : Port) : (e.setPort p q).xferNo = e.xferNo := (rfl)
@[simp] theorem Eng.setPort_taps (e : Eng) (p : Nat) (q : Port) : (e.setPort p q).taps = e.taps := (rfl)
@[simp] theorem Eng.setPort_sec (e : Eng) (p : Nat) (q : Port) : (e.setPort p q).sec = e.sec := (rfl)
@[simp] theorem Eng.setPort_loss (e : Eng) (p : Nat) (q : Port) : (e.setPort p q).loss = e.loss := (rfl)
@[simp] theorem Eng.setPort_thickDests (e : Eng) (p : Nat) (q : Port) : (e.setPort p q).thickDests = e.thickDests := (rfl)
@[simp] theorem Eng.setPort_hosted (e : Eng) (p : Nat) (q : Port) : (e.setPort p q).hosted = e.hosted := (rfl)
@[simp] theorem Eng.setPort_thickEnds (e : Eng) (p : Nat) (q : Port) : (e.setPort p q).thickEnds = e.thickEnds := (rfl)
@[simp] theorem Eng.setPort_rowSets (e : Eng) (p : Nat) (q : Port) : (e.setPort p q).rowSets = e.rowSets := (rfl)
@[simp] theorem Eng.setPort_gen0 (e : Eng) (p : Nat) (q : Port) : (e.setPort p q).gen0 = e.gen0 := (rfl)
@[simp] theorem Eng.setPort_digs (e : Eng) (p : Nat) (q : Port) : (e.setPort p q).digs = e.digs := (rfl)
@[simp] theorem Eng.setPort_hwc (e : Eng) (p : Nat) (q : Port) : (e.setPort p q).hwc = e.hwc := (rfl)
@[simp] theorem Eng.setPort_evac (e : Eng) (p : Nat) (q : Port) : (e.setPort p q).evac = e.evac := (rfl)
@[simp] theorem Eng.setPort_unrep (e : Eng) (p : Nat) (q : Port) : (e.setPort p q).unrep = e.unrep := (rfl)
@[simp] theorem Eng.setPort_miscorr (e : Eng) (p : Nat) (q : Port) : (e.setPort p q).miscorr = e.miscorr := (rfl)
@[simp] theorem Eng.setPort_prods (e : Eng) (p : Nat) (q : Port) : (e.setPort p q).prods = e.prods := (rfl)
@[simp] theorem Eng.setPort_inputs (e : Eng) (p : Nat) (q : Port) : (e.setPort p q).inputs = e.inputs := (rfl)
@[simp] theorem Eng.setPort_recons (e : Eng) (p : Nat) (q : Port) : (e.setPort p q).recons = e.recons := (rfl)
@[simp] theorem Eng.setPort_reconNo (e : Eng) (p : Nat) (q : Port) : (e.setPort p q).reconNo = e.reconNo := (rfl)
@[simp] theorem Eng.setPort_chains (e : Eng) (p : Nat) (q : Port) : (e.setPort p q).chains = e.chains := (rfl)
@[simp] theorem Eng.setPort_acc (e : Eng) (p : Nat) (q : Port) : (e.setPort p q).acc = e.acc := (rfl)
@[simp] theorem Eng.setPort_snaps (e : Eng) (p : Nat) (q : Port) : (e.setPort p q).snaps = e.snaps := (rfl)
@[simp] theorem Eng.setPort_builds (e : Eng) (p : Nat) (q : Port) : (e.setPort p q).builds = e.builds := (rfl)
@[simp] theorem Eng.setPort_drLoads (e : Eng) (p : Nat) (q : Port) : (e.setPort p q).drLoads = e.drLoads := (rfl)
@[simp] theorem Eng.setPort_drStore (e : Eng) (p : Nat) (q : Port) : (e.setPort p q).drStore = e.drStore := (rfl)
@[simp] theorem Eng.setPort_refs (e : Eng) (p : Nat) (q : Port) : (e.setPort p q).refs = e.refs := (rfl)
@[simp] theorem Eng.setPort_scrubs (e : Eng) (p : Nat) (q : Port) : (e.setPort p q).scrubs = e.scrubs := (rfl)
@[simp] theorem Eng.setPort_graft (e : Eng) (p : Nat) (q : Port) : (e.setPort p q).graft = e.graft := (rfl)
@[simp] theorem Eng.setPort_heats (e : Eng) (p : Nat) (q : Port) : (e.setPort p q).heats = e.heats := (rfl)
@[simp] theorem Eng.setPort_heldJoins (e : Eng) (p : Nat) (q : Port) : (e.setPort p q).heldJoins = e.heldJoins := (rfl)
@[simp] theorem Eng.setPort_held (e : Eng) (p : Nat) (q : Port) : (e.setPort p q).held = e.held := (rfl)
@[simp] theorem Eng.setPort_oldLost (e : Eng) (p : Nat) (q : Port) : (e.setPort p q).oldLost = e.oldLost := (rfl)
@[simp] theorem Eng.setPort_advised (e : Eng) (p : Nat) (q : Port) : (e.setPort p q).advised = e.advised := (rfl)
@[simp] theorem Eng.setPort_upd (e : Eng) (p : Nat) (q : Port) : (e.setPort p q).upd = e.upd := (rfl)
@[simp] theorem Eng.setPort_keep (e : Eng) (p : Nat) (q : Port) : (e.setPort p q).keep = e.keep := (rfl)
@[simp] theorem Eng.setPort_selfQ (e : Eng) (p : Nat) (q : Port) : (e.setPort p q).selfQ = e.selfQ := (rfl)
@[simp] theorem Eng.setPort_draining (e : Eng) (p : Nat) (q : Port) : (e.setPort p q).draining = e.draining := (rfl)
@[simp] theorem Eng.setPort_cuts (e : Eng) (p : Nat) (q : Port) : (e.setPort p q).cuts = e.cuts := (rfl)
@[simp] theorem Eng.setPort_late (e : Eng) (p : Nat) (q : Port) : (e.setPort p q).late = e.late := (rfl)
@[simp] theorem Eng.setPort_health (e : Eng) (p : Nat) (q : Port) : (e.setPort p q).health = e.health := (rfl)
@[simp] theorem Eng.setPort_edge (e : Eng) (p : Nat) (q : Port) : (e.setPort p q).edge = e.edge := (rfl)

/-! ### The engine before a command -/

@[simp] theorem quiet_free (s : State) : (quiet s).free = s.eng.free := (rfl)
@[simp] theorem quiet_regs (s : State) : (quiet s).regs = s.eng.regs := (rfl)
@[simp] theorem quiet_mem (s : State) : (quiet s).mem = s.eng.mem := (rfl)
@[simp] theorem quiet_ctxs (s : State) : (quiet s).ctxs = s.eng.ctxs := (rfl)
@[simp] theorem quiet_descs (s : State) : (quiet s).descs = s.eng.descs := (rfl)
@[simp] theorem quiet_progs (s : State) : (quiet s).progs = s.eng.progs := (rfl)
@[simp] theorem quiet_syncs (s : State) : (quiet s).syncs = s.eng.syncs := (rfl)
@[simp] theorem quiet_pins (s : State) : (quiet s).pins = s.eng.pins := (rfl)
@[simp] theorem quiet_fuses (s : State) : (quiet s).fuses = s.eng.fuses := (rfl)
@[simp] theorem quiet_boot (s : State) : (quiet s).boot = s.eng.boot := (rfl)
@[simp] theorem quiet_time (s : State) : (quiet s).time = s.eng.time := (rfl)
@[simp] theorem quiet_intr (s : State) : (quiet s).intr = s.eng.intr := (rfl)
@[simp] theorem quiet_q (s : State) : (quiet s).q = s.eng.q := (rfl)
@[simp] theorem quiet_rc (s : State) : (quiet s).rc = s.eng.rc := (rfl)
@[simp] theorem quiet_map (s : State) : (quiet s).map = s.eng.map := (rfl)
@[simp] theorem quiet_mgmt (s : State) : (quiet s).mgmt = s.eng.mgmt := (rfl)
@[simp] theorem quiet_sess (s : State) : (quiet s).sess = s.eng.sess := (rfl)
@[simp] theorem quiet_ports (s : State) : (quiet s).ports = s.eng.ports := (rfl)
@[simp] theorem quiet_linksDown (s : State) : (quiet s).linksDown = s.eng.linksDown := (rfl)
@[simp] theorem quiet_rgns (s : State) : (quiet s).rgns = s.eng.rgns := (rfl)
@[simp] theorem quiet_caps (s : State) : (quiet s).caps = s.eng.caps := (rfl)
@[simp] theorem quiet_sent (s : State) : (quiet s).sent = s.eng.sent := (rfl)
@[simp] theorem quiet_relSent (s : State) : (quiet s).relSent = s.eng.relSent := (rfl)
@[simp] theorem quiet_busy (s : State) : (quiet s).busy = s.eng.busy := (rfl)
@[simp] theorem quiet_dataAt (s : State) : (quiet s).dataAt = s.eng.dataAt := (rfl)
@[simp] theorem quiet_applied (s : State) : (quiet s).applied = s.eng.applied := (rfl)
@[simp] theorem quiet_window (s : State) : (quiet s).window = s.eng.window := (rfl)
@[simp] theorem quiet_waits (s : State) : (quiet s).waits = s.eng.waits := (rfl)
@[simp] theorem quiet_advs (s : State) : (quiet s).advs = s.eng.advs := (rfl)
@[simp] theorem quiet_rings (s : State) : (quiet s).rings = s.eng.rings := (rfl)
@[simp] theorem quiet_agrees (s : State) : (quiet s).agrees = s.eng.agrees := (rfl)
@[simp] theorem quiet_early (s : State) : (quiet s).early = s.eng.early := (rfl)
@[simp] theorem quiet_log (s : State) : (quiet s).log = s.eng.log := (rfl)
@[simp] theorem quiet_mtx (s : State) : (quiet s).mtx = s.eng.mtx := (rfl)
@[simp] theorem quiet_mrx (s : State) : (quiet s).mrx = s.eng.mrx := (rfl)
@[simp] theorem quiet_mreq (s : State) : (quiet s).mreq = s.eng.mreq := (rfl)
@[simp] theorem quiet_mcopy (s : State) : (quiet s).mcopy = s.eng.mcopy := (rfl)
@[simp] theorem quiet_tier (s : State) : (quiet s).tier = s.eng.tier := (rfl)
@[simp] theorem quiet_tierNo (s : State) : (quiet s).tierNo = s.eng.tierNo := (rfl)
@[simp] theorem quiet_xfers (s : State) : (quiet s).xfers = s.eng.xfers := (rfl)
@[simp] theorem quiet_xferNo (s : State) : (quiet s).xferNo = s.eng.xferNo := (rfl)
@[simp] theorem quiet_taps (s : State) : (quiet s).taps = s.eng.taps := (rfl)
@[simp] theorem quiet_sec (s : State) : (quiet s).sec = s.eng.sec := (rfl)
@[simp] theorem quiet_loss (s : State) : (quiet s).loss = s.eng.loss := (rfl)
@[simp] theorem quiet_thickDests (s : State) : (quiet s).thickDests = s.eng.thickDests := (rfl)
@[simp] theorem quiet_hosted (s : State) : (quiet s).hosted = s.eng.hosted := (rfl)
@[simp] theorem quiet_thickEnds (s : State) : (quiet s).thickEnds = s.eng.thickEnds := (rfl)
@[simp] theorem quiet_rowSets (s : State) : (quiet s).rowSets = s.eng.rowSets := (rfl)
@[simp] theorem quiet_gen0 (s : State) : (quiet s).gen0 = s.eng.gen0 := (rfl)
@[simp] theorem quiet_digs (s : State) : (quiet s).digs = s.eng.digs := (rfl)
@[simp] theorem quiet_hwc (s : State) : (quiet s).hwc = s.eng.hwc := (rfl)
@[simp] theorem quiet_evac (s : State) : (quiet s).evac = s.eng.evac := (rfl)
@[simp] theorem quiet_unrep (s : State) : (quiet s).unrep = s.eng.unrep := (rfl)
@[simp] theorem quiet_miscorr (s : State) : (quiet s).miscorr = s.eng.miscorr := (rfl)
@[simp] theorem quiet_prods (s : State) : (quiet s).prods = s.eng.prods := (rfl)
@[simp] theorem quiet_inputs (s : State) : (quiet s).inputs = s.eng.inputs := (rfl)
@[simp] theorem quiet_recons (s : State) : (quiet s).recons = s.eng.recons := (rfl)
@[simp] theorem quiet_reconNo (s : State) : (quiet s).reconNo = s.eng.reconNo := (rfl)
@[simp] theorem quiet_chains (s : State) : (quiet s).chains = s.eng.chains := (rfl)
@[simp] theorem quiet_acc (s : State) : (quiet s).acc = s.eng.acc := (rfl)
@[simp] theorem quiet_snaps (s : State) : (quiet s).snaps = s.eng.snaps := (rfl)
@[simp] theorem quiet_builds (s : State) : (quiet s).builds = s.eng.builds := (rfl)
@[simp] theorem quiet_drLoads (s : State) : (quiet s).drLoads = s.eng.drLoads := (rfl)
@[simp] theorem quiet_drStore (s : State) : (quiet s).drStore = s.eng.drStore := (rfl)
@[simp] theorem quiet_refs (s : State) : (quiet s).refs = s.eng.refs := (rfl)
@[simp] theorem quiet_scrubs (s : State) : (quiet s).scrubs = s.eng.scrubs := (rfl)
@[simp] theorem quiet_graft (s : State) : (quiet s).graft = s.eng.graft := (rfl)
@[simp] theorem quiet_heats (s : State) : (quiet s).heats = s.eng.heats := (rfl)
@[simp] theorem quiet_heldJoins (s : State) : (quiet s).heldJoins = s.eng.heldJoins := (rfl)
@[simp] theorem quiet_held (s : State) : (quiet s).held = s.eng.held := (rfl)
@[simp] theorem quiet_oldLost (s : State) : (quiet s).oldLost = s.eng.oldLost := (rfl)
@[simp] theorem quiet_advised (s : State) : (quiet s).advised = s.eng.advised := (rfl)
@[simp] theorem quiet_upd (s : State) : (quiet s).upd = s.eng.upd := (rfl)
@[simp] theorem quiet_keep (s : State) : (quiet s).keep = s.eng.keep := (rfl)
@[simp] theorem quiet_selfQ (s : State) : (quiet s).selfQ = s.eng.selfQ := (rfl)
@[simp] theorem quiet_draining (s : State) : (quiet s).draining = s.eng.draining := (rfl)
@[simp] theorem quiet_cuts (s : State) : (quiet s).cuts = s.eng.cuts := (rfl)
@[simp] theorem quiet_late (s : State) : (quiet s).late = s.eng.late := (rfl)
@[simp] theorem quiet_health (s : State) : (quiet s).health = s.eng.health := (rfl)
@[simp] theorem quiet_edge (s : State) : (quiet s).edge = s.eng.edge := (rfl)
@[simp] theorem quiet_now (s : State) : (quiet s).now = s.eng.now := (rfl)

end Sys2Proof.Machine
end

