-- ==== Sys2Proof/Laws/Tables.lean ====
section
/-!
SUPPORT. Sys2Proof/Laws/Tables.lean: what a table or a byte store answers after a change, and that every change keeps its canonical
form.
-/
namespace Sys2Proof.Machine

/-! ### Tables -/

@[simp] theorem look_put_same {α : Type} (m : SMap α) (x : Nat) (w : α) : look (put m x w) x = some w := by
  induction m with
  | nil => simp [put, look]
  | cons kv t ih =>
    simp only [put]
    split
    · simp [look]
    · split
      · simp [look]
      · rename_i h1 h2
        simp [look, h1, h2, ih]

theorem look_put_ne {α : Type} (m : SMap α) {x y : Nat} (w : α) (h : y ≠ x) : look (put m x w) y = look m y := by
  induction m with
  | nil => simp [put, look, h]
  | cons kv t ih =>
    simp only [put]
    split
    · rename_i hx; subst hx; simp [look, h]
    · split
      · rename_i h1 h2
        simp only [look, h, if_false]
        split
        · rename_i hlt
          have : ¬ y = kv.1 := by omega
          have : y < kv.1 := by omega
          simp [*]
        · rfl
      · simp only [look, ih]

theorem look_put {α : Type} (m : SMap α) (x y : Nat) (w : α) :
    look (put m x w) y = if y = x then some w else look m y := by
  by_cases h : y = x
  · subst h; simp
  · simp [look_put_ne, h]

/-- A key that a table lists is one that `look` finds in its sorted form. -/
theorem look_eq_some {α : Type} {m : SMap α} (h : SMap.Sorted m) {x : Nat} {w : α} : look m x = some w ↔ (x, w) ∈ m := by
  induction m with
  | nil => simp [look]
  | cons kv t ih =>
    have hs := List.pairwise_cons.1 h
    simp only [look]
    split
    · rename_i hx
      subst hx
      constructor
      · intro e; cases e; simp
      · intro e
        rcases List.mem_cons.1 e with e | e
        · rw [← e]
        · exact absurd (hs.1 _ e) (by simp)
    · rename_i hne
      split
      · rename_i hlt
        constructor
        · intro e; cases e
        · intro e
          rcases List.mem_cons.1 e with e | e
          · exact absurd (congrArg Prod.fst e) hne
          · have := hs.1 _ e; simp at this; omega
      · rw [ih hs.2]
        constructor
        · intro e; exact List.mem_cons.2 (.inr e)
        · intro e
          rcases List.mem_cons.1 e with e | e
          · exact absurd (congrArg Prod.fst e) hne
          · exact e

theorem mem_put {α : Type} {m : SMap α} {x : Nat} {w : α} {p : Nat × α} (h : p ∈ put m x w) : p = (x, w) ∨ p ∈ m := by
  induction m with
  | nil => simpa [put] using h
  | cons kv t ih =>
    simp only [put] at h
    split at h
    · rcases List.mem_cons.1 h with h | h
      · exact .inl h
      · exact .inr (List.mem_cons.2 (.inr h))
    · split at h
      · rcases List.mem_cons.1 h with h | h
        · exact .inl h
        · exact .inr h
      · rcases List.mem_cons.1 h with h | h
        · exact .inr (List.mem_cons.2 (.inl h))
        · exact (ih h).imp id (fun h => List.mem_cons.2 (.inr h))

theorem sorted_put {α : Type} {m : SMap α} (h : SMap.Sorted m) (x : Nat) (w : α) : SMap.Sorted (put m x w) := by
  induction m with
  | nil => simp [put, SMap.Sorted]
  | cons kv t ih =>
    have hs := List.pairwise_cons.1 h
    simp only [put]
    split
    · rename_i hx
      subst hx
      exact List.pairwise_cons.2 ⟨fun p hp => hs.1 p hp, hs.2⟩
    · split
      · rename_i h1 h2
        refine List.pairwise_cons.2 ⟨fun p hp => ?_, h⟩
        rcases List.mem_cons.1 hp with hp | hp
        · subst hp; exact h2
        · have := hs.1 p hp; simp only at *; omega
      · rename_i h1 h2
        refine List.pairwise_cons.2 ⟨fun p hp => ?_, ih hs.2⟩
        rcases mem_put hp with hp | hp
        · subst hp; simp only at *; omega
        · exact hs.1 p hp

theorem sorted_filter {α : Type} {m : SMap α} (h : SMap.Sorted m) (p : Nat × α → Bool) : SMap.Sorted (m.filter p) :=
  List.Pairwise.filter _ h

theorem sorted_cut {α : Type} {m : SMap α} (h : SMap.Sorted m) (x : Nat) : SMap.Sorted (cut m x) := sorted_filter h _

theorem look_filter {α : Type} {m : SMap α} (h : SMap.Sorted m) (p : Nat → Bool) (y : Nat) :
    look (m.filter (fun e => p e.1)) y = if p y then look m y else none := by
  apply Option.ext
  intro w
  rw [look_eq_some (sorted_filter h _)]
  by_cases hp : p y
  · simp [hp, look_eq_some h]
  · simp [hp]

theorem look_cut {α : Type} {m : SMap α} (h : SMap.Sorted m) (x y : Nat) :
    look (cut m x) y = if y = x then none else look m y := by
  have := look_filter h (fun k => k != x) y
  by_cases hy : y = x <;> simp_all [cut]

/-! ### Byte stores -/

theorem cells_ge (a : Nat) (bs : List Byte) : ∀ e ∈ cells a bs, a ≤ e.1 ∧ e.1 < a + bs.length ∧ e.2 ≠ 0 := by
  induction bs generalizing a with
  | nil => simp [cells]
  | cons b t ih =>
    intro e he
    simp only [cells] at he
    split at he
    · have := ih _ e he
      exact ⟨by omega, by simp only [List.length_cons]; omega, this.2.2⟩
    · rename_i hb
      rcases List.mem_cons.1 he with he | he
      · subst he; simpa using hb
      · have := ih _ e he
        refine ⟨by omega, by simp; omega, this.2.2⟩

theorem cells_sorted (a : Nat) (bs : List Byte) : SMap.Sorted (cells a bs) := by
  induction bs generalizing a with
  | nil => simp [cells, SMap.Sorted]
  | cons b t ih =>
    simp only [cells]
    split
    · exact ih _
    · exact List.pairwise_cons.2 ⟨fun e he => by have := (cells_ge _ _ e he).1; simp only; omega, ih _⟩

theorem byteAt_cells (a : Nat) (bs : List Byte) (y : Nat) :
    byteAt (cells a bs) y = if a ≤ y then bs.getD (y - a) 0 else 0 := by
  induction bs generalizing a with
  | nil => simp [cells, byteAt, look]
  | cons b t ih =>
    simp only [cells]
    split
    · rename_i hb
      rw [ih]
      by_cases h : y = a
      · subst h; simp [hb, show ¬ y + 1 ≤ y by omega]
      · by_cases h' : a ≤ y
        · obtain ⟨n, rfl⟩ : ∃ n, y = a + 1 + n := ⟨y - a - 1, by omega⟩
          simp [show a + 1 + n - a = n + 1 by omega, show a ≤ a + 1 + n by omega]
        · simp [h', show ¬ a + 1 ≤ y by omega]
    · have ih' := ih (a + 1)
      unfold byteAt at *
      simp only [look]
      by_cases h : y = a
      · subst h; simp
      · by_cases h' : a ≤ y
        · obtain ⟨n, rfl⟩ : ∃ n, y = a + 1 + n := ⟨y - a - 1, by omega⟩
          simp only [h, if_false, show ¬ a + 1 + n < a by omega, ih']
          simp [show a + 1 + n - a = n + 1 by omega, show a ≤ a + 1 + n by omega]
        · simp [h, h', show y < a by omega]

theorem splice_wf {m : SMap Byte} (h : Memory.wf m) (a : Nat) (bs : List Byte) : Memory.wf (splice m a bs) := by
  constructor
  · refine List.pairwise_append.2 ⟨sorted_filter h.1 _, List.pairwise_append.2 ⟨cells_sorted _ _, sorted_filter h.1 _, ?_⟩, ?_⟩
    · intro x hx y hy
      have := cells_ge _ _ x hx
      have := (List.mem_filter.1 hy).2
      simp only [decide_eq_true_eq] at this
      omega
    · intro x hx y hy
      have hx := (List.mem_filter.1 hx).2
      simp only [decide_eq_true_eq] at hx
      rcases List.mem_append.1 hy with hy | hy
      · have := cells_ge _ _ y hy; omega
      · have := (List.mem_filter.1 hy).2
        simp only [decide_eq_true_eq] at this
        omega
  · intro e he
    rcases List.mem_append.1 he with he | he
    · exact h.2 _ (List.mem_filter.1 he).1
    · rcases List.mem_append.1 he with he | he
      · exact (cells_ge _ _ e he).2.2
      · exact h.2 _ (List.mem_filter.1 he).1

theorem byteAt_eq {m m' : SMap Byte} (h : SMap.Sorted m) (h' : SMap.Sorted m') {y : Nat}
    (hm : ∀ w, (y, w) ∈ m ↔ (y, w) ∈ m') : byteAt m y = byteAt m' y := by
  have : look m y = look m' y := Option.ext (fun w => by rw [look_eq_some h, look_eq_some h', hm])
  simp [byteAt, this]

/-- A store that has been written reads as written inside the string, and as before outside it. -/
theorem byteAt_splice {m : SMap Byte} (h : Memory.wf m) (a : Nat) (bs : List Byte) (y : Nat) :
    byteAt (splice m a bs) y = if a ≤ y ∧ y < a + bs.length then bs.getD (y - a) 0 else byteAt m y := by
  have hw := splice_wf h a bs
  by_cases hin : a ≤ y ∧ y < a + bs.length
  · rw [if_pos hin, byteAt_eq hw.1 (cells_sorted a bs), byteAt_cells, if_pos hin.1]
    intro w
    simp only [splice, List.mem_append, List.mem_filter, decide_eq_true_eq]
    constructor
    · rintro (h | h | h)
      · omega
      · exact h
      · omega
    · exact fun h => .inr (.inl h)
  · rw [if_neg hin]
    refine byteAt_eq hw.1 h.1 (fun w => ?_)
    simp only [splice, List.mem_append, List.mem_filter, decide_eq_true_eq]
    constructor
    · rintro (h | h | h)
      · exact h.1
      · have := cells_ge _ _ _ h; omega
      · exact h.1
    · intro h
      by_cases hlt : y < a
      · exact .inl ⟨h, hlt⟩
      · exact .inr (.inr ⟨h, by omega⟩)

end Sys2Proof.Machine
end

