-- ==== Sys2Proof/Laws/Regs.lean ====
section
/-!
SUPPORT. Sys2Proof/Laws/Regs.lean: what a register field reads after an update, and that the register table keeps its order.
-/
namespace Sys2Proof.Machine

theorem Eng.rd_eq (e : Eng) (f : Fld) : e.rd f = (look e.regs f.key).getD f.reset := rfl

/-- Fields are read from the register table alone. -/
theorem Eng.rd_congr {e e' : Eng} (h : e.regs = e'.regs) (f : Fld) : e.rd f = e'.rd f := by rw [rd_eq, rd_eq, h]
theorem Eng.on_congr {e e' : Eng} (h : e.regs = e'.regs) (f : Fld) : e.on f = e'.on f := by simp only [Eng.on, rd_congr h]

theorem Eng.rd_wr (e : Eng) (f g : Fld) (v : Nat) :
    (e.wr f v).rd g = if g.key = f.key then v % 2 ^ f.width else e.rd g := by
  simp only [rd_eq, Eng.wr, look_put]
  split <;> simp

@[simp] theorem Eng.rd_wr_same (e : Eng) (f : Fld) (v : Nat) : (e.wr f v).rd f = v % 2 ^ f.width := by simp [rd_wr]
theorem Eng.rd_wr_ne (e : Eng) {f g : Fld} (v : Nat) (h : g.key ≠ f.key) : (e.wr f v).rd g = e.rd g := by simp [rd_wr, h]
theorem Eng.on_wr_ne (e : Eng) {f g : Fld} (v : Nat) (h : g.key ≠ f.key) : (e.wr f v).on g = e.on g := by
  simp only [Eng.on, rd_wr_ne e v h]

theorem Eng.rd_flag_ne (e : Eng) {f g : Fld} (b : Bool) (h : g.key ≠ f.key) : (e.flag f b).rd g = e.rd g := rd_wr_ne e _ h
theorem Eng.on_flag_ne (e : Eng) {f g : Fld} (b : Bool) (h : g.key ≠ f.key) : (e.flag f b).on g = e.on g := on_wr_ne e _ h
theorem Eng.rd_flag_same (e : Eng) (f : Fld) (b : Bool) : (e.flag f b).rd f = (if b then 1 else 0) % 2 ^ f.width := rd_wr_same e f _
theorem Eng.on_flag_same (e : Eng) {f : Fld} (b : Bool) (h : f.width ≠ 0) : (e.flag f b).on f = b := by
  have : 1 < 2 ^ f.width := Nat.one_lt_two_pow h
  cases b <;> simp [Eng.on, rd_flag_same, Nat.mod_eq_of_lt this]

theorem Eng.rd_bumpBy_ne (e : Eng) {f g : Fld} (n : Nat) (h : g.key ≠ f.key) : (e.bumpBy f n).rd g = e.rd g := rd_wr_ne e _ h
theorem Eng.on_bumpBy_ne (e : Eng) {f g : Fld} (n : Nat) (h : g.key ≠ f.key) : (e.bumpBy f n).on g = e.on g := on_wr_ne e _ h
theorem Eng.rd_bump_ne (e : Eng) {f g : Fld} (h : g.key ≠ f.key) : (e.bump f).rd g = e.rd g := rd_wr_ne e _ h
theorem Eng.on_bump_ne (e : Eng) {f g : Fld} (h : g.key ≠ f.key) : (e.bump f).on g = e.on g := on_wr_ne e _ h

/-- A counter that is advanced stops at all ones. -/
theorem Eng.rd_bumpBy_same (e : Eng) (f : Fld) (n : Nat) : (e.bumpBy f n).rd f = min (e.rd f + n) (2 ^ f.width - 1) := by
  have : 0 < 2 ^ f.width := Nat.two_pow_pos _
  rw [Eng.bumpBy, rd_wr_same, Nat.mod_eq_of_lt (by omega)]

@[simp] theorem Eng.rd_emit (e : Eng) (a : Action) (f : Fld) : (e.emit a).rd f = e.rd f := (rfl)
@[simp] theorem Eng.on_emit (e : Eng) (a : Action) (f : Fld) : (e.emit a).on f = e.on f := (rfl)
@[simp] theorem Eng.rd_memWrite (e : Eng) (a : Nat) (bs : List Byte) (f : Fld) : (e.memWrite a bs).rd f = e.rd f := (rfl)
@[simp] theorem Eng.on_memWrite (e : Eng) (a : Nat) (bs : List Byte) (f : Fld) : (e.memWrite a bs).on f = e.on f := (rfl)
@[simp] theorem Eng.rd_useFree (e : Eng) (n : Nat) (f : Fld) : (e.useFree n).rd f = e.rd f := (rfl)
@[simp] theorem Eng.on_useFree (e : Eng) (n : Nat) (f : Fld) : (e.useFree n).on f = e.on f := (rfl)

theorem Eng.wr_sorted {e : Eng} (h : SMap.Sorted e.regs) (f : Fld) (v : Nat) : SMap.Sorted (e.wr f v).regs := sorted_put h _ _

/-! ### The engine before a command -/

@[simp] theorem quiet_rd (s : State) (f : Fld) : (quiet s).rd f = s.eng.rd f := (rfl)
@[simp] theorem quiet_on (s : State) (f : Fld) : (quiet s).on f = s.eng.on f := (rfl)

/-! ### Effects over lists and under conditions -/

@[simp] theorem Eng.each_nil {α : Type} (e : Eng) (f : α → Eng → Eng) : e.each [] f = e := (rfl)
@[simp] theorem Eng.each_cons {α : Type} (e : Eng) (x : α) (xs : List α) (f : α → Eng → Eng) :
    e.each (x :: xs) f = (f x e).each xs f := (rfl)
@[simp] theorem Eng.when_true (e : Eng) (f : Eng → Eng) : e.when true f = f e := (rfl)
@[simp] theorem Eng.when_false (e : Eng) (f : Eng → Eng) : e.when false f = e := (rfl)

/-- What every effect of a list keeps, the list keeps. -/
theorem Eng.each_keeps {α : Type} {P : Eng → Prop} {f : α → Eng → Eng} (xs : List α)
    (h : ∀ x ∈ xs, ∀ e, P e → P (f x e)) {e : Eng} (he : P e) : P (e.each xs f) := by
  induction xs generalizing e with
  | nil => exact he
  | cons x t ih => exact ih (fun y hy => h y (List.mem_cons_of_mem _ hy)) (h x List.mem_cons_self _ he)

end Sys2Proof.Machine
end

