-- ==== Sys2Proof/Laws/Access.lean ====
section
/-!
SUPPORT. Sys2Proof/Laws/Access.lean: register accesses: what an access meets when its domain answers, and when it does not (R436).
-/
namespace Sys2Proof.Machine

@[simp] theorem State.run_eq (s : State) (f : Eng → Eng) : s.run f = leaving s (f (quiet s)) := (rfl)

@[simp] theorem leaving_pending (s : State) (e : Eng) : (leaving s e).pending = s.pending := (rfl)
@[simp] theorem leaving_eng (s : State) (e : Eng) : (leaving s e).eng = e := (rfl)

theorem answers_quiet (s : State) (d : Dom) : (quiet s).answers d = s.eng.answers d := rfl

/-- An access to a domain that answers. -/
theorem access_reached {s : State} {d : Dom} (h : s.eng.answers d = true) (f : Eng → Eng) :
    (quiet s).access d f = f (reached d s) := by
  have h' : (quiet s).answers d = true := h
  simp only [Eng.access, h', if_true, reached]
  rfl

/-- What the way in leaves of the coding core's reset. -/
@[simp] theorem reached_boot (d : Dom) (s : State) : (reached d s).boot = s.eng.boot := by
  unfold reached; split <;> rfl

/-- A change of a domain that takes writes. -/
theorem change_reached {s : State} {d : Dom} (h : takesWrites d s) (f : Eng → Eng) :
    (quiet s).change d f = f (reached d s) := by
  rw [Eng.change, access_reached h.1]
  cases d <;> simp_all [takesWrites]

/-- A write to a domain that takes writes. -/
theorem write_written {s : State} {d : Dom} (h : takesWrites d s) (flds : List Fld) (v : Nat) (f : Eng → Eng) :
    (quiet s).write d flds v f = f (written d flds v s) := change_reached h _

/-- The coding core takes no write in its reset (R450). -/
theorem change_lost {s : State} (h : s.eng.answers .coding = true) (hr : s.eng.boot.inReset = true) (f : Eng → Eng) :
    (quiet s).change .coding f = reached .coding s := by
  rw [Eng.change, access_reached h]
  simp [hr]

/-- An access to a domain that does not answer is an error response and nothing else (R436). -/
theorem access_refused {s : State} {d : Dom} (h : s.eng.answers d = false) (f : Eng → Eng) :
    (quiet s).access d f = (quiet s).emit .busError := by
  have h' : (quiet s).answers d = false := h
  simp [Eng.access, h']

theorem write_refused {s : State} {d : Dom} (h : s.eng.answers d = false) (flds : List Fld) (v : Nat) (f : Eng → Eng) :
    (quiet s).write d flds v f = (quiet s).emit .busError := by simp [Eng.write, Eng.change, access_refused h]

/-- What the way in changes of a register: GEN_PWR.ASLEEP, and GEN_ERR.RSVD_WR. -/
theorem reached_rd {d : Dom} {s : State} {f : Fld} (h1 : f.key ≠ Reg.GEN_PWR_ASLEEP.key) :
    (reached d s).rd f = s.eng.rd f := by
  unfold reached
  split
  · rw [Eng.startClocks, Eng.rd_flag_ne _ _ h1]; rfl
  · rfl

theorem written_rd {d : Dom} {s : State} {flds : List Fld} {v : Nat} {f : Fld} (h1 : f.key ≠ Reg.GEN_PWR_ASLEEP.key)
    (h3 : f.key ≠ Reg.GEN_ERR_RSVD_WR.key) : (written d flds v s).rd f = s.eng.rd f := by
  unfold written Eng.rsvdCheck
  split
  · rw [Eng.rd_flag_ne _ _ h3, reached_rd h1]
  · exact reached_rd h1

/-- An update of registers alone leaves the rest of the engine. -/
theorem reached_eq (d : Dom) (s : State) : reached d s = { quiet s with regs := (reached d s).regs } := by
  unfold reached; split <;> rfl

theorem written_eq (d : Dom) (flds : List Fld) (v : Nat) (s : State) :
    written d flds v s = { quiet s with regs := (written d flds v s).regs } := by
  have h := reached_eq d s
  unfold written Eng.rsvdCheck
  split
  · rw [h]; rfl
  · exact h

end Sys2Proof.Machine
end

