-- ==== Sys2Proof/Laws/Canonical.lean ====
section
/-! SUPPORT. Sys2Proof/Laws/Canonical.lean: stores in canonical form are equal data when they read alike. -/
namespace Sys2Proof.Machine

/-- Stores in canonical form that read alike are the same. -/
theorem wf_ext {m m' : SMap Byte} (h : Memory.wf m) (h' : Memory.wf m') (he : ∀ y, byteAt m y = byteAt m' y) : m = m' := by
  have hmem : ∀ {m : SMap Byte}, Memory.wf m → ∀ p, p ∈ m ↔ byteAt m p.1 = p.2 ∧ p.2 ≠ 0 := by
    intro m h p
    constructor
    · intro hp
      refine ⟨?_, h.2 p hp⟩
      have : look m p.1 = some p.2 := (look_eq_some h.1).2 hp
      simp [byteAt, this]
    · rintro ⟨h1, h2⟩
      unfold byteAt at h1
      cases hl : look m p.1 with
      | none => simp [hl] at h1; exact absurd h1.symm h2
      | some w =>
        simp [hl] at h1
        exact (look_eq_some h.1).1 (by rw [hl, h1])
  have hp : m.Perm m' := by
    refine (List.perm_ext_iff_of_nodup ?_ ?_).2 (fun p => by rw [hmem h, hmem h', he])
    · exact h.1.imp (fun {a b} hab => by rintro rfl; exact absurd hab (Nat.lt_irrefl _))
    · exact h'.1.imp (fun {a b} hab => by rintro rfl; exact absurd hab (Nat.lt_irrefl _))
  have hanti : ∀ a b : Nat × Byte, a ∈ m → b ∈ m' → a.1 < b.1 → b.1 < a.1 → a = b := fun a b _ _ h1 h2 => absurd h1 (by omega)
  exact List.Perm.eq_of_pairwise hanti h.1 h'.1 hp

end Sys2Proof.Machine
end

