-- ==== Sys2Proof/Laws/Crypto.lean ====
section
/-!
SUPPORT. Sys2Proof/Laws/Crypto.lean: the lengths of what the cipher yields, and that what is sealed opens again.
-/
namespace Sys2Proof.Machine

@[simp] theorem length_xorBytes (a b : List Byte) : (xorBytes a b).length = min a.length b.length := by simp [xorBytes]

theorem xorBytes_xorBytes {a b : List Byte} (h : a.length ≤ b.length) : xorBytes (xorBytes a b) b = a := by
  induction a generalizing b with
  | nil => simp [xorBytes]
  | cons x xs ih =>
    cases b with
    | nil => simp at h
    | cons y ys =>
      have h' : xs.length ≤ ys.length := by simpa using h
      have t := ih h'
      simp only [xorBytes, List.zipWith_cons_cons, BitVec.xor_assoc, BitVec.xor_self, BitVec.xor_zero] at *
      rw [t]

theorem natLe_length (w n : Nat) : (natLe w n).length = w := by
  induction w generalizing n with
  | zero => rfl
  | succ w ih => simp [natLe, ih]

theorem natBe_length (w n : Nat) : (natBe w n).length = w := by simp [natBe, natLe_length]

theorem natLe_leNat (bs : List Byte) : natLe bs.length (leNat bs) = bs := by
  induction bs with
  | nil => rfl
  | cons b t ih =>
    have h1 : byteOf (b.toNat + 256 * leNat t) = b := by
      apply BitVec.eq_of_toNat_eq
      simp [byteOf]
      exact b.isLt
    have h2 : (b.toNat + 256 * leNat t) / 256 = leNat t := by
      have := b.isLt
      omega
    simp [natLe, leNat, h1, h2, ih]

theorem leNat_lt (bs : List Byte) : leNat bs < 256 ^ bs.length := by
  induction bs with
  | nil => simp [leNat]
  | cons b t ih =>
    have := b.isLt
    simp only [leNat, List.length_cons, Nat.pow_succ]
    omega

theorem beNat_eq (bs : List Byte) : beNat bs = leNat bs.reverse := by
  have g : ∀ (bs acc : List Byte), bs.foldl (fun a b => 256 * a + b.toNat) (leNat acc) = leNat (bs.reverse ++ acc) := by
    intro bs
    induction bs with
    | nil => intro acc; rfl
    | cons b t ih =>
      intro acc
      have : 256 * leNat acc + b.toNat = leNat (b :: acc) := by simp [leNat]; omega
      simp [List.foldl_cons, this, ih]
  show List.foldl _ 0 bs = _
  simpa [leNat] using g bs []

theorem natBe_beNat (bs : List Byte) : natBe bs.length (beNat bs) = bs := by
  rw [beNat_eq, natBe, ← List.length_reverse, natLe_leNat, List.reverse_reverse]

theorem beNat_lt (bs : List Byte) : beNat bs < 256 ^ bs.length := by
  rw [beNat_eq, ← List.length_reverse]
  exact leNat_lt _

/-! ### Streams -/

/-- The stream of a block function over the chunks of a string, from a block number on. -/
theorem stream_spec (f : Nat → List Byte) (hf : ∀ k, (f k).length = 16) (fuel : Nat) : ∀ (k : Nat) (bs : List Byte),
    bs.length ≤ 16 * fuel →
    let s := fun (bs : List Byte) => ((chunksOf 16 fuel bs).zipIdx k).flatMap (fun c => xorBytes c.1 (f c.2))
    (s bs).length = bs.length ∧ s (s bs) = bs := by
  induction fuel with
  | zero =>
    intro k bs h
    have : bs = [] := by simpa using h
    simp [this, chunksOf]
  | succ n ih =>
    intro k bs h
    have step : ∀ xs : List Byte, xs ≠ [] →
        ((chunksOf 16 (n + 1) xs).zipIdx k).flatMap (fun c => xorBytes c.1 (f c.2)) =
          xorBytes (xs.take 16) (f k) ++ ((chunksOf 16 n (xs.drop 16)).zipIdx (k + 1)).flatMap (fun c => xorBytes c.1 (f c.2)) := by
      intro xs hx
      have : xs.isEmpty = false := by cases xs <;> simp_all
      simp [chunksOf, this, List.zipIdx_cons]
    by_cases hb : bs = []
    · subst hb
      simp [chunksOf]
    · obtain ⟨l, e⟩ := ih (k + 1) (bs.drop 16) (by simp; omega)
      simp only at l e
      have hp : (xorBytes (bs.take 16) (f k)).length = min 16 bs.length := by simp [hf]
      simp only
      rw [step bs hb]
      have ll : (xorBytes (bs.take 16) (f k) ++
          ((chunksOf 16 n (bs.drop 16)).zipIdx (k + 1)).flatMap (fun c => xorBytes c.1 (f c.2))).length = bs.length := by
        rw [List.length_append, hp, l, List.length_drop]; omega
      refine ⟨ll, ?_⟩
      rw [step _ (by intro c; rw [c] at ll; exact hb (List.length_eq_zero_iff.mp ll.symm))]
      have tk : (xorBytes (bs.take 16) (f k) ++
          ((chunksOf 16 n (bs.drop 16)).zipIdx (k + 1)).flatMap (fun c => xorBytes c.1 (f c.2))).take 16
            = xorBytes (bs.take 16) (f k) := by
        by_cases h16 : 16 ≤ bs.length
        · exact List.take_left' (by omega)
        · have : bs.drop 16 = [] := List.drop_eq_nil_of_le (by omega)
          rw [this] at l ⊢
          have z : ((chunksOf 16 n ([] : List Byte)).zipIdx (k + 1)).flatMap (fun c => xorBytes c.1 (f c.2)) = [] :=
            List.length_eq_zero_iff.mp (by simpa using l)
          rw [z, List.append_nil]
          exact List.take_of_length_le (by omega)
      have dr : (xorBytes (bs.take 16) (f k) ++
          ((chunksOf 16 n (bs.drop 16)).zipIdx (k + 1)).flatMap (fun c => xorBytes c.1 (f c.2))).drop 16
            = ((chunksOf 16 n (bs.drop 16)).zipIdx (k + 1)).flatMap (fun c => xorBytes c.1 (f c.2)) := by
        by_cases h16 : 16 ≤ bs.length
        · exact List.drop_left' (by omega)
        · have : bs.drop 16 = [] := List.drop_eq_nil_of_le (by omega)
          rw [this] at l ⊢
          have z : ((chunksOf 16 n ([] : List Byte)).zipIdx (k + 1)).flatMap (fun c => xorBytes c.1 (f c.2)) = [] :=
            List.length_eq_zero_iff.mp (by simpa using l)
          rw [z]
          exact List.drop_eq_nil_of_le (by simp [hp] <;> omega)
      rw [tk, dr, e, xorBytes_xorBytes (by simp [hf] <;> omega), List.take_append_drop]

/-! ### The block cipher -/

theorem aesSched_spec (n : Nat) : ∀ (i rcon : Nat) (w : List (List Nat)), 8 ≤ w.length → (∀ r ∈ w, r.length = 4) →
    (aesSched n i rcon w).length = w.length + n ∧ ∀ r ∈ aesSched n i rcon w, r.length = 4 := by
  induction n with
  | zero => intro i rcon w _ h; exact ⟨rfl, h⟩
  | succ n ih =>
    intro i rcon w hw h
    have at_ : ∀ j, j < 8 → (w.getD j []).length = 4 := by
      intro j hj
      rw [List.getD_eq_getElem?_getD, List.getElem?_eq_getElem (by omega), Option.getD_some]
      exact h _ (List.getElem_mem _)
    have h0 := at_ 0 (by omega)
    have h7 := at_ 7 (by omega)
    have q : ∀ (t : List Nat) (rc : Nat), t.length = 4 →
        (aesSched n (i + 1) rc (List.zipWith (· ^^^ ·) (w.getD 7 []) t :: w)).length = w.length + (n + 1) ∧
        ∀ r ∈ aesSched n (i + 1) rc (List.zipWith (· ^^^ ·) (w.getD 7 []) t :: w), r.length = 4 := by
      intro t rc ht
      obtain ⟨a, b⟩ := ih (i + 1) rc (List.zipWith (· ^^^ ·) (w.getD 7 []) t :: w) (by simp; omega) (by
        intro r hr
        rcases List.mem_cons.mp hr with rfl | hr
        · rw [List.length_zipWith, h7, ht]; rfl
        · exact h r hr)
      exact ⟨by rw [a]; simp; omega, b⟩
    rw [aesSched]
    refine q _ _ ?_
    by_cases c : i % 8 = 0
    · rw [if_pos c]; rfl
    · rw [if_neg c]
      by_cases d : i % 8 = 4
      · rw [if_pos d, List.length_map, h0]
      · rw [if_neg d, h0]

theorem chunksOf_four {α : Type} (m : Nat) : ∀ (xs : List α), xs.length = 4 * m →
    (chunksOf 4 m xs).length = m ∧ ∀ r ∈ chunksOf 4 m xs, r.length = 4 ∧ ∀ x ∈ r, x ∈ xs := by
  induction m with
  | zero => intro xs _; simp [chunksOf]
  | succ m ih =>
    intro xs h
    have ne : xs.isEmpty = false := by cases xs <;> simp_all
    obtain ⟨a, b⟩ := ih (xs.drop 4) (by simp; omega)
    simp only [chunksOf, ne, Bool.false_eq_true, if_false]
    refine ⟨by simp [a], ?_⟩
    intro r hr
    rcases List.mem_cons.mp hr with rfl | hr
    · exact ⟨by simp; omega, fun x hx => List.mem_of_mem_take hx⟩
    · exact ⟨(b r hr).1, fun x hx => List.mem_of_mem_drop ((b r hr).2 x hx)⟩

theorem flatMap_length {α β : Type} {f : α → List β} {n : Nat} (xs : List α) (h : ∀ x ∈ xs, (f x).length = n) :
    (xs.flatMap f).length = n * xs.length := by
  induction xs with
  | nil => simp
  | cons x xs ih =>
    simp [List.flatMap_cons, h x (by simp), ih (fun y hy => h y (by simp [hy])), Nat.mul_add]; omega

/-- A key of 32 bytes has 15 round keys of 16 bytes. -/
theorem aesKeys_spec {key : List Byte} (h : key.length = 32) :
    (aesKeys key).length = 15 ∧ ∀ k ∈ aesKeys key, k.length = 16 := by
  obtain ⟨a, b⟩ := chunksOf_four 8 (key.map (·.toNat)) (by simp [h])
  obtain ⟨c, d⟩ := aesSched_spec 52 8 1 (chunksOf 4 8 (key.map (·.toNat))).reverse (by simp [a])
    (by intro r hr; exact (b r (by simpa using hr)).1)
  obtain ⟨x, y⟩ := chunksOf_four 15 (aesSched 52 8 1 (chunksOf 4 8 (key.map (·.toNat))).reverse).reverse (by simp [c, a])
  refine ⟨by simp [aesKeys, x], ?_⟩
  intro k hk
  simp only [aesKeys, List.mem_map] at hk
  obtain ⟨r, hr, rfl⟩ := hk
  rw [flatMap_length (f := id) (n := 4) r (fun z hz => d z (by simpa using (y r hr).2 z hz)), (y r hr).1]

theorem aesRounds_length (ks : List (List Nat)) : ∀ s, ks ≠ [] → (∀ k ∈ ks, k.length = 16) → (aesRounds ks s).length = 16 := by
  induction ks with
  | nil => intro s h; exact absurd rfl h
  | cons k t ih =>
    intro s _ h
    cases t with
    | nil => simp [aesRounds, aesSubShift, h k (by simp)]
    | cons k' t' => exact ih _ (by simp) (fun r hr => h r (by simp [hr]))

theorem aesBlock_length {key : List Byte} (h : key.length = 32) (blk : List Byte) : (aesBlock (aesKeys key) blk).length = 16 := by
  obtain ⟨l, w⟩ := aesKeys_spec h
  cases e : aesKeys key with
  | nil => rw [e] at l; simp at l
  | cons k t =>
    rw [e] at l w
    simp only [aesBlock, List.length_map]
    exact aesRounds_length t _ (by intro z; rw [z] at l; simp at l) (fun r hr => w r (by simp [hr]))

/-! ### Hashes -/

theorem sha512Step_length {v : List Nat} (kw : Nat × Nat) (h : v.length = 8) : (sha512Step v kw).length = 8 := by
  match v, h with
  | [_, _, _, _, _, _, _, _], _ => simp [sha512Step]

theorem foldl_keeps {α β : Type} {P : α → Prop} {f : α → β → α} (hf : ∀ a b, P a → P (f a b)) (xs : List β) :
    ∀ a, P a → P (xs.foldl f a) := by
  induction xs with
  | nil => intro a h; exact h
  | cons x xs ih => intro a h; exact ih _ (hf a x h)

theorem sha512Block_length {h : List Nat} (blk : List Byte) (hl : h.length = 8) : (sha512Block h blk).length = 8 := by
  simp only [sha512Block, List.length_zipWith, hl]
  rw [foldl_keeps (P := fun v : List Nat => v.length = 8) (fun a b => sha512Step_length b) _ h hl]
  rfl

theorem sha384_length (m : List Byte) : (sha384 m).length = 48 := by
  have l := foldl_keeps (P := fun v : List Nat => v.length = 8) (fun a b => sha512Block_length b)
  simp only [sha384]
  rw [flatMap_length (n := 8) _ (fun x _ => natBe_length 8 x), List.length_take, l _ _ rfl]
  rfl

/-- A derived key has 32 bytes. -/
theorem kdf_length (key : List Byte) (label : String) (context : List Byte) : (kdf key label context).length = 32 := by
  simp [kdf, hmacSha384, hmac, sha384_length]

/-! ### GCM -/

theorem gcmStream_length {key : List Byte} (h : key.length = 32) (iv bs : List Byte) :
    (gcmStream (aesKeys key) iv bs).length = bs.length :=
  (stream_spec (fun k => aesBlock (aesKeys key) (iv ++ natBe 4 (k + 2))) (fun _ => aesBlock_length h _)
    (bs.length / 16 + 1) 0 bs (by omega)).1

theorem gcmStream_twice {key : List Byte} (h : key.length = 32) (iv bs : List Byte) :
    gcmStream (aesKeys key) iv (gcmStream (aesKeys key) iv bs) = bs := by
  have l := gcmStream_length h iv bs
  have t := (stream_spec (fun k => aesBlock (aesKeys key) (iv ++ natBe 4 (k + 2))) (fun _ => aesBlock_length h _)
    (bs.length / 16 + 1) 0 bs (by omega)).2
  simp only at t
  unfold gcmStream at l ⊢
  rw [l]
  exact t

theorem gcmTag_length {key : List Byte} (h : key.length = 32) (iv aad ct : List Byte) :
    (gcmTag (aesKeys key) iv aad ct).length = 16 := by
  simp [gcmTag, aesBlock_length h, natBe_length]

/-- What is sealed under a 32-byte key opens under it, with the same IV and additional data. -/
theorem gcmOpen_gcmSeal {key : List Byte} (h : key.length = 32) (iv aad pt : List Byte) :
    gcmOpen key iv aad (gcmSeal key iv aad pt).1 (gcmSeal key iv aad pt).2 = some pt := by
  simp [gcmOpen, gcmSeal, gcmStream_twice h]

/-- A tag survives its passage as a 128-bit number. -/
theorem natBe_tag {tag : List Byte} (h : tag.length = 16) : natBe 16 (BitVec.ofNat 128 (beNat tag)).toNat = tag := by
  have l := beNat_lt tag
  rw [h] at l
  rw [BitVec.toNat_ofNat, Nat.mod_eq_of_lt (by simpa using l), ← h, natBe_beNat]

end Sys2Proof.Machine
end

