-- ==== Sys2Proof/Laws/Memory.lean ====
section
/-!
SUPPORT. Sys2Proof/Laws/Memory.lean: local memory after a write: what it reads, and that every memory operation keeps the canonical
form.
-/
namespace Sys2Proof.Machine

theorem Eng.memWrite_wf {e : Eng} (h : Memory.wf e.mem) (a : Nat) (bs : List Byte) : Memory.wf (e.memWrite a bs).mem :=
  splice_wf h a bs

theorem Eng.memXor_wf {e : Eng} (h : Memory.wf e.mem) (a : Nat) (bs : List Byte) : Memory.wf (e.memXor a bs).mem :=
  splice_wf h a _

/-- A byte after a write: the written one inside the string, the old one outside it. -/
theorem Eng.memByte_memWrite {e : Eng} (h : Memory.wf e.mem) (a : Nat) (bs : List Byte) (y : Nat) :
    (e.memWrite a bs).memByte y = if a ≤ y ∧ y < a + bs.length then bs.getD (y - a) 0 else e.memByte y :=
  byteAt_splice h a bs y

theorem Eng.memByte_memWrite_out {e : Eng} (h : Memory.wf e.mem) {a : Nat} {bs : List Byte} {y : Nat}
    (hy : y < a ∨ a + bs.length ≤ y) : (e.memWrite a bs).memByte y = e.memByte y := by
  rw [memByte_memWrite h, if_neg (by omega)]

theorem Eng.memRead_eq {e e' : Eng} {a n : Nat} (h : ∀ i < n, e.memByte (a + i) = e'.memByte (a + i)) :
    e.memRead a n = e'.memRead a n := by
  refine List.map_congr_left (fun i hi => ?_)
  exact h i (List.mem_range.1 hi)

/-- What has been written is what is read. -/
theorem Eng.memRead_memWrite {e : Eng} (h : Memory.wf e.mem) (a : Nat) (bs : List Byte) :
    (e.memWrite a bs).memRead a bs.length = bs := by
  refine List.ext_getElem (by simp [Eng.memRead, bytesAt]) (fun i h1 h2 => ?_)
  have hb := memByte_memWrite h a bs (a + i)
  rw [if_pos (by omega)] at hb
  simp only [Eng.memRead, bytesAt, List.getElem_map, List.getElem_range]
  simp only [Eng.memByte] at hb
  rw [hb]
  simp [List.getD_eq_getElem?_getD, h2]

theorem Eng.memRead_memWrite_out {e : Eng} (h : Memory.wf e.mem) {a b n : Nat} {bs : List Byte}
    (hd : b + n ≤ a ∨ a + bs.length ≤ b) : (e.memWrite a bs).memRead b n = e.memRead b n :=
  memRead_eq (fun i hi => memByte_memWrite_out h (by omega))

@[simp] theorem Eng.memRead_length (e : Eng) (a n : Nat) : (e.memRead a n).length = n := by simp [Eng.memRead, bytesAt]

@[simp] theorem xorBytes_length (a b : List Byte) : (xorBytes a b).length = min a.length b.length := by simp [xorBytes]

/-- XOR of a string with itself twice gives it back. -/
theorem xorBytes_cancel {a b : List Byte} (h : a.length = b.length) : xorBytes (xorBytes a b) b = a := by
  induction a generalizing b with
  | nil => simp [xorBytes]
  | cons x t ih =>
    cases b with
    | nil => simp at h
    | cons y u =>
      have := ih (by simpa using h)
      simp only [xorBytes, List.zipWith_cons_cons] at *
      rw [this, BitVec.xor_assoc, BitVec.xor_self]
      simp

theorem xorBytes_comm (a b : List Byte) : xorBytes a b = xorBytes b a :=
  List.zipWith_comm_of_comm (fun x y => BitVec.xor_comm x y)

end Sys2Proof.Machine
end

