-- ==== Sys2Proof/Laws/PerInstr.lean ====
section
/-!
SUPPORT. Sys2Proof/Laws/PerInstr.lean: the family `Shape`, one lemma per command: every packet that a well-formed command brings
has whole lines as its payload, at most a sector of them (R107).
-/
namespace Sys2Proof.Laws.Shape

/-- The packets that a command brings. -/
def packets : Instr → List SapPkt
  | .registerWrite _ _ _ => []
  | .badRegisterAccess _ _ _ _ => []
  | .descriptorWrite _ _ _ => []
  | .descriptorValid _ => []
  | .programStoreWrite _ _ _ => []
  | .programSlotValid _ _ => []
  | .startLock _ => []
  | .rollCallRecord _ _ _ _ => []
  | .rollCallResend _ => []
  | .rollCallTimeout => []
  | .mapArm _ => []
  | .mapWrite _ _ _ _ => []
  | .mapChildTimeout _ => []
  | .mapWaitExpiry => []
  | .mapFetchComplete _ => []
  | .coreReset _ => []
  | .coreResumed _ _ => []
  | .cryptoReset _ _ => []
  | .watchdogExpiry => []
  | .pruneCluster _ => []
  | .pruneLane _ => []
  | .unprune _ => []
  | .clusterFault _ => []
  | .sleepRequest _ => []
  | .fastClockWake _ => []
  | .zeroizeCommand _ => []
  | .portRetrain _ _ => []
  | .portTestRun _ _ => []
  | .boundaryDeclare _ => []
  | .jobRiskWrite _ => []
  | .timeCorrection _ => []
  | .timeRead => []
  | .alarmSet _ => []
  | .timeAlarm => []
  | .ppsEdge => []
  | .ppsLost => []
  | .gcountDelivery _ => []
  | .gcntLost => []
  | .syncSignal _ => []
  | .syncSet _ => []
  | .watchEnable _ _ => []
  | .groupCoalesceTimer _ => []
  | .holdoffEnd _ => []
  | .groupUnmask _ _ => []
  | .interruptClaim _ => []
  | .interruptComplete _ _ => []
  | .doorbell _ _ => []
  | .queueEnable _ _ => []
  | .queueDisable _ _ => []
  | .commandAccept _ _ => []
  | .commandTimeout _ => []
  | .mailboxHeaderRead _ => []
  | .mailboxAck _ => []
  | .ledgerLatch _ => []
  | .nop _ => []
  | .ringOpen _ _ => []
  | .ringSeal _ _ _ => []
  | .ringCommit _ _ => []
  | .ringRollback _ _ _ => []
  | .stepRetire _ _ => []
  | .stepRetirement => []
  | .updateRun _ _ => []
  | .runResume _ _ => []
  | .runCancel _ _ => []
  | .graftBegin _ _ => []
  | .graftBeginStandby _ _ => []
  | .resumeSet _ _ _ => []
  | .evacuateCopy _ _ => []
  | .evacuateCutover _ _ => []
  | .evacuateAbort _ _ => []
  | .scrubRange _ _ _ _ _ => []
  | .anchorWrite _ _ => []
  | .anchorCancel _ _ => []
  | .anchorRestore _ _ => []
  | .reLeaf _ _ _ _ => []
  | .adopt _ _ => []
  | .tensorDigest _ _ => []
  | .statusGet _ => []
  | .viewSet _ _ _ => []
  | .viewGet _ _ => []
  | .keyChallenge _ => []
  | .keyLoad _ _ => []
  | .keyZeroize _ => []
  | .setEndpointId _ _ => []
  | .getEndpointId => []
  | .getMctpVersionSupport _ => []
  | .getMessageTypeSupport => []
  | .foreignVendorMessage _ _ => []
  | .pathDisagree _ => []
  | .tapPair _ _ _ _ _ => []
  | .captureIdleClose _ _ _ _ => []
  | .barkCorrectedReport _ _ => []
  | .referredRead _ _ _ _ => []
  | .heatSample _ => []
  | .heatDecaySweep => []
  | .heatQuery _ => []
  | .holdQuery _ _ _ _ => []
  | .memoryReadComplete _ _ _ => []
  | .memoryWriteResponse _ _ _ => []
  | .readSlow _ _ => []
  | .stackReady _ _ => []
  | .memReadyTimeout => []
  | .fillComplete _ => []
  | .shareWindow _ _ => []
  | .shareLoopDecision _ _ => []
  | .sramPatrol _ _ => []
  | .intakeRecord _ _ => []
  | .chunkComplete _ _ _ => []
  | .spanUnblock _ _ => []
  | .tierDone _ => []
  | .flushLate => []
  | .tierLate _ => []
  | .streamDelta p => [p]
  | .ringDelta p => [p]
  | .deltaAck p => [p]
  | .deltaRelease p => [p]
  | .deltaBusy p => [p]
  | .heldPacketResume => []
  | .ackDeadlineMiss _ _ => []
  | .packetResend _ _ => []
  | .releaseTimer _ _ _ => []
  | .localSeal => []
  | .sealVote p => [p]
  | .voteReq p => [p]
  | .sealTimeout _ => []
  | .commitLate => []
  | .ringStall => []
  | .ringApplyEnd => []
  | .rollFetch p => [p]
  | .rollData p => [p]
  | .rollEnd p => [p]
  | .rollNone p => [p]
  | .mirrorData p => [p]
  | .mirrorDone p => [p]
  | .mirrorAck p => [p]
  | .mirrorTorn p => [p]
  | .mirrorAckTimeout _ _ _ => []
  | .mirrorRead p => [p]
  | .mirrorLines p => [p]
  | .mirrorNone p => [p]
  | .mirrorReadRetry _ => []
  | .classProd p => [p]
  | .prodAck p => [p]
  | .logData p => [p]
  | .logScalar p => [p]
  | .logAck p => [p]
  | .logRetire p => [p]
  | .pointReport p => [p]
  | .pointDecide p => [p]
  | .pointDone p => [p]
  | .pointSettled p => [p]
  | .pointTimeout _ => []
  | .heartbeatTimer => []
  | .heartbeat p => [p]
  | .memberSilent _ => []
  | .lossNotice p => [p]
  | .rbReq p => [p]
  | .rbPart p => [p]
  | .rbDone p => [p]
  | .rbCredit p => [p]
  | .rbChunkTimeout _ => []
  | .accFallback _ => []
  | .degradedRead _ _ _ _ _ => []
  | .degradedReadTimeout _ => []
  | .graftJoin p => [p]
  | .graftWelcome p => [p]
  | .graftCount p => [p]
  | .graftPhase p => [p]
  | .snapNote p => [p]
  | .thickNote p => [p]
  | .heatCopy p => [p]
  | .evacData p => [p]
  | .evacState p => [p]
  | .evacReady => []
  | .handover p => [p]
  | .riskEvaluation => []
  | .rateBucketTick => []
  | .laneReport _ _ _ _ => []
  | .wearSample _ => []
  | .droopWarn => []
  | .droopRecover _ => []
  | .linkLoopDecision _ => []
  | .anchorDueTimer => []
  | .storageWriteComplete _ => []
  | .storageRetry => []
  | .weightDigest => []
  | .digestRecompute _ => []
  | .powerGood _ _ _ _ _ => []
  | .powerLoss => []
  | .selfTestFail _ => []
  | .computeReset => []
  | .computeResetRelease => []
  | .tamper => []
  | .flashShareRequest _ => []
  | .portTrainingStep _ _ _ _ => []
  | .linkReset _ => []
  | .laneLockLoss _ _ => []
  | .dataFlit _ _ _ => []
  | .abortFlit _ _ _ => []
  | .relayStall _ _ _ => []
  | .init _ _ _ _ => []
  | .id _ _ _ _ => []
  | .width _ _ _ _ _ => []
  | .retryReq _ _ => []
  | .retryReqRepeat _ => []
  | .ack _ _ => []
  | .ackTimer _ => []
  | .credit _ _ _ _ => []
  | .restripe _ _ _ => []
  | .lowReq _ => []
  | .lowAck _ => []
  | .lowNak _ => []
  | .wake _ _ => []
  | .wakeComplete _ => []
  | .wakeLockTimeout _ _ => []
  | .beat _ _ => []
  | .lowLinkSilence _ => []
  | .spillWrite _ _ _ p => [p]
  | .routeWrite _ _ _ p => [p]
  | .portIdleTimer _ => []
  | .beatTimer _ => []
  | .deltaBusyEnd _ => []
  | .rollFetchTimeout _ _ _ => []
  | .referredReadLimit _ _ => []
  | .mapFetchRetry => []
  | .storageReadComplete _ => []
  | .timeSlewEnd => []
  | .prbsLockTimeout _ _ => []
  | .badMsg _ _ => []
  | .dynamicAddressAssignment _ => []
  | .wrapperInstructionLoad _ => []
  | .instrumentAccess _ _ _ => []

/-- Each packet of a well-formed command has a payload of whole lines, of at most 4,096 B. -/
def Statement (i : Instr) : Prop :=
  WellFormed i = true → ∀ p ∈ packets i, p.body.length % 64 = 0 ∧ p.body.length ≤ 4096

theorem of_wf {p q : SapPkt} (h : q.wf = true) (m : p ∈ [q]) : p.body.length % 64 = 0 ∧ p.body.length ≤ 4096 := by
  cases List.mem_singleton.mp m
  simpa [SapPkt.wf] using h

theorem registerWrite (_off : Nat) (_wide : Bool) (_v : DWord) : Statement (.registerWrite _off _wide _v) := fun _ _ m => nomatch m
theorem badRegisterAccess (_wr : Bool) (_off : Nat) (_bytes : Nat) (_v : DWord) : Statement (.badRegisterAccess _wr _off _bytes _v) := fun _ _ m => nomatch m
theorem descriptorWrite (_off : Nat) (_wide : Bool) (_v : DWord) : Statement (.descriptorWrite _off _wide _v) := fun _ _ m => nomatch m
theorem descriptorValid (_n : BitVec 12) : Statement (.descriptorValid _n) := fun _ _ m => nomatch m
theorem programStoreWrite (_off : Nat) (_wide : Bool) (_v : DWord) : Statement (.programStoreWrite _off _wide _v) := fun _ _ m => nomatch m
theorem programSlotValid (_slot : Fin 16) (_v : Word) : Statement (.programSlotValid _slot _v) := fun _ _ m => nomatch m
theorem startLock (_v : Word) : Statement (.startLock _v) := fun _ _ m => nomatch m
theorem rollCallRecord (_key : Word) (_requester : Place) (_pos : Fin 16) (_rec : List Byte) : Statement (.rollCallRecord _key _requester _pos _rec) := fun _ _ m => nomatch m
theorem rollCallResend (_completed : List (Fin 16)) : Statement (.rollCallResend _completed) := fun _ _ m => nomatch m
theorem rollCallTimeout : Statement (.rollCallTimeout) := fun _ _ m => nomatch m
theorem mapArm (_v : Word) : Statement (.mapArm _v) := fun _ _ m => nomatch m
theorem mapWrite (_key : Word) (_requester : Place) (_off : Nat) (_data : List Byte) : Statement (.mapWrite _key _requester _off _data) := fun _ _ m => nomatch m
theorem mapChildTimeout (_child : Nat) : Statement (.mapChildTimeout _child) := fun _ _ m => nomatch m
theorem mapWaitExpiry : Statement (.mapWaitExpiry) := fun _ _ m => nomatch m
theorem mapFetchComplete (_data : Option (List Byte)) : Statement (.mapFetchComplete _data) := fun _ _ m => nomatch m
theorem coreReset (_v : Word) : Statement (.coreReset _v) := fun _ _ m => nomatch m
theorem coreResumed (_shadowOk : Bool) (_micros : Nat) : Statement (.coreResumed _shadowOk _micros) := fun _ _ m => nomatch m
theorem cryptoReset (_v : Word) (_failing : Option (Fin 12)) : Statement (.cryptoReset _v _failing) := fun _ _ m => nomatch m
theorem watchdogExpiry : Statement (.watchdogExpiry) := fun _ _ m => nomatch m
theorem pruneCluster (_v : Word) : Statement (.pruneCluster _v) := fun _ _ m => nomatch m
theorem pruneLane (_v : Word) : Statement (.pruneLane _v) := fun _ _ m => nomatch m
theorem unprune (_v : Word) : Statement (.unprune _v) := fun _ _ m => nomatch m
theorem clusterFault (_c : Fin 64) : Statement (.clusterFault _c) := fun _ _ m => nomatch m
theorem sleepRequest (_v : Word) : Statement (.sleepRequest _v) := fun _ _ m => nomatch m
theorem fastClockWake (_demand : Demand) : Statement (.fastClockWake _demand) := fun _ _ m => nomatch m
theorem zeroizeCommand (_v : Word) : Statement (.zeroizeCommand _v) := fun _ _ m => nomatch m
theorem portRetrain (_p : Fin 4) (_v : Word) : Statement (.portRetrain _p _v) := fun _ _ m => nomatch m
theorem portTestRun (_p : Fin 4) (_v : Word) : Statement (.portTestRun _p _v) := fun _ _ m => nomatch m
theorem boundaryDeclare (_v : DWord) : Statement (.boundaryDeclare _v) := fun _ _ m => nomatch m
theorem jobRiskWrite (_v : DWord) : Statement (.jobRiskWrite _v) := fun _ _ m => nomatch m
theorem timeCorrection (_v : DWord) : Statement (.timeCorrection _v) := fun _ _ m => nomatch m
theorem timeRead : Statement (.timeRead) := fun _ _ m => nomatch m
theorem alarmSet (_v : DWord) : Statement (.alarmSet _v) := fun _ _ m => nomatch m
theorem timeAlarm : Statement (.timeAlarm) := fun _ _ m => nomatch m
theorem ppsEdge : Statement (.ppsEdge) := fun _ _ m => nomatch m
theorem ppsLost : Statement (.ppsLost) := fun _ _ m => nomatch m
theorem gcountDelivery (_v : DWord) : Statement (.gcountDelivery _v) := fun _ _ m => nomatch m
theorem gcntLost : Statement (.gcntLost) := fun _ _ m => nomatch m
theorem syncSignal (_v : Word) : Statement (.syncSignal _v) := fun _ _ m => nomatch m
theorem syncSet (_v : DWord) : Statement (.syncSet _v) := fun _ _ m => nomatch m
theorem watchEnable (_n : Fin 64) (_v : Word) : Statement (.watchEnable _n _v) := fun _ _ m => nomatch m
theorem groupCoalesceTimer (_g : Fin 64) : Statement (.groupCoalesceTimer _g) := fun _ _ m => nomatch m
theorem holdoffEnd (_g : Fin 8) : Statement (.holdoffEnd _g) := fun _ _ m => nomatch m
theorem groupUnmask (_g : Fin 64) (_v : Word) : Statement (.groupUnmask _g _v) := fun _ _ m => nomatch m
theorem interruptClaim (_t : Fin 2) : Statement (.interruptClaim _t) := fun _ _ m => nomatch m
theorem interruptComplete (_t : Fin 2) (_v : Word) : Statement (.interruptComplete _t _v) := fun _ _ m => nomatch m
theorem doorbell (_q : Fin 4) (_v : Word) : Statement (.doorbell _q _v) := fun _ _ m => nomatch m
theorem queueEnable (_q : Fin 4) (_v : Word) : Statement (.queueEnable _q _v) := fun _ _ m => nomatch m
theorem queueDisable (_q : Fin 4) (_v : Word) : Statement (.queueDisable _q _v) := fun _ _ m => nomatch m
theorem commandAccept (_q : Fin 4) (_fetched : Option (List Byte)) : Statement (.commandAccept _q _fetched) := fun _ _ m => nomatch m
theorem commandTimeout (_mailbox : BitVec 8) : Statement (.commandTimeout _mailbox) := fun _ _ m => nomatch m
theorem mailboxHeaderRead (_b : BitVec 8) : Statement (.mailboxHeaderRead _b) := fun _ _ m => nomatch m
theorem mailboxAck (_v : DWord) : Statement (.mailboxAck _v) := fun _ _ m => nomatch m
theorem ledgerLatch (_v : DWord) : Statement (.ledgerLatch _v) := fun _ _ m => nomatch m
theorem nop (_h : CmdHdr) : Statement (.nop _h) := fun _ _ m => nomatch m
theorem ringOpen (_h : CmdHdr) (_n : Word) : Statement (.ringOpen _h _n) := fun _ _ m => nomatch m
theorem ringSeal (_h : CmdHdr) (_step : Word) (_seq : Byte) : Statement (.ringSeal _h _step _seq) := fun _ _ m => nomatch m
theorem ringCommit (_h : CmdHdr) (_r : Word) : Statement (.ringCommit _h _r) := fun _ _ m => nomatch m
theorem ringRollback (_h : CmdHdr) (_c _n : Word) : Statement (.ringRollback _h _c _n) := fun _ _ m => nomatch m
theorem stepRetire (_h : CmdHdr) (_t : Word) : Statement (.stepRetire _h _t) := fun _ _ m => nomatch m
theorem stepRetirement : Statement (.stepRetirement) := fun _ _ m => nomatch m
theorem updateRun (_h : CmdHdr) (_addr : DWord) : Statement (.updateRun _h _addr) := fun _ _ m => nomatch m
theorem runResume (_h : CmdHdr) (_addr : DWord) : Statement (.runResume _h _addr) := fun _ _ m => nomatch m
theorem runCancel (_h : CmdHdr) (_addr : DWord) : Statement (.runCancel _h _addr) := fun _ _ m => nomatch m
theorem graftBegin (_h : CmdHdr) (_x : Byte) : Statement (.graftBegin _h _x) := fun _ _ m => nomatch m
theorem graftBeginStandby (_h : CmdHdr) (_x : Byte) : Statement (.graftBeginStandby _h _x) := fun _ _ m => nomatch m
theorem resumeSet (_h : CmdHdr) (_addr : DWord) (_count : BitVec 16) : Statement (.resumeSet _h _addr _count) := fun _ _ m => nomatch m
theorem evacuateCopy (_h : CmdHdr) (_spare : Word) : Statement (.evacuateCopy _h _spare) := fun _ _ m => nomatch m
theorem evacuateCutover (_h : CmdHdr) (_spare : Word) : Statement (.evacuateCutover _h _spare) := fun _ _ m => nomatch m
theorem evacuateAbort (_h : CmdHdr) (_spare : Word) : Statement (.evacuateAbort _h _spare) := fun _ _ m => nomatch m
theorem scrubRange (_h : CmdHdr) (_base _len : DWord) (_flags : Word) (_bad : List LineRead) : Statement (.scrubRange _h _base _len _flags _bad) := fun _ _ m => nomatch m
theorem anchorWrite (_h : CmdHdr) (_addr : DWord) : Statement (.anchorWrite _h _addr) := fun _ _ m => nomatch m
theorem anchorCancel (_h : CmdHdr) (_addr : DWord) : Statement (.anchorCancel _h _addr) := fun _ _ m => nomatch m
theorem anchorRestore (_h : CmdHdr) (_addr : DWord) : Statement (.anchorRestore _h _addr) := fun _ _ m => nomatch m
theorem reLeaf (_h : CmdHdr) (_region : BitVec 16) (_step _ring : Word) : Statement (.reLeaf _h _region _step _ring) := fun _ _ m => nomatch m
theorem adopt (_h : CmdHdr) (_addr : DWord) : Statement (.adopt _h _addr) := fun _ _ m => nomatch m
theorem tensorDigest (_h : CmdHdr) (_addr : DWord) : Statement (.tensorDigest _h _addr) := fun _ _ m => nomatch m
theorem statusGet (_inst : Byte) : Statement (.statusGet _inst) := fun _ _ m => nomatch m
theorem viewSet (_inst : Byte) (_place : Word) (_view : Byte) : Statement (.viewSet _inst _place _view) := fun _ _ m => nomatch m
theorem viewGet (_inst : Byte) (_place : Word) : Statement (.viewGet _inst _place) := fun _ _ m => nomatch m
theorem keyChallenge (_inst : Byte) : Statement (.keyChallenge _inst) := fun _ _ m => nomatch m
theorem keyLoad (_inst : Byte) (_bundle : List Byte) : Statement (.keyLoad _inst _bundle) := fun _ _ m => nomatch m
theorem keyZeroize (_inst : Byte) : Statement (.keyZeroize _inst) := fun _ _ m => nomatch m
theorem setEndpointId (_op : BitVec 2) (_eid : Byte) : Statement (.setEndpointId _op _eid) := fun _ _ m => nomatch m
theorem getEndpointId : Statement (.getEndpointId) := fun _ _ m => nomatch m
theorem getMctpVersionSupport (_msgType : Byte) : Statement (.getMctpVersionSupport _msgType) := fun _ _ m => nomatch m
theorem getMessageTypeSupport : Statement (.getMessageTypeSupport) := fun _ _ m => nomatch m
theorem foreignVendorMessage (_vendor : Word) (_body : List Byte) : Statement (.foreignVendorMessage _vendor _body) := fun _ _ m => nomatch m
theorem pathDisagree (_place : Place) : Statement (.pathDisagree _place) := fun _ _ m => nomatch m
theorem tapPair (_line : BitVec 34) (_old _new : Line) (_src : WrSource) (_obark : Bark) : Statement (.tapPair _line _old _new _src _obark) := fun _ _ m => nomatch m
theorem captureIdleClose (_region : BitVec 12) (_row : BitVec 20) (_sector : Byte) (_ring : Word) : Statement (.captureIdleClose _region _row _sector _ring) := fun _ _ m => nomatch m
theorem barkCorrectedReport (_line : BitVec 34) (_corrected : Line) : Statement (.barkCorrectedReport _line _corrected) := fun _ _ m => nomatch m
theorem referredRead (_port : Fin 8) (_id : Byte) (_line : BitVec 34) (_bad : List (Fin 64)) : Statement (.referredRead _port _id _line _bad) := fun _ _ m => nomatch m
theorem heatSample (_leaf : BitVec 20) : Statement (.heatSample _leaf) := fun _ _ m => nomatch m
theorem heatDecaySweep : Statement (.heatDecaySweep) := fun _ _ m => nomatch m
theorem heatQuery (_leaf : BitVec 20) : Statement (.heatQuery _leaf) := fun _ _ m => nomatch m
theorem holdQuery (_port : Fin 8) (_id : Byte) (_leaf : BitVec 20) (_wr : Bool) : Statement (.holdQuery _port _id _leaf _wr) := fun _ _ m => nomatch m
theorem memoryReadComplete (_port : Fin 8) (_tag : BitVec 10) (_bad : List LineRead) : Statement (.memoryReadComplete _port _tag _bad) := fun _ _ m => nomatch m
theorem memoryWriteResponse (_port : Fin 8) (_tag : BitVec 10) (_discarded : Bool) : Statement (.memoryWriteResponse _port _tag _discarded) := fun _ _ m => nomatch m
theorem readSlow (_port : Fin 8) (_tag : BitVec 10) : Statement (.readSlow _port _tag) := fun _ _ m => nomatch m
theorem stackReady (_stack : Fin 8) (_gib : Byte) : Statement (.stackReady _stack _gib) := fun _ _ m => nomatch m
theorem memReadyTimeout : Statement (.memReadyTimeout) := fun _ _ m => nomatch m
theorem fillComplete (_failed : Byte) : Statement (.fillComplete _failed) := fun _ _ m => nomatch m
theorem shareWindow (_used : List Nat) (_exempt : List Nat) : Statement (.shareWindow _used _exempt) := fun _ _ m => nomatch m
theorem shareLoopDecision (_ageUs : Nat) (_waits : Bool) : Statement (.shareLoopDecision _ageUs _waits) := fun _ _ m => nomatch m
theorem sramPatrol (_bank : Fin 112) (_finding : SramFinding) : Statement (.sramPatrol _bank _finding) := fun _ _ m => nomatch m
theorem intakeRecord (_hdr : List Byte) (_payload : List Byte) : Statement (.intakeRecord _hdr _payload) := fun _ _ m => nomatch m
theorem chunkComplete (_handle : BitVec 16) (_chunk : Nat) (_cluster : Fin 64) : Statement (.chunkComplete _handle _chunk _cluster) := fun _ _ m => nomatch m
theorem spanUnblock (_handle : BitVec 16) (_span : Nat) : Statement (.spanUnblock _handle _span) := fun _ _ m => nomatch m
theorem tierDone (_op : Nat) : Statement (.tierDone _op) := fun _ _ m => nomatch m
theorem flushLate : Statement (.flushLate) := fun _ _ m => nomatch m
theorem tierLate (_op : Nat) : Statement (.tierLate _op) := fun _ _ m => nomatch m
theorem streamDelta (p : SapPkt) : Statement (.streamDelta p) := fun h _ m => of_wf h m
theorem ringDelta (p : SapPkt) : Statement (.ringDelta p) := fun h _ m => of_wf h m
theorem deltaAck (p : SapPkt) : Statement (.deltaAck p) := fun h _ m => of_wf h m
theorem deltaRelease (p : SapPkt) : Statement (.deltaRelease p) := fun h _ m => of_wf h m
theorem deltaBusy (p : SapPkt) : Statement (.deltaBusy p) := fun h _ m => of_wf h m
theorem heldPacketResume : Statement (.heldPacketResume) := fun _ _ m => nomatch m
theorem ackDeadlineMiss (_k : PktKey) (_dest : Fin 16) : Statement (.ackDeadlineMiss _k _dest) := fun _ _ m => nomatch m
theorem packetResend (_k : PktKey) (_dest : Fin 16) : Statement (.packetResend _k _dest) := fun _ _ m => nomatch m
theorem releaseTimer (_region : BitVec 12) (_row : BitVec 20) (_dest : Fin 16) : Statement (.releaseTimer _region _row _dest) := fun _ _ m => nomatch m
theorem localSeal : Statement (.localSeal) := fun _ _ m => nomatch m
theorem sealVote (p : SapPkt) : Statement (.sealVote p) := fun h _ m => of_wf h m
theorem voteReq (p : SapPkt) : Statement (.voteReq p) := fun h _ m => of_wf h m
theorem sealTimeout (_ring : Word) : Statement (.sealTimeout _ring) := fun _ _ m => nomatch m
theorem commitLate : Statement (.commitLate) := fun _ _ m => nomatch m
theorem ringStall : Statement (.ringStall) := fun _ _ m => nomatch m
theorem ringApplyEnd : Statement (.ringApplyEnd) := fun _ _ m => nomatch m
theorem rollFetch (p : SapPkt) : Statement (.rollFetch p) := fun h _ m => of_wf h m
theorem rollData (p : SapPkt) : Statement (.rollData p) := fun h _ m => of_wf h m
theorem rollEnd (p : SapPkt) : Statement (.rollEnd p) := fun h _ m => of_wf h m
theorem rollNone (p : SapPkt) : Statement (.rollNone p) := fun h _ m => of_wf h m
theorem mirrorData (p : SapPkt) : Statement (.mirrorData p) := fun h _ m => of_wf h m
theorem mirrorDone (p : SapPkt) : Statement (.mirrorDone p) := fun h _ m => of_wf h m
theorem mirrorAck (p : SapPkt) : Statement (.mirrorAck p) := fun h _ m => of_wf h m
theorem mirrorTorn (p : SapPkt) : Statement (.mirrorTorn p) := fun h _ m => of_wf h m
theorem mirrorAckTimeout (_region : BitVec 12) (_copy : Word) (_dest : Fin 16) : Statement (.mirrorAckTimeout _region _copy _dest) := fun _ _ m => nomatch m
theorem mirrorRead (p : SapPkt) : Statement (.mirrorRead p) := fun h _ m => of_wf h m
theorem mirrorLines (p : SapPkt) : Statement (.mirrorLines p) := fun h _ m => of_wf h m
theorem mirrorNone (p : SapPkt) : Statement (.mirrorNone p) := fun h _ m => of_wf h m
theorem mirrorReadRetry (_req : BitVec 16) : Statement (.mirrorReadRetry _req) := fun _ _ m => nomatch m
theorem classProd (p : SapPkt) : Statement (.classProd p) := fun h _ m => of_wf h m
theorem prodAck (p : SapPkt) : Statement (.prodAck p) := fun h _ m => of_wf h m
theorem logData (p : SapPkt) : Statement (.logData p) := fun h _ m => of_wf h m
theorem logScalar (p : SapPkt) : Statement (.logScalar p) := fun h _ m => of_wf h m
theorem logAck (p : SapPkt) : Statement (.logAck p) := fun h _ m => of_wf h m
theorem logRetire (p : SapPkt) : Statement (.logRetire p) := fun h _ m => of_wf h m
theorem pointReport (p : SapPkt) : Statement (.pointReport p) := fun h _ m => of_wf h m
theorem pointDecide (p : SapPkt) : Statement (.pointDecide p) := fun h _ m => of_wf h m
theorem pointDone (p : SapPkt) : Statement (.pointDone p) := fun h _ m => of_wf h m
theorem pointSettled (p : SapPkt) : Statement (.pointSettled p) := fun h _ m => of_wf h m
theorem pointTimeout (_x : Fin 16) : Statement (.pointTimeout _x) := fun _ _ m => nomatch m
theorem heartbeatTimer : Statement (.heartbeatTimer) := fun _ _ m => nomatch m
theorem heartbeat (p : SapPkt) : Statement (.heartbeat p) := fun h _ m => of_wf h m
theorem memberSilent (_xs : List (Fin 16)) : Statement (.memberSilent _xs) := fun _ _ m => nomatch m
theorem lossNotice (p : SapPkt) : Statement (.lossNotice p) := fun h _ m => of_wf h m
theorem rbReq (p : SapPkt) : Statement (.rbReq p) := fun h _ m => of_wf h m
theorem rbPart (p : SapPkt) : Statement (.rbPart p) := fun h _ m => of_wf h m
theorem rbDone (p : SapPkt) : Statement (.rbDone p) := fun h _ m => of_wf h m
theorem rbCredit (p : SapPkt) : Statement (.rbCredit p) := fun h _ m => of_wf h m
theorem rbChunkTimeout (_req : Word) : Statement (.rbChunkTimeout _req) := fun _ _ m => nomatch m
theorem accFallback (_req : Word) : Statement (.accFallback _req) := fun _ _ m => nomatch m
theorem degradedRead (_store : Bool) (_off : BitVec 40) (_len : Nat) (_key : Word) (_requester : Place) : Statement (.degradedRead _store _off _len _key _requester) := fun _ _ m => nomatch m
theorem degradedReadTimeout (_off : BitVec 40) : Statement (.degradedReadTimeout _off) := fun _ _ m => nomatch m
theorem graftJoin (p : SapPkt) : Statement (.graftJoin p) := fun h _ m => of_wf h m
theorem graftWelcome (p : SapPkt) : Statement (.graftWelcome p) := fun h _ m => of_wf h m
theorem graftCount (p : SapPkt) : Statement (.graftCount p) := fun h _ m => of_wf h m
theorem graftPhase (p : SapPkt) : Statement (.graftPhase p) := fun h _ m => of_wf h m
theorem snapNote (p : SapPkt) : Statement (.snapNote p) := fun h _ m => of_wf h m
theorem thickNote (p : SapPkt) : Statement (.thickNote p) := fun h _ m => of_wf h m
theorem heatCopy (p : SapPkt) : Statement (.heatCopy p) := fun h _ m => of_wf h m
theorem evacData (p : SapPkt) : Statement (.evacData p) := fun h _ m => of_wf h m
theorem evacState (p : SapPkt) : Statement (.evacState p) := fun h _ m => of_wf h m
theorem evacReady : Statement (.evacReady) := fun _ _ m => nomatch m
theorem handover (p : SapPkt) : Statement (.handover p) := fun h _ m => of_wf h m
theorem riskEvaluation : Statement (.riskEvaluation) := fun _ _ m => nomatch m
theorem rateBucketTick : Statement (.rateBucketTick) := fun _ _ m => nomatch m
theorem laneReport (_lane : Fin 64) (_corrected _received : Nat) (_eye : BitVec 16) : Statement (.laneReport _lane _corrected _received _eye) := fun _ _ m => nomatch m
theorem wearSample (_hours : List (List Nat)) : Statement (.wearSample _hours) := fun _ _ m => nomatch m
theorem droopWarn : Statement (.droopWarn) := fun _ _ m => nomatch m
theorem droopRecover (_micros : Nat) : Statement (.droopRecover _micros) := fun _ _ m => nomatch m
theorem linkLoopDecision (_p : Fin 4) : Statement (.linkLoopDecision _p) := fun _ _ m => nomatch m
theorem anchorDueTimer : Statement (.anchorDueTimer) := fun _ _ m => nomatch m
theorem storageWriteComplete (_ok : Bool) : Statement (.storageWriteComplete _ok) := fun _ _ m => nomatch m
theorem storageRetry : Statement (.storageRetry) := fun _ _ m => nomatch m
theorem weightDigest : Statement (.weightDigest) := fun _ _ m => nomatch m
theorem digestRecompute (_leaf : BitVec 20) : Statement (.digestRecompute _leaf) := fun _ _ m => nomatch m
theorem powerGood (_flashA _flashB : FlashRead) (_tests : BitVec 9) (_stores : StoreTest) (_te : Bool) : Statement (.powerGood _flashA _flashB _tests _stores _te) := fun _ _ m => nomatch m
theorem powerLoss : Statement (.powerLoss) := fun _ _ m => nomatch m
theorem selfTestFail (_reseed : Bool) : Statement (.selfTestFail _reseed) := fun _ _ m => nomatch m
theorem computeReset : Statement (.computeReset) := fun _ _ m => nomatch m
theorem computeResetRelease : Statement (.computeResetRelease) := fun _ _ m => nomatch m
theorem tamper : Statement (.tamper) := fun _ _ m => nomatch m
theorem flashShareRequest (_level : Bool) : Statement (.flashShareRequest _level) := fun _ _ m => nomatch m
theorem portTrainingStep (_p : Fin 4) (_step : Fin 6) (_lanes : BitVec 16) (_met : Bool) : Statement (.portTrainingStep _p _step _lanes _met) := fun _ _ m => nomatch m
theorem linkReset (_p : Fin 4) : Statement (.linkReset _p) := fun _ _ m => nomatch m
theorem laneLockLoss (_p : Fin 4) (_l : Fin 16) : Statement (.laneLockLoss _p _l) := fun _ _ m => nomatch m
theorem dataFlit (_p : Fin 4) (_flit : List Byte) (_fecBad : Bool) : Statement (.dataFlit _p _flit _fecBad) := fun _ _ m => nomatch m
theorem abortFlit (_p : Fin 4) (_flit : List Byte) (_fecBad : Bool) : Statement (.abortFlit _p _flit _fecBad) := fun _ _ m => nomatch m
theorem relayStall (_p : Fin 4) (_vc : Fin 4) (_cls : Fin 17) : Statement (.relayStall _p _vc _cls) := fun _ _ m => nomatch m
theorem init (_p : Fin 4) (_far : Byte) (_present : BitVec 16) (_attempt : Byte) : Statement (.init _p _far _present _attempt) := fun _ _ m => nomatch m
theorem id (_p : Fin 4) (_place : Place) (_pos : BitVec 4) (_noPos : Bool) : Statement (.id _p _place _pos _noPos) := fun _ _ m => nomatch m
theorem width (_p : Fin 4) (_passing : BitVec 16) (_w : Byte) (_used : BitVec 16) (_final : Bool) : Statement (.width _p _passing _w _used _final) := fun _ _ m => nomatch m
theorem retryReq (_p : Fin 4) (_fseq : BitVec 12) : Statement (.retryReq _p _fseq) := fun _ _ m => nomatch m
theorem retryReqRepeat (_p : Fin 4) : Statement (.retryReqRepeat _p) := fun _ _ m => nomatch m
theorem ack (_p : Fin 4) (_fseq : BitVec 12) : Statement (.ack _p _fseq) := fun _ _ m => nomatch m
theorem ackTimer (_p : Fin 4) : Statement (.ackTimer _p) := fun _ _ m => nomatch m
theorem credit (_p : Fin 4) (_vc : Fin 4) (_cls : Fin 17) (_freed : BitVec 16) : Statement (.credit _p _vc _cls _freed) := fun _ _ m => nomatch m
theorem restripe (_p : Fin 4) (_used : BitVec 16) (_fseq : BitVec 12) : Statement (.restripe _p _used _fseq) := fun _ _ m => nomatch m
theorem lowReq (_p : Fin 4) : Statement (.lowReq _p) := fun _ _ m => nomatch m
theorem lowAck (_p : Fin 4) : Statement (.lowAck _p) := fun _ _ m => nomatch m
theorem lowNak (_p : Fin 4) : Statement (.lowNak _p) := fun _ _ m => nomatch m
theorem wake (_p : Fin 4) (_source : WakeSource) : Statement (.wake _p _source) := fun _ _ m => nomatch m
theorem wakeComplete (_p : Fin 4) : Statement (.wakeComplete _p) := fun _ _ m => nomatch m
theorem wakeLockTimeout (_p : Fin 4) (_l : Fin 16) : Statement (.wakeLockTimeout _p _l) := fun _ _ m => nomatch m
theorem beat (_p : Fin 4) (_senderLow : Bool) : Statement (.beat _p _senderLow) := fun _ _ m => nomatch m
theorem lowLinkSilence (_p : Fin 4) : Statement (.lowLinkSilence _p) := fun _ _ m => nomatch m
theorem spillWrite (key : Word) (requester : Place) (type : Byte) (p : SapPkt) : Statement (.spillWrite key requester type p) := fun h _ m => of_wf h m
theorem routeWrite (key : Word) (requester : Place) (type : Byte) (p : SapPkt) : Statement (.routeWrite key requester type p) := fun h _ m => of_wf h m
theorem portIdleTimer (_p : Fin 4) : Statement (.portIdleTimer _p) := fun _ _ m => nomatch m
theorem beatTimer (_p : Fin 4) : Statement (.beatTimer _p) := fun _ _ m => nomatch m
theorem deltaBusyEnd (_pos : Fin 16) : Statement (.deltaBusyEnd _pos) := fun _ _ m => nomatch m
theorem rollFetchTimeout (_region : BitVec 12) (_row : BitVec 20) (_ring : Word) : Statement (.rollFetchTimeout _region _row _ring) := fun _ _ m => nomatch m
theorem referredReadLimit (_port : Fin 8) (_id : Byte) : Statement (.referredReadLimit _port _id) := fun _ _ m => nomatch m
theorem mapFetchRetry : Statement (.mapFetchRetry) := fun _ _ m => nomatch m
theorem storageReadComplete (_data : Option (List Byte)) : Statement (.storageReadComplete _data) := fun _ _ m => nomatch m
theorem timeSlewEnd : Statement (.timeSlewEnd) := fun _ _ m => nomatch m
theorem prbsLockTimeout (_p : Fin 4) (_l : Fin 16) : Statement (.prbsLockTimeout _p _l) := fun _ _ m => nomatch m
theorem badMsg (_code _inst : Byte) : Statement (.badMsg _code _inst) := fun _ _ m => nomatch m
theorem dynamicAddressAssignment (_addr : BitVec 7) : Statement (.dynamicAddressAssignment _addr) := fun _ _ m => nomatch m
theorem wrapperInstructionLoad (_code : BitVec 4) : Statement (.wrapperInstructionLoad _code) := fun _ _ m => nomatch m
theorem instrumentAccess (_inst : Instrument) (_wr : Bool) (_v : DWord) : Statement (.instrumentAccess _inst _wr _v) := fun _ _ m => nomatch m

end Sys2Proof.Laws.Shape
end

