-- ==== Sys2Proof/Laws/Sap.lean ====
section
/-!
SUPPORT. Sys2Proof/Laws/Sap.lean: what the first two checks of a packet answer (R119, R300 to R305).
-/
namespace Sys2Proof.Machine

/-- The header does not cover the tag, the body, the counter or the hops. -/
theorem sapHeader_congr (typ : Nat) (p : SapPkt) (c : DWord) (h : Byte) (b : List Byte) (t : BitVec 128) :
    sapHeader typ { p with counter := c, hops := h, body := b, tag := t } = sapHeader typ p := rfl

/-- A packet of an ordinary TYPE passes where its position has one sender, whose session takes its generation and whose key
opens it. -/
theorem door_pass {e : Eng} {typ : Nat} {p : SapPkt} {place : Nat} {s : Sess} {x : List Byte} (hj : typ ≠ tGraftJoin)
    (hw : typ ≠ tGraftWelcome) (hs : e.sendersOf (p.pos.toNat % 16) = [place]) (hse : e.sessAt place = some s)
    (hc : p.gen.toNat ∈ doorGens typ s) (ho : e.openPkt place p.gen.toNat typ p = some x) :
    e.door typ p = .pass place p.gen.toNat x := by
  simp [Eng.door, hj, hw, hs, hse, hc, ho]

/-- A GRAFT_JOIN passes where the key of generation 0 with the place that it names opens it. -/
theorem door_join {e : Eng} {p : SapPkt} {x : List Byte} (hg : p.gen = 0)
    (ho : e.openPkt (p.release.toNat % 2 ^ 20) 0 tGraftJoin p = some x) :
    e.door tGraftJoin p = .pass (p.release.toNat % 2 ^ 20) 0 x := by
  unfold Eng.door
  rw [if_pos (by simp), if_neg (by simp [hg])]
  simp only [↓reduceIte, ho]

/-- A GRAFT_WELCOME passes where the key of generation 0 with its position's place opens it. -/
theorem door_welcome {e : Eng} {p : SapPkt} {x : List Byte}
    (ho : e.openPkt (e.placeOf (p.pos.toNat % 16)) 0 tGraftWelcome p = some x) :
    e.door tGraftWelcome p = .pass (e.placeOf (p.pos.toNat % 16)) 0 x := by
  have h : (tGraftWelcome = tGraftJoin) = False := by simp [tGraftWelcome, tGraftJoin]
  simp [Eng.door, h, ho]

end Sys2Proof.Machine
end

