-- ==== Sys2Proof/Tests/Slice0.lean ====
section
/-!
SUPPORT. Sys2Proof/Tests/Slice0.lean: the model's own tests. `test_…` are small checks of one command on a small state, with the
expected result taken from the spec's rule; `witness_…` show, for each statement with hypotheses, states and operands that
meet them, clause by clause.
-/
set_option Elab.async false

namespace Sys2Proof.Tests

open Sys2Proof.Machine

/-! ### Small states -/

/-- The state whose engine is `e`, with nothing waiting. -/
def st (e : Eng) : State := { pending := [], eng := e }

/-- An engine with fields set. -/
def sets (l : List (Fld × Nat)) (e : Eng) : Eng := l.foldl (fun e x => e.wr x.1 x.2) e

/-- The register value with fields set. -/
def word (l : List (Fld × Nat)) : Nat := l.foldl (fun a x => a + x.2 * 2 ^ x.1.lo) 0

/-- An engine with power, past its power-on sequence: every domain answers. -/
def live : Eng :=
  sets [(Reg.GEN_BOOT_STAGE, 7), (Reg.GEN_BOOT_READY, 1), (Reg.SEC_STAT_ST_DONE, 1)]
    { Eng.reset with pins := { Eng.reset.pins with pwrGood := true } }

/-- The same, its coding core in its reset. -/
def inReset : Eng := { live with boot := { live.boot with inReset := true } }

/-- The same, with the start lock set. -/
def fixed : Eng := sets [(Reg.GEN_START_LOCKED, 1)] live

/-! ### Well-formedness: for each check a command that passes and one that it refuses -/

theorem test_wf_access : WellFormed (.registerWrite 0x1FFFFF8 true 0) = true ∧ WellFormed (.registerWrite 0x2000000 true 0) = false ∧
    WellFormed (.registerWrite 0x4 true 0) = false ∧ WellFormed (.registerWrite 0x2 false 0) = false := by decide
theorem test_wf_width : WellFormed (.registerWrite 0 false 0xFFFFFFFF) = true ∧
    WellFormed (.registerWrite 0 false 0x100000000) = false := by decide
theorem test_wf_areas : WellFormed (.descriptorWrite 0x3FFF8 true 0) = true ∧ WellFormed (.descriptorWrite 0x40000 true 0) = false ∧
    WellFormed (.programStoreWrite 0x1FFFC false 0) = true ∧ WellFormed (.programStoreWrite 0x20000 false 0) = false ∧
    WellFormed (.programStoreWrite 0x4 true 0) = false ∧ WellFormed (.descriptorWrite 4 false 0x100000000) = false := by decide
theorem test_wf_lists : WellFormed (.rollCallRecord 0 0 0 (zeros 127)) = false ∧ WellFormed (.keyLoad 0 (zeros 191)) = false ∧
    WellFormed (.dataFlit 0 (zeros 255) false) = false ∧ WellFormed (.abortFlit 0 (zeros 255) false) = false ∧
    WellFormed (.commandAccept 0 (some (zeros 63))) = false ∧ WellFormed (.intakeRecord (zeros 31) []) = false ∧
    WellFormed (.shareWindow [0] [0]) = false ∧ WellFormed (.wearSample []) = false := by decide +kernel
theorem test_wf_lists_pass : WellFormed (.rollCallRecord 0 0 0 (zeros 128)) = true ∧ WellFormed (.keyLoad 0 (zeros 192)) = true ∧
    WellFormed (.dataFlit 0 (zeros 256) false) = true ∧ WellFormed (.commandAccept 0 (some (zeros 64))) = true ∧
    WellFormed (.commandAccept 0 none) = true ∧ WellFormed (.intakeRecord (zeros 32) []) = true := by decide +kernel
theorem test_wf_ranges : WellFormed (.mapWrite 0 0 0x1FFFFFF [0]) = true ∧ WellFormed (.mapWrite 0 0 0x2000000 [0]) = false ∧
    WellFormed (.degradedRead false 64 4096 0 0) = true ∧ WellFormed (.degradedRead false 32 64 0 0) = false ∧
    WellFormed (.degradedRead false 0 0 0 0) = false ∧ WellFormed (.degradedRead false 0 4160 0 0) = false ∧
    WellFormed (.foreignVendorMessage 64771 []) = false := by decide

/-- A packet with nothing in it. -/
def blank : SapPkt :=
  { flags := 0, gen := 0, planes := 0, region := 0, sector := 0, pos := 0, row := 0, stamp := 0, seq := 0, release := 0,
    lineMap := 0, counter := 0, hops := 0, body := [], tag := 0 }

theorem test_wf_packet : WellFormed (.streamDelta { blank with body := zeros 64 }) = true ∧
    WellFormed (.streamDelta { blank with body := zeros 63 }) = false ∧
    WellFormed (.heartbeat { blank with body := zeros 4160 }) = false := by decide +kernel

/-- No row of the table has bits, so no word spells a command. -/
theorem test_no_word_spells_a_command (nbits w : Nat) : decodeTableWord nbits w = none := rfl

/-! ### The machine and the register window -/

theorem witness_StepRunsTheFrontCommand : ({ State.reset with pending := [.heatDecaySweep] } : State).pending = .heatDecaySweep :: [] := rfl

theorem witness_EmptyQueueIsOneTimeClockCycle :
    (State.reset.pending = [] ∧ State.reset.eng.pins.pwrGood = false) ∧
    ((st live).pending = [] ∧ live.pins.pwrGood = true ∧ live.time.slew = none ∧ live.rd Reg.TIM_ALARM_NS = 0 ∧
      (∀ q ∈ live.ports, q.asks = []) ∧
      ∀ p < 4, live.on (Reg.GP_TEST_RUN p) = false ∨ live.rd (Reg.GP_TEST_MODE p) ∉ [1, 2, 4]) ∧
    (let e := sets [(Reg.GP_TEST_RUN 3, 1), (Reg.GP_TEST_MODE 3, 4)] { live with fuses := { live.fuses with lanes := 2 ^ 63 } }
     e.on (Reg.GP_TEST_RUN 3) = true ∧ e.rd (Reg.GP_TEST_MODE 3) ∈ [1, 2, 4] ∧ bit e.fuses.lanes (16 * 3 + 15) = true ∧
     e.rd (Reg.GP_PRBS_ERR_COUNT 3 15) ≤ 0xFFFFFFFE) ∧
    ((sets [(Reg.TIM_ALARM_NS, 3)] live).rd Reg.TIM_ALARM_NS ≠ 0 ∧
      ((sets [(Reg.TIM_ALARM_NS, 3)] live).time.acc + (sets [(Reg.TIM_ALARM_NS, 3)] live).rd Reg.TIM_RATE_INC) % 2 ^ 96 / 2 ^ 32
        % 2 ^ 64 < (sets [(Reg.TIM_ALARM_NS, 3)] live).rd Reg.TIM_ALARM_NS) := by decide

/-- A command that is neither a tap pair nor a referred read; a tap pair of the last line of 128 GiB. -/
theorem witness_CommandsLeaveTheQueueAndForgetTheLastActions : (∃ t, exec .timeRead (st live) = .next t) ∧
    (∀ line old new src bark, Instr.timeRead = .tapPair line old new src bark → 64 * line.toNat < (st live).eng.memSize) ∧
    (∀ port id line bad, Instr.timeRead = .referredRead port id line bad → 64 * line.toNat < (st live).eng.memSize) ∧
    64 * (0x7FFFFFFF : BitVec 34).toNat < (sets [(Reg.GEN_FLOOR_SUM_STACK_GIB, 16)] live).memSize :=
  ⟨⟨_, rfl⟩, fun _ _ _ _ _ h => Instr.noConfusion h, fun _ _ _ _ h => Instr.noConfusion h, by decide⟩

theorem witness_EveryStepKeepsTheCanonicalForms : WellKept State.reset.eng ∧ ∃ t, step State.reset = .next t :=
  ⟨by constructor <;> decide, _, rfl⟩

theorem regs_of_width {off n : Nat} (h : (regAt off).all (fun x => x.1.bits != n) = true) :
    ∀ r i j, regAt off = some (r, i, j) → r.bits ≠ n := by
  intro r i j e
  rw [e] at h
  simpa using h

/-- A width of 3 B, an address of 2, one beyond the window, one in no register, a 64-bit access to a 32-bit register, and a
32-bit one to the capability list. -/
theorem witness_BadRegisterAccessIsCountedAndChangesNothing :
    ((st live).eng.answers .coding = true ∧ (st inReset).eng.answers .coding = true ∧ inReset.boot.inReset = true) ∧
    meetsNoRegister 0 3 ∧ meetsNoRegister 2 4 ∧ meetsNoRegister 0x2000000 8 ∧ meetsNoRegister 0xFFFFF8 4 ∧
    meetsNoRegister 0x30 8 ∧ meetsNoRegister 0x800 4 :=
  ⟨by decide, .inl (by decide), .inr (.inl (by decide)), .inr (.inr (.inl (by decide))),
   .inr (.inr (.inr ⟨by decide, by decide, by decide, by rw [if_neg (by decide)]; exact regs_of_width (by decide)⟩)),
   .inr (.inr (.inr ⟨by decide, by decide, by decide, by rw [if_neg (by decide)]; exact regs_of_width (by decide)⟩)),
   .inr (.inr (.inr ⟨by decide, by decide, by decide, by rw [if_pos (by decide)]; decide⟩))⟩

theorem stores_at {off : Nat} {wide : Bool} (h : (regAt off).isSome = true)
    (a : off % (if wide then 8 else 4) = 0) (b : ((regAt off).get h).1.bits = (if wide then 64 else 32))
    (c : actsOnWrite ((regAt off).get h).1.base = false) :
    storesAt off wide (((regAt off).get h).1.flds ((regAt off).get h).2.1 ((regAt off).get h).2.2) ((regAt off).get h).1.dom :=
  ⟨_, _, _, (Option.some_get h).symm, a, b, c, rfl, rfl⟩

/-- A register of RW and RWL fields, open and locked; a 64-bit one; one of W1C bits. -/
theorem witness_RegisterWriteStoresByAccessCode :
    (∃ flds d, storesAt 0x070000 false flds d ∧ takesWrites d (st live) ∧ live.rwlOpen = true ∧ fixed.rwlOpen = false ∧
      flds.any (fun f => f.acc == .rwl) = true ∧ flds.any (fun f => f.acc == .rw) = true) ∧
    (∃ flds, storesAt 0x070000 false flds .coding ∧ inReset.answers .coding = true ∧ inReset.boot.inReset = true) ∧
    (∃ flds d, storesAt 0x020018 true flds d ∧ takesWrites d (st live)) ∧
    (∃ flds d, storesAt 0x020600 true flds d ∧ takesWrites d (st live) ∧ flds.any (fun f => f.acc == .w1c) = true) :=
  ⟨⟨_, _, stores_at (by decide) (by decide) (by decide) (by decide), by decide, by decide, by decide, by decide, by decide⟩,
   ⟨_, stores_at (by decide) (by decide) (by decide) (by decide), by decide, by decide⟩,
   ⟨_, _, stores_at (by decide) (by decide) (by decide) (by decide), by decide⟩,
   ⟨_, _, stores_at (by decide) (by decide) (by decide) (by decide), by decide, by decide⟩⟩

/-- Before step 1 no domain answers; between step 1 and step 4 only the always-on one does. -/
theorem witness_RegistersOfASilentDomainAnswerWithAnError :
    (State.reset.eng.answers .coding = false ∧ State.reset.eng.answers .link = false ∧ State.reset.eng.answers .alwaysOn = false) ∧
    ((sets [(Reg.GEN_BOOT_STAGE, 4)] Eng.reset).answers .coding = false ∧
      (sets [(Reg.GEN_BOOT_STAGE, 4)] Eng.reset).answers .alwaysOn = true ∧
      (sets [(Reg.GEN_BOOT_STAGE, 5)] Eng.reset).answers .coding = true) ∧
    (∃ flds d, storesAt 0x070000 false flds d ∧ State.reset.eng.answers d = false) :=
  ⟨by decide, by decide, ⟨_, _, stores_at (by decide) (by decide) (by decide) (by decide), by decide⟩⟩

/-! ### Engine time, boundaries and sync objects -/

/-- An engine whose accumulator stands at `a`. -/
def timed (a : Nat) : Eng := { live with time := { live.time with acc := a } }

/-- An alarm at 0, one just ahead, one just reached; an alarm set to the last nanosecond; a correction just beyond its reach, one
just within it, one to the present, one back; a slew. -/
theorem witness_EngineTimeIsReadSetAndWatched :
    ((st live).eng.answers .alwaysOn = true ∧ (st live).eng.time.acc < 2 ^ 96 ∧ (st live).eng.now < (1 : DWord).toNat) ∧
    ((1 : DWord) ≠ 0 ∧ (1 : DWord).toNat ≤ (timed (2 ^ 32)).now ∧ (timed (2 ^ 32)).answers .alwaysOn = true) ∧
    ((sets [(Reg.TIM_ALARM_NS, 2 ^ 64 - 1)] live).rd Reg.TIM_ALARM_NS ≠ 0 ∧
      (sets [(Reg.TIM_ALARM_NS, 2 ^ 64 - 1)] live).rd Reg.TIM_ALARM_NS < 2 ^ 64) ∧
    (live.rd Reg.TIM_CTL_MAX_STEP * 1000 * 2 ^ 32 < (1000001 : DWord).toNat * 2 ^ 32 - live.time.acc ∧
      live.time.acc ≤ (1000000 : DWord).toNat * 2 ^ 32 ∧
      (1000000 : DWord).toNat * 2 ^ 32 - live.time.acc ≤ live.rd Reg.TIM_CTL_MAX_STEP * 1000 * 2 ^ 32) ∧
    ((0 : DWord).toNat * 2 ^ 32 < (timed 1).time.acc ∧ (timed 1).time.acc - 0 ≤ live.rd Reg.TIM_CTL_MAX_STEP * 1000 * 2 ^ 32) ∧
    (({ timed 9 with time := { (timed 9).time with slew := some 9 } } : Eng).time.slew = some 9 ∧ 2 * 9 - 9 < 2 ^ 96) ∧
    (live.time.slew = none ∧
      (let at_ := (sets [(Reg.TIM_ALARM_NS, 1)] live).rd Reg.TIM_ALARM_NS * 2 ^ 32
       9 < at_ ∧ 2 ^ 32 < at_ + 10 ∧ at_ - (2 ^ 32 - 10) < (2 ^ 32 - 10) - (2 ^ 32 - 21) ∧
       (2 ^ 32 - 10) - (2 ^ 32 - 20) ≤ at_ - (2 ^ 32 - 10))) := by decide

/-- An edge exactly 0.5 s after the last and one later, with ALIGN clear and set; a delivery at the held count and below it. -/
theorem witness_PpsAndGlobalCountAreTaken :
    (live.pins.pwrGood = true ∧ State.reset.eng.pins.pwrGood = false ∧ live.time.lastPps = none ∧
      live.on Reg.TIM_CTL_ALIGN = false ∧
      (sets [(Reg.TIM_CTL_ALIGN, 1)] live).on Reg.TIM_CTL_ALIGN = true) ∧
    (let e : Eng := { timed (500000000 * 2 ^ 32) with time := { (timed (500000000 * 2 ^ 32)).time with lastPps := some 0 } }
     e.time.lastPps = some 0 ∧ e.now ≤ 0 + 500000000) ∧
    (let e : Eng := { timed (500000001 * 2 ^ 32) with time := { (timed (500000001 * 2 ^ 32)).time with lastPps := some 0 } }
     0 + 500000000 < e.now) ∧
    ((sets [(Reg.TIM_CTL_PPS_EN, 1)] live).on Reg.TIM_CTL_PPS_EN = true ∧ live.on Reg.TIM_PPS_STAT_LOST = false) ∧
    ((0 : DWord).toNat < (sets [(Reg.TIM_GCOUNT_COUNT, 1)] live).rd Reg.TIM_GCOUNT_COUNT ∧
      live.rd Reg.TIM_GCOUNT_COUNT ≤ (0 : DWord).toNat ∧ live.on Reg.GRV_SEAL_CTL_SCHED_ARM = false ∧
      live.on Reg.TIM_GCNT_CTL_LOST = false) := by decide

/-- An engine that has seen the boundary of step 5 in both sequences. -/
def stepped : Eng :=
  sets [(Reg.GRV_BND_LAST_LAST_STEP, 5), (Reg.GRV_BND_LAST_LAST_TSTEP, 5)]
    { fixed with rings := { fixed.rings with seenStep := true, seenTstep := true } }

/-- Declared boundaries of KIND 0, 1 and 2: the first of a sequence, the last again, the next; and job risks likewise. -/
theorem witness_BoundariesAndJobRisksKeepTheirOrder :
    (takesWrites .coding (st live) ∧ takesWrites .coding (st stepped) ∧ live.answers .alwaysOn = true) ∧
    (Reg.GRV_BND_DECL_KIND.of 0 = 0 ∧ Reg.GRV_BND_DECL_KIND.of (2 ^ 32 + 5) = 1 ∧ Reg.GRV_BND_DECL_STEP.of (2 ^ 32 + 5) = 5 ∧
      Reg.GRV_BND_DECL_KIND.of (2 * 2 ^ 32 + 6) = 2 ∧ Reg.GRV_BND_DECL_STEP.of (2 * 2 ^ 32 + 6) = 6) ∧
    (live.rings.seenStep = false ∧ live.rings.seenTstep = false ∧ live.locked = false) ∧
    (stepped.rings.seenStep = true ∧ precedes (stepped.rd Reg.GRV_BND_LAST_LAST_STEP) 5 = false ∧
      precedes (stepped.rd Reg.GRV_BND_LAST_LAST_STEP) 6 = true ∧ precedes (stepped.rd Reg.GRV_BND_LAST_LAST_TSTEP) 6 = true ∧
      stepped.locked = true ∧ stepped.serving = true) ∧
    (Reg.HLT_JOB_RISK_SEQ.of 0 = 0 ∧ Reg.HLT_JOB_RISK_STEP.of (5 * 2 ^ 32) = 5) := by decide

/-- With the mirror off, on where it may not be written, on where it may; a watch at its threshold and one just below it. -/
theorem witness_SyncObjectsChangeAndAreWatched :
    (takesWrites .coding (st live) ∧ SMap.Sorted live.syncs) ∧
    (let e := sets ((List.range 64).map (fun i => (Reg.SYN_WATCH_CTL_OBJ i, 1))) live
     (∀ i < 64, e.rd (Reg.SYN_WATCH_CTL_OBJ i) ≠ Reg.SYN_SIGNAL_OBJ.of 0) ∧ e.on Reg.SYN_MEM_EN = false ∧
     (sets [(Reg.SYN_MEM_EN, 1)] e).on Reg.SYN_MEM_EN = true ∧ (sets [(Reg.SYN_MEM_EN, 1)] e).mirrorable 0 = false ∧
     (sets [(Reg.SYN_MEM_EN, 1), (Reg.MEM_USABLE_TOP_TOP, 1)] e).mirrorable 0 = true) ∧
    ((Reg.SYN_WATCH_CTL_EN 63).of (2 ^ 31) = 1 ∧ (Reg.SYN_WATCH_CTL_EN 63).of 0 = 0 ∧
      (live.sync 0 + 2 ^ 64 - live.rd (Reg.SYN_WATCH_THR_THRESH 63)) % 2 ^ 64 < 2 ^ 63 ∧
      ¬(live.sync 0 + 2 ^ 64 - (sets [(Reg.SYN_WATCH_THR_THRESH 63, 1)] live).rd (Reg.SYN_WATCH_THR_THRESH 63)) % 2 ^ 64
        < 2 ^ 63) := by decide +kernel

/-! ### Interrupts -/

/-- Source PPS_LOST enabled, rising edge, in group 7, routed to target 0. -/
def edgeSrc : Eng :=
  let n := srcNum .PPS_LOST
  sets [(Reg.INT_SRC_CFG_EN n, 1), (Reg.INT_SRC_CFG_SENSE n, 2), (Reg.INT_SRC_CFG_GROUP n, 7), (Reg.INT_SRC_CFG_TARGET n, 1),
    (Reg.INT_GRP_CFG_MASK 7, 0)] live

/-- The same, delivered and pending, with the next source delivered too. -/
def claimable : Eng :=
  let n := srcNum .PPS_LOST
  sets [(Reg.INT_SRC_CFG_PENDING n, 1)] { edgeSrc with intr := { edgeSrc.intr with delivered := [n] } }

/-- A pulse; a coalescing group 63 with an unfired event, unmasked and masked; the hold-off of group 7 ending with and without
one; a masked group's recorded firing; a claim of an edge and a level source, of a withdrawn one, and of none; completions. -/
theorem witness_InterruptsAreDeliveredClaimedAndCompleted :
    (let n := srcNum .PPS_LOST
     edgeSrc.on (Reg.INT_SRC_CFG_EN n) = true ∧ edgeSrc.on (Reg.INT_SRC_CFG_PENDING n) = false ∧
     edgeSrc.on (Reg.INT_SRC_CFG_RAW n) = false ∧ edgeSrc.rd (Reg.INT_SRC_CFG_SENSE n) = 2 ∧ edgeSrc.groupOf n < 8 ∧
     edgeSrc.on (Reg.INT_GRP_CFG_MASK (edgeSrc.groupOf n)) = false ∧ edgeSrc.intr.holdoff.contains (edgeSrc.groupOf n) = false ∧
     edgeSrc.intr.unfired = [] ∧ edgeSrc.intr.delivered.contains n = false ∧ edgeSrc.on Reg.GEN_PWR_ASLEEP = false) ∧
    (let e := sets [(Reg.INT_SRC_CFG_GROUP 3, 63), (Reg.INT_GRP_CFG_MASK 63, 0)] { live with intr := { live.intr with unfired := [3] } }
     (quiet (st e)).unfiredIn 63 ≠ [] ∧ e.on (Reg.INT_GRP_CFG_MASK 63) = false ∧
     (sets [(Reg.INT_GRP_CFG_MASK 63, 1)] e).on (Reg.INT_GRP_CFG_MASK 63) = true) ∧
    (let e := sets [(Reg.INT_SRC_CFG_GROUP 3, 7), (Reg.INT_GRP_CFG_MASK 7, 0)] { live with intr := { live.intr with holdoff := [7] } }
     e.intr.holdoff.contains 7 = true ∧ (quiet (st e)).unfiredIn 7 = [] ∧
     (quiet (st { e with intr := { e.intr with unfired := [3] } })).unfiredIn 7 ≠ [] ∧ e.on (Reg.INT_GRP_CFG_MASK 7) = false) ∧
    (let e := sets [(Reg.INT_GRP_CFG_FIRED_PEND 5, 1)] live
     e.answers .alwaysOn = true ∧ (Reg.INT_GRP_CFG_MASK 5).of 0 = 0 ∧ e.on (Reg.INT_GRP_CFG_FIRED_PEND 5) = true) ∧
    (let n := srcNum .PPS_LOST
     n < 512 ∧ claimable.intr.delivered.contains n = true ∧ bit (claimable.target n) 0 = true ∧
     claimable.on (Reg.INT_SRC_CFG_IN_SERVICE n) = false ∧ (∀ m < n, claimable.intr.delivered.contains m = false) ∧
     claimable.on (Reg.INT_SRC_CFG_PENDING n) = true ∧ 2 ≤ claimable.rd (Reg.INT_SRC_CFG_SENSE n) ∧
     (sets [(Reg.INT_SRC_CFG_PENDING n, 0)] claimable).on (Reg.INT_SRC_CFG_PENDING n) = false ∧
     (sets [(Reg.INT_SRC_CFG_SENSE n, 0)] claimable).rd (Reg.INT_SRC_CFG_SENSE n) < 2) ∧
    (∀ n < 512, live.intr.delivered.contains n = false) ∧
    (let n := srcNum .PPS_LOST
     let e := sets [(Reg.INT_SRC_CFG_IN_SERVICE n, 1)] { edgeSrc with intr := { edgeSrc.intr with claimedBy := [(n, 1)] } }
     (Reg.INT_COMPLETE_SOURCE 1).of n = n ∧ e.on (Reg.INT_SRC_CFG_IN_SERVICE n) = true ∧ look e.intr.claimedBy n = some 1 ∧
     look e.intr.claimedBy n ≠ some 0 ∧ 2 ≤ e.rd (Reg.INT_SRC_CFG_SENSE n)) := by decide +kernel

/-! ### The start lock, the roll call and the map -/

/-- A start-lock write with LOCK 0, one while BUSY, one while LOCKED; and one that takes effect. -/
theorem witness_StartLockIsTakenOnce :
    (takesWrites .coding (st live) ∧ Reg.GEN_START_LOCK.of 0 = 0 ∧ (sets [(Reg.GEN_START_BUSY, 1)] live).on Reg.GEN_START_BUSY = true ∧
      fixed.locked = true) ∧
    (let s := st (sets [(Reg.MEM_BITMAP_BASE_BASE, 1024)] live)
     let e := written .coding genStartFields 1 s
     let busy := (((e.flag Reg.GEN_START_BUSY true).wr Reg.GEN_START_STATUS stNotReady).wr Reg.GRV_RGN_DIGEST_DIGEST
       e.rgnDigest).wr Reg.UPD_UPROG_DIGEST_DIGEST (leNat ((sha3_256 (bytesAt live.progs 0 131072)).take 8))
     Reg.GEN_START_LOCK.of 1 = 1 ∧ live.on Reg.GEN_START_BUSY = false ∧ live.locked = false ∧ live.rgns = [] ∧
     live.on Reg.GRV_CFG_VALID = false ∧ live.mapState ≠ 4 ∧
     (busy.wr Reg.GRV_STAGE_SIZE_BYTES 0).fits.all (·.2) = true) := by decide +kernel

/-- An engine that has its place. -/
def placed : Eng := sets [(Reg.GEN_PLACE_VALID, 1)] live

theorem witness_RollCallRecordsAreKeptAndResent :
    (placed.on Reg.GEN_BOOT_READY = true ∧ placed.fenced = false ∧ placed.boot.inReset = false ∧ (zeros 128).length = 128 ∧
      placed.on Reg.GEN_PLACE_VALID = true ∧ (0 : Word).toNat = placed.mapKey ∧ (1 : Word).toNat ≠ placed.mapKey ∧
      placed.rc.active = false) ∧
    ({ placed with rc := { placed.rc with active := true } } : Eng).rc.active = true := by decide +kernel

/-- An engine armed for a map. -/
def armed : Eng := sets [(Reg.GRV_MAP_CTL_ARMED, 1), (Reg.GRV_MAP_STAT_STATE, 1)] placed

/-- ARM when locked, with a map of the same digest and with none; a map write to an engine not armed, with another key, with a
part that ends with the aperture; a child that waits; a first fetch; a retry; the second and third failed attempt; a
fetched map with its digest. -/
theorem witness_MapIsArmedWrittenAndFetched :
    (takesWrites .coding (st live) ∧ Reg.GRV_MAP_CTL_ARM.of 1 = 1 ∧ fixed.locked = true ∧ live.rwlOpen = true ∧ live.mapState ≠ 3) ∧
    (let e := sets [(Reg.GRV_MAP_STAT_STATE, 3)] { live with map := { live.map with digest := zeros 32 } }
     e.rwlOpen = true ∧ e.mapState = 3 ∧ e.map.digest = e.mapDigest) ∧
    (live.on Reg.GRV_MAP_CTL_ARMED = false ∧ armed.on Reg.GEN_BOOT_READY = true ∧ armed.fenced = false ∧
      armed.boot.inReset = false ∧ 0x1FFFFFE + [0x01, 0x02].length ≤ 2 ^ 25 ∧ armed.on Reg.GRV_MAP_CTL_ARMED = true ∧
      armed.on Reg.GEN_PLACE_VALID = true ∧ (1 : Word).toNat ≠ armed.mapKey ∧ (0 : Word).toNat = armed.mapKey ∧
      armed.mapState = 1 ∧
      ((((awake (st armed)).emit (.fabricAnswer (some []))).setMap (fun m =>
        { m with buf := [0x01, 0x02].zipIdx.foldl (fun b x => put b (0x1FFFFFE + x.2) x.1) m.buf })).bufferMap 0x1FFFFFE
          [0x01, 0x02]).mapWhole = false) ∧
    ({ armed with map := { armed.map with waiting := [7] } } : Eng).map.waiting.contains 7 = true ∧
    (armed.mapState = 1 ∧ armed.rd Reg.GRV_MAP_STAT_TRIES = 0) ∧
    ((sets [(Reg.GRV_MAP_STAT_STATE, 5)] armed).mapState = 5 ∧ (sets [(Reg.GRV_MAP_STAT_STATE, 4)] armed).mapState = 4) ∧
    ((sets [(Reg.GRV_MAP_STAT_STATE, 2), (Reg.GRV_MAP_STAT_TRIES, 2)] armed).mapState = 2 ∧
      (sets [(Reg.GRV_MAP_STAT_STATE, 2), (Reg.GRV_MAP_STAT_TRIES, 2)] armed).rd Reg.GRV_MAP_STAT_TRIES < 3 ∧
      3 ≤ (sets [(Reg.GRV_MAP_STAT_STATE, 2), (Reg.GRV_MAP_STAT_TRIES, 3)] armed).rd Reg.GRV_MAP_STAT_TRIES) ∧
    (let m := ([] : List Byte).take (mapLength [])
     sha3_256 m = (sets ((List.range 4).map (fun n => (Reg.GRV_MAP_DIG_DIGEST n, fieldAt (sha3_256 []) (8 * n) 8))) armed).mapDigest) := by
  decide +kernel

/-! ### Resets, pruning, power -/

/-- An engine with `n` coding-core resets within the last 600 s. -/
def resetTimes (n : Nat) : Eng := { live with boot := { live.boot with resetsAt := List.replicate n 0 } }

theorem witness_CodingCoreResetsAndResumes :
    (live.answers .alwaysOn = true ∧ Reg.GEN_RESET_KEY.of 0 ≠ 0x5A ∧ Reg.GEN_RESET_KEY.of (word [(Reg.GEN_RESET_KEY, 0x5A), (Reg.GEN_RESET_CORE, 1)]) = 0x5A ∧
      Reg.GEN_RESET_CORE.of (word [(Reg.GEN_RESET_KEY, 0x5A), (Reg.GEN_RESET_CORE, 1)]) = 1 ∧ Reg.GEN_RESET_CRYPTO.of (word [(Reg.GEN_RESET_KEY, 0x5A), (Reg.GEN_RESET_CORE, 1)]) = 0 ∧ Reg.GEN_RESET_CORE.of (word [(Reg.GEN_RESET_KEY, 0x5A), (Reg.GEN_RESET_CRYPTO, 1)]) = 0 ∧
      Reg.GEN_RESET_CRYPTO.of (word [(Reg.GEN_RESET_KEY, 0x5A), (Reg.GEN_RESET_CRYPTO, 1)]) = 1) ∧
    (live.boot.inReset = false ∧ live.oos = false ∧
      ((resetTimes 2).boot.resetsAt.filter (fun t => (resetTimes 2).now < t + 600000000000)).length < 3 ∧
      3 ≤ ((resetTimes 3).boot.resetsAt.filter (fun t => (resetTimes 3).now < t + 600000000000)).length) ∧
    (({ live with boot := { live.boot with inReset := true } } : Eng).boot.inReset = true ∧ live.late = []) := by decide +kernel

/-- KIND 0 is a cluster and KIND 1 a lane; unit 63. -/
def pruneWord (kind unprune : Nat) : Nat :=
  word [(Reg.GEN_PRUNE_KEY, 0xA5), (Reg.GEN_PRUNE_UNPRUNE, unprune), (Reg.GEN_PRUNE_KIND, kind), (Reg.GEN_PRUNE_UNIT, 63)]

theorem witness_PruningMarksUnits :
    (live.answers .alwaysOn = true ∧ Reg.GEN_PRUNE_KEY.of 0 ≠ 0xA5) ∧
    (Reg.GEN_PRUNE_KEY.of (pruneWord 0 0) = 0xA5 ∧ Reg.GEN_PRUNE_UNPRUNE.of (pruneWord 0 0) = 0 ∧
      Reg.GEN_PRUNE_KIND.of (pruneWord 0 0) = 0 ∧ Reg.GEN_PRUNE_UNIT.of (pruneWord 0 0) = 63 ∧
      Reg.GEN_PRUNE_KIND.of (pruneWord 1 0) = 1 ∧ Reg.GEN_PRUNE_UNPRUNE.of (pruneWord 0 1) = 1 ∧
      Reg.GEN_PRUNE_KIND.of (pruneWord 1 1) = 1 ∧ Reg.GEN_PRUNE_UNPRUNE.of (pruneWord 1 1) = 1) ∧
    (bit ({ live.fuses with clusters := 1 } : Fuses).clusters 63 = false ∧ bit live.fuses.clusters 63 = true ∧
      bit (live.rd Reg.GEN_HOLE_CLU_PRUNED) 63 = false) ∧
    (let m := ((written .alwaysOn pruneFields (pruneWord 0 0) (st live)).wr Reg.GEN_HOLE_CLU_PRUNED (setBit 0 63)).raise .UNIT_PRUNED
     (if m.clustersLeft < m.rd Reg.GEN_PRUNE_CTL_CLU_MIN then m.raise .CLUSTER_LOW else m).clustersLeft ≠ 0) ∧
    (bit ((written .alwaysOn pruneFields (pruneWord 1 0) (st live)).presentLanes 3) 15 = true ∧
      bit (live.rd (Reg.GP_LANES_PRUNED 3)) 15 = false) ∧
    (fixed.locked = true ∧ live.locked = false) ∧
    ((sets [(Reg.GEN_PRUNE_CTL_AUTO_CLU, 1)] live).on Reg.GEN_PRUNE_CTL_AUTO_CLU = true ∧
      (let m := ((quiet (st (sets [(Reg.GEN_PRUNE_CTL_AUTO_CLU, 1)] live))).wr Reg.GEN_HOLE_CLU_PRUNED (setBit 0 63)).raise .UNIT_PRUNED
       (if m.clustersLeft < m.rd Reg.GEN_PRUNE_CTL_CLU_MIN then m.raise .CLUSTER_LOW else m).clustersLeft ≠ 0)) := by
  decide +kernel

theorem witness_KeepAliveAndComputeResets :
    (live.answers .alwaysOn = true ∧ Reg.GEN_PWR_SLEEP.of 1 = 1 ∧ live.on Reg.GRV_CFG_VALID = false ∧ live.q.opens = [] ∧
      (sets [(Reg.GRV_CFG_VALID, 1)] live).on Reg.GRV_CFG_VALID = true ∧ live.on Reg.GEN_PWR_ASLEEP = false) ∧
    ((sets [(Reg.GEN_PWR_ASLEEP, 1)] live).on Reg.GEN_PWR_ASLEEP = true ∧
      (sets [(Reg.INT_WATCH_EN 0, 1), (Reg.INT_WATCH_SOURCE 0, 511)] live).watched 511 = true) ∧
    (live.pins.pwrGood = true ∧ 2 ≤ live.rd Reg.GEN_BOOT_STAGE) ∧
    (live.pins.cmpRstL = true ∧ ({ live with pins := { live.pins with cmpRstL := false } } : Eng).pins.cmpRstL = false) := by
  decide +kernel

theorem witness_ZeroizationLeavesNoKey : live.answers .alwaysOn = true ∧ Reg.SEC_CTL_ZEROIZE.of (word [(Reg.SEC_CTL_ZKEY, 0xC3), (Reg.SEC_CTL_ZEROIZE, 1)]) = 1 ∧
    Reg.SEC_CTL_ZKEY.of (word [(Reg.SEC_CTL_ZKEY, 0xC3), (Reg.SEC_CTL_ZEROIZE, 1)]) = 0xC3 ∧ live.on Reg.SEC_STAT_ERROR = false ∧
    (sets [(Reg.SEC_STAT_ERROR, 1)] live).on Reg.SEC_STAT_ERROR = true := by decide +kernel

/-! ### Descriptors, programs and power -/

/-- Descriptor 4095 of a valid bypass region of one leaf; and what stands in it before VALID is written. -/
def described : Eng :=
  sets [(Reg.MEM_USABLE_TOP_TOP, 1)]
    { live with descs := splice [] (64 * 4095) (natLe 8 0 ++ natLe 8 0x100000 ++ [6, 0xFF]) }

theorem witness_DescriptorsAreWrittenUntilLocked :
    (takesWrites .coding (st fixed) ∧ fixed.rwlOpen = false ∧ 0x3FFF8 % 8 = 0 ∧ 0x3FFF8 + 8 ≤ 0x40000 ∧ 0x1FFFC % 4 = 0 ∧
      0x1FFFC + 4 ≤ 0x20000) ∧
    (takesWrites .coding (st live) ∧ live.rwlOpen = true ∧ Memory.wf live.descs ∧ live.descValid 4095 = false) ∧
    (let e : Eng := { live with descs := splice [] (64 * 4095 + 0x3C) [1] }
     e.descValid 4095 = true ∧ Memory.wf e.descs ∧ e.on Reg.GRV_RGN_CHECK_FAIL = false ∧
     (natLe 4 1).zipIdx.map (fun b => b.1 &&& descMask b.2) ≠ bytesAt e.descs (descBytes * 4095) 4) := by decide +kernel

/-- A descriptor that is valid, one that passes every check, one that fails the first; a program of one instruction, one with
no writing pass; a 64-bit write at each end of what a slot holds beyond its header. -/
theorem witness_RegionsAndProgramsAreCheckedWhenMadeValid :
    (({ live with descs := splice [] (64 * 4095 + 0x3C) [1] } : Eng).descValid 4095 = true ∧
      described.descValid 4095 = false ∧ described.rwlOpen = true ∧
      described.validCheck (described.readRgn 4095) = none ∧ live.validCheck (live.readRgn 4095) = some 1 ∧
      live.on Reg.GRV_RGN_CHECK_FAIL = false) ∧
    (let e : Eng := { live with progs := splice [] (15 * 8192 + 6) [1] }
     takesWrites .coding (st e) ∧ e.rwlOpen = true ∧ (1 : Word).toNat % 2 = 1 ∧ (1 : Word).toNat / 2 % 2 ^ 15 = 0 ∧
     ({ reached .coding (st e) with progs := splice e.progs (15 * 8192) (natLe 4 1) } : Eng).progCheck 15 = none ∧
     ({ reached .coding (st live) with progs := splice live.progs (15 * 8192) (natLe 4 1) } : Eng).progCheck 15 = some (0, 3) ∧
     e.on Reg.UPD_PROG_CHECK_FAIL = false ∧ 64 + 8 ≤ 0x1040 ∧ 0x1038 + 8 ≤ 0x1040 ∧ 0x1038 % 8 = 0) := by decide +kernel

theorem witness_TestNetworkAnswers : ({ live with pins := { live.pins with teMode := true }, edge := { live.edge with bist := [(111, 5)] } } :
    Eng).pins.teMode = true ∧ look [((111 : Nat), 5)] 111 = some 5 ∧ live.pins.teMode = false := by decide

/-! ### The management path -/

/-- Views of 64 places, each bound to a position. -/
def fullViews : Eng :=
  { sets ((List.range 16).flatMap (fun p => [(Reg.GRV_MEMBER_PRESENT p, 1), (Reg.GRV_MEMBER_PLACE p, p)])) live with
    mgmt := { live.mgmt with views := (List.range 64).map (fun n =>
      { slot := n, place := n % 16, mgt := 1, data := 0, since := 0, reported := false }) } }

/-- A view that is no view; one for which no entry can be had; views 0, 1 and 2 of a place, of this engine and of a bound
position; a disagreement not yet reported. -/
theorem witness_ViewsAreKeptAndReported :
    (live.alive = true ∧ 2 < (3 : Byte).toNat ∧ (quiet (st fullViews)).viewsWith 0xFFFFF 1 = none) ∧
    ((quiet (st live)).viewsWith 5 0 ≠ none ∧ (quiet (st live)).viewsWith 5 1 ≠ none ∧ (quiet (st placed)).viewsWith 0 2 ≠ none) ∧
    (placed.on Reg.GEN_PLACE_VALID = true ∧ (0 : Word).toNat = placed.place ∧ live.on Reg.GEN_PLACE_VALID = false ∧
      (sets [(Reg.GRV_MEMBER_PRESENT 15, 1), (Reg.GRV_MEMBER_PLACE 15, 9)] fixed).boundPos 9 = some 15 ∧
      (sets [(Reg.GRV_MEMBER_PRESENT 15, 1), (Reg.GRV_MEMBER_PLACE 15, 9)] fixed).locked = true) ∧
    (let e : Eng := { sets [(Reg.GRV_MEMBER_PRESENT 1, 1), (Reg.GRV_MEMBER_LOST 1, 1), (Reg.GRV_MEMBER_PLACE 1, 9)] live with
       mgmt := { live.mgmt with views := [{ slot := 0, place := 9, mgt := 1, data := 4, since := 0, reported := false }] } }
     ((quiet (st e)).noteViews.mgmt.views.find? (fun x => x.place == 9)).any (fun v => !v.reported && disagree v.data v.mgt)
       = true) := by decide +kernel

/-- A bundle that wraps an all-zero link key for job 5 under the transport key and the challenge `ch`. -/
def bundleHead : List Byte := natLe 2 1 ++ natLe 2 1 ++ natLe 8 5 ++ zeros 12
def bundle (ch : List Byte) : List Byte :=
  let x := gcmSeal live.transportKey (zeros 12) (bundleHead ++ ch ++ natLe 8 live.fuses.serial) (zeros 148)
  bundleHead ++ (x.1 ++ (x.2 ++ zeros 4))

theorem bundle_fields (x y : List Byte) (hx : x.length = 148) (hy : y.length = 16) :
    let b := bundleHead ++ (x ++ (y ++ zeros 4))
    bundleOk b = true ∧ b.take 24 = bundleHead ∧ (b.drop 12).take 12 = zeros 12 ∧ (b.drop 24).take 148 = x ∧
      (b.drop 0xAC).take 16 = y ∧ fieldAt b 2 2 = 1 := by
  intro b
  have hh : bundleHead.length = 24 := rfl
  have f : ∀ o w, o + w ≤ 24 → (b.drop o).take w = (bundleHead.drop o).take w := by
    intro o w h
    rw [List.drop_append_of_le_length (by omega), List.take_append_of_le_length (by simp [hh]; omega)]
  have a4 : b.drop 0xBC = zeros 4 := by
    show List.drop (24 + (148 + 16)) _ = _
    rw [← hh, List.drop_length_add_append, ← hx, List.drop_length_add_append, ← hy, List.drop_left]
  have l : b.length = 192 := by simp [b, hh, hx, hy, zeros]
  refine ⟨?_, ?_, ?_, ?_, ?_, ?_⟩
  · simp only [bundleOk, fieldAt, zeroAt, f 0 2 (by omega), f 2 2 (by omega), f 4 8 (by omega), a4, l]; decide
  · rw [← hh]; exact List.take_left
  · rw [f 12 12 (by omega)]; rfl
  · rw [← hh, List.drop_left, ← hx, List.take_left]
  · show List.take 16 (List.drop (24 + 148) _) = _
    rw [← hh, List.drop_length_add_append, ← hx, List.drop_left, ← hy, List.take_left]
  · simp only [fieldAt, f 2 2 (by omega)]; rfl

set_option maxRecDepth 4000 in
theorem witness_ManagementAndControlMessagesAreAnswered :
    (live.alive = true ∧ live.moduleReady = true ∧ live.sec.challenge = none) ∧
    ((1 : BitVec 2).toNat < 2 ∧ (1 : Byte) ≠ 0 ∧ (1 : Byte) ≠ 255 ∧ 2 ≤ (2 : BitVec 2).toNat) ∧
    ((sets [(Reg.SEC_STAT_ERROR, 1)] live).moduleReady = false ∧ bundleOk (zeros 192) = false ∧ fixed.locked = true ∧
      (sets [(Reg.SEC_STAT_ROOT_BLOCKED, 1)] live).on Reg.SEC_STAT_ROOT_BLOCKED = true ∧
      (let e := sets [(Reg.SEC_STAT_KEYS, 1), (Reg.SEC_JOB_ID_JOB_ID, 6)] live
       e.rd Reg.SEC_STAT_KEYS ≠ 0 ∧ e.rd Reg.SEC_JOB_ID_JOB_ID ≠ 5) ∧
      absentZero 1 (1 :: zeros 31 ++ zeros 31 ++ [1] ++ zeros 84) = false ∧ zeroAt (zeros 147 ++ [1]) 96 52 = false) ∧
    ((0x7F : Byte) = 0x7F ∧ ¬((0x01 : Byte) = 0xFF ∨ (0x01 : Byte) = 0x00 ∨ (0x01 : Byte) = 0x7F)) ∧
    (0 : Word).toNat ≠ 64771 ∧
    (∀ ch : List Byte, let e : Eng := { live with sec := { live.sec with challenge := some ch } }
      e.alive = true ∧ e.locked = false ∧ e.moduleReady = true ∧ e.on Reg.SEC_STAT_ROOT_BLOCKED = false ∧
      e.rd Reg.SEC_STAT_KEYS = 0 ∧ bundleOk (bundle ch) = true ∧
      gcmOpen e.transportKey (((bundle ch).drop 12).take 12) ((bundle ch).take 24 ++ ch ++ natLe 8 e.fuses.serial)
        (((bundle ch).drop 24).take 148) (((bundle ch).drop 0xAC).take 16) = some (zeros 148) ∧
      absentZero (fieldAt (bundle ch) 2 2) (zeros 148) = true ∧ zeroAt (zeros 148) 96 52 = true) := by
  refine ⟨by decide +kernel, by decide, by decide +kernel, by decide, by decide, fun ch => ⟨(by decide +kernel : live.alive = true),
    (by decide +kernel : live.locked = false), (by decide +kernel : live.moduleReady = true),
    (by decide +kernel : live.on Reg.SEC_STAT_ROOT_BLOCKED = false), (by decide +kernel : live.rd Reg.SEC_STAT_KEYS = 0), ?_⟩⟩
  have hk : live.transportKey.length = 32 := kdf_length _ _ _
  have h1 : (gcmSeal live.transportKey (zeros 12) (bundleHead ++ ch ++ natLe 8 live.fuses.serial) (zeros 148)).1.length = 148 :=
    gcmStream_length hk _ _
  have h2 : (gcmSeal live.transportKey (zeros 12) (bundleHead ++ ch ++ natLe 8 live.fuses.serial) (zeros 148)).2.length = 16 :=
    gcmTag_length hk _ _ _
  have ho := gcmOpen_gcmSeal hk (zeros 12) (bundleHead ++ ch ++ natLe 8 live.fuses.serial) (zeros 148)
  obtain ⟨b1, b2, b3, b4, b5, b6⟩ := bundle_fields _ _ h1 h2
  refine ⟨b1, ?_, ?_, by decide⟩
  · unfold bundle
    simp only
    rw [b2, b3, b4, b5]
    exact ho
  · unfold bundle
    simp only
    rw [b6]
    decide

/-- No power; fuses within R26 and beyond it; no request for the flash; two images that cannot be read. -/
theorem witness_PowerOnRunsItsSteps :
    State.reset.eng.pins.pwrGood = false ∧ Eng.reset.fuses.ok = true ∧
    ({ Eng.reset with fuses := { Eng.reset.fuses with clusters := 0 } } : Eng).fuses.ok = false ∧
    Eng.reset.pins.flShareReq = false ∧ Eng.reset.boot.stackCaps = [] ∧
    checkImage Eng.reset.fuses (Eng.reset.rd Reg.GEN_ID_SILICON) .error = .rejected 2 ∧
    SMap.Sorted [(0, ({ stress := 3, samples := [] } : Wear))] ∧ (127 : Nat) ∉ [0, 128] ∧
    ({ soft := 2, faulty := some 111, nvmBad := [] } : StoreTest).faulty = some 111 := by decide +kernel

/-! ### Packets -/

/-- Position 0, at place 0, of a grove of four with three data leaves and one parity leaf, with the link key of zeros and a
session of generation 1 with the member at place and position 1. -/
def member : Eng :=
  { sets ([(Reg.GRV_CFG_VALID, 1), (Reg.GRV_CFG_W, 4), (Reg.GRV_CFG_K, 3), (Reg.GRV_CFG_M, 1), (Reg.GEN_PLACE_VALID, 1)] ++
      (List.range 4).flatMap (fun p => [(Reg.GRV_MEMBER_PRESENT p, 1), (Reg.GRV_MEMBER_PLACE p, p)])) fixed with
    sec := { fixed.sec with jlk := some (zeros 32) }, sess := [(1, { gen := 1, st := 1, tx := 1, heard := true })] }

/-- The generation that a TYPE goes at. -/
def genOf (typ : Nat) : Nat := if typ = tGraftJoin ∨ typ = tGraftWelcome then 0 else 1

/-- The payload that a packet of a TYPE can not be without: a MIRROR_DONE's line and the sector of MIRROR_LINES; and its map. -/
def payloadOf (typ : Nat) : List Byte := if typ = tMirrorDone then zeros 64 else if typ = tMirrorLines then zeros 4096 else []
def mapOf (typ : Nat) : DWord := if typ = tMirrorDone then 1 else if typ = tMirrorLines then 0xFFFFFFFFFFFFFFFF else 0

/-- A packet of a TYPE from the member at place and position 1, with FLAGS, a body and a tag. -/
def taggedAs (typ : Nat) (flags : Byte) (body : List Byte) (tag : BitVec 128) : SapPkt :=
  { blank with flags := flags, gen := byteOf (genOf typ), pos := 1, counter := 1, release := if typ = tGraftJoin then 1 else 0,
               planes := byteOf (planesOf 1 (mapOf typ).toNat), lineMap := mapOf typ, body := body, tag := tag }

/-- What its sender makes of it. -/
def sealOf (typ : Nat) (flags : Byte) : List Byte × List Byte :=
  gcmSeal (sessionKey (zeros 32) 1 0 (genOf typ)) (sapIv 1 (genOf typ) 1) (sapHeader typ (taggedAs typ flags [] 0)) (payloadOf typ)

def sealedAs (typ : Nat) (flags : Byte) : SapPkt :=
  taggedAs typ flags (sealOf typ flags).1 (BitVec.ofNat 128 (beNat (sealOf typ flags).2))

theorem sealed_opens (typ : Nat) (flags : Byte) :
    (awake (st member)).openPkt 1 (genOf typ) typ (sealedAs typ flags) = some (payloadOf typ) := by
  have hk : (sessionKey (zeros 32) 1 0 (genOf typ)).length = 32 := kdf_length _ _ _
  have hj : (awake (st member)).sec.jlk = some (zeros 32) := by decide +kernel
  have hpl : (awake (st member)).place = 0 := by decide +kernel
  have hp : ∀ b t, (taggedAs typ flags b t).pos.toNat % 16 = 1 := fun _ _ => rfl
  have hc : ∀ b t, (taggedAs typ flags b t).counter.toNat = 1 := fun _ _ => rfl
  have hb : ∀ b t, (taggedAs typ flags b t).body = b := fun _ _ => rfl
  have ht : ∀ b t, (taggedAs typ flags b t).tag = t := fun _ _ => rfl
  have hh : ∀ b t, sapHeader typ (taggedAs typ flags b t) = sapHeader typ (taggedAs typ flags [] 0) := fun _ _ => rfl
  have hl : (sealOf typ flags).2.length = 16 := gcmTag_length hk _ _ _
  unfold Eng.openPkt
  rw [hj, hpl, Option.bind_some]
  unfold sealedAs
  rw [hp, hc, hb, ht, natBe_tag hl, hh]
  exact gcmOpen_gcmSeal hk _ _ _

theorem door_sealed (typ : Nat) (flags : Byte) (h : typ ≠ tGraftJoin) (h' : typ ≠ tGraftWelcome) :
    (awake (st member)).door typ (sealedAs typ flags) = .pass 1 (genOf typ) (payloadOf typ) := by
  have hs : (awake (st member)).sendersOf 1 = [1] := by decide +kernel
  have hse : (awake (st member)).sessAt 1 = some { gen := 1, st := 1, tx := 1, heard := true } := by decide +kernel
  have hg : genOf typ = 1 := by simp [genOf, h, h']
  have hgen : (sealedAs typ flags).gen.toNat = genOf typ := by
    rw [show (sealedAs typ flags).gen = byteOf (genOf typ) from rfl, hg]; rfl
  have ho := sealed_opens typ flags
  rw [← hgen] at ho ⊢
  refine door_pass h h' hs hse ?_ ho
  rw [hgen, hg]
  unfold doorGens
  split
  · contradiction
  · split <;> simp

theorem door_graft (typ : Nat) (flags : Byte) (h : typ = tGraftJoin ∨ typ = tGraftWelcome) :
    (awake (st member)).door typ (sealedAs typ flags) = .pass 1 0 (payloadOf typ) := by
  have hpl : (awake (st member)).placeOf 1 = 1 := by decide +kernel
  rcases h with rfl | rfl
  · exact door_join (e := awake (st member)) (p := sealedAs tGraftJoin flags) rfl (sealed_opens tGraftJoin flags)
  · have ho := sealed_opens tGraftWelcome flags
    have hp : (sealedAs tGraftWelcome flags).pos.toNat % 16 = 1 := rfl
    have hw : (awake (st member)).placeOf ((sealedAs tGraftWelcome flags).pos.toNat % 16) = 1 := by rw [hp, hpl]
    have h0 : genOf tGraftWelcome = 0 := rfl
    rw [h0] at ho
    rw [← hw] at ho ⊢
    exact door_welcome ho
theorem door_as (typ : Nat) (flags : Byte) : (awake (st member)).door typ (sealedAs typ flags) = .pass 1 (genOf typ) (payloadOf typ) := by
  by_cases h : typ = tGraftJoin ∨ typ = tGraftWelcome
  · rw [door_graft typ flags h]
    simp [genOf, h]
  · exact door_sealed typ flags (fun c => h (.inl c)) (fun c => h (.inr c))

/-- The packet that its receiver reads. -/
def plainAs (typ : Nat) (flags : Byte) : Pkt := sapPlain (taggedAs typ flags [] 0) typ (payloadOf typ)

theorem plain_as (typ : Nat) (flags : Byte) : sapPlain (sealedAs typ flags) typ (payloadOf typ) = plainAs typ flags := rfl

def packetTypes : List Nat := (packetRows blank).map (·.2)

theorem types_of_rows (p : SapPkt) : (packetRows p).map (·.2) = packetTypes := rfl

theorem check3_as : ∀ typ ∈ packetTypes, ((awake (st member)).heardAt 1 (genOf typ) 1).check3 (plainAs typ 0) = true := by
  decide +kernel

theorem bound_as (g : Nat) (hg : g = 0 ∨ g = 1) :
    1 < ((awake (st member)).heardAt 1 g 1).w ∧ ((awake (st member)).heardAt 1 g 1).placeOf 1 = 1 := by
  rcases hg with rfl | rfl <;> decide +kernel

/-- A sealed packet of each TYPE passes every check of R119. -/
theorem witness_PacketsThatPassTheChecksAreTaken : ∀ typ ∈ packetTypes,
    ∃ e, passes typ (sealedAs typ 0) (st member) 1 (plainAs typ 0) e := by
  intro typ h
  have ht : takesPackets member := by unfold takesPackets; decide +kernel
  have h3 := check3_as typ h
  obtain ⟨hw, hp⟩ := bound_as (genOf typ) (by unfold genOf; split <;> simp)
  refine ⟨_, ht, genOf typ, payloadOf typ, door_as typ 0, (plain_as typ 0).symm, rfl, ?_, ?_⟩
  · exact h3
  · have hs : (plainAs typ 0).src = 1 := rfl
    unfold Eng.mayComeFrom
    rw [hs]
    simp [hw, hp]

/-- Out of service; in error; in a coding-core reset; no session; no key; a reserved flag; each key right and wrong at the
apertures, and no region, one that is not protected, one that is. -/
theorem witness_PacketsThatFailACheckAreNotTaken :
    ((sets [(Reg.GEN_RESET_STAT_OOS, 1)] live).serving = false ∧ (member.serving = true ∧ ({ member with boot := { member.boot with inReset := true } } : Eng).serving = true)) ∧
    (takesPackets member ∧ (awake (st member)).door 0x01 { blank with pos := 2 } = .gen ∧
      (awake (st { member with sec := { member.sec with jlk := none } })).door 0x01 { blank with pos := 1, gen := 1 } = .tag) ∧
    ((awake (st member)).door 0x01 (sealedAs 0x01 8) = .pass 1 1 [] ∧
      ((awake (st member)).heardAt 1 1 1).check3 (plainAs 0x01 8) = false) ∧
    (State.reset.eng.on Reg.GEN_BOOT_READY = false ∧ live.on Reg.GEN_BOOT_READY = true ∧ live.boot.inReset = false ∧
      (let e := sets [(Reg.RBD_ROUTE_KEY_KEY, 2 ^ 32 - 1)] live
       (0xFFFFFFFF : Word).toNat = e.rd Reg.RBD_ROUTE_KEY_KEY ∧ (0xFFFFFFFF : Word) ≠ 0 ∧
         (0xFFFFFFFE : Word).toNat ≠ e.rd Reg.RBD_ROUTE_KEY_KEY) ∧
      live.rgn? 0 = none ∧ ({ live with rgns := [live.readRgn 4095] } : Eng).rgn? 4095 ≠ none ∧
      (live.readRgn 4095).protectedCls = false ∧ ({ live.readRgn 4095 with cls := 1 } : Rgn).protectedCls = true) := by
  have ht : takesPackets member := by unfold takesPackets; decide +kernel
  exact ⟨by decide +kernel, ⟨ht, by decide +kernel, by decide +kernel⟩, ⟨door_as 0x01 8, by decide +kernel⟩, by decide +kernel⟩

/-! ### Command queues -/

/-- Queue 3 with one descriptor to fetch, on a locked engine. -/
def ready : Eng := sets [(Reg.CQ_CTL_EN 3, 1), (Reg.CQ_TAIL_TAIL 3, 1), (Reg.CQ_CTL_LOG2SIZE 3, 6)] fixed

/-- The header of a descriptor for queue 3 and the last mailbox. -/
def lastBox : CmdHdr := { queue := 3, flags := 0, mailbox := 255, seq := 7, timeout := 0 }

theorem witness_QueueRegistersSteerTheQueue :
    takesWrites .coding (st ready) ∧
    (Reg.CQ_TAIL_TAIL 3).of (63 : Word).toNat < (written .coding [Reg.CQ_TAIL_TAIL 3] 63 (st ready)).queueSize 3 ∧
    (written .coding [Reg.CQ_TAIL_TAIL 3] 64 (st ready)).queueSize 3 ≤ (Reg.CQ_TAIL_TAIL 3).of (64 : Word).toNat ∧
    (Reg.CQ_CTL_EN 3).of (0x80000000 : Word).toNat = 1 ∧ (Reg.CQ_CTL_EN 3).of (0x7FFFFFFF : Word).toNat = 0 := by decide +kernel

/-- A mailbox of 256; one that is not empty; an unknown opcode; no start lock; a start lock being taken; a FENCE behind an open
command; out of service. -/
theorem witness_DescriptorsAreAcceptedInTurn :
    (let e := ready
     e.boot.inReset = false ∧ (quiet (st e)).fetchable 3 = true ∧ look e.q.fetched 3 = none ∧
     256 ≤ (readDesc ([0, 0] ++ natLe 2 256 ++ zeros 60)).mailbox ∧
     (readDesc ([0, 0] ++ natLe 2 255 ++ zeros 60)).mailbox < 256 ∧ e.mboxEmpty 255 = true ∧
     ({ e with q := { e.q with mbox := [(255, .ready)] } } : Eng).mboxEmpty 255 = false ∧
     (readDesc ([0xFF, 0] ++ natLe 2 255 ++ zeros 60)).op = none) ∧
    ((readDesc ([1, 0] ++ natLe 2 255 ++ zeros 60)).op = some (.ringOpen 0) ∧ needsLock (.ringOpen 0) = true ∧
      live.locked = false ∧ live.on Reg.GEN_START_BUSY = false ∧
      (sets [(Reg.GEN_START_BUSY, 1)] live).on Reg.GEN_START_BUSY = true) ∧
    (let c : OpenCmd := { id := 0, queue := 3, mailbox := 0, quiet := false, opcode := 0, seq := 0, timeout := 0, op := .nop }
     bit (readDesc ([0, 1] ++ natLe 2 255 ++ zeros 60)).flags 0 = true ∧
       ({ ready with q := { ready.q with opens := [c] } } : Eng).q.opens.any (fun c => c.queue == 3) = true) ∧
    (let e := sets [(Reg.GEN_RESET_STAT_OOS, 1)] ready
     e.oos = true ∧ e.fetchable 3 = true ∧ e.locked = true ∧ e.on Reg.GEN_START_BUSY = false ∧
       (e.openMbox 255 1 0).opWaits (.ringOpen 0) = false) := by decide +kernel

/-- Each operation is accepted. -/
theorem witness_AcceptedCommandsStartTheirOperation :
    ∀ op ∈ [Op.nop, .ringOpen 0, .ringSeal 0 0, .ringCommit 0, .ringRollback 0 0, .stepRetire 0, .updateRun 0, .graftBegin 0 0,
      .graftBegin 0 1, .resumeSet 0 0, .evacuate 0 0, .evacuate 1 0, .evacuate 2 0, .scrubRange 0 0 0, .anchorWrite 0,
      .anchorRestore 0, .reLeaf 0 0 0, .adopt 0, .tensorDigest 0], accepts lastBox op (st ready) := by
  unfold accepts offered
  decide +kernel

/-- A ledger record of a ring. -/
def recOf (ring : Nat) : LedRec :=
  { ring := ring, bnd := { step := 0, kind := 0, count := 0 }, wstep := none, time := 0, isNew := false, applied := true,
    bytes := none, lost := false }

/-- A mailbox that is ready and one that is not; an acknowledgement with its SEQ, one with another; a record that is absent,
lost, finished and pending. -/
theorem witness_ResultsAreReadAcknowledgedAndLatched :
    (let e : Eng := { fixed with q := { fixed.q with mbox := [(255, .ready)] } }
     takesWrites .coding (st e) ∧ inReset.answers .coding = true ∧ inReset.boot.inReset = true ∧ look e.q.mbox 255 = some .ready ∧ look e.q.mbox 254 ≠ some .ready ∧
     (0x1000000FF : DWord).toNat % 256 = 255 ∧ e.rd (Reg.MBX_HDR_SEQ 255) = (0xFF : DWord).toNat / 2 ^ 32 ∧
     e.rd (Reg.MBX_HDR_SEQ 255) ≠ (0x1000000FF : DWord).toNat / 2 ^ 32) ∧
    (let held := fun (l : List LedRec) => (l.filter (fun r => r.ring == 0xFFFFFFFF)).getLast?
     held [recOf 1] = none ∧ held [recOf 0xFFFFFFFF] = some (recOf 0xFFFFFFFF) ∧ (recOf 0xFFFFFFFF).lost = false ∧
     (recOf 0xFFFFFFFF).bytes = none ∧
     held [{ recOf 0xFFFFFFFF with bytes := some (zeros 256) }] = some { recOf 0xFFFFFFFF with bytes := some (zeros 256) } ∧
     held [{ recOf 0xFFFFFFFF with lost := true }] = some { recOf 0xFFFFFFFF with lost := true }) := by decide +kernel

theorem witness_TimeoutsCompleteTheirCommand :
    let c : OpenCmd := { id := 5, queue := 3, mailbox := 255, quiet := false, opcode := 1, seq := 7, timeout := 1, op := .ringOpen 0 }
    let e : Eng := { fixed with q := { fixed.q with opens := [c] } }
    e.q.opens.find? (fun x => x.mailbox == (255 : BitVec 8).toNat) = some c ∧ (∀ x ∈ e.q.opens, x.id = c.id → x = c) ∧
      c.queue < 4 := by decide +kernel

/-! ### Transport, rings and memory -/

/-- A region of four leaves of a class. -/
def rgnOf (n cls : Nat) : Rgn :=
  { num := n, base := 4194304, len := 4194304, cls := cls, fmt := 6, layout := 0, mirrorN := 1, writer := 0xFF, auto := 0,
    partner := 0, key := 9, tag := 77, layoutDg := 0, rateUp := 0, rateDown := 0, streak := 0, sync := 0 }

/-- The member with a streamed region 4095 and one packet of its row 0 on its way to position 3. -/
def sentTo (seq : Nat) : Eng :=
  { member with
    rgns := [rgnOf 4095 1]
    sent := [{ typ := 1, region := 4095, row := 0, sector := 0, stamp := 0, seq := seq, planes := 0, lineMap := 0, payload := [],
               release := 0, dests := [{ pos := 3, thick := false, gone := true, resends := 0, missed := false }] }] }

def keyOf (seq : Nat) : PktKey := { ring := false, region := 4095, row := 0, stamp := 0, seq := BitVec.ofNat 32 seq }

def copyOf : MirrorTx :=
  { region := 4095, copy := 0xFFFFFFFF, bnd := { step := 0, kind := 0, count := 0 }, ring := 0, cursor := 0, recorded := [],
    sentN := 0, dig := 0, hash := none, waiting := [(0, 15)], done := true }

def reqOf : MirrorReq :=
  { id := 65535, region := 0, row := 0, sector := 0, stamp := 0, want := 0, byRing := false, whose := 0,
    asked := 15, tried := [] }

def reconOf : Recon :=
  { id := 0xFFFFFFFF, region := 4095, row := 0, first := 0, count := 1, lost := 2, thick := false, prio := 0, why := .repair,
    chain := [0, 1, 3], bad := [], asked := true, got := [], granted := 0 }

theorem witness_TransportTimersAct :
    (let e := sentTo 2
     ∃ m ∈ e.sent,
     e.sentIdx (keyOf 2) 3 = some 0 ∧ e.sent[0]? = some m ∧ m.typ ≤ 2 ∧ e.rgn? 4095 = some (rgnOf 4095 1) ∧
     m.dests.any (fun d => d.pos == 3 && d.gone && !d.missed) = true ∧ e.sentIdx (keyOf 1) 3 = none ∧
     (rgnOf 4095 1).streamed = true ∧
     e.destsOf 4095 0 = [{ pos := 3, thick := false, gone := false, resends := 0, missed := false }] ∧
     e.relSent.find? (fun x => x.1 == 4095 && x.2.1 == 0 && x.2.2.1 == 3) = none ∧ e.relPoint 4095 0 0 ≠ 0 ∧
     (sentTo 1).relPoint 4095 0 0 = 0) ∧
    (let e : Eng := { member with mtx := [copyOf], mreq := [reqOf] }
     e.mtx? 4095 0xFFFFFFFF = some copyOf ∧ copyOf.done = true ∧ copyOf.waiting.any (fun w => w.2 == 15) = true ∧
     (e.mreq.find? (fun q => q.id == 65535 && q.asked < 16)).isSome = true) ∧
    (let e : Eng := { sets [(Reg.RBD_ACC_CTL_MEM, 1)] member with recons := [reconOf], acc := { credit := [], owed := [(1, 512)], raised := true } }
     e.recons.find? (fun c => c.id == 0xFFFFFFFF && c.asked) = some reconOf ∧ reconOf.got.length < reconOf.count ∧
     e.accNeeds.find? (fun x => match x.2 with | .place _ i _ => i == 0xFFFFFFFF | .coll i => i == 0xFFFFFFFF) =
       some (0, .coll 0xFFFFFFFF) ∧ e.accWant (.coll 0xFFFFFFFF) = some (3, 1) ∧ e.slotsFree = 0 ∧
     e.slotsTaken < 512 + e.rd Reg.RBD_ACC_CTL_MEM * 16384 ∧ e.acc.raised = true) := by decide +kernel

/-- A packet of SEQ for row 1, whose parity leaf is here, in the last sector. -/
def toRow1 (typ stamp seq : Nat) : Pkt := { typ := typ, region := 4095, row := 1, sector := 255, src := 1, stamp := stamp, seq := seq }

/-- The member with a region of a class, and local memory of 128 GiB. -/
def holder (cls : Nat) : Eng :=
  sets [(Reg.GEN_FLOOR_SUM_STACK_GIB, 16), (Reg.MEM_HW_BASE_BASE, 129024), (Reg.MEM_FILL_DONE, 1), (Reg.MEM_JOURNAL_BASE_BASE, 125000)]
    { member with rgns := [rgnOf 4095 cls] }

/-- The parity leaf of row 1 is being rebuilt. -/
def rebuilding (e : Eng) : Eng := e.setLeafState ((rgnOf 4095 1).leaf 1) 5

theorem witness_StreamedPacketsAreAppliedInOrder :
    let e := holder 1
    let r := rgnOf 4095 1
    atOrBefore 0 (e.appliedRec 4095 1 1 false).a = true ∧ atOrBefore 1 (e.appliedRec 4095 1 1 false).a = false ∧
      atOrBefore 2 (e.appliedRec 4095 1 1 false).a = false ∧ 2 ≠ w32 ((e.appliedRec 4095 1 1 false).a + 1) ∧
      1 = w32 ((e.appliedRec 4095 1 1 false).a + 1) ∧ e.parityBusy r 1 false = false ∧ (rebuilding e).parityBusy r 1 false = true ∧
      r.rowAddr 1 % 4096 = 0 ∧ r.rowAddr 1 + 255 * 4096 + 4096 ≤ e.hwBase ∧ Memory.wf e.mem ∧ e.bitmapsOn = false ∧
      (e.productOf r 1 1 0 0 []).length = 4096 := by decide +kernel

theorem witness_RingedPacketsAreStagedInOrder :
    let e := holder 2
    let r := rgnOf 4095 2
    e.rings.frozen = none ∧ ({ e with rings := { e.rings with frozen := some 0 } } : Eng).rings.frozen = some 0 ∧
      precedes 0 1 = true ∧ (toRow1 2 0 1).stamp = e.base ∧ (toRow1 2 1 1).stamp = w32 (e.base + 1) ∧
      (toRow1 2 2 1).stamp = w32 (e.base + 2) ∧ (3 ≠ e.base ∧ 3 ≠ w32 (e.base + 1) ∧ 3 ≠ w32 (e.base + 2)) ∧
      atOrBefore (toRow1 2 1 4294967295).seq (e.stagedTo 1 4095 1 1 false) = true ∧
      atOrBefore (toRow1 2 1 1).seq (e.stagedTo 1 4095 1 1 false) = false ∧
      (toRow1 2 1 2).seq ≠ w32 (e.stagedTo 1 4095 1 1 false + 1) ∧
      atOrBefore (toRow1 2 1 2).seq (e.stagedTo 1 4095 1 1 false) = false ∧
      (toRow1 2 1 1).seq = w32 (e.stagedTo 1 4095 1 1 false + 1) ∧ e.parityBusy r 1 false = false ∧
      (rebuilding e).parityBusy r 1 false = true := by decide +kernel

/-- The member with one ring in a state. -/
def inRing (st : RingState) : Eng :=
  { member with rings := { member.rings with recs := [{ num := 0xFFFFFFFF, st := st, bnd := none, wstep := none }] } }

def endBnd : Bnd := { step := 0, kind := 0, count := 0 }
def committing (jobs : List ApplyJob) : Eng :=
  { member with rings := { member.rings with commits := [(none, 1, endBnd)], applies := jobs } }

def fetchOf : Fetch :=
  { region := 4095, row := 1048575, ring := 5, holder := 3, thick := false, tried := [], got := [], ah := 0, live := true, ended := false }

def agreeOf : Agree :=
  { x := 15, region := 0, row := 0, round := 0, coord := true, chief := 0, awaited := [], reports := [], q := none, dones := [],
    settled := false }

theorem witness_RingTimersAct :
    ((∀ r ∈ (inRing .opened).rings.recs, (inRing .opened).canLocalSeal r.num = false) ∧
      (inRing .sending).canLocalSeal 0xFFFFFFFF = true) ∧
    ((inRing .localSealed).ringSt 0xFFFFFFFF = .localSealed ∧ (inRing .flushing).ringSt 0xFFFFFFFF = .flushing ∧
      (inRing .sending).ringSt 0xFFFFFFFF = .sending ∧ (inRing .opened).ringSt 0xFFFFFFFF = .opened ∧ member.ringSt 0 = .free) ∧
    ((committing []).working = true ∧ (committing []).rings.applies.any (fun j => j.ring == 1) = false ∧
      (committing [{ ring := 1, region := 0, row := 0, sector := 0, thick := false }]).rings.applies.any (fun j => j.ring == 1)
        = true) ∧
    (let ro : Roll := { target := 4, cmd := 0, fetches := [fetchOf], copies := [], gaps := [] }
     ({ member with rings := { member.rings with roll := some ro } } : Eng).rings.roll = some ro ∧
       ro.fetches.find? (fun f => f.region == 4095 && f.row == 1048575 && f.ring == 5 && f.live && !f.ended) = some fetchOf) ∧
    (let e : Eng := { holder 1 with waits := [toRow1 1 0 1] }
     e.waits = [toRow1 1 0 1] ∧ (toRow1 1 0 1).typ = tStreamDelta ∧ e.rgn? 4095 = some (rgnOf 4095 1) ∧
     e.parityBusy (rgnOf 4095 1) 1 false = false ∧ 1 = w32 ((e.appliedRec 4095 1 1 false).a + 1) ∧
     e.parityRowFor 4095 1 false = some 0) ∧
    (member.agrees.all (fun a => !(a.x == 15 && !a.settled)) = true ∧ member.waits = [] ∧
      ({ member with agrees := [agreeOf] } : Eng).agrees.any (fun a => a.x == 15 && !a.settled) = true) := by decide +kernel

/-- The last line of local memory and the one beyond it; a pair that waits; the engine's own; out of service; the reserved
areas; a parity row, a region of another writer, a ringed region while rings are closed, and an ordinary line; no region. -/
theorem witness_TapPairsAreCheckedAndTaken :
    let e := holder 1
    (e.memSize ≤ 64 * 0x80000000 ∧ 64 * 0x7FFFFFFF < e.memSize) ∧
    (WrSource.tier ≠ .engine ∧ e.tapBlocked 4194304 = false ∧ e.taps.any (fun x => x.line == 65536 && !x.landed) = false ∧
      (rebuilding e).tapBlocked ((rgnOf 4095 1).rowAddr 1) = true) ∧
    ((sets [(Reg.GEN_RESET_STAT_OOS, 1)] e).oos = true ∧ e.oos = false) ∧
    (e.on Reg.MEM_FILL_DONE = true ∧ e.journalBase ≤ 64 * 0x7FFFFFFF ∧ 4194304 < e.journalBase ∧ e.fenced = false) ∧
    (e.rgnAt 4194304 = some (rgnOf 4095 1) ∧ e.isParityRow (rgnOf 4095 1) 1 = true ∧ e.isParityRow (rgnOf 4095 1) 0 = false ∧
      ((rgnOf 4095 1).protectedCls && !bit (rgnOf 4095 1).writer (srcCode .tier - 1)) = false ∧
      ((rgnOf 4095 1).protectedCls && !bit 0 (srcCode .tier - 1)) = true) ∧
    ((rgnOf 4095 2).ringed = true ∧ (holder 2).closed = true ∧ (sets [(Reg.GRV_RING_STATE_CLOSED, 0)] (holder 2)).closed = false) ∧
    (e.rgnAt 0 = none ∧ Memory.wf e.mem ∧ 0 + 64 ≤ e.hwBase ∧ e.bitmapsOn = false) ∧
    (e.hasHeart 4194304 = true ∧ (e.unrepIn (65536 / 64)).all (· == 65536) = true ∧
      (({ e with unrep := [65537] } : Eng).unrepIn (65536 / 64)).all (· == 65536) = false ∧
      ({ e with recons := [{ reconOf with region := 4095, row := 0, first := 0 }] } : Eng).repairing (65536 / 64) = true ∧
      e.repairing (65536 / 64) = false) := by decide +kernel

def entryOf : Capture := { region := 4095, row := 0, sector := 255, ring := 0xFFFFFFFF, delta := [], stamp := 0 }
def referralOf : Referral := { port := 7, id := 255, line := 65536, late := false }

/-- An entry whose ring is open, one whose ring is not; a line of the heartwood area; a referred read beyond memory, out of
service, alone in its sector, with another line failing in a coded region, and with no region. -/
theorem witness_LinesAreMendedAndEntriesClose :
    (let e : Eng := { inRing .opened with caps := [entryOf] }
     (e.caps.find? (fun c => c.region == 4095 && c.row == 0 && c.sector == 255 && c.ring == 0xFFFFFFFF)) = some entryOf ∧
     (e.ring? 0xFFFFFFFF).isSome = true ∧ (({ member with caps := [entryOf] } : Eng).ring? 0xFFFFFFFF).isSome = false) ∧
    (let e := holder 1
     e.oos = false ∧ (e.health.confirms.filter (fun t => e.now ≤ t + 20000)).length < 256 ∧ e.hwBase ≤ 64 * 0x7FFFFFFF ∧ e.memSize ≤ 64 * 0x80000000 ∧ 64 * 65536 < e.memSize ∧
     ([0] : List (Fin 64)).all (fun l => l.val == 65536 % 64) = true ∧ ([63] : List (Fin 64)).all (fun l => l.val == 65536 % 64) = false ∧
     64 * 65536 < e.hwBase ∧ e.groveRepairable (65536 / 64) = true ∧ e.groveRepairable 0 = false ∧
     ({ e with refs := [referralOf] } : Eng).refs.find? (fun f => f.port == 7 && f.id == 255 && !f.late) = some referralOf) := by
  decide +kernel

/-! ### The memory side, the update unit, health and anchors -/

/-- A transfer of a kind with the last tag. -/
def xferOf (k : XferKind) : Xfer := 
  { tag := 1023, addr := 0, len := 64, data := zeros 64, kind := k, cls := 0, since := 0, out := true }

/-- A leaf that is rebuilt holds its accesses; each kind of transfer; a loop that goes up and is stopped by its ceiling, one
that goes down. -/
theorem witness_MemorySideCommandsAct :
    (live.working = true ∧ live.holds 1048575 true = false ∧ (live.setLeafState 1048575 5).holds 1048575 false = true ∧ live.alive = true) ∧
    (∀ k ∈ [XferKind.anchorRead 0, .hashRead 0 0, .mirrorRead 0 0, .lineRead, .applyWrite, .cwrite],
      (xferOf k).len ≤ (xferOf k).off + (xferOf k).size ∧
      ¬(({ xferOf k with len := 512 } : Xfer).len ≤ ({ xferOf k with len := 512 } : Xfer).off + ({ xferOf k with len := 512 } : Xfer).size) ∧
      ({ live with xfers := [xferOf k] } : Eng).xfers.find? (fun x => x.tag == 1023) = some (xferOf k)) ∧
    (let e := sets [(Reg.HLT_SHARE_LOOP_EN, 1), (Reg.HLT_SHARE_LOOP_WAIT_HI, 1), (Reg.HLT_SHARE_LOOP_CEIL, 50), (Reg.HLT_SHARE_LOOP_FLOOR, 5),
       (Reg.HLT_SHARE_LOOP_STEP, 5), (Reg.MEM_SHARE_NOW, 45)] live
     e.on Reg.GEN_BOOT_READY = true ∧ e.on Reg.HLT_SHARE_LOOP_EN = true ∧ 10 * e.rd Reg.HLT_SHARE_LOOP_WAIT_HI < 11 ∧
     e.rd Reg.MEM_SHARE_NOW + e.rd Reg.HLT_SHARE_LOOP_STEP ≤ e.rd Reg.HLT_SHARE_LOOP_CEIL ∧
     4 * 2 < 10 * e.rd Reg.HLT_SHARE_LOOP_WAIT_HI ∧ e.xfers = [] ∧
     (let f : Eng := { e with health := { e.health with windows := (List.range 8).map (fun p => (p, [(0, 1)])) } }
      ∀ p < 8, 2 * (((look f.health.windows p).getD []).map (·.1)).foldl (· + ·) 0 < (((look f.health.windows p).getD []).map (·.2)).foldl (· + ·) 0) ∧ e.rd Reg.MEM_SHARE_NOW ≤ e.rd Reg.HLT_SHARE_LOOP_CEIL ∧
     e.rd Reg.HLT_SHARE_LOOP_CEIL < (e.wr Reg.MEM_SHARE_NOW 46).rd Reg.MEM_SHARE_NOW + e.rd Reg.HLT_SHARE_LOOP_STEP) := by
  decide +kernel

/-- Seven stacks of one capacity with an eighth of 16 GiB, of 128 GiB and of another; a missing stack; a fill. -/
theorem witness_MemoryComesUp :
    (let e : Eng := sets [(Reg.GEN_BOOT_STAGE, 5)] { Eng.reset with pins := { Eng.reset.pins with pwrGood := true } }
     let with7 : Byte → Eng := fun g => { e with boot := { e.boot with stackCaps := (List.range 7).map (fun n => (n, g.toNat)) } }
     e.pins.pwrGood = true ∧ e.boot.filling = false ∧ e.rd Reg.GEN_BOOT_FAIL = 0 ∧ look e.boot.stackCaps 7 = none ∧
     (put e.boot.stackCaps 7 16).length ≠ 8 ∧ look (with7 16).boot.stackCaps 7 = none ∧ (put (with7 16).boot.stackCaps 7 16).length = 8 ∧
     (with7 16).rd Reg.GEN_BOOT_STAGE = 5 ∧ (∀ x ∈ put (with7 16).boot.stackCaps 7 16, x.2 = 16) ∧
     (∀ x ∈ put (with7 128).boot.stackCaps 7 128, x.2 = 128) ∧ (∃ x ∈ put (with7 16).boot.stackCaps 7 17, x.2 ≠ 17) ∧ 15 < 16 ∧ 128 < 129 ∧
     (∀ x ∈ (with7 16).boot.stackCaps, 16 ≤ x.2 ∧ x.2 ≤ 128 ∧ ∀ y ∈ (with7 16).boot.stackCaps, x.2 = y.2) ∧
     ¬(∀ x ∈ (with7 15).boot.stackCaps, 16 ≤ x.2 ∧ x.2 ≤ 128 ∧ ∀ y ∈ (with7 15).boot.stackCaps, x.2 = y.2)) ∧
    (let e : Eng := { live with boot := { live.boot with filling := true } }
     e.boot.filling = true ∧ e.on Reg.MEM_FILL_DONE = false ∧ e.rd Reg.GEN_BOOT_FAIL = 0 ∧ (1 : Byte) ≠ 0) := by decide +kernel

/-- An intake record of generation 0 for a tag: contribution 0 of n, one element. -/
def recordHdr (tag n : Nat) : List Byte :=
  natLe 4 0 ++ natLe 4 tag ++ natLe 4 0 ++ natLe 2 n ++ natLe 2 0 ++ natLe 8 0 ++ natLe 4 1 ++ natLe 4 0

/-- The member with intake on and a region of a class under tag 77. -/
def taking (cls len : Nat) : Eng :=
  sets [(Reg.UPD_INTAKE_CTL_EN, 1), (Reg.UPD_INTAKE_LEN_LEN, len)] { member with rgns := [rgnOf 4095 cls] }

/-- A run whose one input is the first element of region 4095. -/
def runOf : Run :=
  { handle := 65535, cmd := none,
    desc := zeros 8 ++ natLe 8 1 ++ zeros 144 ++ [1, 1, 3, 0] ++ natLe 2 4095 ++ natLe 2 0xFFFF ++ zeros 216,
    scal := [], phase := .pass1, issued := [(0, 63)], done := [], parts := [], accs := [], old := [], made := [], ready := [],
    stamped := [], begun := [], logRow := none, nonf := 0, sat := 0 }

theorem witness_IntakeAndChunksAreTaken :
    (let h := recordHdr 77 2
     let e := taking 1 65
     (sets [(Reg.GEN_RESET_STAT_OOS, 1)] e).oos = true ∧ e.oos = false ∧ e.boot.inReset = false ∧ e.upd.held = [] ∧
     live.on Reg.UPD_INTAKE_CTL_EN = false ∧ e.on Reg.UPD_INTAKE_CTL_EN = true ∧ e.locked = true ∧
     fieldAt ([1] ++ zeros 31) 0 1 ≠ e.upd.gen % 256 ∧ fieldAt h 0 1 = e.upd.gen % 256 ∧ bit (fieldAt h 1 1) 0 = false ∧
     e.on Reg.UPD_INTAKE_CTL_B5 = false ∧ ((taking 3 65).tagged (fieldAt h 4 4) (·.frozen)).isSome = true ∧
     (e.tagged 78 (fun _ => true)).isNone = true ∧ (e.tagged 78 (·.frozen)).isNone = true ∧ e.on Reg.UPD_CTL_STRICT = false ∧
     e.upd.slices = [] ∧ e.intakeUsed + 4 * 1 + intakeReserve ≤ e.intakeLen ∧ (e.tryIntake h (zeros 4)).isSome = true ∧
     ((taking 1 0).tryIntake h (zeros 4)).isNone = true) ∧
    (let e : Eng := { taking 1 65 with upd := { (taking 1 65).upd with runs := [runOf] } }
     let u := { runOf with issued := runOf.issued.erase (0, 63) }
     member.run? 65535 = none ∧ e.run? 65535 = some runOf ∧ runOf.issued.contains (0, 63) = true ∧ runOf.issued.contains (0, 62) = false ∧
     ({ e with unrep := [65536] } : Eng).chunkDead u 0 = some 65536 ∧ u.phase = .pass1 ∧ e.chunkDead u 0 = none ∧
     e.serving = true) := by decide +kernel

/-- What the first contribution of a slice says, and that it passes. -/
theorem witness_IntakeBeginsASlice : ∃ c, (taking 1 65).contributions (recordHdr 77 2) (zeros 4) = some [c] ∧
    (taking 1 65).screen c = (taking 1 65, true) ∧ (taking 1 65).sliceOf c = none ∧ 1 < c.n ∧
    (taking 1 65).intakeUsed + 4 * c.count + intakeReserve ≤ (taking 1 65).intakeLen := by
  refine ⟨{ tag := 77, step := 0, eoff := 0, index := 0, n := 2, vals := [0] }, rfl, ?_, rfl, by decide, by decide +kernel⟩
  unfold Eng.screen
  rw [show ((taking 1 65).tagged 77 (·.frozen)).isSome = false by decide +kernel,
    show ((taking 1 65).tagged 77 (fun _ => true)).isNone = false by decide +kernel]
  rw [show (taking 1 65).badContribution { tag := 77, step := 0, eoff := 0, index := 0, n := 2, vals := [0] } = false by decide +kernel]
  rfl

theorem witness_TierAnswersLetWorkGoOn :
    live.working = true ∧ live.tier.find? (fun t => t.op == 7) = none ∧
    (∀ w ∈ [TierWhy.ringFlush, .rollDiscard, .evacFlush, .run 0],
      let t : TierOpen := { op := 7, what := .flush [], why := w }
      let two : Eng := { live with tier := [t, { t with op := 8 }] }
      let one : Eng := { live with tier := [t] }
      two.tier.find? (fun t => t.op == 7) = some t ∧ (two.tier.erase t).any (fun x => x.why == t.why) = true ∧
      one.tier.find? (fun t => t.op == 7) = some t ∧ (one.tier.erase t).any (fun x => x.why == t.why) = false) := by decide +kernel

/-! ### Losses, health, anchors -/

/-- A member falls silent within and beyond what the code covers; an evacuation whose first copy is being sent. -/
theorem witness_LossTimersAct :
    (live.locked = false ∧ fixed.locked = true ∧ fixed.boot.inReset = false ∧ fixed.canTalk = false ∧ member.canTalk = true ∧ member.locked = true ∧ member.on Reg.RBD_LOSS_STAT_ISOLATED = false) ∧
    (let noted : List Nat → Eng := fun l => { member with loss := { member.loss with silent := member.loss.silent ++ l } }
     ([1] : List Nat).filter (fun x => member.isPresent x && x != member.pos && !member.loss.silent.contains x) = [1] ∧
     (noted [1]).awayCount ≤ member.m ∧ member.m < (noted [1, 3]).awayCount) ∧
    (live.rd Reg.RBD_EVAC_STAT_PHASE ≠ 1 ∧ (sets [(Reg.RBD_EVAC_STAT_PHASE, 1)] live).rd Reg.RBD_EVAC_STAT_PHASE = 1 ∧
      live.evac.copyCmd = none ∧ live.log.retires = []) := by decide +kernel

/-- The front of the lost position 3, with a protected region and a sector of it. -/
def front : Eng :=
  { sets [(Reg.RBD_LOSS_STAT_LOST_MAP, 8), (Reg.GRV_MEMBER_LOST 3, 1)] member with
    rgns := [rgnOf 4095 1]
    drStore := [{ x := 3, region := 4095, row := 0, sector := 255, data := zeros 4096 }] }

theorem witness_DegradedReadsAreAnsweredAtTheFront :
    front.boot.inReset = false ∧ ({ front with boot := { front.boot with inReset := true } } : Eng).boot.inReset = true ∧
    live.serving = true ∧ (sets [(Reg.GEN_RESET_STAT_OOS, 1)] front).serving = false ∧ front.serving = true ∧
    (front.rgnAt 0).filter (fun r => r.protectedCls) = none ∧
    (front.rgnAt 4194304).filter (fun r => r.protectedCls) = some (rgnOf 4095 1) ∧ (rgnOf 4095 5).protectedCls = false ∧
    (0 : Word).toNat ≠ (rgnOf 4095 1).key ∧ (9 : Word).toNat = (rgnOf 4095 1).key ∧ ¬(32 = 64 ∨ 32 = 128 ∨ 32 = 256) ∧
    4194304 % 256 = 0 ∧ member.frontFor = none ∧ front.frontFor = some 3 ∧
    (front.drHas 3 (rgnOf 4095 1) 4194304).isNone = true ∧
    (front.drHas 3 (rgnOf 4095 1) (4194304 + 1048576 - 64)).isSome = true ∧ (rgnOf 4095 1).mirror = false := by decide +kernel

/-- A lane in use and one that is not; its tenth bad report; the droop input high and low; before and after the start lock; the
three ways of the link loop. -/
theorem witness_HealthCommandsMeasureAndDecide :
    live.alive = true ∧ live.laneUsed 63 = false ∧ (sets [(Reg.GP_STAT_STATE 3, psLow)] live).laneUsed 48 = true ∧
    (let e := sets [(Reg.GEN_PRUNE_CTL_AUTO_LANE, 1), (Reg.GEN_PRUNE_CTL_LANE_BER, 100)] live
     (sets [(Reg.GEN_PRUNE_CTL_AUTO_LANE, 0)] live).on Reg.GEN_PRUNE_CTL_AUTO_LANE = false ∧ e.on Reg.GEN_PRUNE_CTL_AUTO_LANE = true ∧ e.rd Reg.GEN_PRUNE_CTL_LANE_BER ≤ 100 ∧
     10 ≤ 9 + 1) ∧
    (live.pins.droopWarnL = true ∧ ({ live with pins := { live.pins with droopWarnL := false } } : Eng).pins.droopWarnL = false) ∧
    (live.locked = false ∧ fixed.locked = true ∧ fixed.serving = true ∧ fixed.boot.inReset = false) ∧
    (let e := sets [(Reg.HLT_LINK_LOOP_EN, 1), (Reg.HLT_LINK_LOOP_CEIL, 100), (Reg.HLT_LINK_LOOP_FLOOR, 1), (Reg.HLT_LINK_LOOP_WAKE_HI, 8),
       (Reg.GP_PWR_IDLE 3, 50), (Reg.GP_WAKES_COUNT 3, 9)] live
     let w := e.rd (Reg.GP_WAKES_COUNT 3) - (look e.health.wakes 3).getD 0
     e.on Reg.GEN_BOOT_READY = true ∧ e.on Reg.HLT_LINK_LOOP_EN = true ∧ e.rd Reg.HLT_LINK_LOOP_WAKE_HI < w ∧
     2 * e.rd (Reg.GP_PWR_IDLE 3) ≤ e.rd Reg.HLT_LINK_LOOP_CEIL ∧
     (sets [(Reg.HLT_LINK_LOOP_CEIL, 99)] e).rd Reg.HLT_LINK_LOOP_CEIL < 2 * e.rd (Reg.GP_PWR_IDLE 3) ∧
     (let e2 := sets [(Reg.GP_WAKES_COUNT 3, 2)] e
      e2.rd (Reg.GP_WAKES_COUNT 3) - 0 ≤ e2.rd Reg.HLT_LINK_LOOP_WAKE_HI ∧
      e2.rd Reg.HLT_LINK_LOOP_WAKE_HI ≤ 4 * (e2.rd (Reg.GP_WAKES_COUNT 3) - 0) ∧ e2.rd (Reg.GP_PWR_IDLE 3) ≤ e2.rd Reg.HLT_LINK_LOOP_CEIL) ∧
     (let e3 := sets [(Reg.GP_WAKES_COUNT 3, 1)] e
      4 * (e3.rd (Reg.GP_WAKES_COUNT 3) - 0) < e3.rd Reg.HLT_LINK_LOOP_WAKE_HI ∧
      max 1 (e3.rd (Reg.GP_PWR_IDLE 3) / 2) ≤ e3.rd Reg.HLT_LINK_LOOP_CEIL)) := by decide +kernel

/-- An anchor that waits for the write of a part, after a number of retries. -/
def ancOf (part : AncPart) (retries : Nat) : Anchor :=
  { cmd := 0, handle := 0, num := 1, step := 0, byCount := false, shards := [], ring := 0, bnd := some endBnd, cut := true,
    regions := [], unsaved := [], urgent := [], waited := [], reading := [], saved := [], sent := 0, nUrgent := 0, part := part,
    object := [], writing := some (0, zeros 64), retries := retries, ledger := none, cutB := 0, cutAt := 0 }

def owing : LedRec := { recOf 0 with wstep := some 4294967295, isNew := true }

theorem witness_AnchorAndDigestCommandsAct :
    (let e := sets [(Reg.ANC_DUE_CTL_STEPS, 0), (Reg.ANC_DUE_CTL_RISK, 0), (Reg.ANC_DUE_CTL_MINUTES, 1)] fixed
     fixed.locked = true ∧ fixed.serving = true ∧ fixed.boot.inReset = false ∧ e.rd Reg.ANC_DUE_CTL_STEPS = 0 ∧
     e.rd Reg.ANC_DUE_CTL_RISK = 0 ∧ e.keep.due.raised = [] ∧ e.now < e.keep.due.at_ + e.rd Reg.ANC_DUE_CTL_MINUTES * 60000000000 ∧
     e.rd Reg.ANC_DUE_CTL_MINUTES ≠ 0 ∧
     (let e2 : Eng := { e with time := { e.time with acc := 60000000000 * 2 ^ 32 } }
      e2.keep.due.at_ + e2.rd Reg.ANC_DUE_CTL_MINUTES * 60000000000 ≤ e2.now)) ∧
    (∀ p ∈ [AncPart.manifest, .records, .chunks, .header, .trailer], ∀ r ∈ [2, 3],
      let e : Eng := { fixed with keep := { fixed.keep with anchor := some (ancOf p r) } }
      e.keep.anchor = some (ancOf p r) ∧ (ancOf p r).writing = some (0, zeros 64) ∧ (ancOf p r).part = p) ∧
    (fixed.working = true ∧ fixed.keep.restore = none ∧ fixed.openWeights = []) ∧
    (let e : Eng := { sets [(Reg.GRV_LOG_STAT_RETIRED, 4294967295)] fixed with
       log := { fixed.log with asked := some 4294967295 }
       keep := { fixed.keep with led := { fixed.keep.led with recs := [owing], owed := [4294967295] } } }
     e.openWeights = [4294967295] ∧ e.weightReady 4294967295 = true) ∧
    (let e := holder 1
     e.locked = true ∧ e.serving = true ∧ e.boot.inReset = false ∧ e.digLeaf (4 * leafBytes) = true ∧ (e.dig 4).current = false ∧
     ((e.setDig 4 { e.dig 4 with current := true }).dig 4).current = true) := by decide +kernel

/-! ### Ports -/

/-- Port 3 in a state, with every lane present and agreed. -/
def portIn (st : Nat) : Eng :=
  let e := { sets [(Reg.GP_STAT_STATE 3, st), (Reg.GP_LANES_TRAINED 3, 0xFFFF), (Reg.GP_LANES_USED 3, 0xFFFF), (Reg.GP_STAT_WIDTH 3, 16),
    (Reg.GP_PWR_LOW_EN 3, 1)] live with fuses := { live.fuses with lanes := 2 ^ 64 - 1 } }
  e.updPort 3 (fun q => { q with farPassing := 0xFFFF, ceiling := 16 })

theorem witness_PortsTrain :
    (∀ st ∈ [psDown, psDetect, psEqualise, psLock, psWidth, psUp, psLow, psWake, psExcluded, psHeld], (portIn st).portState 3 = st) ∧
    (((portIn psDetect).port 3).attempt < 3 ∧ 3 ≤ (((portIn psDetect).updPort 3 (fun q => { q with attempt := 3 })).port 3).attempt ∧
      (portIn psWidth).widthOfPort 3 ≠ 0 ∧ (portIn psWidth).rd (Reg.GP_STAT_WIDTH 3) ≠ 0 ∧ psDown < 1 ∧ psWake < psExcluded) ∧
    (live.answers .link = true ∧ (0x80000000 : Word).toNat / 2 ^ 30 = 2 ∧ live.on (Reg.GP_TEST_RUN 3) = false ∧
      fixed.locked = true ∧ live.locked = false ∧ fixed.portState 3 ≠ psExcluded ∧ fixed.on (Reg.GP_CTL_HOLD 3) = false) ∧
    (let e := sets [(Reg.GP_TEST_RUN 3, 1), (Reg.GP_TEST_MODE 3, 4)] (portIn psTest)
     e.on (Reg.GP_TEST_RUN 3) = true ∧ e.rd (Reg.GP_TEST_MODE 3) ∈ [1, 2, 4] ∧ bit (e.presentLanes 3) 15 = true) := by decide +kernel

theorem witness_ControlMessagesAct :
    (live.on Reg.GRV_CFG_VALID = false ∧ member.on Reg.GRV_CFG_VALID = true ∧ member.on Reg.GRV_MAP_CTL_STANDBY = false ∧
      (sets [(Reg.GRV_MAP_CTL_STANDBY, 1)] member).on Reg.GRV_MAP_CTL_STANDBY = true ∧ member.portUp 2 = false ∧
      (sets [(Reg.GP_STAT_STATE 2, psUp)] member).portUp 2 = true ∧ farOf member.w member.pos 2 = some 2 ∧
      farOf member.w member.pos 2 ≠ some 1) ∧
    ((portIn psDetect).portState 3 = psDetect ∧ (portIn psEqualise).portState 3 = psEqualise ∧ psDown < psDetect ∧ psWake < psHeld ∧
      (portIn psLock).portState 3 = psLock ∧ (portIn psWidth).portState 3 = psWidth ∧
      (16 : Byte) ≠ 0 ∧ (let heard := (portIn psWidth).updPort 3 (fun q => { q with farPassing := 0xFFFF })
        16 = heard.widthOfPort 3 ∧ 0xFFFF = heard.usedLanes 3 ∧ 8 ≠ heard.widthOfPort 3)) ∧
    ((portIn psUp).portState 3 = psUp ∧ 0xFFFF = (portIn psUp).rd (Reg.GP_LANES_USED 3)) ∧
    (let next : Port → Nat := fun q => if q.reqFseq = 4095 then q.reqCount + 1 else 1
     let q := (portIn psUp).port 3
     let r := { q with reqFseq := 4095, reqCount := 15 }
     next q < 16 ∧ (q.reqTimes.filter (fun t => live.now < t + 1000000) ++ [live.now]).length < 256 ∧ 16 ≤ next r ∧
     q.resetting = false ∧ q.unacked = 0 ∧ ({ q with unacked := 1 } : Port).unacked ≠ 0) := by decide +kernel

theorem witness_PortsSaveAndReturnPower :
    ((portIn psUp).portState 3 = psUp ∧ (portIn psUp).on (Reg.GP_PWR_LOW_EN 3) = true ∧ (portIn psUp).portBusy 3 = false ∧
      ((portIn psUp).updPort 3 (fun q => { q with replay := [(0, [])] })).portBusy 3 = true ∧
      (let asked := (portIn psUp).updPort 3 (fun q => { q with lowSent := true, asks := [.lowReq] })
       (asked.port 3).lowSent = true ∧ asked.asking 3 .lowReq = true ∧ asked.portBusy 3 = false ∧
         asked.on (Reg.GP_PWR_LOW_EN 3) = true) ∧ (portIn psUp).asking 3 .lowReq = false ∧
      (let late := (portIn psUp).updPort 3 (fun q => { q with lowSent := false, asks := [.lowReq] })
       (late.port 3).lowSent = false ∧ late.asking 3 .lowReq = true) ∧ ((portIn psUp).port 3).lowSent = false) ∧
    ((portIn psLow).portState 3 = psLow ∧ (portIn psUp).portState 3 ≠ psLow) ∧
    ((portIn psWake).portState 3 = psWake ∧ (portIn psWake).widthOfPort 3 ≠ 0 ∧
      ((portIn psWake).updPort 3 (fun q => { q with farPassing := 0 })).widthOfPort 3 = 0) := by decide +kernel

/-- A flit of a type that is the one expected. -/
def flitOf (typ : Nat) : List Byte :=
  let b := natLe 1 typ ++ zeros 247
  b ++ natLe 8 (crc64 b)

def relayedAt : RxStream := { vc := 3, cls := 16, got := 0, total := 64, buf := [], relayed := true, drop := false }

set_option maxRecDepth 20000 in
theorem witness_FlitsAreTakenInOrder :
    ((portIn psDown).portState 3 ≠ psUp ∧ (portIn psDown).portState 3 ≠ psLow ∧ (portIn psDown).portState 3 ≠ psWake ∧
      (portIn psUp).portState 3 = psUp) ∧
    (flitOk (zeros 255) = false ∧ flitOk (flitOf 1) = true ∧ flitOk (flitOf 3) = true ∧ fieldAt (flitOf 1) 0 1 = 1 ∧
      fieldAt (flitOf 3) 0 1 = 3 ∧ fieldAt (flitOf 1) 2 2 = ((portIn psUp).port 3).rxFseq ∧
      fieldAt (flitOf 1) 2 2 ≠ (((portIn psUp).updPort 3 (fun q => { q with rxFseq := 4095 })).port 3).rxFseq) ∧
    (flitOk (flitOf 0) = true ∧ fieldAt (flitOf 0) 0 1 = 0 ∧ flitOk (flitOf 2) = true ∧ fieldAt (flitOf 2) 0 1 = 2 ∧
      psDetect ≤ (portIn psDetect).portState 3 ∧ (portIn psWidth).portState 3 ≤ psWidth ∧
      (portIn psWidth).portState 3 ≠ psUp) ∧
    ((portIn psUp).stream 3 3 16 = none ∧
      ((portIn psUp).setStream 3 3 16 (some relayedAt)).stream 3 3 16 = some relayedAt ∧ relayedAt.relayed = true) := by
  decide +kernel

/-! ### Coding and packets -/

theorem witness_EveryPositionHoldsOneLeafOfAStripe : 0 < 12 ∧ 0 < 4 ∧ 16 = 12 + 4 := by decide
theorem witness_ParityFollowsItsData : ∀ d ∈ [zeros 4, zeros 4], d.length = 4 := by decide
theorem witness_HeartwoodMendsItsSector : (zeros 4096).length = 4096 := List.length_replicate
theorem witness_ThinningLosesNothing : (zeros 4096).length = 4096 := List.length_replicate
theorem witness_WireFormKeepsEveryField : tPointSettled < 256 := by decide

/-- Every field at its greatest value. -/
theorem witness_SealedPacketsOpenAsTheyWereSent :
    let q : Pkt := { typ := 1, flags := 255, gen := 255, planes := 255, sector := 255, src := 15, dst := 15, region := 65535,
                     row := 4294967295, stamp := 4294967295, seq := 4294967295, release := 4294967295, lineMap := 2 ^ 64 - 1 }
    member.sec.jlk = some (zeros 32) ∧ q.flags < 2 ^ 8 ∧ q.gen < 2 ^ 8 ∧ q.planes < 2 ^ 8 ∧ q.sector < 2 ^ 8 ∧ q.src < 2 ^ 4 ∧
    q.dst < 2 ^ 4 ∧ q.region < 2 ^ 16 ∧ q.row < 2 ^ 32 ∧ q.stamp < 2 ^ 32 ∧ q.seq < 2 ^ 32 ∧ q.release < 2 ^ 32 ∧
    q.lineMap < 2 ^ 64 := by decide +kernel

/-! ### The spec's worked examples, and known answers of the standards it names -/

/-- 01, "a chip and a leaf": 12.05.33 is 0xC161; the register reads 0x8000_C161 once it has been written (R33). -/
theorem test_place : 12 * 4096 + 5 * 64 + 33 = 0xC161 ∧
    (match exec (.registerWrite 0x000118 false 0xC161) (st live) with | .next t => (t.eng.regRead 0x000118 4).out | _ => []) = [.answer 0x8000C161] := by
  decide +kernel

/-- 02, "roles in an 8-wide grove": position 3 over the first eight rows (R43). -/
theorem test_roles : (List.range 8).map (roleOf 8 3) = [3, 2, 1, 0, 7, 6, 5, 4] := by decide

/-- 02, GRV_GF_TEST: writing 0x0000_0212 reads back 0xC024_0212 (R46). -/
theorem test_gf_test :
    (match exec (.registerWrite 0x060010 false 0x0212) (st live) with | .next t => (t.eng.regRead 0x060010 4).out | _ => []) =
      [.answer 0xC0240212] := by
  decide +kernel

/-- 02, "a 6 + 2 stripe": where its leaves live at row 5 (R42). -/
theorem test_placement : (List.range 6).map (dataPos 8 5) = [5, 6, 7, 0, 1, 2] ∧ (List.range 2).map (parityPos 8 6 5) = [3, 4] := by
  decide

/-- 02, "a 6 + 2 stripe": P_0 is 0x29 and P_1 is 0xB3; the delta 0x01 of D_2 makes them 0xE9 and 0xEB (R48, R49). -/
theorem test_parity :
    (List.range 2).map (fun j => (List.zipWith (fun i d => gfMul (coeff j i) d) (List.range 6) [0x3A, 0x01, 0x4E, 0x00, 0xB4, 0x87]).foldl
      (· ^^^ ·) 0) = [0x29, 0xB3] ∧
    0x29 ^^^ gfMul (coeff 0 2) 1 = 0xE9 ∧ 0xB3 ^^^ gfMul (coeff 1 2) 1 = 0xEB := by decide +kernel

/-- 02, "losing two members": the decoding rows of D_1 and D_4, and what they give (R54, R55). -/
theorem test_decode : decodeRow 6 [0, 2, 3, 5, 6, 7] 1 = [0xA6, 0xAF, 0x13, 0xF8, 0x34, 0x64] ∧
    decodeRow 6 [0, 2, 3, 5, 6, 7] 4 = [0x35, 0x37, 0xD1, 0xA6, 0x7D, 0x29] ∧
    ([1, 4].map (fun t => (List.zipWith gfMul (decodeRow 6 [0, 2, 3, 5, 6, 7] t) [0x3A, 0x4F, 0x00, 0x87, 0xE9, 0xEB]).foldl (· ^^^ ·) 0))
      = [0x01, 0xB4] := by decide +kernel

/-- Position 3 of an 8-wide grove with two parity rows. -/
def eight (pos : Nat) : Eng :=
  sets ([(Reg.GRV_CFG_VALID, 1), (Reg.GRV_CFG_W, 8), (Reg.GRV_CFG_K, 6), (Reg.GRV_CFG_M, 2), (Reg.GRV_CFG_POS, pos),
    (Reg.GEN_PLACE_VALID, 1), (Reg.GEN_PLACE_CHIP, pos)] ++
    (List.range 8).flatMap (fun p => [(Reg.GRV_MEMBER_PRESENT p, 1), (Reg.GRV_MEMBER_PLACE p, p)])) fixed

/-- 03, "an index across a parity row": elements 1,048,575 and 1,048,576 of an FP32 region at base B (R85). -/
theorem test_data_index :
    let r : Rgn := { rgnOf 0 1 with base := 0x40000000, len := 16777216 }
    (eight 3).dataAddr r (4 * 1048576) = some (0x40000000 + 6 * 1048576) ∧
    (eight 3).dataAddr r (4 * 1048575) = some (0x40000000 + 4 * 1048576 - 4) := by decide +kernel

/-- 04, "thinning and framing one sector": PLANES, the plane lines kept, and the header bytes (R104, R107). -/
theorem test_framing :
    let q : Pkt := { typ := 1, gen := 0x2C, planes := 7, region := 17, sector := 42, src := 7, dst := 3, row := 5, stamp := 12000,
                     seq := 69442, release := 69400, lineMap := 0x00001087FFFFFFFF }
    planesOf (elemWidth 1) 0x00001087FFFFFFFF = 0x07 ∧ popcount 0x00001087FFFFFFFF 64 = 37 ∧
    sapHeader 1 { blank with gen := 0x2C, planes := 7, region := 17, sector := 42, pos := byteOf (q.src + 16 * q.dst), row := 5,
                             stamp := 12000, seq := 69442, release := 69400, lineMap := 0x00001087FFFFFFFF } =
      [0x01, 0x00, 0x2C, 0x07, 0x11, 0x00, 0x2A, 0x37, 0x05, 0x00, 0x00, 0x00, 0xE0, 0x2E, 0x00, 0x00,
       0x42, 0x0F, 0x01, 0x00, 0x18, 0x0F, 0x01, 0x00, 0xFF, 0xFF, 0xFF, 0xFF, 0x87, 0x10, 0x00, 0x00] := by decide +kernel

/-- 07, "one BF16 element": bits 0x4000 below BF16 give d = 0x4000_0000; with u = 0x2A3B_1C0D the value rounds up (R216). -/
theorem test_stochastic_rounding : roundShift (.stoch 0x2A3B1C0D) 0x3F804000 16 = 0x3F81 ∧
    roundShift (.stoch 0x40000000) 0x3F804000 16 = 0x3F80 := by decide

/-- 09, "a narrow port and a detour": lanes 4 and 11 fused and 9 not trained leave 13, so W is 8 on the lowest (R279). -/
theorem test_narrow_port :
    let e := sets [(Reg.GP_LANES_TRAINED 1, 0xFDFF)] { live with fuses := { live.fuses with lanes := 2 ^ 64 - 1 - 2 ^ 20 - 2 ^ 27 } }
    let e := e.updPort 1 (fun q => { q with farPassing := 0xFFFF, ceiling := 16 })
    e.widthOfPort 1 = 8 ∧ e.usedLanes 1 = 0x01EF := by decide +kernel

/-- 09, the detour: port 2 of position 6 is excluded, and port 0 is the way to 2 (R64). -/
theorem test_detour :
    let e := sets [(Reg.GP_STAT_STATE 0, psUp), (Reg.GP_STAT_STATE 1, psUp), (Reg.GP_STAT_STATE 2, psExcluded)] (eight 6)
    e.routePort 2 = some 0 ∧ (e.wr (Reg.GP_STAT_STATE 2) psUp).routePort 2 = some 2 := by decide +kernel

/-- 10, "a 768 GiB accelerator": the bases of the three areas with JOURNAL_PCT 8 (R314). -/
theorem test_areas :
    let e := (sets [(Reg.GEN_FLOOR_SUM_STACK_GIB, 96), (Reg.MEM_LAYOUT_CTL_JOURNAL_PCT, 8)] live).layout
    e.hwBase = 0xBD00000000 ∧ e.bitmapBase = 0xBCFE800000 ∧ e.journalBase = 0xADA2600000 ∧ e.usableTop = 0xADA2600000 := by
  decide +kernel

/-- 10, "one byte": the check bytes of a 0x01 at 0x25 (R323, R325). -/
theorem test_heartwood : heartChange 0x25 [0x01] = zeros 10 ++ [0x06, 0x07] ++ zeros 52 ∧
    errorMode (0x20, 0x1D) = some (some (3, 0x20)) := by decide +kernel

/-- 14, "a stack starting to fail": the risk is 301 (R420). -/
theorem test_risk : riskOf 3 [16, 2048, 64, 8192, 1024, 16384, 4096, 256, 65535, 65535] [24000, 320, 3, 10, 0, 2, 0, 12, 0, 1] = 301 ∧
    riskOf 3 [16, 2048, 64, 8192, 1024, 16384, 4096, 256, 65535, 65535] [0, 0, 0, 0, 0, 0, 0, 0, 0, 0] = 3 := by decide

/-- 17, "early and repeated reads": the second read of a ready mailbox answers READS 2 (R505). -/
theorem test_mailbox_reads :
    let e : Eng := { sets [(Reg.MBX_HDR_READS 17, 1), (Reg.MBX_HDR_OPCODE 17, 3), (Reg.MBX_HDR_SEQ 17, 0x2A1C), (Reg.MBX_HDR_STATUS 17, 0)]
      fixed with q := { fixed.q with mbox := [(17, .ready)] } }
    (match exec (.mailboxHeaderRead 17) (st e) with | .next t => t.eng.out | _ => []) = [.answer 0x0000020300002A1C] := by decide +kernel

/-- 18, "the shipped image": the mask of the DEFAULTS entry for HLT_SHARE_LOOP (R526). -/
theorem test_default_mask : (imageRegs.find? (fun r => r.1 == 0x0B0080)).map (fun r => maskOf r.2) = some 0xFF7FFF0F := by
  decide +kernel

/-- FIPS 180-4: SHA-384 of "abc". FIPS 202: SHA3-256 of the empty string. -/
theorem test_hashes : sha384 (ascii "abc") = natBe 48
      0xCB00753F45A35E8BB5A03D699AC65007272C32AB0EDED1631A8B605A43FF5BED8086072BA1E7CC2358BAECA134C825A7 ∧
    sha3_256 [] = natBe 32 0xA7FFC6F8BF1ED76651C14756A061D662F580FF4DE43B49FA82D80A4B80F8434A := by decide +kernel

/-- FIPS 197, C.3: AES-256 of 00112233…FF under 000102…1F. -/
theorem test_aes : aesBlock (aesKeys ((List.range 32).map byteOf)) ((List.range 16).map (fun i => byteOf (0x11 * i))) =
    natBe 16 0x8EA2B7CA516745BFEAFC49904B496089 := by decide +kernel

end Sys2Proof.Tests
end

/-!
PROOFS. The register window as a whole (R10 to R13, R448, R493): an access that meets no register, a
write to a register that acts, and the start lock.
-/
namespace Sys2Proof.Machine

/-! ### An access that meets no register -/

/-- The ways to meet no register, as the window's own tests find them. -/
theorem meetsNoRegister_cases {off bytes : Nat} (h : meetsNoRegister off bytes) :
    ((bytes == 4 || bytes == 8) && off % bytes == 0) = false ∨ 2 ^ 25 ≤ off ∨
    (off < 0x1000000 ∧ (decide (0x100000 ≤ off) && decide (off < 0x140000)) = false ∧
      (decide (0x200000 ≤ off) && decide (off < 0x220000)) = false ∧
      ((inCaps off = true ∧ bytes ≠ 8) ∨
        (inCaps off = false ∧ ∀ r i j, regAt off = some (r, i, j) → r.bits ≠ 8 * bytes))) := by
  rcases h with hw | ha | hb | ⟨hlt, hd, hp, hr⟩
  · exact .inl (by simpa using fun h' => absurd h' hw)
  · exact .inl (by simp [ha])
  · exact .inr (.inl hb)
  · refine .inr (.inr ⟨hlt, by simpa using hd, by simpa using hp, ?_⟩)
    cases hc : inCaps off
    · exact .inr ⟨rfl, by simpa [hc] using hr⟩
    · exact .inl ⟨rfl, by simpa [hc] using hr⟩

theorem regWrite_of_meetsNoRegister {off bytes : Nat} (h : meetsNoRegister off bytes) (e : Eng) (v : Nat) :
    e.regWrite off bytes v = e.badAccess := by
  unfold Eng.regWrite
  rcases meetsNoRegister_cases h with hw | hb | ⟨hlt, hd, hp, ⟨hc, h8⟩ | ⟨hc, hr⟩⟩
  · simp only [hw, Bool.not_false, Bool.true_or, if_true]
  · simp only [hb, decide_true, Bool.or_true, if_true]
  · simp [hd, hp, hc, h8, Nat.not_le.2 hlt]
  · rcases hat : regAt off with _ | ⟨r, i, j⟩
    · simp [hd, hp, hc, Nat.not_le.2 hlt]
    · simp [hd, hp, hc, Nat.not_le.2 hlt, hr r i j hat]

theorem regRead_of_meetsNoRegister {off bytes : Nat} (h : meetsNoRegister off bytes) (e : Eng) :
    e.regRead off bytes = e.badAccess := by
  unfold Eng.regRead
  rcases meetsNoRegister_cases h with hw | hb | ⟨hlt, hd, hp, ⟨hc, h8⟩ | ⟨hc, hr⟩⟩
  · simp only [hw, Bool.not_false, Bool.true_or, if_true]
  · simp only [hb, decide_true, Bool.or_true, if_true]
  · simp [hd, hp, hc, h8, Nat.not_le.2 hlt]
  · rcases hat : regAt off with _ | ⟨r, i, j⟩
    · simp [hd, hp, hc, Nat.not_le.2 hlt]
    · simp [hd, hp, hc, Nat.not_le.2 hlt, hr r i j hat]

/-- Where the coding core answers, a bad access is counted unless its reset keeps the counter still (R450). -/
theorem badAccess_quiet {s : State} (h : s.eng.answers .coding = true) :
    (quiet s).badAccess =
      (if s.eng.boot.inReset then quiet s else (quiet s).bump Reg.GEN_ERR_BAD_ACC).emit .busError := by
  have hq : (quiet s).answers .coding = true := h
  cases hr : s.eng.boot.inReset <;> simp [Eng.badAccess, hq, hr]

/-- Settles O6: both directions of the window answer such an access with `badAccess`. -/
theorem badRegisterAccessIsCountedAndChangesNothing :
    Obligations.BadRegisterAccessIsCountedAndChangesNothing := by
  unfold Obligations.BadRegisterAccessIsCountedAndChangesNothing
  intro s off v hcore
  simp only
  rw [← badAccess_quiet hcore]
  refine ⟨fun wr bytes h => ?_, fun wide h => ?_⟩
  · cases wr <;>
      simp [exec, execBadRegisterAccess, regWrite_of_meetsNoRegister h, regRead_of_meetsNoRegister h]
  · cases wide with
    | false =>
      simp only [exec, execRegisterWrite, State.run_eq, Bool.false_eq_true, if_false,
        regWrite_of_meetsNoRegister (bytes := 4) h]
    | true =>
      simp only [exec, execRegisterWrite, State.run_eq, if_true, regWrite_of_meetsNoRegister (bytes := 8) h]

/-! ### A write to a register that acts -/

/-- The effect of a write to a register of a base offset, where the register does more than store its fields. -/
def Eng.actOf (e : Eng) (base i : Nat) (flds : List Fld) (v : Nat) : Option Eng :=
  if base < 0x040000 then e.writeLow base i flds v else e.writeHigh base i flds v

theorem writeReg_of_actOf {r : RegRow} {i j v : Nat} {act : Eng → Eng}
    (h : ∀ e : Eng, e.actOf r.base i (r.flds i j) v = some (act e)) (e : Eng) :
    e.writeReg r i j v = e.write r.dom (r.flds i j) v act := by
  simp only [Eng.actOf] at h
  simp only [Eng.writeReg, h]

/-- At an offset of the window stands, as a register of a width in bytes, the one of the row `base` with the index `i`: its
domain and its fields. -/
abbrev registerIs (off bytes base i : Nat) (d : Dom) (flds : List Fld) : Prop :=
  ((bytes == 4 || bytes == 8) && off % bytes == 0) = true ∧ off < 0x100000 ∧ inCaps off = false ∧
  (regAt off).any (fun x => x.1.base = base ∧ x.1.bits = 8 * bytes ∧ x.2.1 = i ∧ x.1.dom = d ∧
    x.1.flds x.2.1 x.2.2 = flds) = true

/-- A write that meets a register of its width below the apertures, outside the capability list. -/
theorem regWrite_of_regAt {off bytes i j : Nat} {r : RegRow}
    (hword : ((bytes == 4 || bytes == 8) && off % bytes == 0) = true) (hlow : off < 0x100000) (hcaps : inCaps off = false)
    (hreg : regAt off = some (r, i, j)) (hbits : r.bits = 8 * bytes) (e : Eng) (v : Nat) :
    e.regWrite off bytes v = e.writeReg r i j v := by
  have hend : ¬ 2 ^ 25 ≤ off := by omega
  have hctx : ¬ 0x1000000 ≤ off := by omega
  have hdesc : ¬ 0x100000 ≤ off := by omega
  have hprog : ¬ 0x200000 ≤ off := by omega
  simp only [Eng.regWrite, hword, hend, hctx, hdesc, hprog, hcaps, hreg, hbits, decide_false, Bool.not_true, Bool.or_self,
    Bool.false_and, Bool.false_eq_true, if_false, if_true]

theorem regWrite_of_registerIs {off bytes base i v : Nat} {d : Dom} {flds : List Fld} {act : Eng → Eng}
    (h : registerIs off bytes base i d flds) (hact : ∀ e : Eng, e.actOf base i flds v = some (act e)) (e : Eng) :
    e.regWrite off bytes v = e.write d flds v act := by
  obtain ⟨hword, hlow, hcaps, hat⟩ := h
  obtain ⟨⟨r, i', j⟩, hreg, hrow⟩ := (Option.any_eq_true _ _).1 hat
  obtain ⟨rfl, hbits, rfl, rfl, rfl⟩ := of_decide_eq_true hrow
  exact (regWrite_of_regAt hword hlow hcaps hreg hbits e v).trans (writeReg_of_actOf hact e)

/-- A 32-bit write to a register that acts is the action, met as its domain meets a write. -/
theorem exec_registerWrite_narrow {off base i : Nat} {d : Dom} {flds : List Fld} {act : Eng → Eng} {w : Word}
    (h : registerIs off 4 base i d flds) (hact : ∀ e : Eng, e.actOf base i flds w.toNat = some (act e)) (s : State) :
    exec (.registerWrite off false (w.setWidth 64)) s = .next (s.run (fun e => e.write d flds w.toNat act)) := by
  have hw : (w.setWidth 64).toNat % 2 ^ 32 = w.toNat := by
    have := w.isLt
    rw [BitVec.toNat_setWidth]; omega
  simp only [exec, execRegisterWrite, hw, regWrite_of_registerIs h hact, Bool.false_eq_true, if_false]

/-- The same at a register without an index, which is its own row. -/
theorem exec_registerWrite_narrow_single {off : Nat} {d : Dom} {flds : List Fld} {act : Eng → Eng} {w : Word} (s : State)
    (h : registerIs off 4 off 0 d flds) (hact : ∀ e : Eng, e.actOf off 0 flds w.toNat = some (act e)) :
    exec (.registerWrite off false (w.setWidth 64)) s = .next (s.run (fun e => e.write d flds w.toNat act)) :=
  exec_registerWrite_narrow h hact s

/-- A 64-bit write to a register that acts; the ones with a command of their own have no index. -/
theorem exec_registerWrite_wide_single {off : Nat} {d : Dom} {flds : List Fld} {act : Eng → Eng} {v : DWord} (s : State)
    (h : registerIs off 8 off 0 d flds) (hact : ∀ e : Eng, e.actOf off 0 flds v.toNat = some (act e)) :
    exec (.registerWrite off true v) s = .next (s.run (fun e => e.write d flds v.toNat act)) := by
  simp only [exec, execRegisterWrite, regWrite_of_registerIs h hact, if_true]

/-- Which bits of a register are reserved does not depend on the order of its fields. -/
theorem write_perm {flds flds' : List Fld} (h : flds.Perm flds') (e : Eng) (d : Dom) (v : Nat) (f : Eng → Eng) :
    e.write d flds v f = e.write d flds' v f := by
  have hs : strayBits flds v = strayBits flds' v := by simp only [strayBits, h.any_eq]
  simp only [Eng.write, Eng.rsvdCheck, hs]

/-! #### The registers that act and have an index -/

theorem gpCtl_registerIs : ∀ p : Fin 4, registerIs (0x040000 + 0x4000 * p.val) 4 0x040000 p.val .link
    [Reg.GP_CTL_RETRAIN p, Reg.GP_CTL_HOLD p] := by decide +kernel

theorem gpTest_registerIs : ∀ p : Fin 4, registerIs (0x040038 + 0x4000 * p.val) 4 0x040038 p.val .link
    [Reg.GP_TEST_RUN p, Reg.GP_TEST_REFUSED p, Reg.GP_TEST_PATTERN p, Reg.GP_TEST_MODE p] := by decide +kernel

theorem synWatchCtl_registerIs : ∀ n : Fin 64, registerIs (0x020200 + 16 * n.val) 4 0x020200 n.val .coding
    [Reg.SYN_WATCH_CTL_EN n, Reg.SYN_WATCH_CTL_OBJ n] := by decide +kernel

theorem intGrpCfg_registerIs : ∀ g : Fin 64, registerIs (0x010800 + 16 * g.val) 4 0x010800 g.val .alwaysOn
    (grpCfgFields g) := by decide +kernel

theorem intComplete_registerIs : ∀ t : Fin 2, registerIs (0x010C04 + 8 * t.val) 4 0x010C04 t.val .alwaysOn
    [Reg.INT_COMPLETE_SOURCE t] := by decide +kernel

theorem cqTail_registerIs : ∀ q : Fin 4, registerIs (0x0C000C + 64 * q.val) 4 0x0C000C q.val .coding
    [Reg.CQ_TAIL_TAIL q] := by decide +kernel

theorem cqCtl_registerIs : ∀ q : Fin 4, registerIs (0x0C0008 + 64 * q.val) 4 0x0C0008 q.val .coding
    (queueCtlFields q) := by decide +kernel

/-! #### The two commands whose row lists the fields in another order than the register map -/

theorem registerWrite_genPwr (w : Word) (s : State) :
    exec (.registerWrite 0x000408 false (w.setWidth 64)) s = exec (.sleepRequest w) s := by
  have hat : registerIs 0x000408 4 0x000408 0 .alwaysOn [Reg.GEN_PWR_REFUSED, Reg.GEN_PWR_ASLEEP, Reg.GEN_PWR_SLEEP] := by
    decide +kernel
  have hperm := List.Perm.cons Reg.GEN_PWR_REFUSED (List.Perm.swap Reg.GEN_PWR_SLEEP Reg.GEN_PWR_ASLEEP [])
  rw [exec_registerWrite_narrow hat (act := fun e => e.sleepWrite w.toNat) (fun _ => rfl)]
  simp only [exec, execSleepRequest, write_perm hperm]

theorem registerWrite_synWatchCtl (n : Fin 64) (w : Word) (s : State) :
    exec (.registerWrite (0x020200 + 16 * n.val) false (w.setWidth 64)) s = exec (.watchEnable n w) s := by
  have hperm := List.Perm.swap (Reg.SYN_WATCH_CTL_OBJ n) (Reg.SYN_WATCH_CTL_EN n) []
  rw [exec_registerWrite_narrow (synWatchCtl_registerIs n) (act := fun e => e.watchWrite n w.toNat) (fun _ => rfl)]
  simp only [exec, execWatchEnable, write_perm hperm]

/-- Settles O9: the register map and the command name one domain, the same fields and one effect. -/
theorem registerWriteIsTheCommandOfItsRegister : Obligations.RegisterWriteIsTheCommandOfItsRegister := by
  unfold Obligations.RegisterWriteIsTheCommandOfItsRegister
  intro s v w q p n g t
  refine ⟨?startLock, ?mapArm, ?coreReset, ?prune, registerWrite_genPwr w s, ?zeroize, ?portRetrain, ?portTest, ?boundary,
    ?jobRisk, ?timeCorrection, ?alarm, ?syncSet, ?syncSignal, registerWrite_synWatchCtl n w s, ?group, ?complete, ?doorbell,
    ?queue, ?mailbox, ?ledger⟩
  case portRetrain => exact exec_registerWrite_narrow (gpCtl_registerIs p) (fun _ => rfl) s
  case portTest => exact exec_registerWrite_narrow (gpTest_registerIs p) (fun _ => rfl) s
  case group => exact exec_registerWrite_narrow (intGrpCfg_registerIs g) (fun _ => rfl) s
  case complete => exact exec_registerWrite_narrow (intComplete_registerIs t) (fun _ => rfl) s
  case doorbell => exact exec_registerWrite_narrow (cqTail_registerIs q) (fun _ => rfl) s
  case queue => exact exec_registerWrite_narrow (cqCtl_registerIs q) (fun _ => rfl) s
  case startLock | mapArm | coreReset | prune | zeroize | syncSignal =>
    exact exec_registerWrite_narrow_single s (by decide +kernel) (fun _ => rfl)
  case boundary | jobRisk | timeCorrection | alarm | syncSet | mailbox | ledger =>
    exact exec_registerWrite_wide_single s (by decide +kernel) (fun _ => rfl)

/-! ### Writes of different fields -/

/-- Entries at different keys can be listed in either order, in any table. -/
theorem put_comm {α : Type} (m : SMap α) {x y : Nat} (h : x ≠ y) (v w : α) :
    put (put m x v) y w = put (put m y w) x v := by
  induction m with
  | nil => grind [put]
  | cons kv t ih => grind [put]

theorem Eng.wr_comm (e : Eng) {f g : Fld} (h : f.key ≠ g.key) (v w : Nat) : (e.wr f v).wr g w = (e.wr g w).wr f v := by
  simp only [Eng.wr, put_comm e.regs h]

/-! ### The start lock's checks -/

/-- The fields that the fits are worked out from. -/
def fitReads : List Fld :=
  [Reg.MEM_BITMAP_BASE_BASE, Reg.MEM_JOURNAL_BASE_BASE, Reg.MEM_USABLE_TOP_TOP, Reg.GEN_FLOOR_SUM_STACK_GIB, Reg.GRV_CFG_W,
   Reg.GRV_CFG_K, Reg.GRV_CFG_POS, Reg.GRV_ACK_CTL_CREDIT, Reg.GRV_WIN_CTL_OPEN, Reg.GRV_WIN_CTL_DEPTH,
   Reg.GRV_LOG_CTL_STEP_SIZE, Reg.GRV_LOG_CTL_COPIES, Reg.ANC_CTL_BUF, Reg.UPD_B5_COUNT_ENTRIES, Reg.UPD_B5_TABLE_BASE,
   Reg.UPD_INTAKE_CTL_B5, Reg.UPD_INTAKE_CTL_EN, Reg.UPD_INTAKE_BASE_BASE, Reg.UPD_INTAKE_LEN_LEN, Reg.LED_CTL_INPUT_EN,
   Reg.LED_CTL_INPUT_REGION]

theorem bucketsOk_congr {e e' : Eng} (hbase : e.rd Reg.UPD_B5_TABLE_BASE = e'.rd Reg.UPD_B5_TABLE_BASE)
    (hcount : e.rd Reg.UPD_B5_COUNT_ENTRIES = e'.rd Reg.UPD_B5_COUNT_ENTRIES) (hmem : e.mem = e'.mem) :
    e.bucketsOk = e'.bucketsOk := by
  have hpieces : e.pieces = e'.pieces := by simp only [Eng.pieces, Eng.memRead, hbase, hcount, hmem]
  unfold Eng.bucketsOk
  rw [hpieces]
  simp only [Eng.memRead, hbase, hmem]

theorem stageRoom_congr {e e' : Eng} (hw : e.w = e'.w) (hk : e.k = e'.k) (hpos : e.pos = e'.pos) (hrgns : e.rgns = e'.rgns) :
    e.stageRoom = e'.stageRoom := by
  have hrole : e.role = e'.role := by funext row; simp only [Eng.role, hw, hpos]
  unfold Eng.stageRoom Eng.stagedLeaves
  rw [hk, hrole, hrgns]

theorem intakeOk_congr {e e' : Eng} (hbase : e.rd Reg.UPD_INTAKE_BASE_BASE = e'.rd Reg.UPD_INTAKE_BASE_BASE)
    (hlen : e.intakeLen = e'.intakeLen) (htop : e.usableTop = e'.usableTop)
    (hen : e.on Reg.UPD_INTAKE_CTL_EN = e'.on Reg.UPD_INTAKE_CTL_EN) (hrgns : e.rgns = e'.rgns) :
    e.intakeOk = e'.intakeOk := by
  unfold Eng.intakeOk
  rw [hbase, hlen, htop, hen, hrgns]

/-- The fits depend on those fields, the regions and local memory, which holds the bucket index table. -/
theorem fits_congr {e e' : Eng} (hrd : ∀ f ∈ fitReads, e.rd f = e'.rd f) (hrgns : e.rgns = e'.rgns) (hmem : e.mem = e'.mem) :
    e.fits = e'.fits := by
  simp only [fitReads, List.forall_mem_cons, List.not_mem_nil, false_implies, implies_true, and_true] at hrd
  have hw : e.w = e'.w := by simp only [Eng.w, hrd]
  have hk : e.k = e'.k := by simp only [Eng.k, hrd]
  have hpos : e.pos = e'.pos := by simp only [Eng.pos, hrd]
  have hlen : e.intakeLen = e'.intakeLen := by simp only [Eng.intakeLen, hrd]
  have htop : e.usableTop = e'.usableTop := by simp only [Eng.usableTop, hrd]
  have hjournal : e.journalRoom = e'.journalRoom := by
    simp only [Eng.journalRoom, Eng.bitmapBase, Eng.journalBase, Eng.memSize, hw, hrd]
  have hmirror : e.mirrorRoom = e'.mirrorRoom := by simp only [Eng.mirrorRoom, Eng.mirrorM, hrgns]
  have hwindow : e.windowRoom = e'.windowRoom := by simp only [Eng.windowRoom, hw, hrd]
  have hlog : e.logRoom = e'.logRoom := by simp only [Eng.logRoom, Eng.stepSize, hrd]
  have hstage : e.stageRoom = e'.stageRoom := stageRoom_congr hw hk hpos hrgns
  have hanchor : e.anchorRoom = e'.anchorRoom := by simp only [Eng.anchorRoom, hrd]
  have hbuckets : e.bucketsOk = e'.bucketsOk := bucketsOk_congr (by simp only [hrd]) (by simp only [hrd]) hmem
  have hintake : e.intakeOk = e'.intakeOk :=
    intakeOk_congr (by simp only [hrd]) hlen htop (by simp only [Eng.on, hrd]) hrgns
  have hinput : e.inputOk = e'.inputOk := by simp only [Eng.inputOk, Eng.rgn?, Eng.on, hrd, hrgns]
  simp only [Eng.fits, Eng.on, hjournal, hmirror, hwindow, hlog, hstage, hanchor, hbuckets, hintake, hinput, hrd, hrgns]

/-- A write of a field that no fit is worked out from. -/
theorem fits_wr {f : Fld} (h : ∀ g ∈ fitReads, g.key ≠ f.key) (e : Eng) (v : Nat) : (e.wr f v).fits = e.fits :=
  fits_congr (fun g hg => Eng.rd_wr_ne e v (h g hg)) rfl rfl

/-- The flags that an attempt at the start lock sets or clears before its checks. -/
def fitFlags : List Fld :=
  [Reg.GRV_WIN_CTL_FIT, Reg.GRV_LOG_CTL_FIT, Reg.GRV_RING_CTL_FIT, Reg.UPD_INTAKE_CTL_FIT, Reg.ANC_CTL_FIT, Reg.LED_CTL_FIT]

theorem clearFits_eq (e : Eng) :
    e.clearFits = (e.each fitFlags (fun f e => e.flag f true)).flag Reg.SEC_STAT_KEY_NEED false := rfl

theorem clearFits_wr {f : Fld} (h : ∀ g ∈ Reg.SEC_STAT_KEY_NEED :: fitFlags, f.key ≠ g.key) (e : Eng) (v : Nat) :
    (e.wr f v).clearFits = e.clearFits.wr f v := by
  simp only [fitFlags, List.forall_mem_cons] at h
  obtain ⟨hkey, h1, h2, h3, h4, h5, h6, -⟩ := h
  simp only [clearFits_eq, fitFlags, Eng.each_cons, Eng.each_nil, Eng.flag]
  rw [Eng.wr_comm e h1, Eng.wr_comm _ h2, Eng.wr_comm _ h3, Eng.wr_comm _ h4, Eng.wr_comm _ h5, Eng.wr_comm _ h6,
    Eng.wr_comm _ hkey]

/-- The flags are no input of the fits that they show. -/
theorem fits_clearFits (e : Eng) : e.clearFits.fits = e.fits := by
  simp (disch := decide) only [clearFits_eq, fitFlags, Eng.each_cons, Eng.each_nil, Eng.flag, fits_wr]

@[simp] theorem clearFits_rgns (e : Eng) : e.clearFits.rgns = e.rgns := (rfl)
@[simp] theorem clearFits_descs (e : Eng) : e.clearFits.descs = e.descs := (rfl)
@[simp] theorem clearFits_progs (e : Eng) : e.clearFits.progs = e.progs := (rfl)

/-! ### The start lock on an engine with no region and no map -/

theorem rgnDigest_congr {e e' : Eng} (hrgns : e.rgns = e'.rgns) (hdescs : e.descs = e'.descs) :
    e.rgnDigest = e'.rgnDigest := by
  simp only [Eng.rgnDigest, hrgns, hdescs]

theorem regionChecks_of_no_region {e : Eng} (h : e.rgns = []) : e.regionChecks = none := by
  simp [Eng.regionChecks, Eng.mirrorTotals, h]

theorem stageRoom_of_no_region {e : Eng} (h : e.rgns = []) : e.stageRoom = 0 := by
  simp [Eng.stageRoom, Eng.stagedLeaves, h]

theorem keyOk_of_no_region {e : Eng} (h : e.rgns = []) : e.keyOk = true := by
  simp [Eng.keyOk, h]

/-- With no map accepted or held and no region, there is nobody to call and nothing to compare. -/
theorem startRollCall_alone {e : Eng} (hrgns : e.rgns = []) (hcfg : e.on Reg.GRV_CFG_VALID = false) (hmap : e.mapState ≠ 4) :
    e.startRollCall = e.takeLock := by
  simp [Eng.startRollCall, Eng.mapBadShape, Eng.groveChecks, hrgns, hcfg, hmap]

theorem startLock_ignored {e : Eng} {v : Nat}
    (h : Reg.GEN_START_LOCK.of v ≠ 1 ∨ e.on Reg.GEN_START_BUSY = true ∨ e.locked = true) : e.startLock v = e := by
  have hc : (Reg.GEN_START_LOCK.of v != 1 || e.on Reg.GEN_START_BUSY || e.locked) = true := by
    rcases h with h | h | h <;> simp [h]
  rw [Eng.startLock, if_pos hc]

/-- The engine as the fits find it on an attempt at the start lock without regions, but for the flags of `clearFits`. -/
def Eng.stagedAlone (e : Eng) : Eng :=
  ((((e.flag Reg.GEN_START_BUSY true).wr Reg.GEN_START_STATUS stNotReady).wr Reg.GRV_RGN_DIGEST_DIGEST e.rgnDigest).wr
    Reg.UPD_UPROG_DIGEST_DIGEST (leNat ((sha3_256 (bytesAt e.progs 0 (16 * slotBytes))).take 8))).wr Reg.GRV_STAGE_SIZE_BYTES 0

@[simp] theorem stagedAlone_rgns (e : Eng) : e.stagedAlone.rgns = e.rgns := (rfl)

/-- The flags are as if they had been cleared before the rest, as the attempt does. -/
theorem clearFits_stagedAlone (e : Eng) : e.stagedAlone.clearFits =
    ((((e.flag Reg.GEN_START_BUSY true).wr Reg.GEN_START_STATUS stNotReady).clearFits.wr Reg.GRV_RGN_DIGEST_DIGEST
      e.rgnDigest).wr Reg.UPD_UPROG_DIGEST_DIGEST (leNat ((sha3_256 (bytesAt e.progs 0 (16 * slotBytes))).take 8))).wr
      Reg.GRV_STAGE_SIZE_BYTES 0 := by
  rw [Eng.stagedAlone, clearFits_wr (by decide), clearFits_wr (by decide), clearFits_wr (by decide)]

/-- Every field that an attempt without regions writes before the lock takes effect. -/
def attemptWrites : List Fld :=
  [Reg.GEN_START_BUSY, Reg.GEN_START_STATUS, Reg.GRV_RGN_DIGEST_DIGEST, Reg.UPD_UPROG_DIGEST_DIGEST,
   Reg.GRV_STAGE_SIZE_BYTES, Reg.SEC_STAT_KEY_NEED] ++ fitFlags

theorem rd_clearFits_stagedAlone {f : Fld} (h : ∀ g ∈ attemptWrites, f.key ≠ g.key) (e : Eng) :
    e.stagedAlone.clearFits.rd f = e.rd f := by
  simp only [attemptWrites, fitFlags, List.cons_append, List.nil_append, List.forall_mem_cons] at h
  simp only [clearFits_eq, fitFlags, Eng.each_cons, Eng.each_nil, Eng.stagedAlone, Eng.flag, Eng.rd_wr, h, if_false]

theorem startRollCall_stagedAlone {e : Eng} (hrgns : e.rgns = []) (hcfg : e.on Reg.GRV_CFG_VALID = false)
    (hmap : e.mapState ≠ 4) : e.stagedAlone.clearFits.startRollCall = e.stagedAlone.clearFits.takeLock := by
  refine startRollCall_alone (by simp [hrgns]) ?_ ?_
  · rw [Eng.on, rd_clearFits_stagedAlone (by decide)]
    exact hcfg
  · rw [Eng.mapState, rd_clearFits_stagedAlone (by decide)]
    exact hmap

/-- An attempt that nothing stands against takes the lock, with the digests and the sizes shown. -/
theorem startLock_alone {e : Eng} {v : Nat} (hlock : Reg.GEN_START_LOCK.of v = 1) (hbusy : e.on Reg.GEN_START_BUSY = false)
    (hlocked : e.locked = false) (hrgns : e.rgns = []) (hcfg : e.on Reg.GRV_CFG_VALID = false) (hmap : e.mapState ≠ 4)
    (hfits : e.stagedAlone.fits.all (·.2) = true) : e.startLock v = e.stagedAlone.clearFits.takeLock := by
  have hgo : (Reg.GEN_START_LOCK.of v != 1 || e.on Reg.GEN_START_BUSY || e.locked) = false := by
    simp [hlock, hbusy, hlocked]
  have hdigest : ((e.flag Reg.GEN_START_BUSY true).wr Reg.GEN_START_STATUS stNotReady).clearFits.rgnDigest = e.rgnDigest :=
    rgnDigest_congr (by simp) (by simp)
  have hnone : e.stagedAlone.clearFits.fits.find? (fun f => !f.2) = none := by
    rw [fits_clearFits, List.find?_eq_none]
    simpa using hfits
  have hkey : e.stagedAlone.clearFits.keyOk = true := keyOk_of_no_region (by simp [hrgns])
  rw [Eng.startLock, if_neg (by simp [hgo])]
  simp only [hdigest, Eng.wr_progs, clearFits_progs, Eng.flag_progs]
  rw [regionChecks_of_no_region (by simp [hrgns])]
  dsimp only
  rw [stageRoom_of_no_region (by simp [hrgns]), ← clearFits_stagedAlone, hnone]
  simp only [hkey, if_true, startRollCall_stagedAlone hrgns hcfg hmap]

/-! ### The start-lock write -/

theorem exec_startLock {s : State} (h : takesWrites .coding s) (v : Word) :
    exec (.startLock v) s = .next (leaving s ((written .coding genStartFields v.toNat s).startLock v.toNat)) := by
  simp only [exec, execStartLock, State.run_eq, write_written h]

@[simp] theorem written_rgns (d : Dom) (flds : List Fld) (v : Nat) (s : State) : (written d flds v s).rgns = s.eng.rgns := by
  rw [written_eq]; rfl

@[simp] theorem written_progs (d : Dom) (flds : List Fld) (v : Nat) (s : State) :
    (written d flds v s).progs = s.eng.progs := by
  rw [written_eq]; rfl

theorem written_on {d : Dom} {s : State} {flds : List Fld} {v : Nat} {f : Fld} (h1 : f.key ≠ Reg.GEN_PWR_ASLEEP.key)
    (h2 : f.key ≠ Reg.GEN_ERR_RSVD_WR.key) : (written d flds v s).on f = s.eng.on f := by
  rw [Eng.on, Eng.on, written_rd h1 h2]

/-- Settles O15: a write that finds LOCK 0, BUSY or LOCKED goes no further, and one on an engine without regions and map
passes every check with the engine `stagedAlone`. -/
theorem startLockIsTakenOnce : Obligations.StartLockIsTakenOnce := by
  unfold Obligations.StartLockIsTakenOnce
  have hbusy (s : State) (v : Nat) :
      (written .coding genStartFields v s).on Reg.GEN_START_BUSY = s.eng.on Reg.GEN_START_BUSY :=
    written_on (by decide) (by decide)
  have hlocked (s : State) (v : Nat) : (written .coding genStartFields v s).locked = s.eng.locked :=
    written_on (by decide) (by decide)
  refine ⟨fun s v hw h => ?ignored, fun s v hw hlock hidle hopen hrgns hcfg hmap hfits => ?taken⟩
  case ignored =>
    rw [exec_startLock hw, startLock_ignored]
    rw [hbusy, hlocked]
    exact h.imp_left (fun h0 => by simp [h0])
  case taken =>
    have hstaged : (written .coding genStartFields v.toNat s).stagedAlone =
        (((((written .coding genStartFields v.toNat s).flag Reg.GEN_START_BUSY true).wr Reg.GEN_START_STATUS stNotReady).wr
          Reg.GRV_RGN_DIGEST_DIGEST (written .coding genStartFields v.toNat s).rgnDigest).wr Reg.UPD_UPROG_DIGEST_DIGEST
          (leNat ((sha3_256 (bytesAt s.eng.progs 0 131072)).take 8))).wr Reg.GRV_STAGE_SIZE_BYTES 0 := by
      rw [Eng.stagedAlone, written_progs, show 16 * slotBytes = 131072 from rfl]
    rw [← hstaged] at hfits ⊢
    rw [exec_startLock hw, startLock_alone hlock (by rw [hbusy, hidle]) (by rw [hlocked, hopen]) (by rw [written_rgns, hrgns])
      (by rw [written_on (by decide) (by decide), hcfg])
      (by rw [Eng.mapState, written_rd (by decide) (by decide)]; exact hmap) hfits]
    rfl

end Sys2Proof.Machine

section
/-!
PROOF. Every command keeps the canonical forms (`WellKept`): one lemma for each effect on the engine, in the model's order,
assembled along the effect's own definition.
-/
namespace Sys2Proof

open Sys2Proof.Machine

/-! ### The tables and what replaces one -/

/-- An effect that keeps the canonical forms. -/
def Keeps (f : Eng → Eng) : Prop := ∀ e, WellKept e → WellKept (f e)

/-- What a function may answer has a property, whenever it answers. -/
def AllSome {α : Type} (P : α → Prop) (o : Option α) : Prop := ∀ x ∈ o, P x

theorem AllSome.none {α : Type} {P : α → Prop} : AllSome P .none := nofun

theorem AllSome.some {α : Type} {P : α → Prop} {x : α} (h : P x) : AllSome P (.some x) := by
  rintro _ ⟨⟩
  exact h

theorem AllSome.ite {α : Type} {P : α → Prop} {c : Prop} {_ : Decidable c} {a b : Option α} (ha : AllSome P a)
    (hb : AllSome P b) : AllSome P (if c then a else b) := by split; exacts [ha, hb]

theorem WellKept.ite {c : Prop} {_ : Decidable c} {a b : Eng} (ha : WellKept a) (hb : WellKept b) :
    WellKept (if c then a else b) := by split; exacts [ha, hb]

/-- A further effect where a condition holds. -/
theorem WellKept.onlyIf {c : Prop} {_ : Decidable c} {a b : Eng} (hb : WellKept b) (ha : WellKept b → WellKept a) :
    WellKept (if c then a else b) := .ite (ha hb) hb

/-- A further effect where a condition fails. -/
theorem WellKept.unless {c : Prop} {_ : Decidable c} {a b : Eng} (ha : WellKept a) (hb : WellKept a → WellKept b) :
    WellKept (if c then a else b) := .ite ha (hb ha)

theorem WellKept.iteFst {α : Type} {c : Prop} {_ : Decidable c} {a b : Eng × α} (ha : WellKept a.1) (hb : WellKept b.1) :
    WellKept (if c then a else b).1 := by split; exacts [ha, hb]

section
variable {e : Eng} (h : WellKept e)
include h

namespace WellKept

/-- An update of other fields than the tables. -/
theorem frame {out free pins fuses boot time intr q rc map mgmt sess ports linksDown rgns caps sent relSent busy
    dataAt applied window waits advs rings agrees early log mtx mrx mreq mcopy tier tierNo xfers xferNo taps sec loss
    thickDests hosted thickEnds rowSets gen0 hwc evac unrep miscorr prods inputs recons reconNo chains acc snaps
    builds drLoads drStore refs scrubs graft heats heldJoins held oldLost advised upd keep selfQ draining cuts late
    health edge} :
    WellKept { e with
      out, free, pins, fuses, boot, time, intr, q, rc, map, mgmt, sess, ports, linksDown, rgns,
      caps, sent, relSent, busy, dataAt, applied, window, waits, advs, rings, agrees, early, log, mtx, mrx, mreq,
      mcopy, tier, tierNo, xfers, xferNo, taps, sec, loss, thickDests, hosted, thickEnds, rowSets, gen0, hwc, evac,
      unrep, miscorr, prods, inputs, recons, reconNo, chains, acc, snaps, builds, drLoads, drStore, refs, scrubs,
      graft, heats, heldJoins, held, oldLost, advised, upd, keep, selfQ, draining, cuts, late, health, edge } :=
  ⟨h.regs, h.mem, h.descs, h.progs, h.syncs, h.ctxs, h.digs⟩

theorem wr {f v} : WellKept (e.wr f v) := { h with regs := sorted_put h.regs _ _ }

theorem memWrite {a bs} : WellKept (e.memWrite a bs) := { h with mem := splice_wf h.mem a bs }

theorem emptied {boot} : WellKept { e with boot, mem := [] } := { h with mem := ⟨.nil, nofun⟩ }

theorem setCtx {leaf c} : WellKept (e.setCtx leaf c) := { h with ctxs := sorted_put h.ctxs _ _ }

theorem spliceProgs {a bs} : WellKept { e with progs := splice e.progs a bs } := { h with progs := splice_wf h.progs a bs }

theorem spliceDescs {a bs} : WellKept { e with descs := splice e.descs a bs } := { h with descs := splice_wf h.descs a bs }

/-! ### Effects made of other effects -/

theorem foldl {α : Type} {f : Eng → α → Eng} {xs : List α} (hf : ∀ e x, WellKept e → WellKept (f e x)) :
    WellKept (xs.foldl f e) := by
  induction xs generalizing e with
  | nil => exact h
  | cons x xs ih => exact ih (hf _ _ h)

omit h in
/-- A fold that carries a value beside the engine. -/
theorem foldlFst {α β : Type} {p : Eng × β} (h : WellKept p.1) {f : Eng × β → α → Eng × β} {xs : List α}
    (hf : ∀ p x, WellKept p.1 → WellKept (f p x).1) : WellKept (xs.foldl f p).1 := by
  induction xs generalizing p with
  | nil => exact h
  | cons x xs ih => exact ih (hf _ _ h)

omit h in
theorem foldlFst_of_eq {α β : Type} {p : Eng × β} (h : WellKept p.1) {f : Eng × β → α → Eng × β} {xs : List α}
    (hf : ∀ p x q, f p x = q → WellKept p.1 → WellKept q.1) : WellKept (xs.foldl f p).1 :=
  h.foldlFst fun _ _ h => hf _ _ _ rfl h

theorem each {α : Type} {f : α → Eng → Eng} {xs : List α} (hf : ∀ x, Keeps (f x)) :
    WellKept (e.each xs f) := Eng.each_keeps xs (fun x _ => hf x) h

omit h in
/-- What is known of a pair's first part, once the pair is. -/
theorem fst_of_eq {α : Type} {p : Eng × α} {e' : Eng} {a : α} (h : WellKept p.1) (hp : p = (e', a)) : WellKept e' := by
  subst hp
  exact h

/-! ### The effects, in the order of the model -/

/-! #### Interrupts -/

theorem deliver {g} : WellKept (e.deliver g) := .frame (.ite (.ite h.wr h.wr.frame) h)

theorem fire {g} : WellKept (e.fire g) := .ite h.wr h.deliver

theorem firePrivileged {g} : WellKept (e.firePrivileged g) := h.fire.frame

theorem groupEvent {g} : WellKept (e.groupEvent g) := .ite (.ite h h.firePrivileged) (.ite h.fire h)

theorem wakeClocks : WellKept e.wakeClocks := .ite h.wr h

theorem srcEvent {n} : WellKept (e.srcEvent n) := .ite h (.ite (.ite h.wr h) (.groupEvent (.frame (.wr (.ite h.wr
    h)))))

theorem levelCheck {n} : WellKept (e.levelCheck n) := by
  dsimp only [Eng.levelCheck]
  split
  · exact h
  · refine .ite ?_ h.wr
    exact .ite h h.srcEvent

theorem request {n b} : WellKept (e.request n b) := .ite h.wr.levelCheck (.ite h.wr (.ite h.wr.srcEvent h.wr))

theorem raise {s} : WellKept (e.raise s) := h.request.request

theorem setLevel {s b} : WellKept (e.setLevel s b) := h.request

theorem claim {t} : WellKept (e.claim t) := by
  dsimp only [Eng.claim]
  split
  · exact h.frame
  · refine .ite ?_ h.frame.wr.frame
    exact .frame (.ite h.frame.frame.wr h.frame.frame.wr.wr)

theorem completeSrc {t n} : WellKept (e.completeSrc t n) := by
  dsimp only [Eng.completeSrc]
  refine .ite ?_ h
  split
  · exact h.wr.frame
  · exact .ite h.wr.frame.wr.srcEvent h.wr.frame.wr

theorem coalesceExpiry {g} : WellKept (e.coalesceExpiry g) := .ite h.fire h

theorem holdoffExpiry {g} : WellKept (e.holdoffExpiry g) := .ite (.ite h.frame h.frame.firePrivileged) h

theorem unmask {g} : WellKept (e.unmask g) := .ite h.wr.wr.deliver h.wr

/-! #### Regions -/

theorem stripeLost {r row ring} : WellKept (e.stripeLost r row ring) :=
  .ite (.frame (.ite h.setCtx h)) (.ite h.setCtx h)

/-! #### Links -/

theorem wireUp {w p} : WellKept (e.wireUp w p) := h.wr.wr.wr.wr

theorem onLane {p a} : WellKept (e.onLane p a) := h.frame.frame

theorem ctl {p m} : WellKept (e.ctl p m) := h.onLane

theorem ask {p m} : WellKept (e.ask p m) := h.frame.frame.ctl

theorem repeatAsks : WellKept e.repeatAsks := .ite h (.each h.frame fun _ _ h => .each h fun _ _ h => h.ctl)

theorem sendFlit {p ftype vc cls first body} : WellKept (e.sendFlit p ftype vc cls first body) := by
  unfold Eng.sendFlit
  exact h.frame.onLane

theorem freeFlit {p vc cls} : WellKept (e.freeFlit p vc cls) := h.frame.ctl

theorem unrefBuf {p id} : WellKept (e.unrefBuf p id) := by
  dsimp only [Eng.unrefBuf]
  split
  · exact h
  · exact .ite h.frame.freeFlit h.frame

theorem unmark {t n} : WellKept (e.unmark t n) := by
  dsimp only [Eng.unmark]
  split
  · exact .each h fun _ _ h => h.unrefBuf
  · exact h

theorem takeBytes {p i t c room} : WellKept (e.takeBytes p i t c room) := h.frame.unmark

theorem fillBody {n a b c d i} : WellKept (Eng.fillBody n e a b c d i).1 := by
  induction n generalizing e a b c d i with
  | zero => exact h
  | succ n ih =>
    dsimp only [Eng.fillBody]
    split
    · exact h
    · exact ih h.takeBytes

theorem sendFrom {p i t c} : WellKept (e.sendFrom p i t c) := by
  dsimp only [Eng.sendFrom]
  exact h.takeBytes.fillBody.frame.sendFlit

theorem pumpN {n a} : WellKept (Eng.pumpN n a e) := by
  induction n generalizing e a with
  | zero => exact h
  | succ n ih =>
    dsimp only [Eng.pumpN]
    refine .ite ?_ h
    split
    · exact ih h.frame.sendFlit
    · split
      · exact ih h.sendFrom
      · exact h

theorem toWake {p} : WellKept (e.toWake p) := h.wr.wr

theorem startWake {p} : WellKept (e.startWake p) := .ite h.ask.toWake h

theorem pump {p} : WellKept (e.pump p) := .ite h.pumpN.startWake h.pumpN

theorem abortTx {p i} : WellKept (e.abortTx p i) := by
  dsimp only [Eng.abortTx]
  split
  · exact h
  · split
    · exact h.frame.unmark
    · exact h.frame.unmark.frame

theorem abortWhere {p f} : WellKept (e.abortWhere p f) := by
  dsimp only [Eng.abortWhere]
  exact .each h fun _ _ h => by split; exacts [h.abortTx, h]

theorem dropOwnTx : WellKept e.dropOwnTx := .each h fun _ _ h => h.abortWhere.pump

theorem planeCheck : WellKept e.planeCheck := .ite h.wr.wr.raise h.wr.wr

theorem setUsed {p used} : WellKept (e.setUsed p used) := h.wr.wr.planeCheck

theorem abortInbound {p} : WellKept (e.abortInbound p) := .frame (.each h fun _ _ h => h.abortWhere.pump)

theorem reroute {t} : WellKept (e.reroute t) := by
  dsimp only [Eng.reroute]
  split
  · exact h.frame.pump
  · exact .ite h.unmark.wr h

theorem recompute : WellKept e.recompute := .each h.frame.frame.frame fun _ _ h => h.reroute

theorem linkDown {p st} : WellKept (e.linkDown p st) := h.frame.wr.wr.setUsed

theorem startAttempt {p n} : WellKept (e.startAttempt p n) := h.linkDown.wr.frame.frame.wr.ask

theorem trainPort {p} : WellKept (e.trainPort p) := h.frame.startAttempt

theorem linkReset {p} : WellKept (e.linkReset p) := .ite h.frame.startAttempt h

theorem excludePort {p why} : WellKept (e.excludePort p why) := .raise (.recompute (.each (.frame (.each
    h.linkDown.wr.abortInbound fun _ _ h => h.unmark)) fun _ _ h => h.reroute))

theorem holdCheck {p} : WellKept (e.holdCheck p) :=
  .ite (.ite h (.wr (.linkDown (.ite h.abortInbound h)))) (.ite h.trainPort h)

/-! #### Packets sent and sessions -/

theorem closeSess {place} : WellKept (e.closeSess place) := by
  dsimp only [Eng.closeSess]
  split
  · exact h.frame
  · exact h

theorem dispatch {place dst typ p fabric} : WellKept (e.dispatch place dst typ p fabric) := by
  dsimp only [Eng.dispatch]
  refine .ite h.frame ?_
  split
  · exact h
  · exact h.frame.pump

theorem sendPlace {place p} : WellKept (e.sendPlace place p) := by
  dsimp only [Eng.sendPlace]
  split
  · exact .ite h.frame.frame.dispatch h
  · exact h

theorem send {dst p} : WellKept (e.send dst p) := .ite (.ite h.frame h) h.sendPlace

theorem sendSpill {dst key p} : WellKept (e.sendSpill dst key p) := by
  dsimp only [Eng.sendSpill]
  split
  · exact .ite h.frame.frame.frame.wr h
  · exact h

theorem sendGen0 {place dst p} : WellKept (e.sendGen0 place dst p) := by
  dsimp only [Eng.sendGen0]
  split
  · exact .ite h.frame.frame.dispatch h
  · exact h

theorem sendAll {p} : WellKept (e.sendAll p) := .each h fun _ _ h => h.send

theorem authFail {f} : WellKept (e.authFail f) := .ite h.wr h.wr.frame.raise

/-! #### Local memory, digests and register accesses -/

theorem setDig {leaf d} : WellKept (e.setDig leaf d) :=
  have hdigs : WellKept { e with digs := put e.digs leaf d } := { h with digs := sorted_put h.digs _ _ }
  hdigs.setCtx

theorem foldDig {a delta} : WellKept (e.foldDig a delta) := .ite h.setDig h

theorem recomputeDig {leaf} : WellKept (e.recomputeDig leaf) := .wr (.setDig (.frame (.ite h.frame h)))

theorem needDig {leaf} : WellKept (e.needDig leaf) := .ite h h.recomputeDig

theorem copyDig {leaf step} : WellKept (e.copyDig leaf step) := .ite h.needDig.setDig h

theorem evictHw : WellKept e.evictHw := by
  dsimp only [Eng.evictHw]
  split
  · exact h
  · exact h.frame.memWrite

theorem hwChange {n x} : WellKept (e.hwChange n x) := .frame (.ite h.frame.evictHw h.frame)

theorem hwRecompute {n} : WellKept (e.hwRecompute n) := h.frame.memWrite

theorem mendHw {n} : WellKept (e.mendHw n) := .ite h.hwRecompute h

theorem setBitmapLine {i v} : WellKept (e.setBitmapLine i v) := by
  dsimp only [Eng.setBitmapLine]
  split
  · exact h
  · exact .ite h.frame.frame.hwChange.memWrite h.frame

theorem setDirty {leaf s b} : WellKept (e.setDirty leaf s b) := h.setBitmapLine

theorem markDirty {a} : WellKept (e.markDirty a) := .ite h.setDirty h

theorem noteWrote {a n} : WellKept (e.noteWrote a n) := .ite h h.frame

theorem touch {a delta} : WellKept (e.touch a delta) := .markDirty (.foldDig (.noteWrote (.ite h.hwChange h)))

theorem storeIn {a bs} : WellKept (e.storeIn a bs) := h.memWrite.touch.frame

theorem store {a bs} : WellKept (e.store a bs) := .each h fun _ _ h => .ite h.memWrite h.storeIn

theorem storeXor {a bs} : WellKept (e.storeXor a bs) := h.store

/-! #### Time and sync objects -/

theorem access {d f} (hf : Keeps f) : WellKept (e.access d f) :=
  .ite (hf _ (.ite h.wr h)) h.frame

theorem rsvdCheck {flds v} : WellKept (e.rsvdCheck flds v) := .ite h.wr h

theorem change {d f} (hf : Keeps f) : WellKept (e.change d f) :=
  .access h fun _ h => .ite h (hf _ h)

theorem write {d flds v f} (hf : Keeps f) : WellKept (e.write d flds v f) :=
  .change h fun _ h => hf _ h.rsvdCheck

theorem alarmCheck : WellKept e.alarmCheck := .ite h.raise.wr h

theorem correct {t} : WellKept (e.correct t) := .ite h.wr.raise (.ite h.frame.frame.alarmCheck h.frame)

theorem tick : WellKept e.tick := by
  dsimp only [Eng.tick]
  split
  · exact h.frame.alarmCheck
  · exact .alarmCheck (.ite h.frame.frame.frame h.frame.frame)

theorem prbsErrors {p} : WellKept (e.prbsErrors p) := .each h fun _ _ h => h.frame.wr

theorem countPrbs : WellKept e.countPrbs := .each h fun _ _ h => h.prbsErrors

theorem idle : WellKept e.idle := .ite h.tick.countPrbs.repeatAsks h

theorem passTo {a} : WellKept (e.passTo a) := by
  dsimp only [Eng.passTo]
  refine .ite h ?_
  split
  · exact h.frame
  · exact .ite h.frame h.frame.frame

theorem ppsEdge : WellKept e.ppsEdge := .ite h.wr (.frame (.wr (.ite h.wr.wr.wr.correct h.wr.wr.wr)))

theorem syncMirror {n} : WellKept (e.syncMirror n) := .ite (.ite h.store h.wr) h

theorem watchCheck {i} : WellKept (e.watchCheck i) := .ite h.wr.raise.wr h

theorem setSync {n v} : WellKept (e.setSync n v) := by
  refine .each (syncMirror (e := { e with syncs := _ }) ?_) fun _ _ h => h.watchCheck
  refine { h with syncs := ?_ }
  split
  · exact sorted_cut h.syncs n
  · exact sorted_put h.syncs _ _

theorem signal {n} : WellKept (e.signal n) := h.setSync

theorem watchWrite {n v} : WellKept (e.watchWrite n v) := h.wr.wr.watchCheck

theorem groupWrite {g v} : WellKept (e.groupWrite g v) :=
  .ite (.fire (.ite h.wr.wr.wr h.wr.wr.unmask)) (.ite h.wr.wr.wr h.wr.wr.unmask)

/-! #### The microprogram store -/

theorem checkSlot {slot} : WellKept (e.checkSlot slot) := by
  dsimp only [Eng.checkSlot]
  split
  · exact h.spliceProgs
  · exact .ite h.spliceProgs h.spliceProgs.wr.wr.wr.wr

theorem storeWrite {off bs} : WellKept (e.storeWrite off bs) := by
  unfold Eng.storeWrite
  refine .ite h.wr ?_
  extract_lets slot so mask kept e₁ e₂
  have h₂ : WellKept e₂ := .spliceProgs (.onlyIf h (·.wr))
  exact .ite (.onlyIf h₂ (·.checkSlot)) h₂.spliceProgs

/-! #### Mailboxes and queues -/

theorem openMbox {b opcode seq} : WellKept (e.openMbox b opcode seq) := h.frame.wr.wr.wr

theorem emptyMbox {b} : WellKept (e.emptyMbox b) := .wr (.each h.frame.wr.wr.wr.wr.wr.wr fun _ _ h => h.wr)

theorem readyMbox {b status reason addr data} : WellKept (e.readyMbox b status reason addr data) := .frame (.wr (.each
    h.wr.wr fun _ _ h => h.wr))

theorem completeWith {id status reason addr data} : WellKept (e.completeWith id status reason addr data) := by
  unfold Eng.completeWith
  split
  · exact h
  · exact .unless (.wr (.wr (.onlyIf h.frame.readyMbox (·.wr)))) (·.raise)

theorem complete {id status data} : WellKept (e.complete id status data) := h.completeWith

theorem refuse {id reason data} : WellKept (e.refuse id reason data) := h.completeWith

theorem fetchNext {q} : WellKept (e.fetchNext q) := .ite h.frame.frame h

theorem haltQueue {q why} : WellKept (e.haltQueue q why) := h.wr.wr.setLevel

theorem dropFetched {q} : WellKept (e.dropFetched q) := by
  dsimp only [Eng.dropFetched]
  split
  · exact h.frame
  · exact .ite h.frame.frame.emptyMbox h.frame.frame

theorem openCmd {q f} : WellKept (e.openCmd q f) := h.frame.wr.wr

/-! #### Deltas -/

theorem sendOrSpill {s d p} : WellKept (e.sendOrSpill s d p) := .ite (.ite h.frame.sendSpill h.frame.send) h.send

theorem transmit {s d retry} : WellKept (e.transmit s d retry) :=
  .ite (.frame (.ite h.sendOrSpill.wr h.sendOrSpill)) (.ite h.sendOrSpill.wr h.sendOrSpill)

theorem startOne {i} : WellKept (e.startOne i) := by
  dsimp only [Eng.startOne]
  split
  · exact h
  · exact .each h fun _ _ h => by split; exacts [h, by split; exacts [h, .ite h.frame.transmit h]]

theorem transmitReady : WellKept e.transmitReady := .each h fun _ _ h => h.startOne

theorem sendData {s} : WellKept (e.sendData s) := .ite h (.startOne (.ite h.frame.wr.wr h.frame))

theorem sendStream {r row sector stamp delta} : WellKept (e.sendStream r row sector stamp delta) := .ite h
    h.setCtx.frame.sendData

theorem markLag {leaf} : WellKept (e.markLag leaf) := .ite h h.setCtx.wr

theorem unlag {r row} : WellKept (e.unlag r row) := .ite h.setCtx.wr h

theorem purgeSent : WellKept e.purgeSent := by
  dsimp only [Eng.purgeSent]
  exact .each h.frame fun _ _ h => by split; exacts [h.unlag, h]

theorem dropDests {sel} : WellKept (e.dropDests sel) := h.frame.purgeSent

theorem takeAck {p} : WellKept (e.takeAck p) := h.dropDests.transmitReady

theorem deltaLost {s} : WellKept (e.deltaLost s) := by
  dsimp only [Eng.deltaLost]
  split
  · exact h.frame.stripeLost.unlag
  · exact h.frame

theorem resendTo {i pos} : WellKept (e.resendTo i pos) := by
  dsimp only [Eng.resendTo]
  split
  · exact h
  · refine .ite h.deltaLost (.each h fun _ e h => ?_)
    split
    · exact h
    · split
      · exact h
      · exact .ite (.ite h.frame.transmit.raise h.frame.transmit) h

theorem deadlineMiss {i pos} : WellKept (e.deadlineMiss i pos) := by
  dsimp only [Eng.deadlineMiss]
  split
  · exact h
  · refine .ite ?_ h
    exact .resendTo (.ite (by split; exacts [h.markLag.wr.raise, h]) h)

theorem sendRelease {region row pos} : WellKept (e.sendRelease region row pos) := by
  dsimp only [Eng.sendRelease]
  split
  · exact h
  · refine .ite ?_ h
    exact .frame (.each h fun _ _ h => h.send)

theorem xorLines {a bs} : WellKept (e.xorLines a bs) := .each h fun _ _ h => h.storeXor

theorem foldParity {r row sector thick prod} : WellKept (e.foldParity r row sector thick prod) := .ite h.frame
    h.xorLines

theorem ackPkt {p} : WellKept (e.ackPkt p) := h.send

theorem takeRelease {region row src thick rel} : WellKept (e.takeRelease region row src thick rel) := .ite h (.ite h
    h.frame.frame)

theorem hold {p} : WellKept (e.hold p) := .ite h (.ite h.wr h.frame)

theorem applyStream {r p j} : WellKept (e.applyStream r p j) := h.foldParity.frame.frame.takeRelease.ackPkt

theorem orderStream {r p j} : WellKept (e.orderStream r p j) := .ite h.wr.ackPkt (.ite h.applyStream h.hold)

theorem drainStream {n} : WellKept (Eng.drainStream n e) := by
  induction n generalizing e with
  | zero => exact h
  | succ n ih =>
    dsimp only [Eng.drainStream]
    split
    · exact h
    · split
      · split
        · exact ih h.frame.orderStream
        · exact ih h.frame
      · exact h.frame

theorem noteData {p} : WellKept (e.noteData p) := .ite (.each h.frame.frame fun _ _ h => h.send) h.frame.frame

theorem rxStreamDelta {p} : WellKept (e.rxStreamDelta p) := by
  dsimp only [Eng.rxStreamDelta]
  split
  · exact h.wr
  · exact h.orderStream.drainStream.noteData

theorem rxRelease {p} : WellKept (e.rxRelease p) := h.takeRelease

theorem rxBusy {p} : WellKept (e.rxBusy p) := .ite h h.frame

/-! #### The ledger -/

theorem noteGraftEdge {edge} : WellKept (e.noteGraftEdge edge) := .ite h.frame h

theorem ledLast : WellKept e.ledLast := by
  dsimp only [Eng.ledLast]
  split
  · exact .wr (by split; exacts [h.wr, h])
  · split
    · exact h.wr
    · exact h

theorem finishRec {r} : WellKept (e.finishRec r) := h.frame.frame.ledLast

theorem finishRecs {n} : WellKept (Eng.finishRecs n e) := by
  induction n generalizing e with
  | zero => exact h
  | succ n ih =>
    dsimp only [Eng.finishRecs]
    split
    · exact h
    · exact .ite (ih h.finishRec) h

theorem finishReady : WellKept e.finishReady := h.finishRecs

theorem passNew {r} : WellKept (e.passNew r) := by
  dsimp only [Eng.passNew]
  refine .ite h ?_
  split <;> exact h.frame

theorem ledRoom : WellKept e.ledRoom := by
  dsimp only [Eng.ledRoom]
  split
  · exact h
  · exact .ite h (.frame (.ite h.finishRec.passNew h))

theorem beginRecord {ring b wstep} : WellKept (e.beginRecord ring b wstep) := h.ledRoom.frame.ledLast

theorem recApplied {ring} : WellKept (e.recApplied ring) := h.frame.finishReady

theorem loseRecord {n} : WellKept (e.loseRecord n) := by
  dsimp only [Eng.loseRecord]
  split
  · exact h
  · exact .ite h (.frame (.ite h.passNew h))

theorem latchRecord {ring} : WellKept (e.latchRecord ring) := .each h.wr.wr fun _ _ h => h.wr

/-! #### Rings -/

theorem askTier {what why} : WellKept (e.askTier what why) := h.frame.frame

theorem askRanges {mk why rs} : WellKept (e.askRanges mk why rs) := .ite h.askTier (.each h fun _ _ h => .ite h
    h.askTier)

theorem askAgain {x} : WellKept (e.askAgain x) := by
  dsimp only [Eng.askAgain]
  split <;> exact h.frame

theorem issueXfer {x} : WellKept (e.issueXfer x) := h.frame.frame.askAgain

theorem servePort {n a} : WellKept (Eng.servePort n a e) := by
  induction n generalizing e a with
  | zero => exact h
  | succ n ih =>
    dsimp only [Eng.servePort]
    split
    · exact ih h.issueXfer
    · exact h

theorem queueXfer {a n bs k cls} : WellKept (e.queueXfer a n bs k cls) := h.frame.frame.servePort

theorem askRead {a n k} : WellKept (e.askRead a n k) := h.queueXfer

theorem askWrite {a bs k cls} : WellKept (e.askWrite a bs k cls) := h.queueXfer

theorem nextPiece {x bads} : WellKept (e.nextPiece x bads) := h.frame.servePort

theorem askCwrite {a bs cls} : WellKept (e.askCwrite a bs cls) := h.queueXfer.frame.frame.servePort

theorem completeRing {id status n b gap} : WellKept (e.completeRing id status n b gap) := h.complete.frame

theorem closeEntry {c} : WellKept (e.closeEntry c) := by
  dsimp only [Eng.closeEntry]
  split
  · exact h.frame
  · exact .ite h.frame h.frame.frame.frame.sendData

theorem stagePkt {r p} : WellKept (e.stagePkt r p) := h.frame.ackPkt

theorem orderRing {r p} : WellKept (e.orderRing r p) := by
  dsimp only [Eng.orderRing]
  split
  · exact h.wr
  · exact h.hold
  · exact .ite h.wr.ackPkt (.ite h.stagePkt h.hold)

theorem drainRing {n} : WellKept (Eng.drainRing n e) := by
  induction n generalizing e with
  | zero => exact h
  | succ n ih =>
    dsimp only [Eng.drainRing]
    split
    · exact h
    · split
      · exact ih h.frame.orderRing
      · exact ih h.frame

theorem drainWaits : WellKept e.drainWaits := h.drainStream.drainRing

theorem rxRingDelta {p} : WellKept (e.rxRingDelta p) := by
  dsimp only [Eng.rxRingDelta]
  split
  · exact h.wr
  · exact .ite h (.ite h.wr h.orderRing.drainRing.noteData)

theorem endStall : WellKept e.endStall := by
  dsimp only [Eng.endStall]
  exact .frame (by split; exacts [h.wr, h])

theorem openRing {n} : WellKept (e.openRing n) := h.frame.endStall.signal

theorem openNext : WellKept e.openNext := by
  dsimp only [Eng.openNext]
  refine .ite h ?_
  split
  · exact h
  · exact .ite h.openRing (.ite h h.frame)

theorem startFlush {n b} : WellKept (e.startFlush n b) := h.frame.askRanges

theorem closeRing {n} : WellKept (e.closeRing n) := .each h fun _ _ h => h.closeEntry

theorem reqLate {q} : WellKept (e.reqLate q) := h.frame.completeRing

theorem boundaryRing {b pick} : WellKept (e.boundaryRing b pick) := by
  have hreqs {qs : List SealReq} {e} (h : WellKept e) : WellKept (e.each qs (fun q e => e.reqLate q)) :=
    .each h fun _ _ h => h.reqLate
  dsimp only [Eng.boundaryRing]
  refine .ite h ?_
  split
  · exact hreqs (hreqs h)
  · exact .ite (hreqs (hreqs h)) (.ite (hreqs h) (.startFlush (.frame (.onlyIf (hreqs h) (·.wr)))))

theorem dropBad {n bad} : WellKept (e.dropBad n bad) := by
  dsimp only [Eng.dropBad]
  exact .frame (.each h fun _ _ h => by split; exacts [.ite h.frame h.setCtx, h])

theorem dropUnusable {n} : WellKept (e.dropUnusable n) := h.dropBad

theorem commitOwn {n parity} : WellKept (e.commitOwn n parity) := .each h fun _ _ h => .each h fun _ _ h => h.setCtx

theorem commitOne {cmd n} : WellKept (e.commitOne cmd n) :=
  .wr (.unless h.beginRecord.frame.dropUnusable.commitOwn.frame (·.wr.wr))

theorem issueApply {n} : WellKept (Eng.issueApply n e) := by
  induction n generalizing e with
  | zero => exact h
  | succ n ih =>
    dsimp only [Eng.issueApply]
    refine .ite h ?_
    split
    · exact h
    · refine .ite (ih h.dropBad.wr) ?_
      split
      · exact .ite (ih h.foldParity.frame.wr) h.frame.askWrite
      · exact ih h.frame.wr

theorem applyWritten {x} : WellKept (e.applyWritten x) := by
  dsimp only [Eng.applyWritten]
  split
  · exact h
  · exact h.storeXor.frame.wr.issueApply

theorem startFetches : WellKept e.startFetches := by
  dsimp only [Eng.startFetches]
  split
  · exact h
  · exact .each h.frame fun _ _ h => h.send

theorem rollGap {region row} : WellKept (e.rollGap region row) := by
  dsimp only [Eng.rollGap]
  split
  · exact h
  · exact .ite h (.raise (.wr (by split; exacts [h.frame.setCtx, h.frame])))

theorem refetch {f} : WellKept (e.refetch f) := by
  dsimp only [Eng.refetch]
  split
  · exact h
  · split
    · exact h.rollGap
    · exact h.frame

theorem returnLeaf {region row} : WellKept (e.returnLeaf region row) := by
  dsimp only [Eng.returnLeaf]
  split
  · refine .ite ?_ h
    exact .frame (.each h fun _ _ h => .each (.each h fun _ _ h => h.storeXor) fun _ _ h => h.storeXor)
  · exact h

theorem rollLeaves : WellKept e.rollLeaves := by
  dsimp only [Eng.rollLeaves]
  split <;> exact h.wr

theorem rollDone : WellKept e.rollDone := by
  dsimp only [Eng.rollDone]
  split
  · exact h
  · exact .ite h.wr.wr.frame.completeRing h

theorem rollStep : WellKept e.rollStep := by
  dsimp only [Eng.rollStep]
  split
  · exact h
  · exact .rollDone (.rollLeaves (.startFetches (.each h fun _ _ h => h.returnLeaf)))

/-! #### Agreement -/

theorem sendRecs {dst typ x rs} : WellKept (e.sendRecs dst typ x rs) := .each h fun _ _ h => .ite h h.send

theorem strip {region row x q thick} : WellKept (e.strip region row x q thick) := by
  dsimp only [Eng.strip]
  split
  · exact .ite h (.wr (.frame (.frame (.each (.ite h.stripeLost h) fun _ _ h => h.foldParity))))
  · exact h

theorem stripAll {region row x q} : WellKept (e.stripAll region row x q) := .each h fun _ _ h => h.strip

theorem sendReports {x sel} : WellKept (e.sendReports x sel) := .each h fun _ _ h => h.sendRecs

theorem decideOne {a} : WellKept (e.decideOne a) := by
  dsimp only [Eng.decideOne]
  refine .ite ?_ h
  split
  · exact h
  · exact h.stripAll.frame

theorem sendDecisions {x as} : WellKept (e.sendDecisions x as) := .each h fun _ _ h => h.sendRecs

theorem sendCuts {x} : WellKept (e.sendCuts x) := .ite h.sendRecs h

theorem sendSettled {x} : WellKept (e.sendSettled x) := .ite h.sendAll.sendCuts h

theorem decideAll {x} : WellKept (e.decideAll x) := by
  refine .ite (.each h fun _ _ h => h.decideOne) ?_
  exact .sendSettled (.sendDecisions (.each h fun _ _ h => h.decideOne))

theorem startRounds {x} : WellKept (e.startRounds x) := .each (.frame (.ite h h.wr)) fun _ _ h =>
    h.sendReports.decideAll

theorem roundGate {p f} (hf : Keeps f) : WellKept (e.roundGate p f) :=
  .ite h (.ite h.frame (hf _ h))

theorem rxReport {p} : WellKept (e.rxReport p) := by
  dsimp only [Eng.rxReport]
  exact .decideAll (.sendRecs (.each h fun _ _ h => by split; exacts [.ite h h.frame, h]))

theorem rxDecide {p} : WellKept (e.rxDecide p) := by
  dsimp only [Eng.rxDecide]
  exact .sendRecs (.each h fun _ _ h => by split; exacts [.ite h.frame h.stripAll.frame, h])

theorem rxDone {p} : WellKept (e.rxDone p) := by
  dsimp only [Eng.rxDone]
  exact .sendSettled (.sendRecs (.each h fun _ _ h => by split; exacts [h.frame, h]))

theorem rxPoint {p} : WellKept (e.rxPoint p) := .roundGate h fun _ h => .ite h.rxReport (.ite h.rxDecide (.ite
    h.rxDone h.frame))

theorem replayEarly : WellKept e.replayEarly := .each h.frame fun _ _ h => h.rxPoint

theorem pointTimeout {x} : WellKept (e.pointTimeout x) := .ite h (.each (.sendReports (.sendSettled (.each h.wr.raise
    fun _ _ h => h.sendRecs))) fun _ _ h => h.sendRecs)

theorem logCount {owner stamp n} : WellKept (e.logCount owner stamp n) :=
  .ite (.raise (.wr (.ite h.frame.wr.raise h.frame))) (.ite h.frame.wr.raise h.frame)

theorem sendLog {o cs} : WellKept (e.sendLog o cs) := .each h.frame fun _ _ h => h.send

theorem earlyAcks {o} : WellKept (e.earlyAcks o) := h.frame.frame

theorem logOut {scalar stamp row region bytes} : WellKept (e.logOut scalar stamp row region bytes) := .each h.logCount
    fun _ _ h => .ite h.frame.earlyAcks h.frame.sendLog

theorem noteLogged : WellKept e.noteLogged := .each h fun _ _ h => .ite h.wr h

theorem sendLogAck {dst stamp row count scalar what} : WellKept (e.sendLogAck dst stamp row count scalar what) :=
    h.send

theorem keepLog {p} : WellKept (e.keepLog p) := .ite h.sendLogAck (.ite h.frame.sendLogAck
    h.frame.logCount.sendLogAck)

theorem keepDelivered {owner stamp region bytes} : WellKept (e.keepDelivered owner stamp region bytes) := .ite
    h.frame.frame.sendLogAck h.frame.frame.logCount.sendLogAck

theorem rxLogRetire {p} : WellKept (e.rxLogRetire p) := .ite h (.each h.frame.frame fun _ _ h => h.sendLogAck)

theorem rxLogAck {p} : WellKept (e.rxLogAck p) := by
  dsimp only [Eng.rxLogAck]
  split
  · exact .each h fun _ _ h => h.sendLog
  · split
    · exact h.frame.noteLogged
    · exact .ite h.frame h

theorem partnerLost {x} : WellKept (e.partnerLost x) := .ite h.frame.frame.wr.raise h.frame

theorem retireTo {t} : WellKept (e.retireTo t) := by
  have hcut {ps : List Nat} {p f v log} : WellKept { (e.each ps (fun x e => e.send x p)).wr f v with log } :=
    .frame (.wr (.each h fun _ _ h => h.send))
  dsimp only [Eng.retireTo]
  split
  · exact .onlyIf hcut (·.frame.wr)
  · exact hcut

/-! #### Line protection -/

theorem cwrite {line bs cls} : WellKept (e.cwrite line bs cls) := h.askCwrite

theorem barkCount {line} : WellKept (e.barkCount line) := h.wr.frame.frame

theorem heartCount {sector} : WellKept (e.heartCount sector) := h.wr.frame.frame

theorem restoreLine {line} : WellKept (e.restoreLine line) := h.heartCount.cwrite

theorem miscorrected {line} : WellKept (e.miscorrected line) := h.frame.wr.raise

theorem confirm {line c} : WellKept (e.confirm line c) := by
  dsimp only [Eng.confirm]
  refine .ite h.cwrite ?_
  refine .ite h.mendHw.cwrite ?_
  split
  · exact .ite h.mendHw.heartCount h.mendHw.heartCount.cwrite.miscorrected
  · exact h.mendHw.restoreLine

theorem tableLost {line} : WellKept (e.tableLost line) := .ite (.each h fun _ _ h => h.setDig) h

theorem unrepaired {line} : WellKept (e.unrepaired line) :=
  .ite h.tableLost (.raise (.tableLost (.frame (.ite h.wr.wr h.wr.wr.wr.wr))))

theorem mendRead {bads} : WellKept (e.mendRead bads) := by
  dsimp only [Eng.mendRead]
  exact .each h fun _ _ h => by split; exacts [h, h.barkCount.confirm, .ite h.restoreLine h]

theorem report {line c} : WellKept (e.report line c) := by
  refine .ite (.wr (.ite h.barkCount.frame h.barkCount)) ?_
  exact .confirm (.frame (.ite h.barkCount.frame h.barkCount))

/-! #### Mirrors -/

theorem sendMirror {r m off lines} : WellKept (e.sendMirror r m off lines) := .ite h (.each h.frame fun _ _ h =>
    h.send)

theorem mirrorNext {region copy} : WellKept (e.mirrorNext region copy) := by
  dsimp only [Eng.mirrorNext]
  split
  · exact .ite h.askRead (.each h.frame fun _ _ h => h.send)
  · exact h

theorem startCopy {r b ring} : WellKept (e.startCopy r b ring) := .ite h h.frame.mirrorNext

theorem tearCopy {m} : WellKept (e.tearCopy m) := .raise (.wr (.frame (.each h fun _ _ h => h.send)))

theorem mirrorReadDone {region copy x bads} : WellKept (e.mirrorReadDone region copy x bads) := by
  dsimp only [Eng.mirrorReadDone]
  split
  · refine .ite (.tearCopy (.each h.mendRead fun _ _ h => h.unrepaired)) ?_
    split
    · exact h.mendRead.sendMirror.frame.mirrorNext
    · exact h.mendRead.sendMirror
  · exact h

theorem mirrorTap {r a old} : WellKept (e.mirrorTap r a old) := by
  dsimp only [Eng.mirrorTap]
  exact .each h fun _ _ h => .ite h (.ite h.tearCopy (by split; exacts [h.frame.sendMirror, h.frame]))

theorem rxMirrorAck {p} : WellKept (e.rxMirrorAck p) := by
  dsimp only [Eng.rxMirrorAck]
  split
  · exact h.wr
  · exact h
  · exact .ite h (.frame (.ite h.wr (by split; exacts [h.frame, h])))

theorem mirrorAckTimeout {region copy dst} : WellKept (e.mirrorAckTimeout region copy dst) := by
  dsimp only [Eng.mirrorAckTimeout]
  split
  · exact h
  · exact .ite h.send.wr.frame h

theorem leafProds {r m row ring} : WellKept (e.leafProds r m row ring) := .each h fun _ _ h => .each h fun _ _ h =>
    .ite h.foldParity h.sendData

theorem sendProds {region} : WellKept (e.sendProds region) := by
  dsimp only [Eng.sendProds]
  split
  · refine .ite ?_ h
    split
    · exact h
    · exact .frame (.each h fun _ _ h => h.leafProds)
  · exact h

theorem rxProd {p} : WellKept (e.rxProd p) := by
  dsimp only [Eng.rxProd]
  split
  · exact h.wr
  · exact .ite h.wr (.ite h.send (.ite h.foldParity.frame.send h))

theorem rxProdAck {p} : WellKept (e.rxProdAck p) := .ite h.wr h.dropDests

theorem keepThree {src region} : WellKept (e.keepThree src region) := by
  dsimp only [Eng.keepThree]
  refine .ite h ?_
  split
  · exact h
  · exact h.frame

theorem checkCopy {r m} : WellKept (e.checkCopy r m) := by
  dsimp only [Eng.checkCopy]
  split
  · exact h.frame
  · exact .ite h.frame (.ite h.frame.keepThree.send.sendProds h.frame.send)

theorem rxMirrorData {p} : WellKept (e.rxMirrorData p) := by
  dsimp only [Eng.rxMirrorData]
  split
  · exact h.wr
  · exact .ite h h.checkCopy

theorem rxMirrorDone {p} : WellKept (e.rxMirrorDone p) := by
  dsimp only [Eng.rxMirrorDone]
  split
  · exact h.wr
  · exact .ite h.send h.checkCopy

theorem rxMirrorTorn {p} : WellKept (e.rxMirrorTorn p) := by
  dsimp only [Eng.rxMirrorTorn]
  split
  · exact h.wr
  · exact h.frame

theorem readCopy {n a b c d i} : WellKept (Eng.readCopy n a b c d i e).1 := by
  induction n generalizing e a b c d i with
  | zero => exact h
  | succ n ih =>
    dsimp only [Eng.readCopy]
    split
    · exact h
    · exact .iteFst (ih h.frame) h

theorem rxMirrorRead {p} : WellKept (e.rxMirrorRead p) := by
  unfold Eng.rxMirrorRead
  split
  · exact h.wr
  · dsimp only
    split
    · next heq => exact (fst_of_eq h.readCopy heq).send
    · next heq => exact (fst_of_eq h.readCopy heq).send

/-! #### Taps of local writes -/

theorem undoTap {a old} : WellKept (e.undoTap a old) := h.memWrite.markDirty.frame

theorem capture {r a delta} : WellKept (e.capture r a delta) := by
  dsimp only [Eng.capture]
  split
  · exact h.frame
  · exact .frame (.ite (by split; exacts [h.closeEntry, h]) h)

theorem measure {r a delta} : WellKept (e.measure r a delta) := .ite h h.frame

theorem tapEffect {t old} : WellKept (e.tapEffect t old) := by
  unfold Eng.tapEffect
  extract_lets a delta e₁
  have h₁ : WellKept e₁ := h.memWrite.touch.frame
  refine .ite h₁ ?_
  split
  · exact h₁
  · extract_lets e₂ e₃
    have h₂ : WellKept e₂ := .ite h₁.mirrorTap h₁
    have h₃ : WellKept e₃ := .ite h₂.measure h₂
    exact .ite h₃.capture h₃

omit h in
theorem tapCheck {t} : AllSome Keeps (e.tapCheck t) := by
  unfold Eng.tapCheck
  refine .ite .none (.ite (.some fun _ h => h.wr.wr.raise) (.ite .none ?_))
  split
  · exact .none
  · exact .ite (.some fun _ h => h.wr.wr.raise) (.ite (.some fun _ h => h.wr.wr.wr.raise) (.ite (.some fun _ h =>
        h.wr.wr.raise) .none))

theorem tapOldLost {t} : WellKept (e.tapOldLost t) := by
  have hw {a bs n} : WellKept (((e.memWrite a bs).markDirty a).freshLines a n) := h.memWrite.markDirty.frame
  have hdig {c c' : Prop} {_ : Decidable c} {_ : Decidable c'} {e₁ : Eng} {s l d} (h₁ : WellKept e₁) :
      WellKept (if c then (if c' then e₁.hwRecompute s else e₁).setDig l d else if c' then e₁.hwRecompute s else e₁) :=
    .ite (.setDig (.ite h₁.hwRecompute h₁)) (.ite h₁.hwRecompute h₁)
  refine .raise (.wr ?_)
  generalize hq : Eng.tapCheck _ t = q
  generalize Eng.rgnAt _ (64 * t.line) = r at hq ⊢
  cases r with
  | none =>
    cases q with
    | none => exact hdig hw
    | some f => exact tapCheck _ hq _ (hdig hw)
  | some r =>
    cases q with
    | none => exact .ite (hdig hw) (.stripeLost (hdig hw))
    | some f => exact tapCheck _ hq _ (.ite (hdig hw) (.stripeLost (hdig hw)))

theorem tapWith {t old} : WellKept (e.tapWith t old) := by
  unfold Eng.tapWith
  split
  · next hf => exact tapCheck _ hf _ h.undoTap
  · exact h.tapEffect

theorem acceptTap {t} : WellKept (e.acceptTap t) := by
  dsimp only [Eng.acceptTap]
  refine .ite h.memWrite.frame ?_
  refine .ite h.tapEffect ?_
  refine .ite h.memWrite.markDirty.noteWrote.frame ?_
  split
  · exact h.tapWith
  · exact h.tapOldLost

theorem retryTaps : WellKept e.retryTaps := .each h fun _ _ h => .ite h h.frame.acceptTap

/-! #### Sealing, commit and rollback -/

theorem advise {loop port wish f src} : WellKept (e.advise loop port wish f src) := .ite h.wr.wr.wr.wr.frame.raise
    h.wr.wr.wr.wr

theorem beginSwitch {a r ring} : WellKept (e.beginSwitch a r ring) := by
  dsimp only [Eng.beginSwitch]
  refine .ite ?_ ?_
  · split
    · exact h.frame.startCopy
    · exact h.frame
  · split
    · exact .each (.sendProds (.frame (.each h.frame fun _ _ h => h.store))) fun _ _ h => h.closeEntry
    · exact .sendProds (.frame (.each h.frame fun _ _ h => h.store))

theorem advDecide {ring region begun} : WellKept (e.advDecide ring region begun).1 := by
  dsimp only [Eng.advDecide]
  split
  · refine .iteFst h.frame ?_
    refine .iteFst h.frame ?_
    refine .iteFst ?_ h.frame.advise
    exact .iteFst h.beginSwitch h.frame
  · exact h

theorem dropCaps {sel} : WellKept (e.dropCaps sel) := by
  dsimp only [Eng.dropCaps]
  exact .frame (.each h fun _ _ h => by split; exacts [h.frame, h])

theorem dropUndecided {ring} : WellKept (e.dropUndecided ring) := h.dropCaps

theorem advisorSeal {ring} : WellKept (e.advisorSeal ring) := .dropUndecided (.foldlFst h fun _ _ h => h.advDecide)

theorem setClass {r cls} : WellKept (e.setClass r cls) := h.frame.spliceDescs

theorem dropRingDeltas {region} : WellKept (e.dropRingDeltas region) := h.dropCaps.frame

theorem classSwitch {ring} : WellKept (e.classSwitch ring) := by
  dsimp only [Eng.classSwitch]
  exact .each h fun _ _ h => by split; exacts [h, .ite h.frame.setClass.dropRingDeltas.frame h.frame.setClass.frame]

theorem dropSwitches {sel} : WellKept (e.dropSwitches sel) := .dropDests (.dropCaps (.each (.each h fun _ _ h =>
    h.frame) fun _ _ h => h.frame))

theorem sendVote {dst v} : WellKept (e.sendVote dst v) := .each h fun _ _ h => h.send

theorem endSeals {n status} : WellKept (e.endSeals n status) := .each h.frame fun _ _ h => h.completeRing

theorem groveSeal {n} : WellKept (e.groveSeal n) := h.frame.signal.raise.endSeals.advisorSeal

theorem compareVotes {n} : WellKept (e.compareVotes n) := by
  dsimp only [Eng.compareVotes]
  refine .ite h ?_
  split
  · exact h
  · exact .ite h.frame.raise.endSeals (.ite h.groveSeal h)

theorem sealLocally {n} : WellKept (e.sealLocally n) := by
  dsimp only [Eng.sealLocally]
  split
  · exact .compareVotes (.each h.frame.frame.frame fun _ _ h => h.sendVote)
  · exact h.frame.frame

theorem trySeal : WellKept e.trySeal := .each h fun _ _ h => .ite h.sealLocally h

theorem rxVote {p} : WellKept (e.rxVote p) := .ite h.wr (.ite h (.ite h h.frame.compareVotes))

theorem rxVoteReq {p} : WellKept (e.rxVoteReq p) := by
  dsimp only [Eng.rxVoteReq]
  refine .ite h.wr ?_
  split
  · exact h.sendVote
  · exact h

theorem askVotes {n} : WellKept (e.askVotes n) := .each h fun _ _ h => h.send

theorem sealTimeout {n} : WellKept (e.sealTimeout n) := by
  dsimp only [Eng.sealTimeout]
  split
  · exact h.askVotes.raise
  · exact h.raise
  · exact h.raise
  · exact h

theorem flushEndRing : WellKept e.flushEndRing := by
  dsimp only [Eng.flushEndRing]
  split
  · exact h
  · exact .trySeal (.retryTaps (.each h.closeRing.frame.openNext fun _ _ h => h.startCopy))

theorem ringOpen {cmd n} : WellKept (e.ringOpen cmd n) := .ite h.refuse
    h.frame.frame.wr.wr.openRing.completeRing.drainWaits

theorem ringSeal {cmd step seq} : WellKept (e.ringSeal cmd step seq) := .ite h.refuse (.ite h.reqLate h.frame)

theorem commitRings {cmd r} : WellKept (e.commitRings cmd r) := .each h fun _ _ h => h.commitOne.dropUndecided

theorem commitTo {cmd r} : WellKept (e.commitTo cmd r) := h.commitRings.openNext.issueApply.retryTaps

theorem ringCommit {cmd r} : WellKept (e.ringCommit cmd r) := .ite h.completeRing (.ite h.commitTo h.refuse)

theorem applyEnd : WellKept e.applyEnd := by
  unfold Eng.applyEnd
  split
  · exact h
  · refine .ite h ?_
    extract_lets e₁ next e₂ e₃ e₄ hs e₅ e₆ e₇
    have h₃ : WellKept e₃ := h.commitOwn.wr.wr.frame
    have h₄ : WellKept e₄ := by
      dsimp only [e₄]
      split <;> exact h₃.wr
    have h₆ : WellKept e₆ := h₄.frame.classSwitch.recApplied
    have h₇ : WellKept e₇ := by
      dsimp only [e₇]
      split
      · exact h₆.completeRing
      · exact h₆
    exact h₇.openNext.drainWaits.retryTaps.trySeal

theorem startRoll {cmd c n} : WellKept (e.startRoll cmd c n) := by
  unfold Eng.startRoll
  extract_lets after e₁ ends reqs e₂ e₃ e₄ caps e₅ ringed e₆ mine e₇ e₈ leaves lost mk fs none_ e₉ e₁₀
  have h₃ : WellKept e₃ := .each h.wr.wr.endStall.frame fun _ _ h => h.completeRing
  have h₆ : WellKept e₆ := .each h₃.retryTaps.frame fun _ _ h => by split; exacts [h.storeXor, h]
  have h₁₀ : WellKept e₁₀ := h₆.dropDests.dropSwitches.wr.askRanges.frame
  exact .rollStep (.each h₁₀ fun _ _ h => h.rollGap)

theorem ringRollback {cmd c n} : WellKept (e.ringRollback cmd c n) := by
  refine .ite h.refuse ?_
  exact .ite h.frame.completeRing (.ite h.startRoll (.ite h.commitRings.startRoll.issueApply h.refuse))

theorem rxRollFetch {p} : WellKept (e.rxRollFetch p) := by
  dsimp only [Eng.rxRollFetch]
  split
  · exact h.wr
  · refine .ite h.wr ?_
    refine .ite (.send (.ite h h.frame)) ?_
    refine .ite (.send (.ite h h.frame)) ?_
    refine .ite (.send (.ite h h.frame)) ?_
    split
    · exact .send (.ite h h.frame)
    · exact .ite (.send (.ite h h.frame)) (.send (.each (.ite h h.frame) fun _ _ h => h.send))

theorem rxRollData {p} : WellKept (e.rxRollData p) := by
  dsimp only [Eng.rxRollData]
  split
  · exact h.wr
  · exact h.frame

theorem rxRollEnd {p} : WellKept (e.rxRollEnd p) := by
  dsimp only [Eng.rxRollEnd]
  split
  · exact h.wr
  · exact .ite h h.frame.rollStep

theorem rxRollNone {p} : WellKept (e.rxRollNone p) := by
  dsimp only [Eng.rxRollNone]
  split
  · exact h.wr
  · exact h.refetch.rollStep

theorem rollTimeout {region row ring} : WellKept (e.rollTimeout region row ring) := by
  dsimp only [Eng.rollTimeout]
  split
  · exact h
  · split
    · exact h
    · exact h.frame.send

theorem ringLoss {x} : WellKept (e.ringLoss x) := by
  dsimp only [Eng.ringLoss]
  exact .trySeal (.dropSwitches (by split; exacts [.rollStep (.each h fun _ _ h => h.refetch), h]))

/-! #### Anchors -/

theorem ancView : WellKept e.ancView := by
  dsimp only [Eng.ancView]
  split <;> exact h.wr.wr

theorem releaseWhere {stays} : WellKept (e.releaseWhere stays) := .each h.frame fun _ _ h => h.frame

theorem releaseHeld : WellKept e.releaseHeld := h.releaseWhere

theorem abortAnchor {status addr} : WellKept (e.abortAnchor status addr) := by
  dsimp only [Eng.abortAnchor]
  split
  · exact h
  · exact h.frame.frame.wr.raise.wr.ancView.completeWith.releaseHeld

theorem dueFlags : WellKept e.dueFlags := h.wr.wr.wr

theorem dueReason {i} : WellKept (e.dueReason i) := .ite h.frame.wr.raise h

theorem dueCheck : WellKept e.dueCheck := .each h.dueFlags fun _ _ h => h.dueReason

theorem anchorDone {a} : WellKept (e.anchorDone a) := by
  unfold Eng.anchorDone
  exact h.frame.wr.wr.wr.dueCheck.ancView.complete

theorem readLeaf {leaf} : WellKept (e.readLeaf leaf) := h.frame.askRead

theorem readUrgent : WellKept e.readUrgent := by
  dsimp only [Eng.readUrgent]
  split
  · exact h
  · exact .each h fun _ _ h => by split; exacts [.ite h (.ite h.readLeaf (.ite h h.frame.wr)), h]

theorem makeUrgent {leaf} : WellKept (e.makeUrgent leaf) := by
  dsimp only [Eng.makeUrgent]
  split
  · exact .ite h.frame.frame.readUrgent h.frame
  · exact h.frame

theorem writePart {off bs} : WellKept (e.writePart off bs) := by
  dsimp only [Eng.writePart]
  split
  · exact h.frame.frame
  · exact h.frame

theorem anchorNext {n} : WellKept (Eng.anchorNext n e) := by
  induction n generalizing e with
  | zero => exact h
  | succ n ih =>
    dsimp only [Eng.anchorNext]
    split
    · exact h
    · refine .ite h ?_
      split
      · exact h.abortAnchor
      · split
        · exact h.writePart
        · split
          · exact h.writePart
          · refine .ite (ih h.frame) ?_
            refine .ite h ?_
            split
            · exact h.readLeaf
            · exact h
        · exact .ite (ih h.frame) h.writePart.wr
        · exact .ite h.writePart.wr h.wr
        · exact h.writePart

theorem anchorStep : WellKept e.anchorStep := h.readUrgent.anchorNext.readUrgent.ancView

theorem anchorCut : WellKept e.anchorCut := by
  dsimp only [Eng.anchorCut]
  split
  · exact h
  · exact .ite h h.frame.wr.anchorStep

theorem anchorReadDone {leaf bads} : WellKept (e.anchorReadDone leaf bads) := by
  dsimp only [Eng.anchorReadDone]
  split
  · split
    · exact .abortAnchor (.each h.mendRead fun _ _ h => h.unrepaired)
    · exact .releaseHeld (.anchorStep (.ite h.mendRead.frame.wr h.mendRead.frame))
  · exact h

theorem storageDone {ok} : WellKept (e.storageDone ok) := by
  dsimp only [Eng.storageDone]
  split
  · exact h
  · split
    · exact h
    · refine .ite (.ite h h.abortAnchor) ?_
      split
      · exact h.frame.anchorDone
      · exact h.frame.anchorStep

theorem storageRetry : WellKept e.storageRetry := by
  dsimp only [Eng.storageRetry]
  split
  · exact h
  · split
    · exact h
    · exact .ite h h.frame.wr.frame

/-! #### Region descriptors -/

theorem rgnCheckFail {reason n} : WellKept (e.rgnCheckFail reason n) := .ite h h.wr.wr.wr

theorem makeValid {n} : WellKept (e.makeValid n) := by
  dsimp only [Eng.makeValid]
  split
  · exact h.rgnCheckFail
  · exact h.spliceDescs.frame

theorem makeInvalid {n} : WellKept (e.makeInvalid n) := h.spliceDescs.frame

theorem descWrite {n o bs} : WellKept (e.descWrite n o bs) := by
  unfold Eng.descWrite
  refine .ite h.wr ?_
  extract_lets at_ e₁ body ctl valid old e₂
  have h₁ : WellKept e₁ := .onlyIf h (·.wr)
  have h₂ : WellKept e₂ := .ite (.onlyIf h₁ (·.rgnCheckFail)) h₁.spliceDescs
  clear_value ctl
  split
  · exact h₂
  · exact .ite h₂ h₂.makeValid
  · exact .ite h₂.makeInvalid h₂

/-! #### Intake and runs -/

theorem writeField {b keepOld old} : WellKept (e.writeField b keepOld old).1 := by
  dsimp only [Eng.writeField]
  split
  · exact h
  · exact .foldl h fun _ _ h => h.store

theorem writeFields {bs keepOld old} : WellKept (e.writeFields bs keepOld old).1 := .foldlFst h fun _ _ h =>
    h.writeField

/-! #### Update runs in parts -/

theorem sliceFull {s} : WellKept (e.sliceFull s) := by
  dsimp only [Eng.sliceFull]
  split
  · exact h
  · exact h.frame.keepDelivered
  · exact h.frame.logOut.noteLogged

theorem takeIn {c} : WellKept (e.takeIn c) := .ite h.frame.sliceFull h.frame

theorem screen {c} : WellKept (e.screen c).1 := .iteFst h.wr (.iteFst h.wr.raise (.iteFst h.wr.raise h))

theorem intakeBad : WellKept e.intakeBad := h.wr.raise

theorem tryIntake {hdr payload} : AllSome WellKept (e.tryIntake hdr payload) := by
  unfold Eng.tryIntake
  refine .ite (.some h.intakeBad) (.ite (.some h.wr) (.ite (.some h.wr) (.ite (.some h.wr.raise) ?_)))
  split
  · exact .some h.intakeBad
  · refine .ite (.some (.each h fun _ _ h => ?_)) .none
    split
    · next heq => exact (fst_of_eq h.screen heq).takeIn
    · next heq => exact fst_of_eq h.screen heq

theorem countIntake : WellKept e.countIntake := .ite h h.wr.frame

theorem retryIntake : WellKept e.retryIntake := by
  refine .ite h (.each h.countIntake fun _ _ h => ?_)
  split
  · exact h
  · next he => exact (h.tryIntake _ he).frame

theorem intake {hdr payload} : WellKept (e.intake hdr payload) := by
  refine .ite h (.ite h.frame ?_)
  split
  · next he => exact h.tryIntake _ he
  · exact h.frame

theorem urgeBlocked {u} : WellKept (e.urgeBlocked u) := by
  dsimp only [Eng.urgeBlocked]
  refine .ite h ?_
  exact .each h fun _ _ h => by split; exacts [.ite (.frame (.ite h.makeUrgent h)) (.ite h.makeUrgent h), h]

theorem issueRun {n a} : WellKept (Eng.issueRun n a e) := by
  induction n generalizing e a with
  | zero => exact h
  | succ n ih =>
    dsimp only [Eng.issueRun]
    split
    · exact h
    · refine .ite h ?_
      split
      · exact ih h.frame.frame
      · exact h

theorem noteSectors {u} : WellKept (e.noteSectors u).1 := .foldlFst h fun _ _ h => .iteFst h (.iteFst h.setCtx h)

theorem releaseAt {n a} : WellKept (Eng.releaseAt n a e) := by
  induction n generalizing e a with
  | zero => exact h
  | succ n ih =>
    dsimp only [Eng.releaseAt]
    split
    · exact h
    · split
      · exact h
      · split
        · exact ih h.frame.sendStream
        · exact ih h.frame

theorem releaseDeltas : WellKept e.releaseDeltas := .frame (.each h fun _ _ h => h.releaseAt)

theorem beginLeaves {u ls writing} : WellKept (e.beginLeaves u ls writing).1 := .foldlFst h fun _ _ h => .iteFst h
    (.ite h.setCtx.copyDig h.setCtx)

theorem storeOut {u s key vals keepOld} : WellKept (e.storeOut u s key vals keepOld).1 := h.writeFields.wr.wr

theorem askTierFor {u outs} : WellKept (e.askTierFor u outs) := .each h fun _ _ h => .each h fun _ _ h => h.askTier

theorem freeSlices {u} : WellKept (e.freeSlices u) := by
  dsimp only [Eng.freeSlices]
  split
  · exact h
  · exact h.frame.retryIntake

theorem endRun {u status elems addr} : WellKept (e.endRun u status elems addr) := by
  dsimp only [Eng.endRun]
  split
  · exact h.frame.freeSlices.wr.wr.completeWith
  · exact h.frame.freeSlices.wr.wr

theorem runDone {u} : WellKept (e.runDone u) := .endRun (.ite h h.signal)

theorem startLogging {u} : WellKept (e.startLogging u) := .ite (.ite h.frame.frame.frame h.frame.frame.frame.logOut)
    h.frame

theorem endPassOne {u} : WellKept (e.endPassOne u) := by
  dsimp only [Eng.endPassOne]
  refine .ite ?_ ?_
  · split
    · exact .complete (.frame (.askTierFor (.foldlFst h fun _ _ h => h.beginLeaves.storeOut)))
    · exact .frame (.askTierFor (.foldlFst h fun _ _ h => h.beginLeaves.storeOut))
  · exact .startLogging (.askTierFor (.foldlFst h fun _ _ h => h.beginLeaves.storeOut))

theorem endWriting {u} : WellKept (e.endWriting u) := by
  unfold Eng.endWriting
  extract_lets us late lanes
  split
  next heq =>
    have hl := fst_of_eq (foldlFst (p := (e, _)) h fun _ _ h => h.beginLeaves.storeOut) heq
    split
    next heq => exact (fst_of_eq hl.noteSectors heq).frame.releaseDeltas.askTierFor

theorem runPart {u} : AllSome WellKept (e.runPart u) := by
  dsimp only [Eng.runPart]
  split
  · refine .ite (.some h.startLogging) ?_
    refine .ite ?_ .none
    exact .some h.endPassOne
  · refine .ite ?_ .none
    exact .some h.frame
  · refine .ite ?_ .none
    exact .some h.endWriting
  · exact .ite .none (.some h.runDone)
  · exact .none

theorem runGo {n a} : WellKept (Eng.runGo n a e) := by
  induction n generalizing e with
  | zero => exact h
  | succ n ih =>
    rw [Eng.runGo]
    split
    · exact h
    · refine .ite h ?_
      split
      · next he => exact ih (h.runPart _ he)
      · exact h.urgeBlocked.issueRun

theorem noteWaits : WellKept e.noteWaits := h.wr.wr.frame

theorem pumpRuns : WellKept e.pumpRuns := .ite h (.noteWaits (.releaseDeltas (.each h fun _ _ h => h.runGo)))

theorem chunkDone {x c k} : WellKept (e.chunkDone x c k) := by
  unfold Eng.chunkDone
  split
  · exact h
  · extract_lets u' us lanes used outs e0
    refine .ite h ?_
    split
    · exact h.frame.endRun.pumpRuns
    · refine .ite h.frame.pumpRuns ?_
      split
      next heq =>
        have hl := fst_of_eq (foldlFst (p := (e, _)) h fun _ _ h => .iteFst h h.beginLeaves.storeOut) heq
        split
        next heq => exact (fst_of_eq hl.noteSectors heq).frame.pumpRuns

theorem dropCluster {k} : WellKept (e.dropCluster k) := h.frame.pumpRuns

theorem refuseRun {cmd code step} : WellKept (e.refuseRun cmd code step) := h.refuse

theorem resumeRun {cmd d} : WellKept (e.resumeRun cmd d) := by
  dsimp only [Eng.resumeRun]
  split
  · exact h.refuseRun
  · exact .ite h.refuseRun (.ite h.frame.endRun.pumpRuns h.startLogging.pumpRuns)

theorem updateRun {cmd addr} : WellKept (e.updateRun cmd addr) := by
  dsimp only [Eng.updateRun]
  split
  · exact h.refuseRun
  · refine .ite h.refuseRun ?_
    refine .ite h.resumeRun ?_
    split
    · exact h.refuseRun
    · exact h.frame.wr.frame.pumpRuns

/-! #### Reconstruction -/

theorem beyondCode {region row} : WellKept (e.beyondCode region row) := .ite h (.raise (.wr (.frame (.ite h.wr.wr
    h))))

theorem grantTo {p n} : WellKept (e.grantTo p n) := .ite h h.frame.send

theorem grantUpTo {p want} : WellKept (e.grantUpTo p want).1 := h.grantTo

theorem accNote {d a} : WellKept (e.accNote d a) := by
  dsimp only [Eng.accNote]
  split <;> exact h.frame

theorem accGrant {x} : WellKept (e.accGrant x) := by
  dsimp only [Eng.accGrant]
  split
  · exact h.grantUpTo.accNote
  · exact h

theorem grantCredits : WellKept e.grantCredits := .each h fun _ _ h => h.accGrant

theorem noteAnswered {c} : WellKept (e.noteAnswered c) := .ite h h.frame

theorem takeSnap {r c} : WellKept (e.takeSnap r c) := by
  unfold Eng.takeSnap
  refine .ite h ?_
  extract_lets fl leaf e₁ q cut e₂ e₃
  have h₁ : WellKept e₁ := .each h fun _ _ h => h.closeEntry
  have h₂ : WellKept e₂ := .ite h₁.send (.each h₁ fun _ _ h => h.send)
  exact .onlyIf h₂.frame (·.frame)

theorem reconGot {id sector d} : WellKept (e.reconGot id sector d) := by
  dsimp only [Eng.reconGot]
  split
  · exact .ite h.frame h
  · exact h

theorem passOn {c n sector d} : WellKept (e.passOn c n sector d).1 := by
  dsimp only [Eng.passOn]
  refine .iteFst ?_ ?_
  · refine .iteFst h.reconGot ?_
    split
    · exact h.frame
    · exact h
  · split
    · exact h.frame.send
    · exact h

theorem chainSector {coll id n sector} : WellKept (e.chainSector coll id n sector) := by
  have hgo {c c' : Prop} {_ : Decidable c} {_ : Decidable c'} {r x} :
      WellKept (if c' then (if c then e.takeSnap r x else e).noteAnswered x else if c then e.takeSnap r x else e) :=
    .onlyIf (.onlyIf h (·.takeSnap)) (·.noteAnswered)
  dsimp only [Eng.chainSector]
  split
  · exact h
  · split
    · exact h
    · split
      · exact h
      · refine .ite h (.onlyIf (.passOn (.frame hgo)) fun h => ?_)
        split
        · exact h.frame
        · exact h

theorem chainFails {c t} : WellKept (e.chainFails c t) := by
  dsimp only [Eng.chainFails]
  refine .ite ?_ h.frame.send
  split
  · exact h.frame.frame
  · exact h.frame

theorem chainGo {coll id} : WellKept (e.chainGo coll id) := by
  dsimp only [Eng.chainGo]
  split
  · exact h
  · split
    · exact h
    · split
      · exact h.chainFails
      · exact .each h fun _ _ h => .each h fun _ _ h => h.chainSector

theorem accView : WellKept e.accView := h.wr.wr

theorem pumpChains : WellKept e.pumpChains := .accView (.grantCredits (.each h fun _ _ h => h.chainGo))

theorem takeRequest {c} : WellKept (e.takeRequest c) := .ite (.each h.frame fun _ _ h => h.closeEntry) h.frame

theorem sendRequests {c} : WellKept (e.sendRequests c) := .each h fun _ _ h => .ite h.takeRequest h.send

theorem jobDone {coll id status} : WellKept (e.jobDone coll id status) := .ite h.frame.frame (.ite h.frame.frame
    h.frame)

theorem endAt {ps id status} : WellKept (e.endAt ps id status) := .each h fun _ _ h => .ite h.jobDone h.send

theorem endChain {c status} : WellKept (e.endChain c status) := h.endAt

theorem addRecon {region row first count lost thick prio why} : WellKept (e.addRecon region row first count lost thick
    prio why) := .ite h h.frame

theorem askRecon {c} : WellKept (e.askRecon c).1 := by
  dsimp only [Eng.askRecon]
  split
  · exact h
  · split
    · exact h
    · refine .iteFst h ?_
      refine .iteFst h ?_
      exact .sendRequests (.frame (.ite h.endAt h))

theorem chunkTimeout {id} : WellKept (e.chunkTimeout id) := by
  dsimp only [Eng.chunkTimeout]
  split
  · exact h
  · exact .ite h.frame.sendRequests h

theorem rxRbReq {p} : WellKept (e.rxRbReq p) := by
  dsimp only [Eng.rxRbReq]
  split
  · exact h.wr
  · exact .ite h.wr h.takeRequest

theorem settleOwed {p} : WellKept (e.settleOwed p) := by
  dsimp only [Eng.settleOwed]
  refine .ite ?_ h
  split
  · exact h.accNote
  · exact h

theorem rxRbPart {p} : WellKept (e.rxRbPart p) := by
  dsimp only [Eng.rxRbPart]
  split
  · exact .settleOwed (.accNote (.ite h.frame h.frame.frame))
  · split
    · exact h.frame.reconGot.accNote.settleOwed
    · exact h.frame.settleOwed

theorem giveUpRow {region row thick} : WellKept (e.giveUpRow region row thick) := by
  dsimp only [Eng.giveUpRow]
  split
  · exact h.frame.endAt
  · exact h.frame

theorem memberDone {p} : WellKept (e.memberDone p) := h.jobDone

theorem memberBad {p} : WellKept (e.memberBad p) := by
  dsimp only [Eng.memberBad]
  split
  · exact h
  · exact h.frame

theorem accFallback {id} : WellKept (e.accFallback id) := by
  dsimp only [Eng.accFallback]
  split
  · exact h
  · split
    · exact h
    · exact .ite h (.accView (.accNote (.grantTo (.ite h.wr h.wr.frame.raise))))

theorem sendMirrorRead {q} : WellKept (e.sendMirrorRead q) := h.send

theorem newMirrorReq {r row sector whose} : WellKept (e.newMirrorReq r row sector whose) := .ite h h.frame

theorem mirrorRetry {id} : WellKept (e.mirrorRetry id) := by
  dsimp only [Eng.mirrorRetry]
  split
  · exact h.sendMirrorRead
  · exact h

/-! #### Repair, scrubs and degraded reads -/

theorem startRepair {n} : WellKept (e.startRepair n) := by
  dsimp only [Eng.startRepair]
  split
  · exact h
  · exact .addRecon (.each h fun _ _ h => h.closeEntry)

theorem answerRef {f ok data} : WellKept (e.answerRef f ok data) := .ite h h.frame

theorem answerRefs {n d} : WellKept (e.answerRefs n d) := by
  dsimp only [Eng.answerRefs]
  exact .each h.frame fun _ _ h => by split; exacts [h.answerRef, h.answerRef.unrepaired]

theorem landTaps {n d} : WellKept (e.landTaps n d) := by
  dsimp only [Eng.landTaps]
  exact .each h.frame fun _ _ h => by split; exacts [h.tapWith, h.tapOldLost]

theorem repairDone {c d} : WellKept (e.repairDone c d) := by
  have hcopy {ls : List Nat} {f : Nat → Eng → Eng} {n} (hf : ∀ l, Keeps (f l)) : WellKept ((e.mendHw n).each ls f) :=
    .each h.mendHw hf
  dsimp only [Eng.repairDone]
  split
  · exact h
  · exact .frame (.landTaps (.answerRefs (.ite h (.wr (.unless (hcopy fun _ _ h => h.cwrite) (·.frame.memWrite))))))

theorem repairFailed {c} : WellKept (e.repairFailed c) := by
  dsimp only [Eng.repairFailed]
  split
  · exact h
  · exact .frame (.each (.landTaps (.answerRefs (.ite h.wr.raise.setCtx h.wr.raise))) fun _ _ h => h.unrepaired)

theorem referredRead {port id line bad} : WellKept (e.referredRead port id line bad) := .ite h.answerRef (.ite
    h.restoreLine.answerRef (.ite h.frame.startRepair h.answerRef.unrepaired))

theorem referralLimit {port id} : WellKept (e.referralLimit port id) := by
  dsimp only [Eng.referralLimit]
  split
  · exact h
  · exact h.frame.frame

theorem scrubWrite {x line bs} : WellKept (e.scrubWrite x line bs) := .ite h h.cwrite

theorem scrubHeart {x mine} : WellKept (e.scrubHeart x mine).1 := .each (.each h fun _ _ h => h.barkCount.scrubWrite)
    fun _ _ h => .ite h h.hwRecompute

theorem scrubDead {x n mine} : WellKept (e.scrubDead x n mine).1 := .iteFst h.startRepair (.each h fun _ _ h =>
    h.unrepaired)

theorem scrubCheck {x n} : WellKept (e.scrubCheck x n).1 := by
  dsimp only [Eng.scrubCheck]
  split
  · split
    · exact h
    · exact h.barkCount.scrubWrite
    · exact .ite h h.hwRecompute
  · exact .ite h h.mendHw

theorem scrubSector {x n} : WellKept (e.scrubSector x n).1 := by
  have hcor {ls : List LineRead} {x n} : WellKept ((e.each ls (fun b e => e.barkCount b.line.toNat)).scrubCheck x n).1 :=
    .scrubCheck (.each h fun _ _ h => h.barkCount)
  dsimp only [Eng.scrubSector]
  refine .iteFst h ?_
  refine .iteFst h.scrubHeart ?_
  split
  · refine .iteFst (.each hcor fun _ _ h => h.scrubWrite) ?_
    split
    · exact hcor.scrubDead
    · exact .each (.unless (.heartCount (.each hcor fun _ _ h => h.miscorrected)) (·.scrubWrite)) fun _ _ h =>
        h.scrubWrite
  · exact .scrubWrite (.each hcor.heartCount fun _ _ h => h.scrubWrite)
  · exact hcor.scrubDead

theorem scrubGo {n a} : WellKept (Eng.scrubGo n a e) := by
  induction n generalizing e a with
  | zero => exact h
  | succ n ih =>
    dsimp only [Eng.scrubGo]
    split
    · exact h
    · exact .ite h (.ite h.frame.complete (ih h.scrubSector.frame))

theorem pumpScrubs : WellKept e.pumpScrubs := .each h fun _ _ h => h.scrubGo

theorem startScrub {cmd base len flags bads} : WellKept (e.startScrub cmd base len flags bads) := .ite h.refuse
    h.frame.pumpScrubs

theorem keyMiss {region requester} : WellKept (e.keyMiss region requester) := h.wr.wr.wr.wr.raise

theorem drServe {data} : WellKept (e.drServe data) := h.wr.frame

theorem drGot {x region row sector d} : WellKept (e.drGot x region row sector d) := by
  dsimp only [Eng.drGot]
  split
  · exact h
  · exact .each h.frame.frame fun _ _ h => h.drServe

theorem drFail {x a} : WellKept (e.drFail x a) := .each h.frame fun _ _ h => h.wr.frame

theorem frontLoad {x r off len} : WellKept (e.frontLoad x r off len) := by
  dsimp only [Eng.frontLoad]
  split
  · exact h.drServe
  · exact .ite h.frame.newMirrorReq h.frame.addRecon

theorem degradedRead {store off len key requester} : WellKept (e.degradedRead store off len key requester) := by
  unfold Eng.degradedRead
  extract_lets e₁ rgn e₂
  have h₁ : WellKept e₁ := .onlyIf h (·.wr)
  have h₂ : WellKept e₂ := .onlyIf h₁ (·.wr)
  clear_value rgn
  refine .ite h₁.frame ?_
  split
  · exact h₂.keyMiss.frame
  · refine .ite h₂.keyMiss.frame (.ite h₂.frame ?_)
    split
    · exact h₂.frame
    · exact h₂.frontLoad

theorem drTimeout {off} : WellKept (e.drTimeout off) := .each h.frame fun _ _ h => h.wr.frame

theorem drEnd {x} : WellKept (e.drEnd x) := .each (.frame (.each h fun _ _ h => h.endChain)) fun _ _ h => h.frame

/-! #### Encoding -/

theorem encodeLeaves {r step ring} : WellKept (e.encodeLeaves r step ring) := .each h fun _ _ h => .ite h.setCtx
    (.recomputeDig (.ite h.setCtx.frame h.setCtx))

theorem unlagAll {r} : WellKept (e.unlagAll r) := .each h fun _ _ h => h.unlag

theorem setCommitted {ring} : WellKept (e.setCommitted ring) := h.wr.wr

theorem copyMirrors {rs step ring} : WellKept (e.copyMirrors rs step ring) := .each h fun _ _ h => h.startCopy

theorem encodeDone {c} : WellKept (e.encodeDone c) := by
  dsimp only [Eng.encodeDone]
  split
  · exact h.frame.wr.complete
  · exact h.frame.wr.frame.complete
  · exact h.frame.wr.frame.complete.copyMirrors

theorem encodeFailed {region row} : WellKept (e.encodeFailed region row) := by
  dsimp only [Eng.encodeFailed]
  split
  · exact h
  · exact h.frame.wr.complete

theorem encodeNext {c} : WellKept (e.encodeNext c) := by
  dsimp only [Eng.encodeNext]
  split
  · exact h.encodeDone
  · exact h.addRecon

theorem encodeChunk {rc} : WellKept (e.encodeChunk rc) := by
  dsimp only [Eng.encodeChunk]
  split
  · exact .encodeNext (.wr (.frame (.ite (.setCtx (.each h fun _ _ h => h.store)) (.each h fun _ _ h => h.store))))
  · exact h

theorem startEncode {cmd why rs step ring} : WellKept (e.startEncode cmd why rs step ring) := by
  unfold Eng.startEncode
  extract_lets rs e₁ e₂
  have h₁ : WellKept e₁ := .each h fun _ _ h => h.frame.unlagAll.encodeLeaves
  have h₂ : WellKept e₂ := .onlyIf h₁ (·.setCommitted)
  exact h₂.wr.frame.wr.frame.wr.encodeNext

theorem reLeaf {cmd region step ring} : WellKept (e.reLeaf cmd region step ring) := .ite h.refuse h.startEncode

/-! #### Digests -/

theorem tensorDigest {cmd addr} : WellKept (e.tensorDigest cmd addr) := by
  dsimp only [Eng.tensorDigest]
  refine .ite h.refuse ?_
  split
  · exact h.refuse
  · refine .ite h.refuse ?_
    refine .ite ?_ h.frame
    exact .complete (.store (.each h fun _ _ h => h.needDig))

theorem hashDone {x} : WellKept (e.hashDone x) := by
  dsimp only [Eng.hashDone]
  split
  · exact h.frame.complete
  · exact h.frame.store.complete.releaseHeld

theorem hashNext {cmd} : WellKept (e.hashNext cmd) := by
  dsimp only [Eng.hashNext]
  split
  · exact h
  · refine .ite h ?_
    split
    · exact h.hashDone
    · exact h.frame.askRead

theorem hashReadDone {cmd leaf bads} : WellKept (e.hashReadDone cmd leaf bads) := by
  dsimp only [Eng.hashReadDone]
  split
  · split
    · exact .releaseHeld (.completeWith (.frame (.each h.mendRead fun _ _ h => h.unrepaired)))
    · exact h.mendRead.frame.releaseHeld.hashNext
  · exact h.mendRead

theorem digestAt {r row t} : WellKept (e.digestAt r row t).1 := .iteFst h.needDig (.iteFst h h.frame)

theorem regionDigest {r t} : WellKept (e.regionDigest r t).1 := by
  unfold Eng.regionDigest
  split
  next e' bs heq =>
    show WellKept e'
    refine fst_of_eq ?_ heq
    refine foldlFst_of_eq h fun p row q hq h => ?_
    split at hq
    next heq =>
      subst hq
      exact fst_of_eq h.digestAt heq

theorem weightDigestAt {t} : WellKept (e.weightDigestAt t).1 := by
  unfold Eng.weightDigestAt
  exact .foldlFst h fun _ _ h => h.regionDigest

theorem weightDigest : WellKept e.weightDigest := by
  dsimp only [Eng.weightDigest]
  split
  · exact h
  · exact .ite h h.weightDigestAt.frame.finishReady.pumpRuns.anchorStep

/-! #### Restore and adoption -/

theorem anchorLate : WellKept e.anchorLate := by
  dsimp only [Eng.anchorLate]
  split
  · exact h
  · exact h.frame.ancView.wr.complete

theorem anchorWrite {cmd addr} : WellKept (e.anchorWrite cmd addr) := by
  dsimp only [Eng.anchorWrite]
  split
  · exact h.refuse
  · split
    · exact h.refuse
    · refine .ite h.refuse ?_
      refine .ite ?_ ?_
      · split
        · exact .ite h.abortAnchor.complete h.refuse
        · exact h.refuse
      · refine .ite h.refuse ?_
        exact .ite h.complete (.ite h.frame.complete (.ite h.frame.complete h.frame.frame.wr))

theorem anchorRestore {cmd addr} : WellKept (e.anchorRestore cmd addr) := by
  -- unfolded by `delta`: the equation that `unfold` uses is too deep for the kernel to compare
  generalize hf : Eng.anchorRestore = f
  delta Eng.anchorRestore at hf
  subst hf
  beta_reduce
  split
  · exact h.refuse
  · extract_lets step e₁ x
    have h₁ : WellKept e₁ := h.wr
    exact .ite h.refuse (.ite h₁.complete (.ite h₁.complete h₁.frame.frame))

theorem restoreFails {x status} : WellKept (e.restoreFails x status) := h.frame.wr.complete

theorem undefine {a n} : WellKept (e.undefine a n) := .each h fun _ _ h => h.frame.store

theorem restoreDigest {x} : WellKept (e.restoreDigest x) := .restoreFails (.wr (.each h fun _ _ h => h.undefine))

theorem restoreDiff {x} : WellKept (e.restoreDiff x) := .ite h.wr.raise h

theorem restoreDiscards : WellKept e.restoreDiscards := .frame (.each h fun _ _ h => h.frame.unlagAll)

theorem restoreEnd {x rest} : WellKept (e.restoreEnd x rest) := .ite h.restoreDigest
    h.frame.setCommitted.frame.startEncode

theorem restoreNext {x} : WellKept (e.restoreNext x) := .ite h.frame.frame (.ite h.restoreEnd h.frame.frame)

theorem restoreRecord {x key rec} : WellKept (e.restoreRecord x key rec) := by
  dsimp only [Eng.restoreRecord]
  split
  · exact h.authFail.restoreDigest
  · exact .ite h.restoreDigest (.restoreNext (.wr (by split; exacts [h.store, h])))

theorem restoreRead {data} : WellKept (e.restoreRead data) := by
  dsimp only [Eng.restoreRead]
  split
  · exact h
  · split
    · exact h.restoreFails
    · exact h.restoreFails
    · split
      · exact .ite h.restoreFails (.ite h.restoreFails h.frame.frame)
      · exact .ite h.restoreFails (.ite h.authFail.restoreFails (.ite h.restoreFails h.frame.frame))
      · exact .ite h.restoreFails h.restoreDiff.restoreDiscards.wr.restoreNext
      · exact .ite h.restoreRecord h.frame.frame
      · exact h.restoreRecord
      · exact h.restoreEnd

theorem dataWrite {r i bs} : WellKept (e.dataWrite r i bs) := .each h fun _ _ h => h.store

theorem adoptEnd {cmd b r} : WellKept (e.adoptEnd cmd b r) := by
  unfold Eng.adoptEnd
  extract_lets f step ring result e₁ done es leaves e₂ checks res
  have h₁ : WellKept e₁ := h.frame
  have hdone : Keeps done := fun _ h => .unless h (·.frame)
  have h₂ : WellKept e₂ := .unless h₁ (·.wr.raise)
  refine .ite (hdone _ h₁).complete ?_
  exact .ite h₂.wr.complete (.ite h₂.startEncode (hdone _ h₂).complete.copyMirrors)

theorem adopt {cmd addr} : WellKept (e.adopt cmd addr) := by
  -- unfolded by `delta`: the equation that `unfold` uses is too deep for the kernel to compare
  generalize hf : Eng.adopt = f
  delta Eng.adopt at hf
  subst hf
  beta_reduce
  split
  · exact h.refuse
  · split
    · exact h.refuse
    · extract_lets step e₁ src len
      have h₁ : WellKept e₁ := h.wr
      refine .ite h.refuse (.ite h₁.complete (.ite h₁.complete ?_))
      split
      · exact h₁.completeWith
      · exact h₁.dataWrite.adoptEnd

/-! #### Grafts -/

theorem startRow {r row thick prio} : WellKept (e.startRow r row thick prio) := .addRecon (.ite h.frame.frame
    h.frame.frame.setCtx)

theorem freeRow {region row} : WellKept (e.freeRow region row) := h.frame.frame

theorem thickNote {region row status} : WellKept (e.thickNote region row status) := h.sendAll

theorem releaseRow {x} : WellKept (Eng.releaseRow x e) :=
  .ite h (.onlyIf (.wr (.thickNote (.frame (.unless h (·.giveUpRow))))) (·.freeRow))

theorem releaseRows {sel} : WellKept (e.releaseRows sel) := .each h fun _ _ h => h.releaseRow

theorem ownerGone {q x} : WellKept (e.ownerGone q x) := .ite h (.ite h.freeRow h.frame)

theorem rowBuilt {r b} : WellKept (e.rowBuilt r b) := .ite h.frame.wr.wr.thickNote.drainWaits
    h.frame.setCtx.drainWaits.releaseHeld.retryTaps

theorem rowChunk {c} : WellKept (e.rowChunk c) := by
  unfold Eng.rowChunk
  split
  · extract_lets e₁ b' e₂
    have h₂ : WellKept e₂ := .frame (.each h fun _ _ h => .ite h.frame h.store)
    exact .ite h₂.rowBuilt (.ite h₂ h₂.addRecon)
  · exact h

theorem rowFailed {c} : WellKept (e.rowFailed c) := by
  dsimp only [Eng.rowFailed]
  refine .ite h.releaseRows ?_
  split
  · exact h.giveUpRow.setCtx.releaseHeld.retryTaps
  · exact h

theorem rxSnapNote {p} : WellKept (e.rxSnapNote p) := by
  dsimp only [Eng.rxSnapNote]
  split
  · exact .ite h.wr (.ite h.frame (.ite h h.frame.frame))
  · exact h.wr

theorem rebuildHosted : WellKept e.rebuildHosted := by
  dsimp only [Eng.rebuildHosted]
  split
  · exact .ite h h.startRow
  · exact h

theorem regenerate : WellKept e.regenerate := by
  dsimp only [Eng.regenerate]
  refine .ite h ?_
  split
  · split
    · exact h.frame.startRow
    · exact h
  · exact h.rebuildHosted

theorem rollRows {c} : WellKept (e.rollRows c) := by
  dsimp only [Eng.rollRows]
  exact .releaseRows (.each h fun _ _ h => by split; exacts [.setCtx (.ite h.frame h.giveUpRow), h])

theorem announce {ph} : WellKept (e.announce ph) := h.wr.sendAll

theorem graftLeaves : WellKept e.graftLeaves := .each (.each h fun _ _ h => .each h fun _ _ h => h.setCtx)
    fun _ _ h => h.store.raise

theorem refuseGraft {reason} : WellKept (e.refuseGraft reason) := by
  unfold Eng.refuseGraft
  split
  · exact h
  · extract_lets e₁ data old e₂ e₃ e₄ e₅
    have h₃ : WellKept e₃ := h.announce.wr.frame.frame.noteGraftEdge
    have h₄ : WellKept e₄ := by dsimp only [e₄]; split; exacts [h₃.completeWith, h₃]
    have h₅ : WellKept e₅ := by dsimp only [e₅]; split; exacts [h₄.completeWith, h₄]
    exact h₅.releaseWhere

theorem urgent {leaf} : WellKept (e.urgent leaf) := by
  dsimp only [Eng.urgent]
  split
  · exact .ite h.frame h
  · exact h

theorem noteMissing {r} : WellKept (e.noteMissing r) := .frame (.ite h h.wr.raise)

theorem replayTarget {x} : WellKept (e.replayTarget x) := by
  dsimp only [Eng.replayTarget]
  split
  · exact h.wr
  · exact h

theorem noteGap {t} : WellKept (e.noteGap t) := .ite h h.wr.frame.raise

theorem planReplay {x r p} : WellKept (e.planReplay x r p) := by
  dsimp only [Eng.planReplay]
  split
  · exact h.frame.noteGap
  · exact h.frame

theorem startReplay {x r row c} : WellKept (e.startReplay x r row c) := h.frame.replayTarget.planReplay

theorem didSector {p t s fed a old} : WellKept (e.didSector p t s fed a old) := h.frame.frame

theorem beginReplayed {leaf t} : WellKept (e.beginReplayed leaf t) := .ite h h.setCtx.copyDig

theorem replaySector {x r p t s} : WellKept (Eng.replaySector x r p t s e).1 := by
  unfold Eng.replaySector
  split
  · split
    · exact h.frame
    · extract_lets u reads late a old new e₁
      have h₁ : WellKept e₁ := h.beginReplayed.didSector
      refine .iteFst ?_ ?_
      · exact .each h fun _ _ h => by split; exacts [h.urgent, h]
      · dsimp only
        exact h₁.store.sendStream
  · exact h.frame

theorem replayRun {n x r row} : WellKept (Eng.replayRun x r row n e) := by
  induction n generalizing e with
  | zero => exact h
  | succ n ih =>
    rw [Eng.replayRun]
    split
    · exact h
    · split
      · exact h
      · refine .ite h ?_
        split
        · next heq => exact fst_of_eq h.replaySector heq
        · next heq =>
          have hs := fst_of_eq h.replaySector heq
          exact ih (.ite hs hs.setCtx)

theorem enterPhase {ph} : WellKept (e.enterPhase ph) := by
  dsimp only [Eng.enterPhase]
  split
  · exact h
  · exact h.frame.announce

theorem resumeDone : WellKept e.resumeDone := by
  dsimp only [Eng.resumeDone]
  split
  · split
    · exact h.frame.complete
    · exact h
  · exact h

theorem graftDone : WellKept e.graftDone := by
  dsimp only [Eng.graftDone]
  split
  · exact h
  · exact .frame (.frame (by split; exacts [h.announce.wr.frame.noteGraftEdge.complete,
        h.announce.wr.frame.noteGraftEdge]))

theorem leafEnd {l st} : WellKept (e.leafEnd l st) := by
  dsimp only [Eng.leafEnd]
  exact .pumpRuns (.retryTaps (.releaseHeld (.wr (.each (.frame (by split; exacts [.ite h.setCtx h, h])) fun _ _ h =>
      h.frame))))

theorem leafReplayed {x r p} : WellKept (e.leafReplayed x r p) := .leafEnd (.ite h.noteMissing h)

theorem replayOn {p} : WellKept (e.replayOn p) := by
  dsimp only [Eng.replayOn]
  split
  · exact .ite h.replayRun h.replayRun.leafReplayed
  · exact h

theorem replayAll : WellKept e.replayAll := by
  dsimp only [Eng.replayAll]
  split
  · exact .each h fun _ _ h => h.replayOn
  · exact h

theorem dataLeafDone {g r row} : WellKept (e.dataLeafDone g r row) := by
  dsimp only [Eng.dataLeafDone]
  refine .ite ?_ h.setCtx.leafEnd
  split
  · split
    · exact .ite h.setCtx.frame.startReplay.leafReplayed h.setCtx.frame.startReplay
    · exact h.setCtx.frame.startReplay.leafEnd
  · exact h.leafEnd

theorem leafSectors {l secs next} : WellKept (e.leafSectors l secs next) := by
  dsimp only [Eng.leafSectors]
  split
  · refine .ite (.dataLeafDone (.frame (.each h fun _ _ h => h.store))) ?_
    exact .frame (.each h fun _ _ h => h.store)
  · exact h

theorem workLeaf {g l} : WellKept (e.workLeaf g l) := by
  dsimp only [Eng.workLeaf]
  split
  · exact h.leafEnd
  · refine .ite h.newMirrorReq ?_
    refine .ite ?_ ?_
    · split
      · exact h.startRow
      · exact .ite h.frame (.ite h.addRecon h)
    · exact .ite h h.addRecon

theorem graftStep : WellKept e.graftStep := by
  have hdone {ls} : WellKept (e.each ls (fun l e => e.leafEnd l 0)).replayAll := .replayAll (.each h fun _ _ h => h.leafEnd)
  dsimp only [Eng.graftStep]
  split
  · exact h
  · refine .ite h ?_
    split
    · exact hdone
    · split
      · exact hdone.frame.workLeaf
      · exact .ite hdone (.ite hdone.graftDone (.enterPhase (.onlyIf hdone (·.resumeDone))))

theorem setLostBit {x b} : WellKept (e.setLostBit x b) := h.wr.wr

theorem handOn {x} : WellKept (e.handOn x) := by
  unfold Eng.handOn
  extract_lets mine hs e₁ e₂ e₃
  have h₁ : WellKept e₁ := .each h fun _ _ h => .each h fun _ _ h => h.send
  have h₂ : WellKept e₂ := by
    dsimp only [e₂]
    split
    · exact .each h₁ fun _ _ h => h.send
    · exact h₁
  exact .sendCuts (.each h₂ fun _ _ h => h.send)

theorem beginsDone {x reason} : WellKept (e.beginsDone x reason) := .each h.frame fun _ _ h => .ite h.complete
    h.completeWith

theorem acceptJoin {p} : WellKept (e.acceptJoin p) := .ite h.frame.sendGen0
    h.wr.setLostBit.frame.frame.noteGraftEdge.sendGen0.beginsDone.handOn

theorem rxJoin {p} : WellKept (e.rxJoin p) := by
  dsimp only [Eng.rxJoin]
  split
  · exact .ite h.acceptJoin h.frame
  · exact .ite h.sendGen0 (.ite h.sendGen0.beginsDone h.sendGen0.noteGraftEdge.frame.beginsDone)

theorem takeRing : WellKept e.takeRing := .ite h.setCommitted.frame h

theorem welcomed : WellKept e.welcomed := by
  dsimp only [Eng.welcomed]
  split
  · exact h
  · refine .ite ?_ ?_
    · split
      · exact h.frame.complete
      · exact h
    · refine .ite (.enterPhase (.each h.takeRing.frame fun _ _ h => h.send)) ?_
      exact .each h.takeRing.frame fun _ _ h => h.send

theorem joinStep {was} : WellKept (e.joinStep was) := by
  dsimp only [Eng.joinStep]
  split
  · exact h
  · exact .ite h (.ite (.ite h.welcomed h) (.ite h.enterPhase h))

theorem joinLoss {y} : WellKept (e.joinLoss y) := by
  dsimp only [Eng.joinLoss]
  split
  · exact h
  · exact h.frame.joinStep

theorem rxWelcome {p} : WellKept (e.rxWelcome p) := by
  dsimp only [Eng.rxWelcome]
  split
  · exact h
  · exact .ite h.refuseGraft (.ite h h.frame.frame.joinStep)

theorem startGraft {cmd x standby} : WellKept (e.startGraft cmd x standby) := by
  unfold Eng.startGraft
  extract_lets ms g e₁ e₂ e₃ e₄
  have h₃ : WellKept e₃ := .unless h.frame.noteGraftEdge.wr.wr.wr (·.wr.graftLeaves.wr)
  have h₄ : WellKept e₄ := .each h₃ fun _ _ h => h.sendGen0
  exact .onlyIf h₄ (·.welcomed)

theorem answerCount {p} : WellKept (e.answerCount p) := by
  dsimp only [Eng.answerCount]
  split
  · exact .ite h.send h.sendGen0
  · exact h.sendGen0

theorem rxCount {p} : WellKept (e.rxCount p) := by
  dsimp only [Eng.rxCount]
  split
  · exact .ite h.answerCount (.ite h.refuseGraft h.frame.joinStep)
  · exact h.answerCount

theorem rxPhase {p} : WellKept (e.rxPhase p) := .ite h.noteGraftEdge.releaseRows.frame (.ite
    h.noteGraftEdge.setLostBit.closeSess.frame h.noteGraftEdge.frame)

theorem sendHeat : WellKept e.sendHeat := .each h fun _ _ h => .each h fun _ _ h => h.send

theorem rxLog {p} : WellKept (e.rxLog p) := by
  dsimp only [Eng.rxLog]
  split
  · exact h.keepLog
  · refine .ite h.keepLog ?_
    exact .each h.frame.replayTarget fun _ _ h => by split; exacts [h, .ite h.planReplay.setCtx h.planReplay]

theorem noteBehind {q} : WellKept (e.noteBehind q) := .ite h h.frame.raise

theorem mirrorGot {q d} : WellKept (e.mirrorGot q d) := .ite h.frame.noteBehind.leafSectors h.frame.drGot

theorem rxMirrorLines {p} : WellKept (e.rxMirrorLines p) := by
  dsimp only [Eng.rxMirrorLines]
  split
  · exact .ite h.mirrorGot h.wr
  · exact .ite h.wr h

theorem mirrorLower {q} : WellKept (e.mirrorLower q) := by
  dsimp only [Eng.mirrorLower]
  refine .ite ?_ h.frame
  split
  · exact .ite h.frame.frame.leafEnd h.frame.drFail
  · exact h.frame

theorem askMirror {q} : WellKept (e.askMirror q) := by
  unfold Eng.askMirror
  split
  · exact h.frame
  · split
    · exact h.mirrorLower
    · refine .ite ?_ h.frame.sendMirrorRead
      split
      · next heq => exact (fst_of_eq h.readCopy heq).mirrorGot
      · next heq => exact (fst_of_eq h.readCopy heq).frame

theorem rxMirrorNone {p} : WellKept (e.rxMirrorNone p) := by
  dsimp only [Eng.rxMirrorNone]
  refine .ite h.wr ?_
  split
  · exact h.frame
  · exact h

theorem useRecon {c} : WellKept (e.useRecon c) := by
  dsimp only [Eng.useRecon]
  split
  · exact .each h.endChain.frame fun _ _ h => h.drGot
  · exact .each h.endChain.frame fun _ _ h => h.repairDone
  · exact h.endChain.frame.leafSectors
  · exact h.endChain.frame.rowChunk
  · exact h.endChain.frame.encodeChunk

theorem failRecon {c} : WellKept (e.failRecon c) := by
  unfold Eng.failRecon
  extract_lets e₁ e₂ e₃
  have h₁ : WellKept e₁ := .ite (.onlyIf h (·.rowFailed)) h.endChain
  have h₃ : WellKept e₃ := .frame (.unless h₁ (·.beyondCode))
  split
  · split
    · exact h₃.drFail
    · exact h₃
  · exact h₃.repairFailed
  · exact h₃.frame.leafEnd
  · exact .unless h₃ (·.frame.rowFailed.frame.leafEnd)
  · exact h₃.encodeFailed

theorem reconRound : WellKept e.reconRound := by
  unfold Eng.reconRound
  extract_lets e₁ e₂ e₃ e₄
  have h₂ : WellKept e₂ := .each h.pumpChains fun _ _ h => h.useRecon
  have h₃ : WellKept e₃ := .each h₂ fun _ _ h => .ite h (.unless h.askRecon (·.failRecon))
  have h₄ : WellKept e₄ := .each h₃ fun _ _ h => h.askMirror
  exact h₄.pumpScrubs.graftStep.regenerate

theorem reconLoop {n} : WellKept (Eng.reconLoop n e) := by
  induction n generalizing e with
  | zero => exact h
  | succ n ih =>
    exact .ite h (.ite h.reconRound (ih h.reconRound))

theorem recon : WellKept e.recon := h.reconLoop

/-! #### Evacuation and fencing -/

theorem offerStripes : WellKept e.offerStripes := .each h.frame fun _ _ h => h.send

theorem acceptOffer {r row risky} : WellKept (e.acceptOffer r row risky) := .ite h h.frame.startRow

theorem thickTrim {n} : WellKept (Eng.thickTrim n e) := by
  induction n generalizing e with
  | zero => exact h
  | succ n ih =>
    dsimp only [Eng.thickTrim]
    refine .ite h ?_
    split
    · exact h
    · exact ih h.releaseRow

theorem dropThick {t} : WellKept (e.dropThick t) := h.frame.frame

theorem endThick {t} : WellKept (e.endThick t) := .ite h (.ite h.frame.send h.frame)

theorem endThicks : WellKept e.endThicks := .each h fun _ _ h => h.endThick

theorem rxThickEnd {p} : WellKept (e.rxThickEnd p) := by
  dsimp only [Eng.rxThickEnd]
  split
  · exact .ite h.ownerGone (.ite h.releaseRow h)
  · exact h.dropThick

theorem rxThickNote {p} : WellKept (e.rxThickNote p) := by
  dsimp only [Eng.rxThickNote]
  split
  · exact h.wr
  · refine .ite h.wr ?_
    split
    · exact h.acceptOffer
    · exact .ite h h.frame
    · exact h.rxThickEnd
    · exact h.wr

theorem withdrawOffers : WellKept e.withdrawOffers := .each h.frame fun _ _ h => .ite h.send h

theorem sendSector {leaf s data} : WellKept (e.sendSector leaf s data) := h.frame.setDirty.sendPlace

theorem evacReady : WellKept e.evacReady := by
  dsimp only [Eng.evacReady]
  refine .ite h ?_
  split
  · exact h.wr.raise.frame.complete
  · exact h.wr.raise

theorem abortEvac {status} : WellKept (e.abortEvac status) := by
  unfold Eng.abortEvac
  extract_lets e₁ res v e₂ e₃ e₄
  have h₂ : WellKept e₂ := h.wr.frame
  have h₃ : WellKept e₃ := by dsimp only [e₃]; split; exacts [h₂.complete, h₂]
  have h₄ : WellKept e₄ := by dsimp only [e₄]; split; exacts [h₃.complete, h₃]
  exact h₄.pumpRuns

theorem dropRecons : WellKept e.dropRecons := .each (.frame (.each h.frame fun _ _ h => h.repairFailed)) fun _ _ h =>
    h.frame

theorem fenceOff {keep} : WellKept (e.fenceOff keep) := by
  unfold Eng.fenceOff
  extract_lets e₁ e₂ e₃
  have h₁ : WellKept e₁ := .onlyIf h (·.abortEvac)
  exact .ite h (.dropRecons (.each h₁.frame.wr.setLevel fun _ _ h => h.abortWhere.pump))

theorem fence {keep} : WellKept (e.fence keep) := .ite h h.fenceOff.retryTaps

theorem selfFence : WellKept e.selfFence := h.fence

theorem takeRow {bs} : WellKept (e.takeRow bs) := by
  dsimp only [Eng.takeRow]
  split
  · exact h.frame
  · exact h.setDig
  · exact h.frame
  · exact h.frame
  · exact h.frame
  · exact h.frame
  · exact h.frame
  · exact h.frame
  · exact h.frame
  · exact h

theorem takeDigTable : WellKept e.takeDigTable := .each h fun _ _ h => .ite h h.setDig

theorem sendJournal {img} : WellKept (e.sendJournal img) := .each h fun _ _ h => h.sendSector

theorem sendKind {kind parts} : WellKept (e.sendKind kind parts) := .each h fun _ _ h => h.sendPlace

theorem startCutover {cmd} : WellKept (e.startCutover cmd) := .each h.frame.wr.askRanges fun _ _ h => h.closeEntry

theorem cutover : WellKept e.cutover := by
  unfold Eng.cutover
  refine .ite ?flush (.ite ?handOver h)
  case flush =>
    extract_lets e₁ e₂ img e₃ n ctxs e₄
    have h₁ : WellKept e₁ := .each h fun _ _ h => h.closeEntry
    have h₂ : WellKept e₂ := .each h₁ fun _ _ h => .each h fun _ _ h => h.sendSector
    exact .ite h₁ h₂.sendJournal.sendKind.sendKind.sendKind.frame.wr
  case handOver =>
    dsimp only
    split
    · exact h.sendAll.sendPlace.frame.wr.fence.complete
    · exact h.sendAll.sendPlace.frame.wr.fence

theorem copyAll : WellKept e.copyAll := .sendJournal (.each h fun _ _ h => .each h fun _ _ h => h.sendSector)

theorem startEvac {cmd spare} : WellKept (e.startEvac cmd spare) := h.frame.wr.wr.copyAll.wr

theorem evacuate {cmd mode spare} : WellKept (e.evacuate cmd mode spare) := by
  dsimp only [Eng.evacuate]
  split
  · exact .ite (.ite h.frame h.complete) (.ite h.refuse h.startEvac)
  · exact .ite h.refuse h.startCutover.cutover
  · exact .ite h.refuse h.abortEvac.complete
  · exact h.refuse

theorem rxEvacData {place p} : WellKept (e.rxEvacData place p) := .ite (.ite h.frame.sendPlace h.frame) h.frame.store

theorem takeContexts {parts} : WellKept (e.takeContexts parts) := .each h fun _ _ h => .each h fun _ _ h => .ite h
    h.setDig.setCtx

theorem takeBlock {b} : WellKept (e.takeBlock b) := by
  unfold Eng.takeBlock
  extract_lets f e₁ e₂ e₃ e₄ e₅ e₆ e₇ base bnd mk vs recs e₈ e₉ e₁₀
  have h₂ : WellKept e₂ := .each h.wr.wr fun _ _ h => h.wr
  have h₇ : WellKept e₇ := h₂.wr.wr.wr.wr.wr.wr.wr.wr.wr
  exact .each h₇.frame.frame.frame fun _ _ h => .ite h h.frame

theorem takeRecord {b} : WellKept (e.takeRecord b) := by
  dsimp only [Eng.takeRecord]
  split
  · exact h.frame
  · split
    · exact h.setCtx
    · exact h
  · exact h.frame
  · exact h.frame
  · exact h.frame
  · split <;> exact h.frame
  · exact h.frame
  · exact h.frame
  · exact h

theorem takeIndex {bs} : WellKept (e.takeIndex bs) := by
  have hcleared : WellKept { e with applied := [], digs := [], cuts := [], thickDests := [], oldLost := [] } :=
    { h with digs := .nil }
  exact .each (.each hcleared.takeDigTable fun _ _ h => h.takeRow) fun _ _ h => h.takeRecord

theorem rxEvacState {place p} : WellKept (e.rxEvacState place p) := by
  dsimp only [Eng.rxEvacState]
  refine .ite h.wr ?_
  refine .ite h.frame ?_
  exact .sendPlace (by split; exacts [h.frame.takeContexts, h.frame.takeBlock, h.frame.takeIndex])

theorem evacDone {p} : WellKept (e.evacDone p) := .ite (.ite h.abortEvac h) (.ite h.frame.cutover h)

theorem takeHandover {p} : WellKept (e.takeHandover p) := .releaseRows (.each h.closeSess.wr.frame.frame fun _ _ h =>
    h.send)

theorem becomeMember {p} : WellKept (e.becomeMember p) := h.wr.wireUp.wr.wr.wr.frame.frame.holdCheck

theorem rxHandover {p} : WellKept (e.rxHandover p) := .ite h.becomeMember (.ite h.takeHandover h.frame)

theorem admitHeld : WellKept e.admitHeld := .each h.frame fun _ _ h => .ite h.takeHandover (.ite h.acceptJoin
    h.rxJoin)

/-! #### Losses -/

theorem retireStep {t} : WellKept (e.retireStep t) := .ite h.retireTo.sendHeat h

theorem retireOne {c t} : WellKept (e.retireOne c t) :=
  .ite (.complete (.frame (.each h fun _ _ h => h.retireStep))) (.each h fun _ _ h => h.retireStep)

theorem retireReady : WellKept e.retireReady := .each h fun _ _ h => h.retireOne

theorem stepRetire {cmd t} : WellKept (e.stepRetire cmd t) := .ite h.frame.complete h.frame.frame.retireReady

theorem stillHeard {x} : WellKept (e.stillHeard x) := .ite h.frame.frame h

theorem recordLoss {x reason} : WellKept (e.recordLoss x reason) := .joinLoss (.each
    h.setLostBit.wr.wr.wr.wr.noteGraftEdge.frame.closeSess fun _ _ h => h.ownerGone)

theorem declareLost {x reason} : WellKept (e.declareLost x reason) := by
  unfold Eng.declareLost
  refine .ite h (.ite h.selfFence ?_)
  extract_lets e₁ e₂ e₃ e₄ e₅ e₆
  have h₃ : WellKept e₃ := h.recordLoss.frame.dropDests.frame.startRounds.replayEarly.partnerLost
  have h₆ : WellKept e₆ := h₃.ringLoss.frame.releaseRows.raise.sendAll
  exact .onlyIf h₆ (·.raise)

theorem silenceRule : WellKept e.silenceRule :=
  .ite (.each (.ite h.wr.setLevel h) fun _ _ h => h.declareLost) (.ite h h.wr.setLevel)

theorem membersSilent {xs} : WellKept (e.membersSilent xs) := .ite h h.frame.silenceRule

theorem hearFrom {x} : WellKept (e.hearFrom x) := .ite h.frame.silenceRule h.frame

theorem mergeMap {map} : WellKept (e.mergeMap map) := .each h fun _ _ h => h.declareLost

theorem othersDrained {row} : WellKept (e.othersDrained row).1 := .iteFst h h.frame

theorem undrainLeaf {l} : WellKept (e.undrainLeaf l) := by
  dsimp only [Eng.undrainLeaf]
  split
  · refine .ite ?_ h
    exact .ite h.othersDrained.frame h.othersDrained
  · exact h.frame

theorem undrain : WellKept e.undrain := .each h fun _ _ h => h.undrainLeaf

theorem unIsolate : WellKept e.unIsolate := .ite h.silenceRule h

theorem selfTake {p} : WellKept (e.selfTake p) := by
  dsimp only [Eng.selfTake]
  split
  · exact h.rxStreamDelta
  · exact h.rxRingDelta
  · exact h.takeAck
  · exact h.rxRelease
  · exact h.rxSnapNote
  · exact h.rxRollFetch
  · exact h.rxRollData
  · exact h.rxRollEnd
  · exact h.rxRollNone
  · exact h

theorem selfLoop {n} : WellKept (Eng.selfLoop n e) := by
  induction n generalizing e with
  | zero => exact h
  | succ n ih =>
    dsimp only [Eng.selfLoop]
    split
    · exact h
    · exact ih h.frame.selfTake

theorem settle : WellKept e.settle :=
    h.selfLoop.unIsolate.undrain.retryTaps.trySeal.pumpRuns.retireReady.endThicks.anchorStep.releaseHeld.recon.cutover.frame

theorem heartbeat : WellKept e.heartbeat := .ite h (.ite h.frame.sendAll (.ite h.sendAll h))

/-! #### Packets received -/

theorem heardAt {place gen src} : WellKept (e.heardAt place gen src) := by
  dsimp only [Eng.heardAt]
  refine .ite (.hearFrom (.ite h (by split; exacts [.ite h.frame h.frame, h]))) ?_
  refine .ite h ?_
  split
  · exact .ite h.frame h.frame
  · exact h

theorem rxAck {p} : WellKept (e.rxAck p) := h.takeAck

theorem rxHeartbeat {p} : WellKept (e.rxHeartbeat p) := h.mergeMap.recompute

theorem rxLossNotice {p} : WellKept (e.rxLossNotice p) := .ite h.wr h.declareLost

theorem rxRbDone {place p} : WellKept (e.rxRbDone place p) := .ite h.evacDone (.ite h.memberBad h.memberDone)

theorem rxPointDecide {p} : WellKept (e.rxPointDecide p) := by
  dsimp only [Eng.rxPointDecide]
  split
  · exact .ite h.frame h.rxPoint
  · exact h.rxPoint

theorem rxTyped {place p} : WellKept (e.rxTyped place p) := by
  dsimp only [Eng.rxTyped]
  split
  · exact h.rxStreamDelta
  · exact h.rxRingDelta
  · exact h.rxAck
  · exact h.rxRelease
  · exact h.rxBusy
  · exact h.rxHeartbeat
  · exact h.rxLossNotice
  · exact h.rxRbReq
  · exact h.rxRbPart
  · exact h.rxRbDone
  · exact h.frame
  · exact h.rxJoin
  · exact h.rxWelcome
  · exact h.rxCount
  · exact h.rxPhase
  · exact h.rxSnapNote
  · exact h.rxThickNote
  · exact .ite h.rxEvacData h.wr
  · exact h.rxHandover
  · exact h.frame
  · exact .ite h.rxEvacState h.wr
  · exact h.rxLog
  · exact h.rxLog
  · exact h.rxLogAck
  · exact h.rxLogRetire
  · exact h.rxMirrorData
  · exact h.rxMirrorDone
  · exact h.rxMirrorAck
  · exact h.rxMirrorTorn
  · exact h.rxMirrorRead
  · exact h.rxMirrorLines
  · exact h.rxMirrorNone
  · exact h.rxProd
  · exact h.rxProdAck
  · exact h.rxVote
  · exact h.rxVoteReq
  · exact h.rxRollFetch
  · exact h.rxRollData
  · exact h.rxRollEnd
  · exact h.rxRollNone
  · exact h.rxPoint
  · exact h.rxPointDecide
  · exact h.rxPoint
  · exact h.rxPoint
  · exact h.wr

theorem receive {typ p} : WellKept (e.receive typ p) := by
  dsimp only [Eng.receive]
  refine .ite h ?_
  refine .ite h.frame ?_
  split
  · exact .stillHeard (.wr (.ite h.wr h))
  · exact .authFail (.wr (.ite h.wr h))
  · exact .ite h.wr h
  · exact .ite (.wr (.heardAt (.ite h.wr h))) (.settle (.rxTyped (.heardAt (.ite h.wr h))))

theorem fabricPkt {route key requester typ p} : WellKept (e.fabricPkt route key requester typ p) := by
  unfold Eng.fabricPkt
  refine .ite h.frame (.ite h.frame ?_)
  extract_lets e₁ refused
  have h₁ : WellKept e₁ := .onlyIf h (·.wr)
  have hrefused {r} : WellKept (refused e₁ r) := h₁.keyMiss.frame
  refine .ite (.ite hrefused h₁.frame.receive) ?_
  split
  · exact hrefused
  · exact .ite hrefused (.ite hrefused h₁.frame.receive)

/-! #### Ports -/

theorem attemptFails {p} : WellKept (e.attemptFails p) := .ite h.startAttempt h.excludePort

theorem widthMsg {p final} : WellKept (e.widthMsg p final) := h.ask

theorem sendId {p} : WellKept (e.sendId p) := h.ask

theorem farCheck {p} : WellKept (e.farCheck p) := .ite h.excludePort h

theorem resendFlits {p fs} : WellKept (e.resendFlits p fs) := .wr (.each h fun _ _ h => h.onLane)

theorem resumeLink {p} : WellKept (e.resumeLink p) := h.frame.resendFlits

theorem toLow {p} : WellKept (e.toLow p) := h.wr.wr.frame

theorem sleepLow {p} : WellKept (e.sleepLow p) := .ite h.toLow h

theorem advertise {p} : WellKept (e.advertise p) := .each h fun _ _ h => .each h fun _ _ h => h.ctl

theorem sendAck {p} : WellKept (e.sendAck p) := h.frame.ctl

theorem bootReady : WellKept e.bootReady := .ite (.each h.wr.wr.wr.setLevel.frame fun _ _ h => h.fetchNext) h

theorem portGoesUp {p} : WellKept (e.portGoesUp p) := by
  unfold Eng.portGoesUp
  extract_lets again e₁ e₂ e₃ e₄ e₅ e₆
  have h₃ : WellKept e₃ := .onlyIf h.wr.wr.frame.advertise (·.sendAck)
  have h₄ : WellKept e₄ := .onlyIf h₃ (·.resumeLink)
  have h₅ : WellKept e₅ := .onlyIf h₄ (·.sendId)
  have h₆ : WellKept e₆ := .unless h₅ (·.recompute)
  exact h₆.farCheck.sleepLow.pump

theorem trainingStep {p step lanes met} : WellKept (e.trainingStep p step lanes met) := by
  refine .ite (.ite h.wr.frame h.attemptFails) ?_
  refine .ite h.wr.wr ?_
  exact .ite h.wr.wr.widthMsg (.ite (.ite h.setUsed h.attemptFails) (.ite h.portGoesUp h))

theorem trainAll : WellKept e.trainAll := .bootReady (.each h fun _ _ h => .ite h.frame (.ite h.linkDown h.trainPort))

theorem restripe {p} : WellKept (e.restripe p) := .ite h.linkReset (.ite h h.setUsed.ask)

theorem loseLane {p l} : WellKept (e.loseLane p l) := .ite h.frame.restripe h.frame

theorem portCtl {p v} : WellKept (e.portCtl p v) := .ite (.ite h.wr.holdCheck.trainPort h.wr.holdCheck.linkReset)
    h.wr.holdCheck

theorem portTest {p v} : WellKept (e.portTest p v) := by
  unfold Eng.portTest
  extract_lets was run may e₁ e₂
  have h₂ : WellKept e₂ := .wr (.wr (.onlyIf h (·.wr)))
  have hcleared {ls : List Nat} {f : Nat → Fld} {n e} (h : WellKept e) : WellKept (e.each ls (fun l e => e.wr (f l) n)) :=
    .each h fun _ _ h => h.wr
  exact .ite (.ite (hcleared h₂.wr.frame).abortInbound.linkDown.frame h₂.wr)
    (.ite (.ite h₂.wr.linkDown (.ite h₂.wr.linkDown h₂.wr.frame.startAttempt)) h₂)

theorem enterLow {p} : WellKept (e.enterLow p) := h.toLow.pump

theorem wakePort {p} : WellKept (e.wakePort p) := h.startWake.frame

theorem wakeDone {p} : WellKept (e.wakeDone p) := .ite (.ite h.linkReset h.wr.setUsed.frame.ask.wr.sleepLow.pump) h

theorem rxWake {p} : WellKept (e.rxWake p) := .ite h.wakeClocks.frame.frame (.ite h.wakeClocks.toWake.frame
    h.wakeClocks)

theorem rxRetryReq {p fseq} : WellKept (e.rxRetryReq p fseq) := .ite h.wr.frame.wr.linkReset h.wr.frame.resendFlits

theorem rxAckFlit {p fseq} : WellKept (e.rxAckFlit p fseq) := .pump (.ite h.frame.resumeLink h.frame)

theorem askRetry {p} : WellKept (e.askRetry p) := .ite h h.frame.ctl

theorem rxCredit {p vc cls freed} : WellKept (e.rxCredit p vc cls freed) := h.frame.pump

theorem rxInit {p present} : WellKept (e.rxInit p present) := by
  refine .ite (.wr (.frame (.ite h.linkReset h))) ?_
  exact .ite (.ctl (.ite h.linkReset h)) (.ite h.linkReset h)

theorem rxId {p place pos none_} : WellKept (e.rxId p place pos none_) := .farCheck (.ite h.wr.wr.wr.frame.frame (.ite
    h.wr.wr.wr.frame.ctl h.wr.wr.wr.frame))

theorem rxWidth {p passing w used final} : WellKept (e.rxWidth p passing w used final) := by
  refine .ite ?_ h
  exact .ite (.ite h.frame.setUsed.frame h.frame.setUsed.widthMsg) (.ite h.frame.widthMsg h.frame)

theorem rxRestripe {p used fseq} : WellKept (e.rxRestripe p used fseq) := by
  refine .ite ?_ h
  exact .ite (.ite h.frame.frame h.frame.ctl) (.ite h.frame.frame.linkReset h.frame.frame.setUsed.ctl)

theorem rxLowReq {p} : WellKept (e.rxLowReq p) :=
  .ite (.ite h.frame.frame.ctl (.ite h.enterLow h.ctl.enterLow)) (.ite h.ctl h)

theorem rxLowAck {p} : WellKept (e.rxLowAck p) := .ite (.ite h.enterLow h.frame.frame.ctl) h

theorem rxLowNak {p} : WellKept (e.rxLowNak p) := h.frame.frame

theorem rxBeat {p senderLow} : WellKept (e.rxBeat p senderLow) := .ite h.rxLowAck h

theorem relayBytes {key id bs} : WellKept (e.relayBytes key id bs) := by
  dsimp only [Eng.relayBytes]
  split
  · exact h
  · exact h.frame.frame

theorem abortArriving {key} : WellKept (e.abortArriving key) := .each h fun _ _ h => h.abortWhere.pump

theorem relayStart {p id r} : WellKept (e.relayStart p id r) := by
  dsimp only [Eng.relayStart]
  refine .ite h.frame ?_
  refine .ite h.frame ?_
  split
  · exact h.wr.frame
  · exact .ite h.wr.frame h.frame.frame.frame

theorem streamEnd {p r} : WellKept (e.streamEnd p r) := by
  dsimp only [Eng.streamEnd]
  refine .ite h.frame ?_
  split
  · exact h.frame.receive
  · exact h.frame

theorem streamBytes {n p id vc cls first off body} : WellKept (Eng.streamBytes n e p id vc cls first off body) := by
  induction n generalizing e p id vc cls first off body with
  | zero => exact h
  | succ n ih =>
    rw [Eng.streamBytes]
    refine .ite h ?_
    split
    · exact .ite (ih h.frame) (.ite (ih h) h)
    · extract_lets want n' bs r e₁ e₂ e₃ e₄
      have h₂ : WellKept e₂ := .frame (.onlyIf h (·.relayBytes))
      have h₃ : WellKept e₃ := .onlyIf h₂ (·.relayStart)
      refine ih ?_
      dsimp only [e₄]
      split
      · exact .onlyIf h₃ (·.streamEnd)
      · exact h₃

theorem takeFlit {p} : WellKept (e.takeFlit p) := .ite h.frame.sendAck h.frame

theorem streamAbort {p vc cls} : WellKept (e.streamAbort p vc cls) := by
  dsimp only [Eng.streamAbort]
  split
  · exact h
  · exact .ite h.frame.abortArriving (.ite h.frame h.frame.wr)

theorem dataBody {p f} : WellKept (e.dataBody p f) := .each (.ite h.frame.frame.streamBytes.frame
    h.frame.frame.streamBytes.unrefBuf) fun _ _ h => h.pump

theorem takeMsg {p a} : WellKept (e.takeMsg p a) := by
  dsimp only [Eng.takeMsg]
  split
  · exact h.rxInit
  · exact h.rxId
  · exact h.rxWidth
  · exact h.rxRetryReq
  · exact h.rxAckFlit
  · exact h.rxCredit
  · exact h.rxRestripe
  · exact h.rxLowReq
  · exact h.rxLowAck
  · exact h.rxLowNak
  · exact h.rxWake
  · exact h.rxBeat

theorem rxMsg {p m} : WellKept (e.rxMsg p m) := by
  dsimp only [Eng.rxMsg]
  split
  · exact h.takeMsg
  · exact h.wakeClocks.takeMsg

theorem ctrlBody {p f} : WellKept (e.ctrlBody p f) := .bootReady (.each h fun _ _ h => h.rxMsg)

theorem rxFlit {p f fecBad body} (hf : Keeps body) : WellKept (e.rxFlit p f fecBad body) := by
  refine .ite h (.ite (.ite h.wr.askRetry h.wr) (.ite (.ite h.wr.askRetry h.wr) ?_))
  refine .ite h.ctrlBody (.ite h (.ite h.askRetry ?_))
  exact hf _ h.wakeClocks.takeFlit

/-! #### Service and resets -/

theorem endCmd {c status} : WellKept (e.endCmd c status) := h.complete.frame

theorem endOpen {status which} : WellKept (e.endOpen status which) := .each h fun _ _ h => h.endCmd

theorem endRestores {status} : WellKept (e.endRestores status) := by
  unfold Eng.endRestores
  exact h.frame.endOpen

theorem zeroize {tamper} : WellKept (e.zeroize tamper) := by
  unfold Eng.zeroize
  extract_lets e₁ e₂ sec e₃ e₄ e₅ e₆
  have h₁ : WellKept e₁ := h.dropOwnTx
  have h₂ : WellKept e₂ := h₁.frame
  have h₃ : WellKept e₃ := h₂.frame
  have h₄ : WellKept e₄ := h₃.wr.wr.wr
  have h₅ : WellKept e₅ := h₄.wr.wr.raise
  have h₆ : WellKept e₆ := h₅.abortAnchor.endRestores
  exact .ite h₆.selfFence h₆

theorem failHeld : WellKept e.failHeld := .each (.each h.frame fun _ _ h => h.frame.frame) fun _ _ h => h.frame

theorem dropWork : WellKept e.dropWork := .retryTaps (.each h.countIntake.frame.frame fun _ _ h => h.frame)

theorem leaveService {cause} : WellKept (e.leaveService cause) := by
  unfold Eng.leaveService
  refine .ite h ?_
  extract_lets lock boot e₁ e₂ e₃ e₄
  have h₂ : WellKept e₂ := .onlyIf h.frame (·.sendAll)
  have h₄ : WellKept e₄ := .wr (.wr (.onlyIf h₂ (·.fenceOff)))
  exact .ite h₄.failHeld.endOpen.dropWork.setLevel.setLevel.frame h₄.dropWork.wr.setLevel

theorem errorState {test} : WellKept (e.errorState test) :=
  .ite h (.onlyIf h.wr.wr.setLevel.zeroize.frame.endOpen.releaseHeld (·.leaveService))

theorem tampered : WellKept e.tampered := h.zeroize.frame.wr.settle

theorem coreReset {cause} : WellKept (e.coreReset cause) := .ite h (.ite h.leaveService h.frame.wr.wr.wr)

theorem resumeWork : WellKept e.resumeWork := by
  unfold Eng.resumeWork
  exact .issueApply (.pumpRuns (.retryIntake (.each (.each (.each h.abortAnchor.endOpen.frame.frame
    fun _ _ h => h.dropFetched.fetchNext) fun _ _ h => h.askAgain) fun _ _ h => h.askVotes)))

theorem takeLate {w} : WellKept (e.takeLate w) := by
  dsimp only [Eng.takeLate]
  split
  · exact h.receive
  · exact h.fabricPkt
  · exact h.degradedRead
  · exact h

theorem freeHeld : WellKept e.freeHeld := .each h fun _ _ h => .each h.frame fun _ _ h => h.unrefBuf

theorem resumed {micros} : WellKept (e.resumed micros) := by
  unfold Eng.resumed
  extract_lets dog boot e₁ e₂ e₃ loss e₄ e₅ e₆
  have h₃ : WellKept e₃ := .each h.frame.wr fun _ _ h => h.wr
  have h₅ : WellKept e₅ := .onlyIf h₃.frame (·.silenceRule)
  exact .onlyIf h₅.freeHeld.resumeWork.raise (·.raise)

theorem cryptoReset {failing} : WellKept (e.cryptoReset failing) := by
  dsimp only [Eng.cryptoReset]
  split
  · exact .ite h.wr.zeroize.errorState h.wr.zeroize
  · exact h.wr.zeroize

theorem genReset {v failing} : WellKept (e.genReset v failing) := .ite h (.ite (.coreReset (.ite h.cryptoReset h))
    (.ite h.cryptoReset h))

theorem computeReset : WellKept e.computeReset := h.frame.wr.wr.wr.frame.retryIntake

theorem pruneCluster {c} : WellKept (e.pruneCluster c) := by
  refine .ite h ?_
  refine .ite (.leaveService (.ite h.wr.raise.raise h.wr.raise)) ?_
  exact .dropCluster (.ite h.wr.raise.raise h.wr.raise)

theorem pruneLane {n} : WellKept (e.pruneLane n) := .ite h h.wr.loseLane.raise

theorem unprune {lane n} : WellKept (e.unprune lane n) := .ite h.wr (.ite h.wr h.wr)

theorem pruneWrite {v} : WellKept (e.pruneWrite v) := .ite h (.ite h.unprune (.ite h.pruneLane h.pruneCluster))

theorem writeWear {no w} : WellKept (e.writeWear no w) := h.frame.frame

theorem saveWear : WellKept e.saveWear := .ite h.frame h.writeWear

theorem flashShare {level} : WellKept (e.flashShare level) :=
  .ite (.ite h.frame.frame h.frame) (.each h.frame.frame fun _ _ h => h.writeWear)

theorem sleepWrite {v} : WellKept (e.sleepWrite v) := by
  unfold Eng.sleepWrite
  extract_lets e₁
  have h₁ : WellKept e₁ := .onlyIf h (·.wr)
  exact .ite h₁.wr (.ite h₁.wr (.ite h₁.wr (.each h₁.wr.wr.saveWear fun _ _ h => h.enterLow)))

/-! #### Health -/

theorem bucketTick : WellKept e.bucketTick := h.frame.wr

theorem laneReport {n corrected received eye} : WellKept (e.laneReport n corrected received eye) := .ite h (.ite
    h.frame.frame.frame.pruneLane h.frame.frame)

theorem eolMin : WellKept e.eolMin := h.wr.wr.wr

theorem wearSample {hours} : WellKept (e.wearSample hours) := .saveWear (.eolMin (.frame (.each (.each (.each h.wr.wr
    fun _ _ h => h.frame) fun _ _ h => h.frame) fun _ _ h => h.frame)))

theorem thickRule {risk} : WellKept (e.thickRule risk) := by
  unfold Eng.thickRule
  extract_lets upper lower e₁ up dn e₂ e₃
  have h₂ : WellKept e₂ := .frame (.onlyIf h (·.frame))
  have h₃ : WellKept e₃ := .onlyIf h₂ fun h => .ite h.frame.offerStripes h.advise
  exact .onlyIf h₃ (·.withdrawOffers)

theorem evacRule {risk} : WellKept (e.evacRule risk) := by
  dsimp only [Eng.evacRule]
  refine .ite ?_ h.frame
  split
  · exact h.frame.frame.startEvac
  · exact h.frame.advise

theorem riskEvaluation : WellKept e.riskEvaluation := .ite h.frame.wr.wr.thickRule.evacRule.dueCheck h.frame.wr.wr

theorem shareDecision {other} : WellKept (e.shareDecision other) := .ite (.advise (.ite h.wr h)) (.ite h.wr h)

theorem linkDecision {p} : WellKept (e.linkDecision p) :=
  .ite (.advise (.ite h.frame.wr h.frame)) (.ite h.frame.wr h.frame)

theorem sealDecision {c} : WellKept (e.sealDecision c) := .ite (.advise (.ite h.wr.wr.frame h)) (.ite h.wr.wr.frame h)

theorem heatDecision : WellKept e.heatDecision := .ite (.advise (.ite h.wr h)) (.ite h.wr h)

theorem jobRiskAt {b} : WellKept (e.jobRiskAt b) := .ite h.frame.wr h

theorem jobRiskWrite {v} : WellKept (e.jobRiskWrite v) :=
  .ite (.wr (.ite h.wr h)) (.wr (.wr (.wr (.wr (.ite h.wr h)))))

/-! #### The memory side -/

theorem decay : WellKept e.decay := { h with ctxs := List.pairwise_map.2 h.ctxs }

theorem hotNotices : WellKept e.hotNotices := .each h fun _ _ h => h.frame.frame

theorem holdQuery {port id leaf wr} : WellKept (e.holdQuery port id leaf wr) := .ite h.frame
    h.frame.frame.urgent.makeUrgent.settle

theorem readDone {tag bads} : WellKept (e.readDone tag bads) := by
  dsimp only [Eng.readDone]
  split
  · exact h
  · refine .ite (.ite h.nextPiece h) ?_
    split
    · exact h.frame.mirrorReadDone.settle
    · exact h.frame.anchorReadDone.settle
    · exact h.frame.hashReadDone.settle
    · exact h.frame
    · exact h
    · exact h

theorem writeDone {tag discarded} : WellKept (e.writeDone tag discarded) := by
  dsimp only [Eng.writeDone]
  split
  · exact h
  · split
    · exact .ite h.nextPiece h.frame.applyWritten.settle
    · exact .ite h.frame h.frame.memWrite.frame
    · exact h

theorem portWindow {p used exempt} : WellKept (e.portWindow p used exempt) := .frame (.ite (.wr (.ite h.wr h)) (.ite
    h.wr h))

theorem newWindow {p} : WellKept (e.newWindow p) := h.frame.servePort

theorem layout : WellKept e.layout := h.wr.wr.wr.wr

theorem bootFails {why} : WellKept (e.bootFails why) := h.wr.wr

theorem startFill : WellKept e.startFill := h.frame.wr

theorem stacksIn : WellKept e.stacksIn := .ite h.wr.layout.startFill h.wr.wr.bootFails

theorem slotLost {n} : WellKept (e.slotLost n) := by
  dsimp only [Eng.slotLost]
  split
  · exact h.frame
  · split
    · exact h.chunkTimeout
    · exact h

theorem stagedLost {region row stamp seq} : WellKept (e.stagedLost region row stamp seq) := by
  dsimp only [Eng.stagedLost]
  split
  · exact h
  · split
    · exact .ite h.frame.stripeLost h
    · exact h

theorem fetchedLost {q f} : WellKept (e.fetchedLost q f) := .ite h.openCmd.complete.fetchNext h.frame

theorem sramLoss {a} : WellKept (e.sramLoss a) := by
  dsimp only [Eng.sramLoss]
  split
  · exact h
  · exact h.leaveService
  · exact h.leaveService
  · exact h.leaveService
  · split
    · exact h
    · exact .issueApply (.frame (.frame (.each (.each h fun _ _ h => by split; exacts [.ite h h.setCtx, h])
          fun _ _ h => h.releaseRow)))
  · split
    · exact h
    · exact .ite h.frame.stripeLost h
  · split
    · exact h.deltaLost
    · exact .ite h h.stagedLost
  · exact h.slotLost
  · exact .ite h.hwRecompute h
  · exact .ite h.setBitmapLine h
  · split
    · exact h.endCmd
    · split
      · exact h.fetchedLost
      · exact h
  · exact h.loseRecord
  · exact h

theorem sramPatrol {bank f} : WellKept (e.sramPatrol bank f) := by
  dsimp only [Eng.sramPatrol]
  split
  · exact h.wr.frame.frame
  · exact h.wr.raise.sramLoss.settle

theorem tierDone {op} : WellKept (e.tierDone op) := by
  dsimp only [Eng.tierDone]
  split
  · exact h
  · refine .ite h.frame ?_
    split
    · exact h.frame.flushEndRing.anchorCut
    · exact h.frame.rollStep
    · exact h.frame
    · exact h.frame

/-! #### Rules of single registers -/

theorem putField {v f} : WellKept (e.putField v f) := by
  dsimp only [Eng.putField]
  split
  · exact h.wr
  · exact .ite h.wr (.ite h.wr h)
  · exact h.wr
  · exact h
  · exact h

theorem putFields {flds v} : WellKept (e.putFields flds v) := .each h fun _ _ h => h.putField

theorem fixRiskThr : WellKept e.fixRiskThr := .ite (.wr (.ite h.wr h)) (.ite h.wr h)

theorem fixBounds {floor ceil} : WellKept (e.fixBounds floor ceil) := .ite h.wr h

theorem fixLoop {old en floor ceil values} : WellKept (e.fixLoop old en floor ceil values) := .ite (.each h.fixBounds
    fun _ _ h => h.wr) h.fixBounds

theorem fixWritten {old off} : WellKept (e.fixWritten old off) :=
  .ite h.fixRiskThr (.ite h.fixLoop (.ite h.fixLoop (.ite h.fixLoop (.ite h.fixLoop h))))

theorem layoutWrite {v} : WellKept (e.layoutWrite v) := .ite h.putField.wr h.putField.putField.layout

theorem spillExpert {b} : WellKept (e.spillExpert b) := .ite h.wr.wr h.wr.wr.wr

theorem spillWrite {v} : WellKept (e.spillWrite v) := .ite h.spillExpert.wr (.ite h.spillExpert.wr h.spillExpert)

theorem advisorExpert {b} : WellKept (e.advisorExpert b) := h.wr.wr

theorem srcCfgWrite {n v} : WellKept (e.srcCfgWrite n v) := .levelCheck (.wr (.ite h.wr.wr h.wr.wr.wr))

/-! #### The boot image -/

theorem loadDefault {off flds v} : WellKept (e.loadDefault off flds v) := .fixWritten (.each h fun _ _ h => h.wr)

theorem loadTemplate {body} : WellKept (e.loadTemplate body) := h.storeWrite

theorem loadRecord {r} : WellKept (e.loadRecord r) := by
  dsimp only [Eng.loadRecord]
  split
  · exact h.loadTemplate
  · exact .each h fun _ _ h => h.loadDefault
  · exact h.frame
  · exact h.frame
  · exact h

/-! #### Power-on and test access -/

theorem readFuses {nvmBad} : WellKept (e.readFuses nvmBad) := .eolMin (.frame (.each h.wr.wr.wr.wr.wr.wr.wr
    fun _ _ h => h.wr))

theorem testFailed {n why} : WellKept (e.testFailed n why) := h.errorState.bootFails

theorem takeImage {which head} : WellKept (e.takeImage which head) := h.wr.wr.wr.wr

theorem bootSram {recs sram} : WellKept (e.bootSram recs sram) := by
  unfold Eng.bootSram
  split
  · exact h.wr.wr.wr.wr.bootFails
  · exact .onlyIf (.wr (.each h.wr.wr fun _ _ h => h.loadRecord)) (·.stacksIn)

theorem bootTests {head recs tests sram} : WellKept (e.bootTests head recs tests sram) := by
  dsimp only [Eng.bootTests]
  split
  · exact .testFailed (.each h.wr fun _ _ h => h.wr)
  · exact .bootSram (.ite (.wr (.frame (.wr (.each h.wr fun _ _ h => h.wr)))) (.wr (.each h.wr fun _ _ h => h.wr)))

theorem bootImage {a b tests sram} : WellKept (e.bootImage a b tests sram) := by
  have hgrant {c : Prop} {_ : Decidable c} {e} (h : WellKept e) : WellKept (if c then e.flashShare true else e) :=
    .onlyIf h (·.flashShare)
  dsimp only [Eng.bootImage]
  refine .ite h.wr.testFailed ?_
  split
  · exact (hgrant h.wr.wr.wr.takeImage.wr).bootTests
  · split
    · exact (hgrant h.wr.wr.wr.wr.takeImage.wr).bootTests
    · exact (hgrant h.wr.wr.wr.wr).testFailed

theorem powerGood {a b tests stores te} : WellKept (e.powerGood a b tests stores te) := by
  refine .ite h ?_
  refine .ite h.frame.wr.readFuses.wr.bootFails ?_
  exact .ite h.frame.wr.readFuses h.frame.wr.readFuses.bootImage

omit h in
theorem reset : WellKept Eng.reset := ⟨.nil, ⟨.nil, nofun⟩, ⟨.nil, nofun⟩, ⟨.nil, nofun⟩, .nil, .nil, .nil⟩

omit h in
theorem powerLoss : WellKept e.powerLoss := reset.frame

theorem freeAnswer : WellKept e.freeAnswer := h.frame.frame

theorem instrumentRead {i} : WellKept (e.instrumentRead i) := by
  dsimp only [Eng.instrumentRead]
  split
  · refine .ite h ?_
    split
    · exact h.frame
    · exact h.freeAnswer
  · exact h.frame
  · exact h.frame
  · exact h.frame
  · exact h.freeAnswer

theorem instrumentWrite {i v} : WellKept (e.instrumentWrite i v) := by
  dsimp only [Eng.instrumentWrite]
  refine .ite h ?_
  split
  · exact h.frame.frame
  · exact h.portTest
  · exact h

/-! #### The map -/

theorem bufferMap {off data} : WellKept (e.bufferMap off data) := .ite h.store h

theorem mapEnds {state reason} : WellKept (e.mapEnds state reason) := h.wr.wr

theorem loadMap {j g x pos} : WellKept (e.loadMap j g x pos) := by
  unfold Eng.loadMap
  extract_lets p e₁ e₂ e₃ e₄ dg e₅ e₆ e₇ e₈ e₉
  have h₃ : WellKept e₃ := .onlyIf h.wr.wr.wr.wr.wr.wr (·.wireUp)
  have h₄ : WellKept e₄ := .each h₃ fun _ _ h => h.wr.wr.wr
  have h₅ : WellKept e₅ := .each h₄ fun _ _ h => h.wr
  have h₇ : WellKept e₇ := .unless h₅.wr fun h => .each h fun _ _ h => h.frame
  have h₉ : WellKept e₉ := .each h₇.holdCheck.holdCheck fun _ _ h => h.sendId
  exact .each h₉ fun _ _ h => h.farCheck

theorem takeMap {b source} : WellKept (e.takeMap b source) := by
  dsimp only [Eng.takeMap]
  split
  · exact h.frame.mapEnds
  · refine .ite h.frame.mapEnds ?_
    split
    · exact h.wr.frame.mapEnds
    · exact .ite h.wr.frame.wr.mapEnds h.wr.frame.loadMap.mapEnds

theorem forwardMap {b} : WellKept (e.forwardMap b) := by
  dsimp only [Eng.forwardMap]
  split
  · exact h
  · split
    · exact h
    · exact .each h.frame fun _ _ h => by split; exacts [h.frame, h]

theorem armMap : WellKept e.armMap := by
  refine .ite h.wr ?_
  exact .ite h.wr (.frame (.frame (.wr (.each h.wr.mapEnds.wr.frame.wr.wr.wr fun _ _ h => h.wr.wr))))

theorem mapCtlWrite {v} : WellKept (e.mapCtlWrite v) := .ite h.putFields.armMap h.putFields

theorem mapBytes {off data} : WellKept (e.mapBytes off data) := by
  refine .ite h.frame ?_
  refine .ite h.frame.frame.bufferMap ?_
  refine .ite h.frame.frame.bufferMap.frame.wr ?_
  exact .ite h.frame.frame.bufferMap.takeMap h.frame.frame.bufferMap.takeMap.forwardMap

theorem mapWrite {key requester off data} : WellKept (e.mapWrite key requester off data) := by
  unfold Eng.mapWrite
  extract_lets e₁
  have h₁ : WellKept e₁ := .onlyIf h (·.wr)
  exact .ite h.frame (.ite h.frame (.ite h₁.frame (.ite h₁.wr.frame h₁.mapBytes)))

theorem fetchMap : WellKept e.fetchMap := h.wr.wr.frame

theorem fetchFailed : WellKept e.fetchFailed := .ite h h.mapEnds.wr.raise

/-! #### The start lock -/

theorem clearFits : WellKept e.clearFits := .wr (.each h fun _ _ h => h.wr)

theorem endStart {status} : WellKept (e.endStart status) := h.frame.wr.wr.raise

theorem badRegion {reason n} : WellKept (e.badRegion reason n) := h.rgnCheckFail.endStart

theorem takeLock : WellKept e.takeLock := by
  unfold Eng.takeLock
  extract_lets e₁ e₂ log loss e₃ e₄ e₅ e₆ e₇
  have h₄ : WellKept e₄ := .each h.wr.wr.wr.frame fun _ _ h => h.setDig
  have h₅ : WellKept e₅ := .each h₄ fun _ _ h => h.frame
  exact .settle (.each h₅.frame.frame.endStart fun _ _ h => by split; exacts [h.declareLost, h])

theorem refuseRoll {reason pos status} : WellKept (e.refuseRoll reason pos status) := h.wr.wr.wr.wr.endStart

theorem floorCheck {recs} : WellKept (e.floorCheck recs).1 := .ite h.wr.wr.raise h.wr.wr

theorem groveChecks {recs} : WellKept (e.groveChecks recs) := by
  dsimp only [Eng.groveChecks]
  split
  · exact h.badRegion
  · exact .ite h.badRegion (.ite h.takeLock (.ite h.floorCheck.endStart h.floorCheck.frame.takeLock))

theorem rollCheck : WellKept e.rollCheck := by
  dsimp only [Eng.rollCheck]
  refine .ite h ?_
  split
  · exact h.refuseRoll
  · exact .ite h h.wr.wr.frame.groveChecks

theorem sendRecord {p} : WellKept (e.sendRecord p) := .ite h h.frame

theorem startRollCall : WellKept e.startRollCall := .ite h.refuseRoll (.ite h.groveChecks (.rollCheck (.each h.frame
    fun _ _ h => h.sendRecord)))

theorem startLock {v} : WellKept (e.startLock v) := by
  dsimp only [Eng.startLock]
  refine .ite h ?_
  split
  · exact h.wr.wr.clearFits.wr.wr.badRegion
  · split
    · exact h.wr.wr.clearFits.wr.wr.wr.wr.endStart
    · exact .ite h.wr.wr.clearFits.wr.wr.wr.startRollCall h.wr.wr.clearFits.wr.wr.wr.wr.endStart

theorem rollRecord {key requester pos r} : WellKept (e.rollRecord key requester pos r) := by
  unfold Eng.rollRecord
  refine .ite h.frame (.ite h.frame ?_)
  extract_lets e₁ e₂
  have h₁ : WellKept e₁ := .onlyIf h (·.wr)
  exact .ite h₁.frame (.ite h₁.wr.frame h₁.frame.frame.wr.rollCheck)

/-! #### Boundaries -/

theorem noteBoundary {b} : WellKept (e.noteBoundary b) := .wr (.ite h.frame.wr h.frame.wr)

theorem anchorMeets {b ring hit gone} : WellKept (e.anchorMeets b ring hit gone) := by
  dsimp only [Eng.anchorMeets]
  split
  · exact h
  · refine .ite h ?_
    refine .ite ?_ ?_
    · split
      · exact h.frame
      · exact h.anchorLate
    · exact .ite h.anchorLate h

theorem stepCopies {b} : WellKept (e.stepCopies b) := .each (.ite h h.frame) fun _ _ h => h.startCopy

theorem prewake : WellKept e.prewake := .ite (.each h fun _ _ h => h.wakePort) h

theorem meetBoundary {b} : WellKept (e.meetBoundary b) :=
  .onlyIf (.onlyIf h.frame.boundaryRing.anchorMeets.dueCheck (·.stepCopies)) (·.sealDecision)

theorem declareBoundary {v} : WellKept (e.declareBoundary v) :=
  .ite h (.ite h.raise (.onlyIf (.onlyIf h.noteBoundary.jobRiskAt (·.meetBoundary)) (·.prewake)))

theorem sealLateCheck {c} : WellKept (e.sealLateCheck c) := .ite h.frame.raise h

theorem gcount {v} : WellKept (e.gcount v) := .ite h.wr h.wr.wr.sealLateCheck

theorem resumeLate {w} : WellKept (e.resumeLate w) := by
  dsimp only [Eng.resumeLate]
  split
  · exact h.mapWrite
  · exact h.rollRecord
  · exact h.takeLate

/-! #### Management -/

theorem challenge {inst} : WellKept (e.challenge inst) := .ite h.frame h.frame.frame

theorem installKeys {contents job body} : WellKept (e.installKeys contents job body) := h.frame.wr.wr.wr

theorem loadKeys {b} : WellKept (e.loadKeys b).1 := by
  dsimp only [Eng.loadKeys]
  split
  · exact h
  · refine .iteFst h.frame ?_
    refine .iteFst h.frame ?_
    split
    · exact h.frame.authFail
    · refine .iteFst h.frame ?_
      refine .iteFst h.frame ?_
      refine .iteFst h.frame ?_
      refine .iteFst h.frame ?_
      exact .iteFst h.frame h.frame.installKeys

theorem keyLoad {inst b} : WellKept (e.keyLoad inst b) := h.loadKeys.frame

theorem viewSet {inst place v} : WellKept (e.viewSet inst place v) := by
  unfold Eng.viewSet
  refine .ite h.frame ?_
  split
  · exact h.frame
  · extract_lets e₁ e₂
    have h₁ : WellKept e₁ := h.frame.frame
    have h₂ : WellKept e₂ := by
      refine .ite h₁ (.ite h₁.selfFence ?_)
      split
      · exact .onlyIf h₁ (·.declareLost)
      · exact .onlyIf h₁ (·.abortEvac)
    exact .settle (.onlyIf h₂ (·.admitHeld))

theorem viewGet {inst place} : WellKept (e.viewGet inst place) := h.frame.frame

theorem pathDisagree {place} : WellKept (e.pathDisagree place) := by
  dsimp only [Eng.pathDisagree]
  split
  · exact h.frame
  · exact .ite h.frame h.frame.frame.wr.wr.wr.wr.wr.raise

theorem ownMessage {code inst body} : WellKept (e.ownMessage code inst body) := by
  dsimp only [Eng.ownMessage]
  split
  · exact h.frame
  · exact h.viewSet
  · exact h.viewGet
  · exact h.challenge
  · exact h.keyLoad
  · exact h.zeroize.frame
  · exact h.frame

theorem onPort {f} (hf : Keeps f) : WellKept (e.onPort f) := .ite (hf _ h) h

/-! #### Command queues -/

theorem opRingOpen {id n} : WellKept (e.opRingOpen id n) := .ringOpen (.ite h.frame h)

theorem opRollback {id c n} : WellKept (e.opRollback id c n) := by
  have hrows {p : Prop} {_ : Decidable p} :
      WellKept (if p then (e.ringRollback id c n).rollRows c else e.ringRollback id c n) :=
    .onlyIf h.ringRollback (·.rollRows)
  dsimp only [Eng.opRollback]
  split
  · exact .onlyIf hrows (·.abortAnchor)
  · exact hrows

theorem memberBegin {id x} : WellKept (e.memberBegin id x) := .ite h.refuse (.ite h.frame.noteGraftEdge.drEnd.complete
    h.frame.noteGraftEdge.drEnd.frame)

theorem graftBegin {id x mode} : WellKept (e.graftBegin id x mode) := by
  refine .ite (.ite h.startGraft h.refuse) ?_
  refine .ite h.refuse ?_
  refine .ite ?_ h.memberBegin
  exact .ite h.startGraft h.refuse

theorem opResumeSet {id addr count} : WellKept (e.opResumeSet id addr count) := by
  dsimp only [Eng.opResumeSet]
  split
  · exact h.refuse
  · refine .ite h.refuse ?_
    refine .ite h.frame.resumeDone ?_
    refine .ite ?_ h.frame
    split
    · exact h.frame.frame
    · exact h.frame

theorem startOp {id bads op} : WellKept (e.startOp id bads op) := by
  dsimp only [Eng.startOp]
  split
  · exact h.complete
  · exact h.opRingOpen.settle
  · exact h.ringSeal
  · exact h.ringCommit.settle
  · exact h.opRollback.settle
  · exact h.stepRetire.settle
  · exact h.updateRun
  · exact h.graftBegin.settle
  · exact h.opResumeSet.settle
  · exact h.evacuate.settle
  · exact h.startScrub.settle
  · exact h.anchorWrite
  · exact h.anchorRestore
  · exact h.reLeaf.settle
  · exact h.adopt.settle
  · exact h.tensorDigest.hashNext

theorem runCmd {id f} : WellKept (e.runCmd id f) := by
  dsimp only [Eng.runCmd]
  refine .ite h.complete ?_
  split
  · exact h.refuse
  · exact .ite h.refuse (.ite h.complete (.ite h.complete h.startOp))

theorem tryAccept {q f} : WellKept (e.tryAccept q f) := by
  refine .ite (.frame (.ite h h.wr)) ?_
  exact .ite (.frame (.ite h h.openMbox)) (.fetchNext (.runCmd (.openCmd (.ite h h.openMbox))))

theorem arrive {q r} : WellKept (e.arrive q r) := by
  dsimp only [Eng.arrive]
  refine .ite h ?_
  split
  · exact h.tryAccept
  · split
    · exact h.frame.haltQueue
    · exact .ite h.frame.haltQueue h.frame.tryAccept

theorem doorbell {q v} : WellKept (e.doorbell q v) := .ite h.wr h.wr.fetchNext

theorem queueCtl {q v} : WellKept (e.queueCtl q v) :=
  .ite (.fetchNext (.setLevel (.wr (.wr (.wr (.ite h h.wr)))))) (.dropFetched (.wr (.ite h h.wr)))

theorem queueBase {q v} : WellKept (e.queueBase q v) := .ite h h.wr

theorem queueHead {q v} : WellKept (e.queueHead q v) := .ite h h.wr

theorem dropJoin {op} : WellKept (e.dropJoin op) := by
  dsimp only [Eng.dropJoin]
  split
  · exact h.frame
  · exact h

theorem headerRead {b} : WellKept (e.headerRead b) := .ite h.frame (.frame (.ite h.wr h))

theorem mboxAck {v} : WellKept (e.mboxAck v) := .ite h.emptyMbox.wr h.wr

/-! #### Commands -/

theorem command {x op} : WellKept (e.command x op) := h.arrive

/-! #### Register views -/

theorem ctxAccess {wr off bytes} : WellKept (e.ctxAccess wr off bytes) := .ite h.frame (.ite h.wr.frame h.frame)

theorem badAccess : WellKept e.badAccess := .frame (.ite h.wr h)

theorem readEffect {r i j} : WellKept (e.readEffect r i j) := .ite h.claim (.ite h.headerRead (.frame (.ite h.wr h)))

theorem regRead {off bytes} : WellKept (e.regRead off bytes) := by
  dsimp only [Eng.regRead]
  refine .ite h.badAccess ?_
  refine .ite (.access h fun _ h => h.ctxAccess) ?_
  refine .ite (.access h fun _ h => h.frame) ?_
  refine .ite (.access h fun _ h => h.frame) ?_
  refine .ite ?_ ?_
  · refine .ite ?_ h.badAccess
    exact .access h fun _ h => h.frame
  · split
    · refine .ite ?_ h.badAccess
      exact .access h fun _ h => h.readEffect
    · exact h.badAccess

/-! #### The register window -/

theorem portPower {p v} : WellKept (e.portPower p v) := .ite h.putFields.wr h.putFields

theorem secWrite {v} : WellKept (e.secWrite v) := .ite h.putField.zeroize.settle h.putField

theorem expertWrite {v} : WellKept (e.expertWrite v) := h.wr.spillExpert.advisorExpert

theorem placeWrite {flds v} : WellKept (e.placeWrite flds v) := h.wr.putFields

theorem schedWrite {arms flds v} : WellKept (e.schedWrite arms flds v) := .ite h.putFields.frame h.putFields

theorem thickWrite {v} : WellKept (e.thickWrite v) := h.wr.thickTrim

theorem errWrite {flds v} : WellKept (e.errWrite flds v) := h.putFields.rsvdCheck

theorem writeLow {base i flds v} : AllSome WellKept (e.writeLow base i flds v) := by
  refine .ite (.some h.errWrite) ?_
  refine .ite (.some h.startLock) ?_
  refine .ite (.some h.expertWrite) ?_
  refine .ite (.some h.placeWrite) ?_
  refine .ite (.some h.sleepWrite) ?_
  refine .ite (.some h.genReset) ?_
  refine .ite (.some h.pruneWrite) ?_
  refine .ite (.some h.srcCfgWrite) ?_
  refine .ite (.some h.groupWrite) ?_
  refine .ite (.some h.completeSrc) ?_
  refine .ite (.some h.correct) ?_
  refine .ite (.some h.wr.alarmCheck) ?_
  refine .ite (.some h.setSync) ?_
  refine .ite (.some h.signal) ?_
  refine .ite (.some h.watchWrite) ?_
  refine .ite (.some h.wr.watchCheck) ?_
  refine .ite ?_ .none
  exact .some h.secWrite

theorem writeHigh {base i flds v} : AllSome WellKept (e.writeHigh base i flds v) := by
  refine .ite (.some h.portCtl.bootReady) ?_
  refine .ite (.some h.portPower) ?_
  refine .ite (.some h.portTest) ?_
  refine .ite (.some h.layoutWrite) ?_
  refine .ite (.some h.advisorExpert) ?_
  refine .ite (.some (.ite h.putFields.dueCheck h.putFields)) ?_
  refine .ite (.some h.spillWrite) ?_
  refine .ite (.some h.schedWrite) ?_
  refine .ite (.some h.declareBoundary) ?_
  refine .ite (.some h.schedWrite) ?_
  refine .ite (.some h.mapCtlWrite) ?_
  refine .ite (.some h.thickWrite) ?_
  refine .ite (.some h.latchRecord) ?_
  refine .ite (.some h.jobRiskWrite) ?_
  refine .ite (.some h.queueBase) ?_
  refine .ite (.some h.queueCtl) ?_
  refine .ite (.some h.doorbell) ?_
  refine .ite (.some h.queueHead) ?_
  refine .ite ?_ .none
  exact .some h.mboxAck

theorem writeReg {r i j v} : WellKept (e.writeReg r i j v) := by
  unfold Eng.writeReg
  refine .write h fun e h => ?_
  have hact : AllSome WellKept (if r.base < 0x040000 then e.writeLow r.base i (r.flds i j) v
      else e.writeHigh r.base i (r.flds i j) v) := .ite h.writeLow h.writeHigh
  split
  · next he => exact hact _ he
  · exact h.putFields.fixWritten

theorem capWrite {off v} : WellKept (e.capWrite off v) := .ite h h.wr

theorem regWrite {off bytes v} : WellKept (e.regWrite off bytes v) := by
  dsimp only [Eng.regWrite]
  refine .ite h.badAccess ?_
  refine .ite (.change h fun _ h => h.ctxAccess) ?_
  refine .ite (.change h fun _ h => h.descWrite) ?_
  refine .ite (.change h fun _ h => h.storeWrite) ?_
  refine .ite ?_ ?_
  · refine .ite ?_ h.badAccess
    exact .access h fun _ h => h.capWrite
  · split
    · exact .ite h.writeReg h.badAccess
    · exact h.badAccess

end WellKept
end

/-! ### Every command, and every step -/

/-- Where an answer is a state, its engine keeps the canonical forms. -/
def Lands (o : Host.Outcome State Fault Refusal) : Prop := ∀ t, o = .next t → WellKept t.eng

namespace Lands

theorem fault {f : Fault} : Lands (.fault f) := fun _ h => by cases h

theorem ite {c : Prop} {_ : Decidable c} {a b : Host.Outcome State Fault Refusal} (ha : Lands a) (hb : Lands b) :
    Lands (if c then a else b) := by split; exacts [ha, hb]

theorem run {s : State} (h : WellKept s.eng) {f : Eng → Eng} (hf : Keeps f) : Lands (.next (s.run f)) := by
  rintro _ ⟨⟩
  exact hf _ h.frame

end Lands

/-- A command faults or runs one effect, made of effects above. -/
theorem exec_lands {s : State} (h : WellKept s.eng) : ∀ c, Lands (exec c s)
  | .registerWrite .. => .run h fun _ h => .ite h.regWrite h.regWrite
  | .badRegisterAccess .. => .run h fun _ h => .ite h.regWrite h.regRead
  | .descriptorWrite .. => .run h fun _ h => .change h fun _ h => .ite h.wr.frame h.descWrite
  | .descriptorValid .. => .run h fun _ h => .change h fun _ h => h.descWrite
  | .programStoreWrite .. => .run h fun _ h => .change h fun _ h => .ite h.wr.frame h.storeWrite
  | .programSlotValid .. => .run h fun _ h => .change h fun _ h => h.storeWrite
  | .startLock .. => .run h fun _ h => .write h fun _ h => h.startLock
  | .rollCallRecord .. => .run h fun _ h => h.rollRecord
  | .rollCallResend .. => .run h fun _ h => .ite h (.each h.frame fun _ _ h => h.sendRecord)
  | .rollCallTimeout => .run h fun _ h => .ite h.refuseRoll h
  | .mapArm .. => .run h fun _ h => .write h fun _ h => h.mapCtlWrite
  | .mapWrite .. => .run h fun _ h => h.mapWrite
  | .mapChildTimeout .. => .run h fun _ h => .ite h.frame.wr h
  | .mapWaitExpiry | .mapFetchRetry => .run h fun _ h => .ite h.fetchMap h
  | .mapFetchComplete .. =>
    .run h fun _ h => .ite h (by split; exacts [h.fetchFailed, .ite h.fetchFailed (.ite h.wr h.bufferMap.takeMap)])
  | .coreReset .. | .cryptoReset .. => .run h fun _ h => .write h fun _ h => h.genReset
  | .coreResumed .. =>
    .run h fun _ h =>
      .ite h (.ite h.leaveService (.settle (.each (.each h.frame.resumed fun _ _ h => h.resumeLate) fun _ _ h => h.pump)))
  | .watchdogExpiry => .run h fun _ h => h.coreReset
  | .pruneCluster .. | .pruneLane .. | .unprune .. => .run h fun _ h => .write h fun _ h => h.pruneWrite
  | .clusterFault .. => .run h fun _ h => .ite h.pruneCluster h
  | .sleepRequest .. => .run h fun _ h => .write h fun _ h => h.sleepWrite
  | .fastClockWake .. | .readSlow .. | .prbsLockTimeout .. => .run h fun _ h => .ite h.wr h
  | .zeroizeCommand .. => .run h fun _ h => .write h fun _ h => h.secWrite
  | .portRetrain .. => .run h fun _ h => .write h fun _ h => h.portCtl.bootReady
  | .portTestRun .. => .run h fun _ h => .write h fun _ h => h.portTest
  | .boundaryDeclare .. => .run h fun _ h => .write h fun _ h => h.declareBoundary
  | .jobRiskWrite .. => .run h fun _ h => .write h fun _ h => h.jobRiskWrite
  | .timeCorrection .. => .run h fun _ h => .write h fun _ h => h.correct
  | .timeRead => .run h fun _ h => .access h fun _ h => h.wr.frame
  | .alarmSet .. => .run h fun _ h => .write h fun _ h => h.wr.alarmCheck
  | .timeAlarm => .run h fun _ h => .ite h h.passTo.alarmCheck
  | .ppsEdge => .run h fun _ h => .ite h.ppsEdge h
  | .ppsLost | .tierLate .. => .run h fun _ h => .ite h.wr.raise h
  | .gcountDelivery .. => .run h fun _ h => .ite h.gcount h
  | .gcntLost => .run h fun _ h => .ite h h.wr.raise
  | .syncSignal .. => .run h fun _ h => .write h fun _ h => h.signal
  | .syncSet .. => .run h fun _ h => .write h fun _ h => h.setSync
  | .watchEnable .. => .run h fun _ h => .write h fun _ h => h.watchWrite
  | .groupCoalesceTimer .. => .run h fun _ h => h.coalesceExpiry
  | .holdoffEnd .. => .run h fun _ h => h.holdoffExpiry
  | .groupUnmask .. => .run h fun _ h => .write h fun _ h => h.groupWrite
  | .interruptClaim .. => .run h fun _ h => .access h fun _ h => h.claim
  | .interruptComplete .. => .run h fun _ h => .write h fun _ h => h.completeSrc
  | .doorbell .. => .run h fun _ h => .write h fun _ h => h.doorbell
  | .queueEnable .. | .queueDisable .. => .run h fun _ h => .write h fun _ h => h.queueCtl
  | .commandAccept .. | .scrubRange .. => .run h fun _ h => h.arrive
  | .commandTimeout .. => .run h fun _ h => by split; exacts [h, h.endCmd.raise.dropJoin]
  | .mailboxHeaderRead .. => .run h fun _ h => .access h fun _ h => h.headerRead
  | .mailboxAck .. => .run h fun _ h => .write h fun _ h => h.mboxAck
  | .ledgerLatch .. => .run h fun _ h => .write h fun _ h => h.latchRecord
  | .nop .. | .ringOpen .. | .ringSeal .. | .ringCommit .. | .ringRollback .. | .stepRetire .. | .updateRun ..
  | .runResume .. | .runCancel .. | .graftBegin .. | .graftBeginStandby .. | .resumeSet .. | .evacuateCopy ..
  | .evacuateCutover .. | .evacuateAbort .. | .anchorWrite .. | .anchorCancel .. | .anchorRestore ..
  | .reLeaf .. | .adopt .. | .tensorDigest .. => .run h fun _ h => h.command
  | .stepRetirement => .run h fun _ h => h.retireReady.settle
  | .statusGet .. | .getEndpointId | .getMessageTypeSupport | .badMsg .. | .dynamicAddressAssignment .. =>
    .run h fun _ h => .onPort h fun _ h => h.frame
  | .viewSet .. => .run h fun _ h => .onPort h fun _ h => h.viewSet
  | .viewGet .. => .run h fun _ h => .onPort h fun _ h => h.viewGet
  | .keyChallenge .. => .run h fun _ h => .onPort h fun _ h => h.challenge
  | .keyLoad .. => .run h fun _ h => .onPort h fun _ h => h.keyLoad
  | .keyZeroize .. => .run h fun _ h => .onPort h fun _ h => h.zeroize.frame
  | .setEndpointId .. | .getMctpVersionSupport .. => .run h fun _ h => .onPort h fun _ h => .ite h.frame.frame h.frame
  | .foreignVendorMessage .. => .run h fun _ h => .onPort h fun _ h => .ite h.ownMessage h
  | .pathDisagree .. => .run h fun _ h => h.pathDisagree
  | .tapPair .. => .ite .fault (.run h fun _ h => .ite (.frame (.frame (.ite h.wr h))) (.acceptTap (.ite h.wr h)))
  | .captureIdleClose .. => .run h fun _ h => by split; exacts [.ite h.closeEntry.retryTaps h, h]
  | .barkCorrectedReport .. => .run h fun _ h => .ite h h.report
  | .referredRead .. => .ite .fault (.run h fun _ h => h.referredRead.recon)
  | .heatSample .. => .run h fun _ h => .ite h.setCtx h
  | .heatDecaySweep => .run h fun _ h => .ite h.decay.hotNotices.heatDecision h
  | .heatQuery .. | .wrapperInstructionLoad .. => .run h fun _ h => h.frame
  | .holdQuery .. => .run h fun _ h => h.holdQuery
  | .memoryReadComplete .. => .run h fun _ h => .ite h.readDone h
  | .memoryWriteResponse .. => .run h fun _ h => .ite h.writeDone h
  | .stackReady .. => .run h fun _ h => .ite h (.ite h.frame.stacksIn h.frame)
  | .memReadyTimeout => .run h fun _ h => .ite (.frame (.ite h.wr.bootFails h.wr.bootFails.wr)) h
  | .fillComplete .. =>
    .run h fun _ h => .ite h (.ite (.ite h.emptied.wr.wr.wr.bootFails h.emptied.wr.wr.wr)
      (.ite h.emptied.wr (.trainAll (.wr (.frame h.emptied.wr)))))
  | .shareWindow .. => .run h fun _ h => .ite (.each h fun _ _ h => h.portWindow.newWindow) h
  | .shareLoopDecision .. => .run h fun _ h => .ite h.shareDecision h
  | .sramPatrol .. => .run h fun _ h => .ite h.sramPatrol h
  | .intakeRecord .. => .run h fun _ h => .pumpRuns (.intake (.ite h.wr h))
  | .chunkComplete .. => .run h fun _ h => h.chunkDone
  | .spanUnblock .. => .run h fun _ h => .ite h h.runGo
  | .tierDone .. => .run h fun _ h => .ite h.tierDone.settle h
  | .flushLate | .commitLate => .run h fun _ h => .ite h.raise h
  | .streamDelta .. | .ringDelta .. | .deltaAck .. | .deltaRelease .. | .deltaBusy .. | .sealVote ..
  | .voteReq .. | .rollFetch .. | .rollData .. | .rollEnd .. | .rollNone .. | .mirrorData .. | .mirrorDone ..
  | .mirrorAck .. | .mirrorTorn .. | .mirrorRead .. | .mirrorLines .. | .mirrorNone .. | .classProd ..
  | .prodAck .. | .logData .. | .logScalar .. | .logAck .. | .logRetire .. | .pointReport .. | .pointDecide ..
  | .pointDone .. | .pointSettled .. | .heartbeat .. | .lossNotice .. | .rbReq .. | .rbPart .. | .rbDone ..
  | .rbCredit .. | .graftJoin .. | .graftWelcome .. | .graftCount .. | .graftPhase .. | .snapNote ..
  | .thickNote .. | .heatCopy .. | .evacData .. | .evacState .. | .handover .. => .run h fun _ h => h.receive
  | .heldPacketResume => .run h fun _ h => h.drainWaits
  | .ackDeadlineMiss .. => .run h fun _ h => by split; exacts [h.deadlineMiss, h]
  | .packetResend .. => .run h fun _ h => by split; exacts [h.resendTo, h]
  | .releaseTimer .. => .run h fun _ h => h.sendRelease
  | .localSeal => .run h fun _ h => h.trySeal
  | .sealTimeout .. => .run h fun _ h => h.sealTimeout
  | .ringStall => .run h fun _ h => .ite h.frame.raise h
  | .ringApplyEnd => .run h fun _ h => .ite h (by split; exacts [h, .ite h h.applyEnd.frame.settle])
  | .mirrorAckTimeout .. => .run h fun _ h => h.mirrorAckTimeout
  | .mirrorReadRetry .. => .run h fun _ h => h.mirrorRetry
  | .pointTimeout .. => .run h fun _ h => h.pointTimeout
  | .heartbeatTimer => .run h fun _ h => h.heartbeat
  | .memberSilent .. => .run h fun _ h => h.membersSilent.settle
  | .rbChunkTimeout .. => .run h fun _ h => h.chunkTimeout.recon
  | .accFallback .. => .run h fun _ h => h.accFallback
  | .degradedRead .. => .run h fun _ h => h.degradedRead.recon
  | .degradedReadTimeout .. => .run h fun _ h => h.drTimeout
  | .evacReady => .run h fun _ h => h.evacReady
  | .riskEvaluation => .run h fun _ h => .ite h.riskEvaluation.settle h
  | .rateBucketTick => .run h fun _ h => .ite h.bucketTick h
  | .laneReport .. => .run h fun _ h => .ite h.laneReport h
  | .wearSample .. => .run h fun _ h => .ite h.wearSample h
  | .droopWarn => .run h fun _ h => .ite h.frame.wr.frame h.frame
  | .droopRecover .. => .run h fun _ h => .ite h.frame.wr h.frame
  | .linkLoopDecision .. => .run h fun _ h => .ite h.linkDecision h
  | .anchorDueTimer => .run h fun _ h => .ite h.dueCheck h
  | .storageWriteComplete .. => .run h fun _ h => h.storageDone
  | .storageRetry => .run h fun _ h => h.storageRetry
  | .weightDigest => .run h fun _ h => .ite h.weightDigest h
  | .digestRecompute .. => .run h fun _ h => .ite h.needDig h
  | .powerGood .. => .run h fun _ h => h.powerGood
  | .powerLoss => .run h fun _ _ => .powerLoss
  | .selfTestFail .. => .run h fun _ h => h.errorState.settle
  | .computeReset => .run h fun _ h => .ite h.frame.computeReset h.frame
  | .computeResetRelease => .run h fun _ h => .ite h (.each h.frame fun _ _ h => h.frame)
  | .tamper => .run h fun _ h => h.tampered
  | .flashShareRequest .. => .run h fun _ h => h.flashShare
  | .portTrainingStep .. => .run h fun _ h => h.trainingStep.bootReady
  | .linkReset .. => .run h fun _ h => h.linkReset
  | .laneLockLoss .. => .run h fun _ h => h.loseLane
  | .dataFlit .. => .run h fun _ h => .rxFlit h fun _ h => .ite h.dataBody h
  | .abortFlit .. => .run h fun _ h => .rxFlit h fun _ h => .ite h.streamAbort h
  | .relayStall .. => .run h fun _ h => by split; exacts [.ite h.frame.abortArriving h, h]
  | .init .. => .run h fun _ h => h.wakeClocks.rxInit
  | .id .. => .run h fun _ h => h.wakeClocks.rxId.bootReady
  | .width .. => .run h fun _ h => h.wakeClocks.rxWidth
  | .retryReq .. => .run h fun _ h => h.wakeClocks.rxRetryReq
  | .retryReqRepeat .. | .beatTimer .. => .run h fun _ h => .ite h.ctl h
  | .ack .. => .run h fun _ h => h.wakeClocks.rxAckFlit
  | .ackTimer .. => .run h fun _ h => .ite h h.sendAck
  | .credit .. => .run h fun _ h => h.wakeClocks.rxCredit
  | .restripe .. => .run h fun _ h => h.wakeClocks.rxRestripe
  | .lowReq .. => .run h fun _ h => h.wakeClocks.rxLowReq
  | .lowAck .. => .run h fun _ h => h.wakeClocks.rxLowAck
  | .lowNak .. => .run h fun _ h => h.wakeClocks.rxLowNak
  | .wake .. => .run h fun _ h => by split; exacts [h.rxWake, h.wakeClocks.wakePort]
  | .wakeComplete .. => .run h fun _ h => h.wakeDone
  | .wakeLockTimeout .. => .run h fun _ h => .ite (.frame (.ite h.wr h)) h
  | .beat .. => .run h fun _ h => h.rxBeat
  | .lowLinkSilence .. => .run h fun _ h => .ite h.linkReset h
  | .spillWrite .. | .routeWrite .. => .run h fun _ h => h.fabricPkt
  | .portIdleTimer .. => .run h fun _ h => .ite h.frame.ask h
  | .deltaBusyEnd .. => .run h fun _ h => h.frame.transmitReady
  | .rollFetchTimeout .. => .run h fun _ h => h.rollTimeout
  | .referredReadLimit .. => .run h fun _ h => h.referralLimit
  | .storageReadComplete .. => .run h fun _ h => .ite h.restoreRead.settle h
  | .timeSlewEnd => .run h fun _ h => by split; exacts [h, h.frame.frame.alarmCheck]
  | .instrumentAccess .. => .run h fun _ h => .ite h.instrumentWrite h.instrumentRead

theorem step_lands {s : State} (h : WellKept s.eng) : Lands (step s) := by
  unfold step
  split
  · exact .run h fun _ h => h.idle
  · next c rest _ => exact exec_lands (s := { s with pending := rest }) h c

/-- Settles O5: each command's effect is put together from effects that keep the canonical forms. -/
theorem everyStepKeepsTheCanonicalForms : Obligations.EveryStepKeepsTheCanonicalForms :=
  fun _ _ h ht => step_lands h _ ht

end Sys2Proof
end

section
/-!
PROOF. The memory comes up (R25, R314, R336, R434, R435): the rule for the stacks' capacities, the areas laid out below the
top, and the end of the fill.
-/
namespace Sys2Proof.Machine

/-! ### The capacities of the stacks -/

/-- What is put in a table is an entry of it. -/
theorem mem_put_self {α : Type} (m : SMap α) (x : Nat) (w : α) : (x, w) ∈ put m x w := by
  induction m with
  | nil => simp [put]
  | cons p ps ih => grind [put]

/-- R25's rule compares every capacity with every other, and holds while none is reported. -/
theorem geomOk_iff {b : Boot} :
    b.geomOk = true ↔ ∀ x ∈ b.stackCaps, 16 ≤ x.2 ∧ x.2 ≤ 128 ∧ ∀ y ∈ b.stackCaps, x.2 = y.2 := by
  cases hcaps : b.stackCaps with
  | nil => simp [Boot.geomOk, hcaps]
  | cons c cs =>
    simp only [Boot.geomOk, hcaps, List.map_cons, List.headD_cons, List.all_eq_true, Bool.and_eq_true, beq_iff_eq,
      decide_eq_true_eq]
    constructor
    · intro h x hx
      obtain ⟨⟨hxc, hlo⟩, hhi⟩ := h x hx
      exact ⟨hlo, hhi, fun y hy => hxc.trans (h y hy).1.1.symm⟩
    · intro h x hx
      obtain ⟨hlo, hhi, heq⟩ := h x hx
      exact ⟨⟨heq c List.mem_cons_self, hlo⟩, hhi⟩

/-- Where one capacity is known, the rule is about that one. -/
theorem geomOk_iff_of_mem {b : Boot} {p : Nat × Nat} (hp : p ∈ b.stackCaps) :
    b.geomOk = true ↔ (∀ x ∈ b.stackCaps, x.2 = p.2) ∧ 16 ≤ p.2 ∧ p.2 ≤ 128 := by
  rw [geomOk_iff]
  constructor
  · intro h
    exact ⟨fun x hx => (h x hx).2.2 p hp, (h p hp).1, (h p hp).2.1⟩
  · rintro ⟨heq, hlo, hhi⟩ x hx
    rw [heq x hx]
    exact ⟨hlo, hhi, fun y hy => (heq y hy).symm⟩

theorem headD_stackCaps {b : Boot} {p : Nat × Nat} (hp : p ∈ b.stackCaps) (h : ∀ x ∈ b.stackCaps, x.2 = p.2) :
    (b.stackCaps.map (·.2)).headD 0 = p.2 := by
  cases hcaps : b.stackCaps with
  | nil => simp [hcaps] at hp
  | cons c cs => exact h c (hcaps ▸ List.mem_cons_self)

/-! ### The layout -/

/-- Of the capacity in MiB, one part in 64 lies above `MEM_HW_BASE`. -/
theorem layout_hwBase {e : Eng} {g : Nat} (hg : e.rd Reg.GEN_FLOOR_SUM_STACK_GIB = g) (hhi : g ≤ 128) :
    e.layout.rd Reg.MEM_HW_BASE_BASE = 8192 * g - 128 * g := by
  simp (disch := decide) only [Eng.layout, Eng.rd_wr_ne, Eng.rd_wr_same, hg, Reg.MEM_HW_BASE_BASE]
  omega

/-- The usable part ends where the journal begins: no area reaches above the top that its field can show. -/
theorem layout_usableTop {e : Eng} (hhi : e.rd Reg.GEN_FLOOR_SUM_STACK_GIB ≤ 128) :
    e.layout.rd Reg.MEM_USABLE_TOP_TOP = e.layout.rd Reg.MEM_JOURNAL_BASE_BASE := by
  simp (disch := decide) only [Eng.layout, Eng.rd_wr_ne, Eng.rd_wr_same]
  generalize e.rd Reg.MEM_LAYOUT_CTL_JOURNAL_PCT * _ / 100 = journal
  simp only [Reg.MEM_USABLE_TOP_TOP, Reg.MEM_JOURNAL_BASE_BASE]
  omega

theorem layout_rd {e : Eng} {f : Fld} (h : ∀ g ∈ [Reg.MEM_HW_BASE_BASE, Reg.MEM_BITMAP_BASE_BASE, Reg.MEM_JOURNAL_BASE_BASE,
    Reg.MEM_USABLE_TOP_TOP], f.key ≠ g.key) : e.layout.rd f = e.rd f := by
  simp only [List.forall_mem_cons] at h
  simp only [Eng.layout, Eng.rd_wr, h, if_false]

/-! ### The last stack reports -/

theorem next_leaving {s : State} {e e' : Eng} (h : e = e') :
    (.next (leaving s e) : Host.Outcome State Fault Refusal) = .next (leaving s e') := by rw [h]

theorem stacksIn_of_geomOk {e : Eng} {p : Nat × Nat} (hp : p ∈ e.boot.stackCaps) (hok : e.boot.geomOk = true) :
    e.stacksIn = (e.wr Reg.GEN_FLOOR_SUM_STACK_GIB p.2).layout.startFill := by
  rw [Eng.stacksIn, if_pos hok, headD_stackCaps hp ((geomOk_iff_of_mem hp).1 hok).1]

theorem rd_startFill {e : Eng} {f : Fld} (h : f.key ≠ Reg.GEN_BOOT_STAGE.key) : e.startFill.rd f = e.rd f :=
  Eng.rd_wr_ne _ _ h

/-- Capacities that R25 accepts: the areas are laid out and the fill begins. -/
theorem stacksIn_fills {e : Eng} {p : Nat × Nat} (hp : p ∈ e.boot.stackCaps) (hok : e.boot.geomOk = true) :
    e.stacksIn.boot.filling = true ∧ e.stacksIn.rd Reg.GEN_BOOT_STAGE = 6 ∧
    e.stacksIn.rd Reg.GEN_FLOOR_SUM_STACK_GIB = p.2 ∧ e.stacksIn.rd Reg.MEM_HW_BASE_BASE = 8192 * p.2 - 128 * p.2 ∧
    e.stacksIn.rd Reg.MEM_USABLE_TOP_TOP = e.stacksIn.rd Reg.MEM_JOURNAL_BASE_BASE := by
  obtain ⟨-, -, hhi⟩ := (geomOk_iff_of_mem hp).1 hok
  have hgib : (e.wr Reg.GEN_FLOOR_SUM_STACK_GIB p.2).rd Reg.GEN_FLOOR_SUM_STACK_GIB = p.2 := by
    rw [Eng.rd_wr_same]
    exact Nat.mod_eq_of_lt (Nat.lt_of_le_of_lt hhi (by decide))
  rw [stacksIn_of_geomOk hp hok]
  refine ⟨rfl, Eng.rd_wr_same _ _ _, ?_, ?_, ?_⟩
  · rw [rd_startFill (by decide), layout_rd (by decide), hgib]
  · rw [rd_startFill (by decide), layout_hwBase hgib hhi]
  · rw [rd_startFill (by decide), rd_startFill (by decide)]
    exact layout_usableTop (hgib.trans_le hhi)

theorem rd_bootFails (e : Eng) {why : Nat} (h : why < 16) : (e.bootFails why).rd Reg.GEN_BOOT_FAIL = why := by
  rw [Eng.bootFails, Eng.rd_wr_ne _ _ (by decide), Eng.rd_wr_same]
  exact Nat.mod_eq_of_lt h

/-- Capacities that R25 refuses: the sequence ends at step 5. -/
theorem stacksIn_ends {e : Eng} (hbad : e.boot.geomOk = false) :
    e.stacksIn.boot = e.boot ∧ e.stacksIn.on Reg.GEN_FLOOR_SUM_MEM_GEOM_BAD = true ∧
    e.stacksIn.rd Reg.GEN_BOOT_FAIL = 5 := by
  rw [Eng.stacksIn, if_neg (by simp [hbad])]
  refine ⟨rfl, ?_, ?_⟩
  · simp (disch := decide) only [Eng.bootFails, Eng.on_wr_ne, Eng.on_flag_same]
  · exact rd_bootFails _ (by decide)

/-- The engine that has heard of one more stack. -/
def Eng.heard (e : Eng) (n gib : Nat) : Eng := { e with boot := { e.boot with stackCaps := put e.boot.stackCaps n gib } }

/-- A stack's first report is heard while the sequence waits for it. -/
theorem exec_stackReady {s : State} {n : Fin 8} {gib : Byte} (hpwr : s.eng.pins.pwrGood = true)
    (hfill : s.eng.boot.filling = false) (hrun : s.eng.rd Reg.GEN_BOOT_FAIL = 0) (hnew : look s.eng.boot.stackCaps n.val = none) :
    exec (.stackReady n gib) s = .next (leaving s
      (if ((quiet s).heard n gib.toNat).boot.stackCaps.length = 8 ∧ s.eng.rd Reg.GEN_BOOT_STAGE = 5
        then ((quiet s).heard n gib.toNat).stacksIn else (quiet s).heard n gib.toNat)) := by
  have hgo : (!s.eng.pins.pwrGood || s.eng.boot.filling || s.eng.rd Reg.GEN_BOOT_FAIL != 0 ||
      (look s.eng.boot.stackCaps n.val).isSome) = false := by simp [hpwr, hfill, hrun, hnew]
  exact next_leaving ((if_neg (Bool.eq_false_iff.1 hgo)).trans
    (if_congr (Bool.and_eq_true_iff.trans (and_congr decide_eq_true_iff decide_eq_true_iff)) rfl rfl))

/-! ### The bound, and the end of the fill -/

/-- The sequence has ended with a stack missing. -/
def Eng.boundPassed (e : Eng) : Eng :=
  (e.wr Reg.MEM_FILL_STACKS (bitsWhere 8 (fun i => (look e.boot.stackCaps i).isNone))).bootFails 6

/-- The engine with its fill running. -/
def Eng.fillRuns (e : Eng) : Eng := { e with boot := { e.boot with filling := true } }

/-- With a stack missing at the bound, the fill runs on those that have reported. -/
theorem exec_memReadyTimeout {s : State} (hstage : s.eng.rd Reg.GEN_BOOT_STAGE = 5) (hrun : s.eng.rd Reg.GEN_BOOT_FAIL = 0)
    (hfill : s.eng.boot.filling = false) :
    exec .memReadyTimeout s = .next (leaving s
      (if s.eng.boot.geomOk then (quiet s).boundPassed
        else (quiet s).boundPassed.flag Reg.GEN_FLOOR_SUM_MEM_GEOM_BAD true).fillRuns) := by
  have hgo : (s.eng.rd Reg.GEN_BOOT_STAGE = 5 && s.eng.rd Reg.GEN_BOOT_FAIL = 0 && !s.eng.boot.filling) = true := by
    simp [hstage, hrun, hfill]
  exact next_leaving (if_pos hgo)

/-- Memory is zero and the sequence no longer fills; what has failed is yet to be looked at. -/
def Eng.filled (e : Eng) : Eng :=
  ({ e with boot := { e.boot with filling := false }, mem := [] } : Eng).flag Reg.MEM_FILL_DONE true

theorem rd_filled {e : Eng} {f : Fld} (h : f.key ≠ Reg.MEM_FILL_DONE.key) : e.filled.rd f = e.rd f := Eng.rd_flag_ne _ _ h

/-- Every stack is filled: the cores go and the ports train. -/
theorem exec_fillComplete_zero {s : State} (hfill : s.eng.boot.filling = true) (hopen : s.eng.on Reg.MEM_FILL_DONE = false)
    (hrun : s.eng.rd Reg.GEN_BOOT_FAIL = 0) :
    exec (.fillComplete 0) s = .next (leaving s
      (({ (quiet s).filled with pins := { (quiet s).pins with compHold := false } } : Eng).wr Reg.GEN_BOOT_STAGE 7).trainAll) := by
  have hgo : (!s.eng.boot.filling || s.eng.on Reg.MEM_FILL_DONE) = false := by simp [hfill, hopen]
  have hsound : ((quiet s).filled.rd Reg.GEN_BOOT_FAIL != 0) = false := by
    rw [rd_filled (by decide), quiet_rd, hrun]
    rfl
  exact next_leaving ((if_neg (Bool.eq_false_iff.1 hgo)).trans
    ((if_neg (by decide)).trans (if_neg (Bool.eq_false_iff.1 hsound))))

/-- The fill has ended with stacks that failed it. -/
def Eng.fillFailed (e : Eng) (failed : Byte) : Eng :=
  (e.filled.flag Reg.MEM_FILL_FAIL true).wr Reg.MEM_FILL_STACKS (e.filled.rd Reg.MEM_FILL_STACKS ||| failed.toNat)

theorem exec_fillComplete_failed {s : State} {failed : Byte} (hfill : s.eng.boot.filling = true)
    (hopen : s.eng.on Reg.MEM_FILL_DONE = false) (hrun : s.eng.rd Reg.GEN_BOOT_FAIL = 0) (hfailed : failed ≠ 0) :
    exec (.fillComplete failed) s = .next (leaving s (((quiet s).fillFailed failed).bootFails 7)) := by
  have hgo : (!s.eng.boot.filling || s.eng.on Reg.MEM_FILL_DONE) = false := by simp [hfill, hopen]
  have hsound : ((quiet s).fillFailed failed).rd Reg.GEN_BOOT_FAIL = 0 := by
    rw [Eng.fillFailed, Eng.rd_wr_ne _ _ (by decide), Eng.rd_flag_ne _ _ (by decide), rd_filled (by decide), quiet_rd, hrun]
  exact next_leaving ((if_neg (Bool.eq_false_iff.1 hgo)).trans ((if_pos (bne_iff_ne.2 hfailed)).trans (if_pos hsound)))

/-- Settles O43: the three commands of the bring-up, with R25's rule in the statement's words. -/
theorem memoryComesUp : Obligations.MemoryComesUp := by
  unfold Obligations.MemoryComesUp
  intro s
  refine ⟨fun n gib hpwr hfill hrun hnew => ?ready, fun hstage hrun hfill => ?bound, fun hfill hopen hrun => ?fill⟩
  case ready =>
    have hmem : (n.val, gib.toNat) ∈ ((quiet s).heard n gib.toNat).boot.stackCaps := mem_put_self _ _ _
    have hexec := exec_stackReady (gib := gib) hpwr hfill hrun hnew
    refine ⟨fun hwait => hexec.trans (next_leaving (if_neg (not_and_or.2 hwait))), fun hlast hstage => ?_⟩
    have hin := hexec.trans (next_leaving (if_pos ⟨hlast, hstage⟩))
    refine ⟨fun heq hlo hhi => ⟨_, hin, stacksIn_fills hmem ((geomOk_iff_of_mem hmem).2 ⟨heq, hlo, hhi⟩)⟩, fun hbad => ?_⟩
    have hnot : ((quiet s).heard n gib.toNat).boot.geomOk = false := by
      refine Bool.eq_false_iff.2 fun hok => ?_
      obtain ⟨heq, hlo, hhi⟩ := (geomOk_iff_of_mem hmem).1 hok
      rcases hbad with ⟨x, hx, hne⟩ | hlow | hhigh
      · exact hne (heq x hx)
      · exact Nat.not_lt.2 hlo hlow
      · exact Nat.not_lt.2 hhi hhigh
    obtain ⟨hboot, hgeom, hcause⟩ := stacksIn_ends hnot
    exact ⟨_, hin, (congrArg Boot.filling hboot).trans hfill, hgeom, hcause⟩
  case bound =>
    refine ⟨fun hsound => ?_, fun hsound => ?_⟩
    · rw [exec_memReadyTimeout hstage hrun hfill, geomOk_iff.2 hsound]
      rfl
    · rw [exec_memReadyTimeout hstage hrun hfill, Bool.eq_false_iff.2 (mt geomOk_iff.1 hsound)]
      rfl
  case fill =>
    refine ⟨exec_fillComplete_zero hfill hopen hrun, fun failed hfailed =>
      ⟨_, exec_fillComplete_failed hfill hopen hrun hfailed, fun a => rfl, ?_, rd_bootFails _ (by decide), rfl, ?_⟩⟩
    · simp (disch := decide) only [Eng.bootFails, Eng.fillFailed, Eng.on_wr_ne, Eng.on_flag_same]
    · simp (disch := decide) only [Eng.bootFails, Eng.fillFailed, Eng.rd_wr_ne, Eng.rd_wr_same, rd_filled,
        quiet_rd]
      rfl

end Sys2Proof.Machine
end

section
/-!
PROOF. The code of a grove (R42 to R50): the placement of a stripe, the table of coefficients, and parity leaves as sums over
the field.
-/
namespace Sys2Proof.Machine

/-! ### Placement -/

/-- R43 undoes R42: the position that is `i` beyond a row's number holds the role `i`. -/
theorem roleOf_add_mod {w i : Nat} (s : Nat) (hi : i < w) : roleOf w ((s + i) % w) s = i := by
  have hs : s % w < w := Nat.mod_lt s (by omega)
  rw [roleOf, Nat.add_mod s i w, Nat.mod_eq_of_lt hi]
  rcases Nat.lt_or_ge (s % w + i) w with hlt | hge
  · rw [Nat.mod_eq_of_lt hlt, show s % w + i + w - s % w = i + w by omega, Nat.add_mod_right, Nat.mod_eq_of_lt hi]
  · have hwrap : (s % w + i) % w = s % w + i - w := by rw [Nat.mod_eq_sub_mod hge, Nat.mod_eq_of_lt (by omega)]
    rw [hwrap, show s % w + i - w + w - s % w = i by omega, Nat.mod_eq_of_lt hi]

/-- R42 undoes R43: a position lies its own role beyond the row's number. -/
theorem add_roleOf_modEq {w p : Nat} (s : Nat) (hp : p < w) : roleOf w p s + s ≡ p [MOD w] := by
  have hs : s % w < w := Nat.mod_lt s (by omega)
  calc roleOf w p s + s
      ≡ (p + w - s % w) + s % w [MOD w] := (Nat.mod_modEq _ _).add (Nat.mod_modEq s w).symm
    _ = p + w := by omega
    _ ≡ p [MOD w] := Nat.add_mod_right p w

theorem dataPos_roleOf {w p : Nat} (s : Nat) (hp : p < w) : dataPos w s (roleOf w p s) = p := by
  rw [dataPos, Nat.add_comm, add_roleOf_modEq s hp, Nat.mod_eq_of_lt hp]

/-- The role as R43 writes it, with as many rounds added as keep the difference from falling below zero. -/
theorem roleOf_eq_sub_mod {w p : Nat} (s : Nat) (hp : p < w) : roleOf w p s = (p + w * s - s) % w := by
  have hle : s ≤ w * s := Nat.le_mul_of_pos_left s (by omega)
  have hrounds : roleOf w p s + s ≡ (p + w * s - s) + s [MOD w] := by
    refine (add_roleOf_modEq s hp).trans ?_
    rw [show p + w * s - s + s = p + w * s by omega]
    exact (Nat.add_mul_mod_self_left p w s).symm
  have hr : roleOf w p s < w := Nat.mod_lt _ (by omega)
  rw [← hrounds.add_right_cancel' s, Nat.mod_eq_of_lt hr]

/-- Settles O54: the role of a position inverts the placement, of data and of parity alike. -/
theorem everyPositionHoldsOneLeafOfAStripe : Obligations.EveryPositionHoldsOneLeafOfAStripe := by
  unfold Obligations.EveryPositionHoldsOneLeafOfAStripe
  intro w k m s hk hm hw
  refine ⟨fun i hi => ⟨rfl, roleOf_add_mod s (by omega)⟩, fun j hj => ⟨rfl, ?_⟩, fun p hp => ?_⟩
  · rw [parityPos, Nat.add_assoc]
    exact roleOf_add_mod s (by omega)
  · refine ⟨Nat.mod_lt _ (by omega), roleOf_eq_sub_mod s hp, fun _ => dataPos_roleOf s hp, fun hr => ?_⟩
    rw [parityPos, Nat.add_assoc, Nat.add_sub_cancel' hr]
    exact dataPos_roleOf s hp

/-! ### Coefficients -/

/-- Settles O55: the 64 entries, each worked out and multiplied by what it is the inverse of. -/
theorem coefficientsAreThoseOfTheTable : Obligations.CoefficientsAreThoseOfTheTable := by
  unfold Obligations.CoefficientsAreThoseOfTheTable
  decide +kernel

/-! ### Sums of byte strings -/

theorem xorBytes_assoc (a b c : List Byte) : xorBytes (xorBytes a b) c = xorBytes a (xorBytes b c) := by
  induction a generalizing b c with
  | nil => simp [xorBytes]
  | cons x xs ih =>
    cases b with
    | nil => simp [xorBytes]
    | cons y ys =>
      cases c with
      | nil => simp [xorBytes]
      | cons z zs => exact congrArg₂ List.cons (BitVec.xor_assoc x y z) (ih ys zs)

theorem xorBytes_right_comm (a b c : List Byte) : xorBytes (xorBytes a b) c = xorBytes (xorBytes a c) b := by
  rw [xorBytes_assoc, xorBytes_comm b c, ← xorBytes_assoc]

/-- A change, added to the string that it changes, gives the new string. -/
theorem xorBytes_change {a b : List Byte} (h : b.length ≤ a.length) : xorBytes a (xorBytes a b) = b := by
  rw [xorBytes_comm a b, xorBytes_comm, xorBytes_xorBytes h]

/-! ### Multiplication by a coefficient -/

/-- The product of R45 distributes over the sums of its second factor. -/
theorem gfMulAux_xor (n a b c : Nat) : gfMulAux n a (b ^^^ c) = gfMulAux n a b ^^^ gfMulAux n a c := by
  induction n generalizing a b c with
  | zero => simp [gfMulAux]
  | succ n ih =>
    have hbit : (if (b ^^^ c) % 2 = 1 then a else 0) = (if b % 2 = 1 then a else 0) ^^^ (if c % 2 = 1 then a else 0) := by
      rw [Nat.xor_mod_two_eq]
      rcases Nat.mod_two_eq_zero_or_one b with hb | hb <;> rcases Nat.mod_two_eq_zero_or_one c with hc | hc <;>
        simp [Nat.add_mod, hb, hc]
    have hhalf : (b ^^^ c) / 2 = b / 2 ^^^ c / 2 := Nat.xor_div_two
    simp only [gfMulAux, hbit, hhalf, ih]
    ac_rfl

theorem gfMul_xor (a b c : Nat) : gfMul a (b ^^^ c) = gfMul a b ^^^ gfMul a c := by
  simp only [gfMul, Nat.xor_mod_two_pow (n := 8) (a := b) (b := c), ← gfMulAux_xor]

theorem byteOf_gfMul_xor (c : Nat) (x y : Byte) :
    byteOf (gfMul c (x ^^^ y).toNat) = byteOf (gfMul c x.toNat) ^^^ byteOf (gfMul c y.toNat) := by
  rw [BitVec.toNat_xor, gfMul_xor, byteOf, BitVec.ofNat_xor]
  rfl

/-- A coefficient times a sum is the sum of the products (R48). -/
theorem gfScale_xorBytes (c : Nat) (a b : List Byte) :
    gfScale c (xorBytes a b) = xorBytes (gfScale c a) (gfScale c b) := by
  unfold gfScale
  split
  · rfl
  · simp only [xorBytes, List.map_zipWith, List.zipWith_map, byteOf_gfMul_xor]

@[simp] theorem gfScale_length (c : Nat) (a : List Byte) : (gfScale c a).length = a.length := by
  unfold gfScale
  split <;> simp

/-! ### Parity leaves -/

/-- Data leaves from an index on, each times its coefficient in parity row `j`, added to what is there (R48). -/
def addProducts (j : Nat) (acc : List Byte) (k : Nat) (ds : List (List Byte)) : List Byte :=
  (ds.zipIdx k).foldl (fun acc d => xorBytes acc (gfScale (coeff j d.2) d.1)) acc

@[simp] theorem addProducts_nil (j : Nat) (acc : List Byte) (k : Nat) : addProducts j acc k [] = acc := rfl

@[simp] theorem addProducts_cons (j : Nat) (acc : List Byte) (k : Nat) (d : List Byte) (ds : List (List Byte)) :
    addProducts j acc k (d :: ds) = addProducts j (xorBytes acc (gfScale (coeff j k) d)) (k + 1) ds := rfl

/-- What is added before the products may as well be added after them. -/
theorem addProducts_xorBytes (j : Nat) (acc x : List Byte) (k : Nat) (ds : List (List Byte)) :
    addProducts j (xorBytes acc x) k ds = xorBytes (addProducts j acc k ds) x := by
  induction ds generalizing acc k with
  | nil => rfl
  | cons d ds ih => rw [addProducts_cons, addProducts_cons, xorBytes_right_comm, ih]

theorem addProducts_length_le (j : Nat) (acc : List Byte) (k : Nat) (ds : List (List Byte)) :
    (addProducts j acc k ds).length ≤ acc.length := by
  induction ds generalizing acc k with
  | nil => exact le_rfl
  | cons d ds ih => exact (ih _ _).trans (by simp)

/-- A changed leaf changes the sum by its delta times its coefficient (R49). -/
theorem addProducts_set (j : Nat) {n : Nat} {new : List Byte} (hnew : new.length = n) (acc : List Byte) (k : Nat)
    {ds : List (List Byte)} (hds : ∀ d ∈ ds, d.length = n) {i : Nat} (hi : i < ds.length) :
    addProducts j acc k (ds.set i new) =
      xorBytes (addProducts j acc k ds) (gfScale (coeff j (k + i)) (xorBytes (ds.getD i []) new)) := by
  induction ds generalizing acc k i with
  | nil => simp at hi
  | cons d ds ih =>
    rw [List.forall_mem_cons] at hds
    cases i with
    | zero =>
      have hd : new.length ≤ d.length := by omega
      simp only [List.set_cons_zero, addProducts_cons, List.getD_cons_zero, Nat.add_zero, gfScale_xorBytes]
      rw [← addProducts_xorBytes, xorBytes_assoc, xorBytes_change (by simpa using hd)]
    | succ i =>
      simp only [List.set_cons_succ, addProducts_cons, List.getD_cons_succ, ← Nat.add_assoc, Nat.add_right_comm k i 1]
      exact ih _ _ hds.2 (by simpa using hi)

/-- Settles O56: the code is linear, since the product of the field distributes over its sum. -/
theorem parityFollowsItsData : Obligations.ParityFollowsItsData := by
  unfold Obligations.ParityFollowsItsData
  intro n j ds hds
  refine ⟨fun i new hi hnew => ?_, fun c a b ha hb => ⟨xorBytes_right_comm _ _ _, ?_, ?_⟩⟩
  · have := addProducts_set j hnew (zeros n) 0 hds hi
    rwa [Nat.zero_add] at this
  · rw [gfScale_xorBytes, xorBytes_assoc]
  · refine xorBytes_xorBytes ((addProducts_length_le j (zeros n) 0 ds).trans ?_)
    simp [zeros, ha]

end Sys2Proof.Machine
end

section
/-!
PROOF. What a packet's way out changes: of the engine's parts, only those of its interfaces.
-/
namespace Sys2Proof.Machine

/-- The engine but for what sending changes: its actions, registers, ports and sessions, and the queue of packets to itself. -/
def Eng.beyondLinks (e : Eng) : Eng := { e with out := [], regs := [], ports := [], sess := [], selfQ := [] }

theorem mem_of_beyondLinks {e e' : Eng} (h : e'.beyondLinks = e.beyondLinks) : e'.mem = e.mem :=
  show e'.beyondLinks.mem = e.beyondLinks.mem by rw [h]
theorem applied_of_beyondLinks {e e' : Eng} (h : e'.beyondLinks = e.beyondLinks) : e'.applied = e.applied :=
  show e'.beyondLinks.applied = e.beyondLinks.applied by rw [h]

/-! ### Control messages and flits -/

@[simp] theorem beyondLinks_wr (e : Eng) (f : Fld) (v : Nat) : (e.wr f v).beyondLinks = e.beyondLinks := (rfl)
@[simp] theorem beyondLinks_emit (e : Eng) (a : Action) : (e.emit a).beyondLinks = e.beyondLinks := (rfl)
@[simp] theorem beyondLinks_setPort (e : Eng) (p : Nat) (q : Port) : (e.setPort p q).beyondLinks = e.beyondLinks := (rfl)
@[simp] theorem beyondLinks_updPort (e : Eng) (p : Nat) (f : Port → Port) : (e.updPort p f).beyondLinks = e.beyondLinks :=
  (rfl)
@[simp] theorem beyondLinks_onLane (e : Eng) (p : Nat) (a : Nat → Action) : (e.onLane p a).beyondLinks = e.beyondLinks :=
  (rfl)

@[simp] theorem beyondLinks_ctl (e : Eng) (p : Nat) (m : LinkMsg) : (e.ctl p m).beyondLinks = e.beyondLinks :=
  beyondLinks_onLane _ _ _

@[simp] theorem beyondLinks_ask (e : Eng) (p : Nat) (m : LinkMsg) : (e.ask p m).beyondLinks = e.beyondLinks := by
  rw [Eng.ask, beyondLinks_ctl, beyondLinks_updPort, Eng.answered, beyondLinks_updPort]

@[simp] theorem beyondLinks_sendFlit (e : Eng) (p ftype vc cls first : Nat) (body : List Byte) :
    (e.sendFlit p ftype vc cls first body).beyondLinks = e.beyondLinks := by
  simp only [Eng.sendFlit, beyondLinks_onLane, beyondLinks_setPort]

@[simp] theorem beyondLinks_freeFlit (e : Eng) (p vc cls : Nat) : (e.freeFlit p vc cls).beyondLinks = e.beyondLinks := by
  simp only [Eng.freeFlit, beyondLinks_ctl, beyondLinks_updPort]

@[simp] theorem beyondLinks_unrefBuf (e : Eng) (p id : Nat) : (e.unrefBuf p id).beyondLinks = e.beyondLinks := by
  dsimp only [Eng.unrefBuf]
  split
  · rfl
  · split
    · rw [beyondLinks_freeFlit, beyondLinks_updPort]
    · exact beyondLinks_updPort _ _ _

@[simp] theorem beyondLinks_unmark (e : Eng) (t : TxPkt) (n : Nat) : (e.unmark t n).beyondLinks = e.beyondLinks := by
  dsimp only [Eng.unmark]
  split
  · exact Eng.each_keeps (P := fun e' => e'.beyondLinks = e.beyondLinks) _
      (fun _ _ _ h => (beyondLinks_unrefBuf _ _ _).trans h) rfl
  · rfl

@[simp] theorem beyondLinks_takeBytes (e : Eng) (p i : Nat) (t : TxPkt) (c room : Nat) :
    (e.takeBytes p i t c room).beyondLinks = e.beyondLinks := by
  simp only [Eng.takeBytes, beyondLinks_unmark, beyondLinks_setPort]

@[simp] theorem beyondLinks_fillBody (n : Nat) (e : Eng) (p vc c : Nat) (body : List Byte) (first : Nat) :
    (Eng.fillBody n e p vc c body first).1.beyondLinks = e.beyondLinks := by
  induction n generalizing e body first with
  | zero => rfl
  | succ n ih =>
    dsimp only [Eng.fillBody]
    split
    · rfl
    · rw [ih, beyondLinks_takeBytes]

@[simp] theorem beyondLinks_sendFrom (e : Eng) (p i : Nat) (t : TxPkt) (c : Nat) :
    (e.sendFrom p i t c).beyondLinks = e.beyondLinks := by
  simp only [Eng.sendFrom, beyondLinks_sendFlit, beyondLinks_updPort, beyondLinks_fillBody, beyondLinks_takeBytes]

@[simp] theorem beyondLinks_pumpN (n p : Nat) (e : Eng) : (Eng.pumpN n p e).beyondLinks = e.beyondLinks := by
  induction n generalizing e with
  | zero => rfl
  | succ n ih =>
    dsimp only [Eng.pumpN]
    split
    · split
      · rw [ih, beyondLinks_sendFlit, beyondLinks_updPort]
      · split
        · rw [ih, beyondLinks_sendFrom]
        · rfl
    · rfl

@[simp] theorem beyondLinks_startWake (e : Eng) (p : Nat) : (e.startWake p).beyondLinks = e.beyondLinks := by
  unfold Eng.startWake
  split
  · rw [Eng.toWake, Eng.flag, beyondLinks_wr, beyondLinks_wr, beyondLinks_ask]
  · rfl

@[simp] theorem beyondLinks_pump (e : Eng) (p : Nat) : (e.pump p).beyondLinks = e.beyondLinks := by
  dsimp only [Eng.pump]
  split
  · rw [beyondLinks_startWake, beyondLinks_pumpN]
  · exact beyondLinks_pumpN _ _ _

/-! ### Packets -/

@[simp] theorem beyondLinks_dispatch (e : Eng) (place dst typ : Nat) (p : SapPkt) (fabric : Bool) :
    (e.dispatch place dst typ p fabric).beyondLinks = e.beyondLinks := by
  unfold Eng.dispatch
  split
  · rfl
  · split
    · rfl
    · rw [beyondLinks_pump, Eng.enqueue, beyondLinks_updPort]

@[simp] theorem beyondLinks_sendPlace (e : Eng) (place : Nat) (p : Pkt) :
    (e.sendPlace place p).beyondLinks = e.beyondLinks := by
  dsimp only [Eng.sendPlace]
  split
  · split
    · rw [beyondLinks_dispatch, beyondLinks_emit]
      rfl
    · rfl
  · rfl

@[simp] theorem beyondLinks_send (e : Eng) (dst : Nat) (p : Pkt) : (e.send dst p).beyondLinks = e.beyondLinks := by
  unfold Eng.send
  split
  · split <;> rfl
  · exact beyondLinks_sendPlace _ _ _

@[simp] theorem beyondLinks_ackPkt (e : Eng) (p : Pkt) : (e.ackPkt p).beyondLinks = e.beyondLinks := beyondLinks_send _ _ _

end Sys2Proof.Machine
end

section
/-!
PROOF. A store to local memory and what goes with it (R325, R326, R334, R370): the bytes of the data it writes, and no other byte below
the heartwood area and the dirty bitmaps of an evacuation.
-/
namespace Sys2Proof.Machine

/-! ### Bytes that no bookkeeping of a store writes -/

/-- An address below the heartwood area and, while an evacuation keeps them, below the dirty bitmaps. -/
def Eng.isData (e : Eng) (x : Nat) : Prop := x < e.hwBase ∧ (e.bitmapsOn = true → x < e.bitmapBase)

theorem isData_congr {e e' : Eng} (h : e'.regs = e.regs) {x : Nat} : e'.isData x ↔ e.isData x := by
  simp only [Eng.isData, Eng.hwBase, Eng.bitmapsOn, Eng.bitmapBase, Eng.rd_congr h]

/-- The engine `e` has become `e'` by changes of caches, of digests and of the areas of memory that back the caches. -/
structure KeepsData (e e' : Eng) : Prop where
  regs  : e'.regs = e.regs
  rgns  : e'.rgns = e.rgns
  caps  : e'.caps = e.caps
  sent  : e'.sent = e.sent
  wf    : Memory.wf e.mem → Memory.wf e'.mem
  bytes : Memory.wf e.mem → ∀ x, e.isData x → e'.memByte x = e.memByte x

namespace KeepsData

theorem refl (e : Eng) : KeepsData e e := ⟨rfl, rfl, rfl, rfl, id, fun _ _ _ => rfl⟩

theorem ite {e a b : Eng} {c : Prop} {_ : Decidable c} (ha : KeepsData e a) (hb : KeepsData e b) :
    KeepsData e (if c then a else b) := by split; exacts [ha, hb]

theorem isData_iff {e₀ e : Eng} (h : KeepsData e₀ e) (x : Nat) : e.isData x ↔ e₀.isData x := isData_congr h.regs

theorem rgnAt_eq {e₀ e : Eng} (h : KeepsData e₀ e) (a : Nat) : e.rgnAt a = e₀.rgnAt a := by
  have hlocked : e.locked = e₀.locked := Eng.on_congr h.regs _
  rw [Eng.rgnAt, Eng.rgnAt, hlocked, Eng.rgnOver, Eng.rgnOver, h.rgns]

theorem fenced_eq {e₀ e : Eng} (h : KeepsData e₀ e) : e.fenced = e₀.fenced := Eng.on_congr h.regs _

section
variable {e₀ e : Eng} (h : KeepsData e₀ e)
include h

/-- A change of other parts than memory and those that are compared. -/
theorem frame {ctxs digs hwc evac unrep recons} :
    KeepsData e₀ { e with ctxs, digs, hwc, evac, unrep, recons } :=
  ⟨h.regs, h.rgns, h.caps, h.sent, h.wf, h.bytes⟩

/-- A write above the data. -/
theorem memWrite {a : Nat} {bs : List Byte} (ha : ∀ x, e₀.isData x → x < a) : KeepsData e₀ (e.memWrite a bs) :=
  { h with
    wf := fun hm => Eng.memWrite_wf (h.wf hm) a bs
    bytes := fun hm x hx => (Eng.memByte_memWrite_out (h.wf hm) (.inl (ha x hx))).trans (h.bytes hm x hx) }

theorem evictHw : KeepsData e₀ e.evictHw := by
  unfold Eng.evictHw
  split
  · exact h
  · next n d t _ =>
    refine h.frame.memWrite fun x hx => ?_
    exact Nat.lt_add_right _ ((h.isData_iff x).2 hx).1

theorem hwChange {n : Nat} {d : List Byte} : KeepsData e₀ (e.hwChange n d) :=
  .frame (.ite h.frame.evictHw h.frame)

theorem noteWrote {a n : Nat} : KeepsData e₀ (e.noteWrote a n) := .ite h h.frame

theorem foldDig {a : Nat} {d : List Byte} : KeepsData e₀ (e.foldDig a d) := .ite h.frame h

theorem setBitmapLine (hon : e₀.bitmapsOn = true) {i v : Nat} : KeepsData e₀ (e.setBitmapLine i v) := by
  dsimp only [Eng.setBitmapLine]
  split
  · exact h
  · refine .ite (h.frame.frame.hwChange.memWrite fun x hx => ?_) h.frame
    exact Nat.lt_add_right _ (((h.isData_iff x).2 hx).2 (by rwa [Eng.bitmapsOn, Eng.rd_congr h.regs]))

theorem markDirty {a : Nat} : KeepsData e₀ (e.markDirty a) := by
  dsimp only [Eng.markDirty]
  split
  · next hon =>
    refine h.setBitmapLine ?_
    rw [Bool.and_eq_true, Eng.bitmapsOn, Eng.rd_congr h.regs] at hon
    exact hon.1
  · exact h

theorem touch {a : Nat} {d : List Byte} : KeepsData e₀ (e.touch a d) :=
  .markDirty (.foldDig (.noteWrote (.ite h.hwChange h)))

theorem freshLines {a n : Nat} : KeepsData e₀ (e.freshLines a n) := h.frame

end

end KeepsData

/-! ### A store within a sector -/

theorem cutSectors_within {a : Nat} {bs : List Byte} (hne : bs ≠ []) (hlen : a % 4096 + bs.length ≤ 4096) (n : Nat) :
    cutSectors (n + 2) a bs = [(a, bs)] := by
  have hfits : bs.length ≤ sectorBytes - a % sectorBytes := by simp only [sectorBytes]; omega
  simp [cutSectors, hne, List.take_of_length_le hfits, List.drop_of_length_le hfits]

/-- An engine write within a sector writes its bytes and keeps the rest of the data. -/
theorem keepsData_store {a : Nat} {bs : List Byte} (hne : bs ≠ []) (hlen : a % 4096 + bs.length ≤ 4096) (e : Eng) :
    KeepsData (e.memWrite a bs) (e.store a bs) := by
  rw [Eng.store, cutSectors_within hne hlen, Eng.each_cons, Eng.each_nil]
  exact .ite (.refl _) (KeepsData.refl _).touch.freshLines

/-! ### Strings added to local memory -/

/-- What a string at an address adds to a byte. -/
def addendAt (a : Nat) (bs : List Byte) (x : Nat) : Byte := if a ≤ x then bs.getD (x - a) 0 else 0

theorem addendAt_out {a : Nat} {bs : List Byte} {x : Nat} (h : x < a ∨ a + bs.length ≤ x) : addendAt a bs x = 0 := by
  unfold addendAt
  split
  · exact List.getD_eq_default _ _ (by omega)
  · rfl

theorem addendAt_nil (a : Nat) : addendAt a [] = fun _ => 0 := by
  funext x
  simp [addendAt]

theorem addendAt_of_allZero {bs : List Byte} (h : allZero bs = true) (a x : Nat) : addendAt a bs x = 0 := by
  simp only [allZero, List.all_eq_true, beq_iff_eq] at h
  simp only [addendAt, List.getD_eq_getElem?_getD]
  split
  · cases hb : bs[x - a]? with
    | none => rfl
    | some b => exact h b (List.mem_of_getElem? hb)
  · rfl

/-- A string adds what its first `n` bytes add, and what the others add from there on. -/
theorem addendAt_split (a n : Nat) (bs : List Byte) (x : Nat) :
    addendAt a bs x = addendAt a (bs.take n) x ^^^ addendAt (a + n) (bs.drop n) x := by
  simp only [addendAt, List.getD_eq_getElem?_getD, List.getElem?_take, List.getElem?_drop]
  rcases Nat.lt_or_ge x a with ha | ha
  · simp [Nat.not_le.2 ha, show ¬a + n ≤ x by omega]
  · rcases Nat.lt_or_ge (x - a) n with hn | hn
    · simp [ha, hn, show ¬a + n ≤ x by omega]
    · simp [ha, Nat.not_lt.2 hn, show a + n ≤ x by omega, show n + (x - (a + n)) = x - a by omega]

/-- The engine `e` has become `e'` by adding to each byte of the data, and by bookkeeping. -/
structure AddsToData (add : Nat → Byte) (e e' : Eng) : Prop where
  regs  : e'.regs = e.regs
  wf    : Memory.wf e.mem → Memory.wf e'.mem
  bytes : Memory.wf e.mem → ∀ x, e.isData x → e'.memByte x = e.memByte x ^^^ add x

theorem AddsToData.trans {f g : Nat → Byte} {e e' e'' : Eng} (h : AddsToData f e e') (h' : AddsToData g e' e'') :
    AddsToData (fun x => f x ^^^ g x) e e'' where
  regs := h'.regs.trans h.regs
  wf := h'.wf ∘ h.wf
  bytes hm x hx := by rw [h'.bytes (h.wf hm) x ((isData_congr h.regs).2 hx), h.bytes hm x hx, BitVec.xor_assoc]

theorem AddsToData.zero (e : Eng) : AddsToData (fun _ => 0) e e := ⟨rfl, id, fun _ _ _ => BitVec.xor_zero.symm⟩

theorem memByte_memXor {e : Eng} (hm : Memory.wf e.mem) (a : Nat) (bs : List Byte) (x : Nat) :
    (e.memXor a bs).memByte x = e.memByte x ^^^ addendAt a bs x := by
  rw [Eng.memXor, Eng.memByte_memWrite hm, xorBytes_length, Eng.memRead_length, Nat.min_self]
  split
  · next hin =>
    have hlt : x - a < bs.length := by omega
    simp [addendAt, hin.1, hlt, xorBytes, Eng.memRead, bytesAt, Eng.memByte,
      show a + (x - a) = x by omega]
  · next hout => simp [addendAt_out (show x < a ∨ a + bs.length ≤ x by omega)]

theorem addsToData_storeXor {a : Nat} {bs : List Byte} (hne : bs ≠ []) (hlen : a % 4096 + bs.length ≤ 4096) (e : Eng) :
    AddsToData (addendAt a bs) e (e.storeXor a bs) := by
  have hlen' : (xorBytes (e.memRead a bs.length) bs).length = bs.length := by simp
  have hkeeps : KeepsData (e.memXor a bs) (e.storeXor a bs) :=
    keepsData_store (List.ne_nil_of_length_pos (by rw [hlen']; exact List.length_pos_of_ne_nil hne)) (by rwa [hlen']) e
  exact
    { regs := hkeeps.regs
      wf := fun hm => hkeeps.wf (Eng.memXor_wf hm a bs)
      bytes := fun hm x hx => (hkeeps.bytes (Eng.memXor_wf hm a bs) x hx).trans (memByte_memXor hm a bs x) }

/-- Adding a string line by line, from a line's address on, adds the string, as far as it goes in so many lines (R120). -/
theorem addsToData_xorLines {a : Nat} (ha : a % 64 = 0) (n k : Nat) (bs : List Byte) (e : Eng) :
    AddsToData (addendAt (a + 64 * k) (bs.take (64 * n))) e
      (e.each (((chunksOf 64 n bs).zipIdx k).filter (fun l => !allZero l.1)) (fun l e => e.storeXor (a + 64 * l.2) l.1)) := by
  induction n generalizing k bs e with
  | zero =>
    rw [Nat.mul_zero, List.take_zero, addendAt_nil]
    exact .zero e
  | succ n ih =>
    rcases eq_or_ne bs [] with rfl | hne
    · rw [List.take_nil, addendAt_nil]
      exact .zero e
    have hsplit : addendAt (a + 64 * k) (bs.take (64 * (n + 1))) = fun x =>
        addendAt (a + 64 * k) (bs.take 64) x ^^^ addendAt (a + 64 * (k + 1)) ((bs.drop 64).take (64 * n)) x := by
      funext x
      rw [addendAt_split _ 64, List.take_take, List.drop_take, Nat.mul_succ, Nat.mul_succ, Nat.add_assoc,
        Nat.min_eq_left (by omega), Nat.add_sub_cancel]
    have htail := ih (k + 1) (bs.drop 64)
    rw [hsplit, chunksOf, if_neg (by simpa using hne), List.zipIdx_cons, List.filter_cons]
    cases hz : allZero (bs.take 64)
    case false =>
      refine (addsToData_storeXor (by simpa using hne) ?_ e).trans (htail _)
      rw [List.length_take]
      omega
    case true =>
      have hhead : addendAt (a + 64 * k) (bs.take 64) = fun _ => 0 := funext (addendAt_of_allZero hz _)
      rw [hhead]
      exact (AddsToData.zero e).trans (htail e)

end Sys2Proof.Machine
end

section
/-!
PROOF. Streamed packets at their holder (R49, R113, R114, R119, R120).
-/
namespace Sys2Proof.Machine

/-! ### Applied records -/

theorem appliedRec_keys (e : Eng) (region row src : Nat) (thick : Bool) :
    let a := e.appliedRec region row src thick
    a.region = region ∧ a.row = row ∧ a.src = src ∧ a.thick = thick := by
  dsimp only [Eng.appliedRec]
  cases hf : e.applied.find? (fun a => a.region == region && a.row == row && a.src == src && a.thick == thick) with
  | none => simp
  | some a => simpa [and_assoc] using List.find?_some hf

/-- The applied SEQ comes from the records alone. -/
theorem appliedRec_a_congr {e e' : Eng} (h : e'.applied = e.applied) (region row src : Nat) (thick : Bool) :
    (e'.appliedRec region row src thick).a = (e.appliedRec region row src thick).a := by
  simp only [Eng.appliedRec, h]
  cases e.applied.find? _ <;> rfl

/-- A record that is set is the one that is found. -/
theorem appliedRec_setApplied (e : Eng) (a : Applied) :
    (e.setApplied a).appliedRec a.region a.row a.src a.thick = a := by
  simp only [Eng.appliedRec, Eng.setApplied, List.find?_append]
  rw [List.find?_eq_none.2]
  · simp
  · intro x hx
    simpa only [Bool.not_eq_true, Bool.not_eq_true'] using (List.mem_filter.1 hx).2

theorem setApplied_a {e e' : Eng} {a : Applied} {region row src : Nat} {thick : Bool}
    (hkeys : a.region = region ∧ a.row = row ∧ a.src = src ∧ a.thick = thick) (h : e'.applied = (e.setApplied a).applied) :
    (e'.appliedRec region row src thick).a = a.a := by
  obtain ⟨rfl, rfl, rfl, rfl⟩ := hkeys
  rw [appliedRec_a_congr h, appliedRec_setApplied]

/-- A release point does nothing, or moves the record's release point and frees windows (R115). -/
theorem takeRelease_cases (e : Eng) (region row src : Nat) (thick : Bool) (rel : Nat) :
    e.takeRelease region row src thick rel = e ∨
    ∃ relStamp relSector window, e.takeRelease region row src thick rel =
      { e.setApplied { e.appliedRec region row src thick with rel, relStamp, relSector } with window } := by
  dsimp only [Eng.takeRelease]
  split
  · exact .inl rfl
  split
  · exact .inl rfl
  · exact .inr ⟨_, _, _, rfl⟩

theorem takeRelease_mem (e : Eng) (region row src : Nat) (thick : Bool) (rel : Nat) :
    (e.takeRelease region row src thick rel).mem = e.mem := by
  rcases takeRelease_cases e region row src thick rel with h | ⟨_, _, _, h⟩
  · rw [h]
  · rw [h]
    rfl

/-- The applied SEQ of a source stays. -/
theorem takeRelease_a (e : Eng) (region row src : Nat) (thick : Bool) (rel : Nat) :
    ((e.takeRelease region row src thick rel).appliedRec region row src thick).a =
      (e.appliedRec region row src thick).a := by
  rcases takeRelease_cases e region row src thick rel with h | ⟨relStamp, relSector, window, h⟩
  · rw [h]
  · rw [h]
    exact setApplied_a (a := { e.appliedRec region row src thick with rel, relStamp, relSector })
      (appliedRec_keys e region row src thick) rfl

/-! ### The next packet -/

theorem applyStream_mem (e : Eng) (r : Rgn) (p : Pkt) (j : Nat) :
    (e.applyStream r p j).mem =
      (e.foldParity r p.row p.sector p.thick (e.productOf r p.row p.src j p.lineMap p.payload)).mem := by
  dsimp only [Eng.applyStream]
  rw [mem_of_beyondLinks (beyondLinks_ackPkt _ _), takeRelease_mem]
  rfl

theorem applyStream_a (e : Eng) (r : Rgn) (p : Pkt) (j : Nat) :
    ((e.applyStream r p j).appliedRec p.region p.row p.src p.thick).a = p.seq := by
  dsimp only [Eng.applyStream]
  rw [appliedRec_a_congr (applied_of_beyondLinks (beyondLinks_ackPkt _ _)), takeRelease_a]
  generalize e.foldParity r p.row p.sector p.thick (e.productOf r p.row p.src j p.lineMap p.payload) = e₁
  exact setApplied_a (e := e₁)
    (a := { e₁.appliedRec p.region p.row p.src p.thick with a := p.seq, aStamp := p.stamp, aSector := p.sector })
    (appliedRec_keys e₁ _ _ _ _) rfl

/-- A product added to a sector of the parity leaf (R49, R120). -/
theorem addsToData_foldParity {r : Rgn} {row : Nat} (hrow : r.rowAddr row % 4096 = 0) (sector : Nat) (prod : List Byte)
    (e : Eng) :
    AddsToData (addendAt (r.rowAddr row + sector * 4096) (prod.take 4096)) e (e.foldParity r row sector false prod) :=
  have hline : (r.rowAddr row + sector * 4096) % 64 = 0 := by omega
  addsToData_xorLines hline 64 0 prod e

theorem hold_mem (e : Eng) (p : Pkt) : (e.hold p).mem = e.mem := by
  unfold Eng.hold
  split
  · rfl
  · split <;> rfl

/-- A sector of the data to which a string of its length is added. -/
theorem memRead_addsToData {a : Nat} {bs : List Byte} {e e' : Eng} (h : AddsToData (addendAt a bs) e e')
    (hm : Memory.wf e.mem) (hdata : ∀ i < bs.length, e.isData (a + i)) :
    e'.memRead a bs.length = xorBytes (e.memRead a bs.length) bs := by
  refine (Eng.memRead_eq fun i hi => ?_).trans (?_ : (e.memXor a bs).memRead a bs.length = _)
  · rw [h.bytes hm _ (hdata i hi), memByte_memXor hm]
  · have := Eng.memRead_memWrite hm a (xorBytes (e.memRead a bs.length) bs)
    rwa [xorBytes_length, Eng.memRead_length, Nat.min_self] at this

/-- Settles O36: the product is added line by line to its sector, and what follows it leaves memory and the applied SEQ. -/
theorem streamedPacketsAreAppliedInOrder : Obligations.StreamedPacketsAreAppliedInOrder := by
  unfold Obligations.StreamedPacketsAreAppliedInOrder
  intro e r p j
  dsimp only
  refine ⟨fun hdup => ?old, fun hnew hwait => ?later, fun hnew hseq hthin hbusy hrow hhw hm hbits => ?next⟩
  case old =>
    have ht : e.orderStream r p j = (e.bump Reg.GRV_SAP_DROP_DUP).ackPkt p := by simp only [Eng.orderStream, hdup, if_true]
    refine ⟨ht, ?_⟩
    rw [ht, mem_of_beyondLinks (beyondLinks_ackPkt _ _)]
    rfl
  case later =>
    have ht : e.orderStream r p j = e.hold p := by
      have hturn : ¬(p.seq = w32 ((e.appliedRec p.region p.row p.src p.thick).a + 1) ∧ e.parityBusy r p.row p.thick = false) := by
        rintro ⟨hs, hb⟩
        simp [hs, hb] at hwait
      simp [Eng.orderStream, hnew, hturn]
    exact ⟨ht, by rw [ht, hold_mem]⟩
  case next =>
    have ht : e.orderStream r p j = e.applyStream r p j := by
      rw [hthin] at hnew hseq
      simp [Eng.orderStream, hthin, hnew, ← hseq, hbusy]
    have hbelow {x : Nat} (hx : x < r.rowAddr p.row + p.sector * 4096 + 4096) : e.isData x :=
      ⟨by omega, fun hon => by have := hbits hon; omega⟩
    have hadds := addsToData_foldParity hrow p.sector (e.productOf r p.row p.src j p.lineMap p.payload) e
    have hmem : (e.orderStream r p j).mem = (e.foldParity r p.row p.sector false
        (e.productOf r p.row p.src j p.lineMap p.payload)).mem := by rw [ht, applyStream_mem, hthin]
    refine ⟨fun hlen => ?_, fun hlen x hx hb hout => ?_, ?_, ?_⟩
    · rw [List.take_of_length_le hlen.le] at hadds
      have := memRead_addsToData hadds hm fun i hi => hbelow (by omega)
      rw [hlen] at this
      rwa [Eng.memRead, hmem]
    · rw [Eng.memByte, hmem]
      refine (hadds.bytes hm x ⟨hx, hb⟩).trans ?_
      rw [addendAt_out (by rw [List.length_take]; omega)]
      exact BitVec.xor_zero
    · rw [ht, ← hthin, applyStream_a]
    · rw [hmem]
      exact hadds.wf hm

end Sys2Proof.Machine
end

section
/-!
PROOF. Tap pairs (R44, R75, R76, R96, R99, R164, R247, R260, R316, R327, R452): when a pair is accepted, what it is checked against, and
what a pair that is taken leaves of local memory.
-/
namespace Sys2Proof.Machine

/-! ### What a pair is checked against -/

section
variable {e : Eng} {t : HeldTap} (hsrc : t.src ≠ .engine)
include hsrc

theorem tapCheck_reserved (hfill : e.on Reg.MEM_FILL_DONE = true) (ha : e.journalBase ≤ 64 * t.line) :
    e.tapCheck t =
      some (fun e => ((e.bump Reg.MEM_ERR_EVT_RSVD_WR).wr Reg.GRV_STRAY_ADDR_LINE t.line).raise .RESERVED_WR) := by
  simp [Eng.tapCheck, hsrc, hfill, ha]

variable (hopen : e.on Reg.MEM_FILL_DONE = false ∨ 64 * t.line < e.journalBase)
include hopen

/-- Outside every region, and on a fenced engine, a pair outside the reserved areas breaks no rule. -/
theorem tapCheck_plain (h : e.fenced = true ∨ e.rgnAt (64 * t.line) = none) : e.tapCheck t = none := by
  have hres : (e.on Reg.MEM_FILL_DONE && decide (e.journalBase ≤ 64 * t.line)) = false := by
    simpa [imp_iff_not_or] using hopen
  rcases h with h | h <;> simp [Eng.tapCheck, hsrc, hres, h]

variable (hfence : e.fenced = false) {r : Rgn} (hr : e.rgnAt (64 * t.line) = some r)
include hfence hr

/-- In a region the rules follow one another: parity row, writer, closed rings. -/
theorem tapCheck_region : e.tapCheck t =
    if e.isParityRow r (r.rowOf (64 * t.line)) then
      some (fun e => ((e.bump Reg.GRV_STRAY_CNT_COUNT).wr Reg.GRV_STRAY_ADDR_LINE t.line).raise .STRAY_PARITY_WR)
    else if r.protectedCls && !bit r.writer (srcCode t.src - 1) then
      some (fun e => (((e.bump Reg.GRV_WRITER_CNT_COUNT).wr Reg.GRV_WRITER_ADDR_SOURCE (srcCode t.src)).wr
        Reg.GRV_WRITER_ADDR_LINE t.line).raise .WRITER_VIOLATION)
    else if r.ringed && e.closed then
      some (fun e => ((e.bump Reg.GRV_RING_CLOSED_WR_COUNT).wr Reg.GRV_STRAY_ADDR_LINE t.line).raise .RING_WRITE_CLOSED)
    else none := by
  have hres : (e.on Reg.MEM_FILL_DONE && decide (e.journalBase ≤ 64 * t.line)) = false := by
    simpa [imp_iff_not_or] using hopen
  simp only [Eng.tapCheck, beq_iff_eq, hsrc, hres, hfence, hr, if_false, Bool.false_eq_true]

end

theorem tapWith_of_breach {e : Eng} {t : HeldTap} {f : Eng → Eng} (h : e.tapCheck t = some f) (old : List Byte) :
    e.tapWith t old = f (e.undoTap (64 * t.line) old) := by
  simp only [Eng.tapWith, h]

theorem tapWith_of_none {e : Eng} {t : HeldTap} (h : e.tapCheck t = none) (old : List Byte) :
    e.tapWith t old = e.tapEffect t old := by
  simp only [Eng.tapWith, h]

/-! ### Acceptance -/

theorem acceptTap_oos {e : Eng} (h : e.oos = true) (t : HeldTap) :
    e.acceptTap t = (e.memWrite (64 * t.line) t.new).freshLines (64 * t.line) 64 := by
  simp only [Eng.acceptTap, h, if_true]

theorem acceptTap_engine {e : Eng} {t : HeldTap} (hoos : e.oos = false) (hsrc : t.src = .engine) :
    e.acceptTap t = e.tapEffect t (e.memRead (64 * t.line) 64) := by
  simp [Eng.acceptTap, hoos, hsrc]

section
variable {e : Eng} {t : HeldTap} (hoos : e.oos = false) (hsrc : t.src ≠ .engine)
include hoos hsrc

theorem acceptTap_readable (hbark : t.bark ≠ .uncorrectable) : e.acceptTap t = e.tapWith t t.old := by
  simp [Eng.acceptTap, Eng.tapOld, hoos, hsrc, hbark]

variable (hbark : t.bark = .uncorrectable)
include hbark

/-- A repair of its sector that is under way has a pair wait for its old line, with its new line in memory (R327). -/
theorem acceptTap_repairing (h : e.repairing (sectorOf t.line) = true) :
    let landed := ((e.memWrite (64 * t.line) t.new).markDirty (64 * t.line)).noteWrote (64 * t.line) 64
    e.acceptTap t = { landed with taps := landed.taps ++ [{ t with landed := true }] } := by
  simp [Eng.acceptTap, hoos, hsrc, hbark, h]

variable (hrep : e.repairing (sectorOf t.line) = false)
include hrep

theorem acceptTap_alone (hheart : e.hasHeart (64 * t.line) = true)
    (hall : (e.unrepIn (sectorOf t.line)).all (· == t.line) = true) : e.acceptTap t = e.tapWith t (e.eraseLine t.line) := by
  simp only [Eng.acceptTap, Eng.tapOld, hoos, hbark, hrep, hheart, hall, beq_iff_eq, hsrc, if_false, Bool.false_eq_true,
    bne_self_eq_false, Bool.and_self, Bool.and_false, if_true]

theorem acceptTap_lost
    (h : ¬(e.hasHeart (64 * t.line) = true ∧ (e.unrepIn (sectorOf t.line)).all (· == t.line) = true)) :
    e.acceptTap t = e.tapOldLost t := by
  rw [← Bool.and_eq_true, Bool.not_eq_true] at h
  simp only [Eng.acceptTap, Eng.tapOld, hoos, hbark, hrep, h, beq_iff_eq, hsrc, if_false, Bool.false_eq_true,
    bne_self_eq_false, Bool.and_false]

end

/-! ### The effect of a pair on an address without rules -/

theorem tapEffect_eq_of_plain {e e' : Eng} {t : HeldTap} {old : List Byte}
    (he' : e' = ((e.memWrite (64 * t.line) t.new).touch (64 * t.line) (xorBytes old t.new)).freshLines (64 * t.line) 64)
    (h : e'.fenced = true ∨ e'.rgnAt (64 * t.line) = none) : e.tapEffect t old = e' := by
  unfold Eng.tapEffect
  rcases h with h | h
  · simp only [← he', h, Bool.true_or, if_true]
  · simp only [← he', h, ite_self]

theorem rgnAt_memWrite (e : Eng) (a : Nat) (bs : List Byte) (x : Nat) : (e.memWrite a bs).rgnAt x = e.rgnAt x := rfl
theorem fenced_memWrite (e : Eng) (a : Nat) (bs : List Byte) : (e.memWrite a bs).fenced = e.fenced := rfl

/-- On a fenced engine or outside every region a pair is a write of its new line, with what goes with every store. -/
theorem keepsData_tapEffect {e : Eng} {t : HeldTap} (h : e.fenced = true ∨ e.rgnAt (64 * t.line) = none) (old : List Byte) :
    KeepsData (e.memWrite (64 * t.line) t.new) (e.tapEffect t old) := by
  have hstore := ((KeepsData.refl (e.memWrite (64 * t.line) t.new)).touch (a := 64 * t.line)
    (d := xorBytes old t.new)).freshLines (a := 64 * t.line) (n := 64)
  rw [tapEffect_eq_of_plain rfl]
  · exact hstore
  · rwa [hstore.rgnAt_eq, hstore.fenced_eq, rgnAt_memWrite, fenced_memWrite]

@[simp] theorem lineBytes_length (l : Line) : (lineBytes l).length = 64 := by simp [lineBytes]

/-! ### The command -/

/-- A pair as it comes, with its old line and the line's reading. -/
def tapOf (line : BitVec 34) (old new : Line) (src : WrSource) (bark : Bark) : HeldTap :=
  { landed := false, line := line.toNat, old := lineBytes old, new := lineBytes new, src := src, bark := bark }

section
variable {s : State} {line : BitVec 34} {old new : Line} {src : WrSource} {bark : Bark}

theorem exec_tapPair_outside (h : s.eng.memSize ≤ 64 * line.toNat) :
    exec (.tapPair line old new src bark) s = .fault .outsideMemory := by
  simp only [exec, execTapPair, h, if_true]

/-- A pair inside local memory is withheld or accepted by the engine as an event finds it, whose clocks run. -/
theorem exec_tapPair_inside (hin : 64 * line.toNat < s.eng.memSize) :
    exec (.tapPair line old new src bark) s = .next (leaving s
      (if src != .engine && ((awake s).tapBlocked (64 * line.toNat) ||
          (awake s).taps.any (fun x => x.line == line.toNat && !x.landed)) then
        ({ awake s with taps := (awake s).taps ++ [tapOf line old new src bark] } : Eng).emit .withheld
      else (awake s).acceptTap (tapOf line old new src bark))) := by
  rw [exec, execTapPair, if_neg (Nat.not_le.2 hin)]
  rfl

theorem exec_tapPair_withheld (hin : 64 * line.toNat < s.eng.memSize) (hsrc : src ≠ .engine)
    (h : (awake s).tapBlocked (64 * line.toNat) = true ∨
      (awake s).taps.any (fun x => x.line == line.toNat && !x.landed) = true) :
    exec (.tapPair line old new src bark) s = .next (leaving s
      (({ awake s with taps := (awake s).taps ++ [tapOf line old new src bark] } : Eng).emit .withheld)) := by
  rw [← Bool.or_eq_true] at h
  rw [exec_tapPair_inside hin, h, Bool.and_true, if_pos (bne_iff_ne.2 hsrc)]

theorem exec_tapPair_accepted (hin : 64 * line.toNat < s.eng.memSize)
    (h : src = .engine ∨ ((awake s).tapBlocked (64 * line.toNat) = false ∧
      (awake s).taps.any (fun x => x.line == line.toNat && !x.landed) = false)) :
    exec (.tapPair line old new src bark) s = .next (leaving s ((awake s).acceptTap (tapOf line old new src bark))) := by
  rw [← Bool.or_eq_false_iff] at h
  rw [exec_tapPair_inside hin, if_neg]
  rcases h with h | h <;> simp [h]

end

/-- A pair that no rule is about: its new line stands, and the rest of the data stays. -/
theorem tapEffect_plain {e : Eng} {t : HeldTap} (h : e.fenced = true ∨ e.rgnAt (64 * t.line) = none) (hm : Memory.wf e.mem)
    (hnew : t.new.length = 64) (hhw : 64 * t.line + 64 ≤ e.hwBase)
    (hbits : e.bitmapsOn = true → 64 * t.line + 64 ≤ e.bitmapBase) (old : List Byte) :
    (e.tapEffect t old).memRead (64 * t.line) 64 = t.new ∧ (e.tapEffect t old).sent = e.sent ∧
    (e.tapEffect t old).caps = e.caps ∧
    ∀ x, e.isData x → (x < 64 * t.line ∨ 64 * t.line + 64 ≤ x) → (e.tapEffect t old).memByte x = e.memByte x := by
  have hkeeps := keepsData_tapEffect h old
  have hbytes := hkeeps.bytes (Eng.memWrite_wf hm _ _)
  refine ⟨?_, hkeeps.sent, hkeeps.caps, fun x hx hout => (hbytes x hx).trans (Eng.memByte_memWrite_out hm (by rwa [hnew]))⟩
  calc (e.tapEffect t old).memRead (64 * t.line) 64
      = (e.memWrite (64 * t.line) t.new).memRead (64 * t.line) 64 := Eng.memRead_eq fun i hi =>
        hbytes _ ⟨show 64 * t.line + i < e.hwBase by omega, fun hon => by
          have := hbits hon
          show 64 * t.line + i < e.bitmapBase
          omega⟩
    _ = t.new := by rw [← hnew, Eng.memRead_memWrite hm]

/-- Settles O40: withheld, or accepted; and an accepted pair by what its source, its line's reading and the rules say. -/
theorem tapPairsAreCheckedAndTaken : Obligations.TapPairsAreCheckedAndTaken := by
  unfold Obligations.TapPairsAreCheckedAndTaken
  intro s line old new src bark
  dsimp only
  refine ⟨exec_tapPair_outside, fun hin => ⟨exec_tapPair_withheld hin, fun hacc => ?_⟩⟩
  rw [exec_tapPair_accepted hin hacc]
  generalize awake s = e
  refine ⟨fun hoos => ?oos, fun hoos hsrc => ?engine, fun hoos hsrc hbark => ?readable, fun hoos hsrc hbark => ?lost⟩
  case oos => rw [acceptTap_oos hoos]; rfl
  case engine => rw [acceptTap_engine hoos hsrc]; rfl
  case readable =>
    rw [acceptTap_readable hoos hsrc hbark]
    refine ⟨fun hfill ha => ?reserved, fun hopen hfence r hr => ?region, fun hopen hplain hm hhw hbits => ?plain⟩
    case reserved => rw [tapWith_of_breach (tapCheck_reserved hsrc hfill ha)]; rfl
    case region =>
      have hcheck := tapCheck_region (t := tapOf line old new src bark) hsrc hopen hfence hr
      refine ⟨fun hstray => ?_, fun hstray hforeign => ?_, fun hstray hforeign hring hclosed => ?_,
        fun hstray hforeign hring => ?_⟩
      · rw [tapWith_of_breach (hcheck.trans (if_pos hstray))]; rfl
      · rw [tapWith_of_breach ((hcheck.trans (if_neg (Bool.eq_false_iff.1 hstray))).trans (if_pos hforeign))]; rfl
      · rw [tapWith_of_breach (((hcheck.trans (if_neg (Bool.eq_false_iff.1 hstray))).trans
          (if_neg (Bool.eq_false_iff.1 hforeign))).trans (if_pos (Bool.and_eq_true_iff.2 ⟨hring, hclosed⟩)))]
        rfl
      · rw [tapWith_of_none (((hcheck.trans (if_neg (Bool.eq_false_iff.1 hstray))).trans
          (if_neg (Bool.eq_false_iff.1 hforeign))).trans (if_neg (by simpa [imp_iff_not_or] using hring)))]
        rfl
    case plain =>
      rw [tapWith_of_none (tapCheck_plain hsrc hopen hplain)]
      obtain ⟨hread, hsent, hcaps, hrest⟩ :=
        tapEffect_plain (t := tapOf line old new src bark) hplain hm (lineBytes_length new) hhw hbits (lineBytes old)
      exact ⟨_, rfl, hread, hsent, hcaps, fun x hx hb => hrest x ⟨hx, hb⟩⟩
  case lost =>
    refine ⟨fun hrep => ?_, fun hrep => ⟨fun halone => ?_, fun hnot => ?_⟩⟩
    · rw [acceptTap_repairing (t := tapOf line old new src bark) hoos hsrc hbark hrep]; rfl
    · rw [acceptTap_alone (t := tapOf line old new src bark) hoos hsrc hbark hrep halone.1 halone.2]; rfl
    · rw [acceptTap_lost (t := tapOf line old new src bark) hoos hsrc hbark hrep hnot]; rfl

end Sys2Proof.Machine
end

section
/-!
PROOF. Control messages (R63, R281): the identity of a far end, at a port for which the engine's state holds no record.
-/
namespace Sys2Proof.Machine

/-- A member of a map whose registers show port 0 as UP, while its list of ports is empty. -/
def portless : Eng := { (Eng.reset.flag Reg.GRV_CFG_VALID true).wr (Reg.GP_STAT_STATE 0) psUp with ports := [] }

/-- Port 0's state after a command that answers a next state. -/
def portStateAfter : Host.Outcome State Fault Refusal → Option Nat
  | .next s => some (s.eng.portState 0)
  | _ => none

/-- Refutes O51: the clause of ID asks that a far end without a position exclude the port in every state, and where the list of
ports is too short to hold the port (`portless`) nothing keeps that an ID has come, so the check of R281 finds none. From reset on
the list holds all four ports; the statement does not ask for it. -/
theorem not_controlMessagesAct : ¬ Obligations.ControlMessagesAct := by
  unfold Obligations.ControlMessagesAct
  intro h
  obtain ⟨-, hid, -⟩ := h { pending := [], eng := portless } 0
  obtain ⟨hexcluded, -⟩ := (hid 0 0 true).2 (by decide +kernel) (by decide +kernel) (by decide) (by decide +kernel)
  exact absurd (congrArg portStateAfter (hexcluded (.inl rfl))) (by decide +kernel)

end Sys2Proof.Machine
end

section
/-!
PROOF. Region descriptors and the microprogram store (R67 to R71, R200 to R202, R494): what a write of either area does, by the
lock, by the bytes that it names and by VALID.
-/
namespace Sys2Proof.Machine

/-! ### The way in -/

@[simp] theorem reached_descs (d : Dom) (s : State) : (reached d s).descs = s.eng.descs := by rw [reached_eq]; rfl
@[simp] theorem reached_progs (d : Dom) (s : State) : (reached d s).progs = s.eng.progs := by rw [reached_eq]; rfl
@[simp] theorem reached_rgns (d : Dom) (s : State) : (reached d s).rgns = s.eng.rgns := by rw [reached_eq]; rfl
@[simp] theorem reached_mem (d : Dom) (s : State) : (reached d s).mem = s.eng.mem := by rw [reached_eq]; rfl

theorem reached_on {d : Dom} {s : State} {f : Fld} (h : f.key ≠ Reg.GEN_PWR_ASLEEP.key) :
    (reached d s).on f = s.eng.on f := by rw [Eng.on, Eng.on, reached_rd h]

@[simp] theorem reached_descValid (d : Dom) (s : State) (n : Nat) : (reached d s).descValid n = s.eng.descValid n := by
  rw [Eng.descValid, Eng.descNat, reached_descs]
  rfl

@[simp] theorem reached_rwlOpen (d : Dom) (s : State) : (reached d s).rwlOpen = s.eng.rwlOpen := by
  rw [Eng.rwlOpen, Eng.rwlOpen, Eng.locked, Eng.locked, reached_on (by decide), reached_on (by decide)]

section
variable {s : State} (h : takesWrites .coding s)
include h

theorem exec_descriptorValid (n : BitVec 12) :
    exec (.descriptorValid n) s = .next (leaving s ((reached .coding s).descWrite n.toNat 0x3C (natLe 4 1))) := by
  rw [exec, execDescriptorValid, State.run_eq, change_reached h]

theorem exec_programSlotValid (slot : Fin 16) (v : Word) :
    exec (.programSlotValid slot v) s =
      .next (leaving s ((reached .coding s).storeWrite (slot * slotBytes) (natLe 4 v.toNat))) := by
  rw [exec, execProgramSlotValid, State.run_eq, change_reached h]

variable {off : Nat} {wide : Bool} (halign : off % (if wide then 8 else 4) = 0) (v : DWord)
include halign

theorem exec_descriptorWrite (hin : off + (if wide then 8 else 4) ≤ 4096 * descBytes) :
    exec (.descriptorWrite off wide v) s = .next (leaving s ((reached .coding s).descWrite (off / descBytes)
      (off % descBytes) (natLe (if wide then 8 else 4) v.toNat))) := by
  simp only [exec, execDescriptorWrite, State.run_eq, change_reached h, halign, Nat.not_lt.2 hin, bne_self_eq_false,
    decide_false, Bool.or_self, Bool.false_eq_true, if_false]

theorem exec_programStoreWrite (hin : off + (if wide then 8 else 4) ≤ 16 * slotBytes) :
    exec (.programStoreWrite off wide v) s =
      .next (leaving s ((reached .coding s).storeWrite off (natLe (if wide then 8 else 4) v.toNat))) := by
  simp only [exec, execProgramStoreWrite, State.run_eq, change_reached h, halign, Nat.not_lt.2 hin, bne_self_eq_false,
    decide_false, Bool.or_self, Bool.false_eq_true, if_false]

end

/-! ### Behind the lock -/

theorem descWrite_locked {e : Eng} (h : e.rwlOpen = false) (n o : Nat) (bs : List Byte) : e.descWrite n o bs = e.lockedWr := by
  simp only [Eng.descWrite, h, Bool.not_false, if_true]

theorem storeWrite_locked {e : Eng} (h : e.rwlOpen = false) (off : Nat) (bs : List Byte) :
    e.storeWrite off bs = e.lockedWr := by
  simp only [Eng.storeWrite, h, Bool.not_false, if_true]

/-! ### A descriptor's bytes below CTL -/

/-- What a descriptor keeps of bytes written from offset `o` of it on: their defined bits (R67). -/
def descKept (o : Nat) (bs : List Byte) : List Byte := bs.zipIdx.map (fun b => b.1 &&& descMask (o + b.2))

@[simp] theorem descKept_length (o : Nat) (bs : List Byte) : (descKept o bs).length = bs.length := by simp [descKept]

/-- Some byte is changed by a mask where the masked string is another one. -/
theorem any_zipIdx_bne {α : Type} [BEq α] (f : Nat → α → α) (bs : List α) (k : Nat) :
    (bs.zipIdx k).any (fun b => f b.2 b.1 != b.1) = ((bs.zipIdx k).map (fun b => f b.2 b.1) != bs) := by
  induction bs generalizing k with
  | nil => rfl
  | cons b bs ih =>
    rw [List.zipIdx_cons, List.any_cons, ih, List.map_cons]
    exact (Bool.not_and _ _).symm

/-- The engine that has noted whether bytes written to a descriptor had reserved bits set (R13). -/
def Eng.descNoted (e : Eng) (o : Nat) (bs : List Byte) : Eng :=
  if descKept o bs != bs then e.flag Reg.GEN_ERR_RSVD_WR true else e

@[simp] theorem descNoted_descs (e : Eng) (o : Nat) (bs : List Byte) : (e.descNoted o bs).descs = e.descs := by
  unfold Eng.descNoted; split <;> rfl
@[simp] theorem descNoted_rgns (e : Eng) (o : Nat) (bs : List Byte) : (e.descNoted o bs).rgns = e.rgns := by
  unfold Eng.descNoted; split <;> rfl
@[simp] theorem descNoted_mem (e : Eng) (o : Nat) (bs : List Byte) : (e.descNoted o bs).mem = e.mem := by
  unfold Eng.descNoted; split <;> rfl

theorem descNoted_on {f : Fld} (h : f.key ≠ Reg.GEN_ERR_RSVD_WR.key) (e : Eng) (o : Nat) (bs : List Byte) :
    (e.descNoted o bs).on f = e.on f := by
  unfold Eng.descNoted
  split
  · exact Eng.on_flag_ne _ _ h
  · rfl

theorem descNoted_on_rsvd (e : Eng) (o : Nat) (bs : List Byte) :
    (e.descNoted o bs).on Reg.GEN_ERR_RSVD_WR = (e.on Reg.GEN_ERR_RSVD_WR || descKept o bs != bs) := by
  unfold Eng.descNoted
  split
  next hne => rw [Eng.on_flag_same _ _ (by decide), hne, Bool.or_true]
  next heq => rw [Bool.eq_false_iff.2 heq, Bool.or_false]

@[simp] theorem descNoted_descValid (e : Eng) (o : Nat) (bs : List Byte) (n : Nat) :
    (e.descNoted o bs).descValid n = e.descValid n := by
  rw [Eng.descValid, Eng.descNat, descNoted_descs]
  rfl

/-- A descriptor's bytes written from an address of the space on. -/
def Eng.putDesc (e : Eng) (a : Nat) (bs : List Byte) : Eng := { e with descs := splice e.descs a bs }

@[simp] theorem putDesc_descs (e : Eng) (a : Nat) (bs : List Byte) : (e.putDesc a bs).descs = splice e.descs a bs := (rfl)
@[simp] theorem putDesc_on (e : Eng) (a : Nat) (bs : List Byte) (f : Fld) : (e.putDesc a bs).on f = e.on f := (rfl)

/-- A write that ends below CTL names no VALID: its kept bytes are stored, or held against those of a valid descriptor. -/
theorem descWrite_belowCtl {e : Eng} (hopen : e.rwlOpen = true) (n : Nat) {o : Nat} {bs : List Byte}
    (hbelow : o + bs.length ≤ 0x3C) :
    e.descWrite n o bs =
      if e.descValid n then
        if descKept o bs != bytesAt e.descs (descBytes * n + o) bs.length then (e.descNoted o bs).rgnCheckFail 0x0B n
        else e.descNoted o bs
      else (e.descNoted o bs).putDesc (descBytes * n + o) (descKept o bs) := by
  have hlt : ∀ b ∈ bs.zipIdx.map (fun b => (o + b.2, b.1)), b.1 < 0x3C := by
    intro b hb
    obtain ⟨⟨x, i⟩, hx, rfl⟩ := List.mem_map.1 hb
    have := (List.mem_zipIdx' hx).1
    dsimp only
    omega
  have hbody : (bs.zipIdx.map (fun b => (o + b.2, b.1))).filter (fun b => b.1 < 0x3C) =
      bs.zipIdx.map (fun b => (o + b.2, b.1)) := List.filter_eq_self.2 fun b hb => decide_eq_true (hlt b hb)
  have hctl : (bs.zipIdx.map (fun b => (o + b.2, b.1))).find? (fun b => b.1 == 0x3C) = none :=
    List.find?_eq_none.2 fun b hb => by simpa using (hlt b hb).ne
  have hkept : (bs.zipIdx.map (fun b => (o + b.2, b.1))).map (fun b => b.2 &&& descMask b.1) = descKept o bs := by
    rw [List.map_map]
    rfl
  have hstray : (bs.zipIdx.map (fun b => (o + b.2, b.1))).any (fun b => b.2 &&& descMask b.1 != b.2) =
      (descKept o bs != bs) := by
    rw [List.any_map]
    exact any_zipIdx_bne (fun i b => b &&& descMask (o + i)) bs 0
  simp only [Eng.descWrite, hopen, Bool.not_true, Bool.false_eq_true, if_false, hbody, hctl, hkept, hstray, Option.map_none,
    descKept_length]
  rw [← Eng.descNoted, descNoted_descValid, ← Eng.putDesc, descNoted_descs]

/-! ### A failed check -/

theorem rgnCheckFail_first {e : Eng} (h : e.on Reg.GRV_RGN_CHECK_FAIL = false) (reason n : Nat) :
    e.rgnCheckFail reason n = ((e.wr Reg.GRV_RGN_CHECK_REASON reason).wr Reg.GRV_RGN_CHECK_REGION n).flag
      Reg.GRV_RGN_CHECK_FAIL true := by
  rw [Eng.rgnCheckFail, h]
  rfl

@[simp] theorem rgnCheckFail_descs (e : Eng) (reason n : Nat) : (e.rgnCheckFail reason n).descs = e.descs := by
  unfold Eng.rgnCheckFail; split <;> rfl
@[simp] theorem rgnCheckFail_rgns (e : Eng) (reason n : Nat) : (e.rgnCheckFail reason n).rgns = e.rgns := by
  unfold Eng.rgnCheckFail; split <;> rfl

/-- The first failure since FAIL was clear is shown, with the descriptor's number. -/
theorem rgnCheckFail_shows {e : Eng} (h : e.on Reg.GRV_RGN_CHECK_FAIL = false) {reason n : Nat} (hr : reason < 256)
    (hn : n < 4096) :
    (e.rgnCheckFail reason n).on Reg.GRV_RGN_CHECK_FAIL = true ∧
    (e.rgnCheckFail reason n).rd Reg.GRV_RGN_CHECK_REASON = reason ∧
    (e.rgnCheckFail reason n).rd Reg.GRV_RGN_CHECK_REGION = n := by
  rw [rgnCheckFail_first h]
  refine ⟨Eng.on_flag_same _ _ (by decide), ?_, ?_⟩
  · rw [Eng.rd_flag_ne _ _ (by decide), Eng.rd_wr_ne _ _ (by decide), Eng.rd_wr_same]
    exact Nat.mod_eq_of_lt hr
  · rw [Eng.rd_flag_ne _ _ (by decide), Eng.rd_wr_same]
    exact Nat.mod_eq_of_lt hn

/-! ### Writes of both areas -/

/-- Bytes of a store over which a string has been written. -/
theorem bytesAt_splice {m : SMap Byte} (h : Memory.wf m) (a : Nat) (bs : List Byte) :
    bytesAt (splice m a bs) a bs.length = bs := by
  refine List.ext_getElem (by simp [bytesAt]) fun i hi hi' => ?_
  simp [bytesAt, byteAt_splice h, hi']

/-- A 32-bit write of a word of a descriptor, of those below CTL. -/
theorem exec_descriptorWrite_word {s : State} {n i : Nat} (h : takesWrites .coding s) (hn : n < 4096) (hi : i < 15)
    (v : DWord) :
    exec (.descriptorWrite (descBytes * n + 4 * i) false v) s =
      .next (leaving s ((reached .coding s).descWrite n (4 * i) (natLe 4 v.toNat))) := by
  have hdiv : (descBytes * n + 4 * i) / descBytes = n := by rw [descBytes]; omega
  have hmod : (descBytes * n + 4 * i) % descBytes = 4 * i := by rw [descBytes]; omega
  rw [exec_descriptorWrite h (wide := false) (by simp only [descBytes, Bool.false_eq_true, if_false]; omega) v
    (by simp only [descBytes, Bool.false_eq_true, if_false]; omega), hdiv, hmod]
  rfl

/-- Settles O22: behind the lock by the first test of each write; else by what `descWrite_belowCtl` says of a word. -/
theorem descriptorsAreWrittenUntilLocked : Obligations.DescriptorsAreWrittenUntilLocked := by
  unfold Obligations.DescriptorsAreWrittenUntilLocked
  refine ⟨fun s off wide v n slot w htakes hlock => ?locked, fun s n i v htakes hopen hn hi hwf => ?word⟩
  case locked =>
    have hl : (reached .coding s).rwlOpen = false := by rw [reached_rwlOpen, hlock]
    refine ⟨?_, ?_, fun halign hin => ?_, fun halign hin => ?_⟩
    · rw [exec_descriptorValid htakes, descWrite_locked hl]; rfl
    · rw [exec_programSlotValid htakes, storeWrite_locked hl]; rfl
    · rw [exec_descriptorWrite htakes halign v hin, descWrite_locked hl]; rfl
    · rw [exec_programStoreWrite htakes halign v hin, storeWrite_locked hl]; rfl
  case word =>
    have hlen : (natLe 4 v.toNat).length = 4 := natLe_length 4 _
    have hwrite := descWrite_belowCtl (e := reached .coding s) (by rw [reached_rwlOpen, hopen]) n
      (o := 4 * i) (bs := natLe 4 v.toNat) (by omega)
    rw [reached_descValid, reached_descs, hlen] at hwrite
    dsimp only
    rw [exec_descriptorWrite_word htakes hn hi, hwrite, ← descKept]
    generalize natLe 4 v.toNat = word at hlen
    refine ⟨fun hvalid => ?stored, fun hvalid => ?refused⟩
    case stored =>
      have hkept : (descKept (4 * i) word).length = 4 := by rw [descKept_length, hlen]
      rw [if_neg (by simp [hvalid])]
      refine ⟨_, rfl, ?_, fun a ha => ?_, ?_, ?_, ?_⟩
      · rw [putDesc_descs, descNoted_descs, reached_descs]
        simpa only [hkept] using bytesAt_splice hwf (descBytes * n + 4 * i) (descKept (4 * i) word)
      · rw [putDesc_descs, descNoted_descs, reached_descs, byteAt_splice hwf, if_neg (by omega)]
      · rw [putDesc_on, descNoted_on_rsvd, reached_on (by decide)]
      · exact (descNoted_rgns _ _ _).trans (reached_rgns _ _)
      · exact (descNoted_mem _ _ _).trans (reached_mem _ _)
    case refused =>
      rw [if_pos hvalid]
      by_cases hsame : descKept (4 * i) word = bytesAt s.eng.descs (descBytes * n + 4 * i) 4
      · rw [if_neg (by simp [hsame])]
        exact ⟨_, rfl, by simp, by simp, fun hne => absurd hsame hne⟩
      · rw [if_pos (bne_iff_ne.2 hsame)]
        exact ⟨_, rfl, by simp, by simp, fun _ hfirst => rgnCheckFail_shows
          (by rw [descNoted_on (by decide), reached_on (by decide), hfirst]) (by decide) hn⟩

/-! ### A descriptor store out of order -/

/-- An engine before its start lock whose descriptor space lists a byte of descriptor 1 before one of descriptor 0. -/
def descsUnsorted : Eng := { Eng.reset.wr Reg.GEN_BOOT_STAGE 5 with descs := [(64, 1), (0, 1)] }

/-- The descriptor space after a command that answers a next state. -/
def descsAfter : Host.Outcome State Fault Refusal → Option (SMap Byte)
  | .next s => some s.eng.descs
  | _ => none

/-- Refutes O23: a write of CTL splices its bytes below CTL, of which there are none, into the descriptor space where the
descriptor is not valid; on a store that is not in canonical form (`descsUnsorted`) that alone moves an entry, while the clause of
a failed check has the space stay. From reset on the store is in canonical form (O3, O5); the statement does not ask for it. -/
theorem not_regionsAndProgramsAreCheckedWhenMadeValid : ¬ Obligations.RegionsAndProgramsAreCheckedWhenMadeValid := by
  unfold Obligations.RegionsAndProgramsAreCheckedWhenMadeValid
  intro h
  obtain ⟨-, -, hfails⟩ := h.1 { pending := [], eng := descsUnsorted } 0 (by decide +kernel) (by decide +kernel)
  have hstays := hfails 1 (by decide +kernel) (by decide +kernel) (by decide +kernel)
  exact absurd (congrArg descsAfter hstays) (by decide +kernel)

end Sys2Proof.Machine
end

section
/-!
PROOF. Accesses of the degraded-read aperture (R90, R243, R244): refused, or answered at the front of a lost position.
-/
namespace Sys2Proof.Machine

/-! ### The access finds the clocks running (R438) -/

theorem awake_on_asleep (s : State) : (awake s).on Reg.GEN_PWR_ASLEEP = false := by
  unfold awake
  split
  next => exact Eng.on_flag_same _ _ (by decide)
  next h => exact Bool.eq_false_iff.2 h

theorem degradedRead_quiet (s : State) (store : Bool) (off len key requester : Nat) :
    (quiet s).degradedRead store off len key requester = (awake s).degradedRead store off len key requester := by
  unfold Eng.degradedRead
  rw [if_neg (Bool.eq_false_iff.1 (awake_on_asleep s))]
  rfl

/-! ### An access by what it names and asks for -/

/-- The region of class 1 to 4 that an access of the aperture names. -/
def Eng.drRegion (e : Eng) (off : Nat) : Option Rgn := (e.rgnAt off).filter (fun r => r.protectedCls)

/-- The engine that has counted a store, or an access that names no such region, as refused. -/
def Eng.drCounted (e : Eng) (store : Bool) (off : Nat) : Eng :=
  if store = true ∨ e.drRegion off = none then e.bump Reg.RBD_DR_FAIL_REFUSED else e

section
variable {e : Eng} (hclocks : e.on Reg.GEN_PWR_ASLEEP = false) (store : Bool) {off : Nat} (len : Nat) (key requester : Nat)
include hclocks

theorem degradedRead_inReset (h : e.boot.inReset = true) : e.degradedRead store off len key requester =
    { e with late := e.late ++ [.load store off len key requester] } := by
  simp only [Eng.degradedRead, hclocks, h, Bool.false_eq_true, if_false, if_true]

variable (hrun : e.boot.inReset = false)
include hrun

theorem degradedRead_noRegion (hr : e.drRegion off = none) :
    e.degradedRead store off len key requester = ((e.drCounted store off).keyMiss none requester).fabricError := by
  simp only [Eng.drCounted, hr, or_true, if_true]
  rw [Eng.drRegion] at hr
  simp only [Eng.degradedRead, hclocks, hrun, hr, Bool.false_eq_true, if_false, Option.isNone_none, Bool.or_true, if_true]

/-- An access of a region of the grove: the key, the form of the access, then the front. -/
theorem degradedRead_region {r : Rgn} (hr : e.drRegion off = some r) :
    e.degradedRead store off len key requester =
      if key ≠ r.key then ((e.drCounted store off).keyMiss (some r.num) requester).fabricError
      else if store = true ∨ e.serving = false ∨ ¬(len = 64 ∨ len = 128 ∨ len = 256) ∨ off % len ≠ 0 then
        (e.drCounted store off).fabricError
      else e.frontFor.elim e.fabricError (fun x => e.frontLoad x r off len) := by
  have hcounted : e.drCounted store off = if store then e.bump Reg.RBD_DR_FAIL_REFUSED else e := by
    simp [Eng.drCounted, hr]
  rw [hcounted]
  rw [Eng.drRegion] at hr
  cases store with
  | true => simp [Eng.degradedRead, hclocks, hrun, hr]
  | false => cases hfront : e.frontFor <;> simp [Eng.degradedRead, hclocks, hrun, hr, hfront, or_assoc, and_assoc]

end

/-! ### A load at the front -/

theorem frontLoad_held {e : Eng} {x : Nat} {r : Rgn} {off : Nat} {d : DrSector} (h : e.drHas x r off = some d) (len : Nat) :
    e.frontLoad x r off len = e.drServe ((d.data.drop (off % sectorBytes)).take len) := by
  simp only [Eng.frontLoad, h]

/-- The sector of a load that waits is sought: in the copies of a mirror region, else by its stripe. -/
theorem frontLoad_sought {e : Eng} {x : Nat} {r : Rgn} {off : Nat} (h : e.drHas x r off = none) (len : Nat) :
    let waiting : Eng := { e with drLoads := e.drLoads ++ [{ x := x, off := off, len := len }] }
    e.frontLoad x r off len =
      if r.mirror then waiting.newMirrorReq r (r.rowOf off) (off % leafBytes / sectorBytes) x
      else waiting.addRecon r.num (r.rowOf off) (off % leafBytes / sectorBytes) 1 x false 0 .degraded := by
  simp only [Eng.frontLoad, h]

/-! ### The command -/

theorem exec_degradedRead {s : State} {store : Bool} {off : BitVec 40} {len : Nat} {key : Word} {requester : Place} {e' : Eng}
    (h : (awake s).degradedRead store off.toNat len key.toNat requester.toNat = e') :
    exec (.degradedRead store off len key requester) s = .next (leaving s e'.recon) := by
  rw [exec, execDegradedRead, State.run_eq, degradedRead_quiet, h]

/-- Settles O47: one case of the aperture's checks after another, and the front's store last. -/
theorem degradedReadsAreAnsweredAtTheFront : Obligations.DegradedReadsAreAnsweredAtTheFront := by
  unfold Obligations.DegradedReadsAreAnsweredAtTheFront
  intro s store off len key requester
  have hclocks := awake_on_asleep s
  refine ⟨fun hreset => exec_degradedRead (degradedRead_inReset hclocks _ _ _ _ hreset), fun hrun =>
    ⟨fun hnone => exec_degradedRead (degradedRead_noRegion hclocks _ _ _ _ hrun hnone), fun r hr => ?_⟩⟩
  have hload := degradedRead_region hclocks store len key.toNat requester.toNat hrun hr
  refine ⟨fun hkey => exec_degradedRead (hload.trans (if_pos hkey)), fun hkey => ?_⟩
  rw [if_neg (not_not.2 hkey)] at hload
  refine ⟨fun hbad => exec_degradedRead (hload.trans (if_pos hbad)), fun hread hserving hlen halign => ?_⟩
  rw [if_neg (by simp [hread, hserving, hlen, halign])] at hload
  refine ⟨fun hfront => exec_degradedRead ?_, fun x hfront => ?_⟩
  · rw [hload, hfront]; rfl
  · have hatFront : (awake s).degradedRead store off.toNat len key.toNat requester.toNat =
        (awake s).frontLoad x r off.toNat len := by rw [hload, hfront]; rfl
    refine ⟨fun d hd => ?held, fun hd => ⟨fun hcoded => ?coded, fun hmirror => ?mirror⟩⟩
    case held => exact exec_degradedRead (hatFront.trans (frontLoad_held hd len))
    case coded =>
      exact exec_degradedRead (hatFront.trans ((frontLoad_sought hd len).trans (if_neg (Bool.eq_false_iff.1 hcoded))))
    case mirror => exact exec_degradedRead (hatFront.trans ((frontLoad_sought hd len).trans (if_pos hmirror)))

end Sys2Proof.Machine
end

section
/-!
PROOF. The timers of the transport (R83, R115, R117, R121 to R123, R241, R242): what each does for the object that it is set for,
and that it does nothing where there is no such object.
-/
namespace Sys2Proof.Machine

/-! ### Packets that wait for acknowledgements -/

section
variable {s : State} {k : PktKey} {dest : Fin 16}

theorem exec_packetResend_some {i : Nat} (h : (quiet s).sentIdx k dest.val = some i) :
    exec (.packetResend k dest) s = .next (leaving s ((quiet s).resendTo i dest)) := by
  simp only [exec, execPacketResend, State.run_eq, h]

theorem exec_packetResend_none (h : (quiet s).sentIdx k dest.val = none) :
    exec (.packetResend k dest) s = .next (leaving s (quiet s)) := by
  simp only [exec, execPacketResend, State.run_eq, h]

theorem exec_ackDeadlineMiss_some {i : Nat} (h : (quiet s).sentIdx k dest.val = some i) :
    exec (.ackDeadlineMiss k dest) s = .next (leaving s ((quiet s).deadlineMiss i dest)) := by
  simp only [exec, execAckDeadlineMiss, State.run_eq, h]

theorem exec_ackDeadlineMiss_none (h : (quiet s).sentIdx k dest.val = none) :
    exec (.ackDeadlineMiss k dest) s = .next (leaving s (quiet s)) := by
  simp only [exec, execAckDeadlineMiss, State.run_eq, h]

end

/-- A data-bearing packet's first miss at a destination marks its leaf, and the packet goes again. -/
theorem deadlineMiss_first {e : Eng} {i pos : Nat} {m : Sent} {r : Rgn} (hm : e.sent[i]? = some m) (htyp : m.typ ≤ 2)
    (hr : e.rgn? m.region = some r) (hfirst : m.dests.any (fun d => d.pos == pos && d.gone && !d.missed) = true) :
    e.deadlineMiss i pos =
      (((e.markLag (r.leaf m.row)).bump Reg.GRV_LAG_CNT_COUNT).raise .DELTA_LAG).resendTo i pos := by
  simp only [Eng.deadlineMiss, hm, hfirst, htyp, hr, if_true]

/-! ### Release points -/

/-- The release point of a leaf, as its owner has it now. -/
def Eng.relNow (e : Eng) (r : Rgn) (region row : Nat) : Nat := e.relPoint region row (e.ctx (r.leaf row)).seq

/-- The packet that tells a holder a release point alone. -/
def releasePkt (region row rel : Nat) : Pkt := { typ := tDeltaRelease, region := region, row := row, release := rel }

/-- What a holder has last been told of a leaf's release point. -/
def Eng.noteTold (e : Eng) (region row pos rel : Nat) : Eng :=
  { e with relSent := e.relSent.filter (fun x => !(x.1 == region && x.2.1 == row && x.2.2.1 == pos)) ++
      [(region, row, pos, rel)] }

@[simp] theorem noteTold_sent (e : Eng) (region row pos rel : Nat) : (e.noteTold region row pos rel).sent = e.sent := (rfl)
@[simp] theorem noteTold_mem (e : Eng) (region row pos rel : Nat) : (e.noteTold region row pos rel).mem = e.mem := (rfl)

/-- To a holder that has been told nothing there is no former note. -/
theorem noteTold_relSent {e : Eng} {region row pos : Nat}
    (h : e.relSent.find? (fun x => x.1 == region && x.2.1 == row && x.2.2.1 == pos) = none) (rel : Nat) :
    (e.noteTold region row pos rel).relSent = e.relSent ++ [(region, row, pos, rel)] :=
  congrArg (· ++ _) (List.filter_eq_self.2 fun x hx => by
    rw [Bool.eq_false_iff.2 (List.find?_eq_none.1 h x hx), Bool.not_false])

theorem relSent_of_beyondLinks {e e' : Eng} (h : e'.beyondLinks = e.beyondLinks) : e'.relSent = e.relSent :=
  show e'.beyondLinks.relSent = e.beyondLinks.relSent by rw [h]
theorem sent_of_beyondLinks {e e' : Eng} (h : e'.beyondLinks = e.beyondLinks) : e'.sent = e.sent :=
  show e'.beyondLinks.sent = e.beyondLinks.sent by rw [h]

section
variable {e : Eng} {region row pos : Nat} {r : Rgn} (hr : e.rgn? region = some r)
  (huntold : e.relSent.find? (fun x => x.1 == region && x.2.1 == row && x.2.2.1 == pos) = none)
include hr huntold

/-- A holder that has been told nothing need not be told of the point 0. -/
theorem sendRelease_zero (hrel : e.relNow r region row = 0) : e.sendRelease region row pos = e := by
  rw [Eng.relNow] at hrel
  simp [Eng.sendRelease, hr, huntold, hrel]

variable (hstreamed : r.streamed = true)
  (hdests : e.destsOf region row = [{ pos := pos, thick := false, gone := false, resends := 0, missed := false }])
  (hrel : e.relNow r region row ≠ 0)
include hstreamed hdests hrel

/-- A leaf's only holder is told a release point in a packet, and that it has been told is noted. -/
theorem sendRelease_untold :
    e.sendRelease region row pos =
      (e.send pos (releasePkt region row (e.relNow r region row))).noteTold region row pos (e.relNow r region row) := by
  rw [Eng.relNow] at hrel
  simp [Eng.sendRelease, hr, huntold, hdests, hstreamed, hrel, Eng.relNow, Eng.noteTold, releasePkt]

/-- The note is the only change that it makes beyond the links. -/
theorem sendRelease_untold_changes :
    (e.sendRelease region row pos).relSent = e.relSent ++ [(region, row, pos, e.relNow r region row)] ∧
    (e.sendRelease region row pos).sent = e.sent ∧ (e.sendRelease region row pos).mem = e.mem := by
  have hlinks := beyondLinks_send e pos (releasePkt region row (e.relNow r region row))
  have hnotes := relSent_of_beyondLinks hlinks
  rw [sendRelease_untold hr huntold hstreamed hdests hrel]
  refine ⟨?_, ?_, ?_⟩
  · rw [noteTold_relSent (by rw [hnotes, huntold]), hnotes]
  · rw [noteTold_sent, sent_of_beyondLinks hlinks]
  · rw [noteTold_mem, mem_of_beyondLinks hlinks]

end

/-! ### Copies and their reads -/

theorem mirrorAckTimeout_waiting {e : Eng} {region copy dst : Nat} {m : MirrorTx} (hm : e.mtx? region copy = some m)
    (hdone : m.done = true) (hwaits : m.waiting.any (fun w => w.2 == dst) = true) :
    e.mirrorAckTimeout region copy dst =
      ((e.send dst { typ := tMirrorTorn, region := region, seq := copy }).bump Reg.GRV_MIRROR_TORN_COUNT).dropReceiver
        (fun x w => x.is region copy && w == dst) := by
  simp only [Eng.mirrorAckTimeout, hm, hdone, hwaits, Bool.and_self, if_true]

theorem mirrorRetry_asked {e : Eng} {id : Nat} {q : MirrorReq}
    (h : e.mreq.find? (fun q => q.id == id && q.asked < 16) = some q) : e.mirrorRetry id = e.sendMirrorRead q := by
  simp only [Eng.mirrorRetry, h]

/-! ### Partials of a chunk -/

theorem chunkTimeout_unfinished {e : Eng} {id : Nat} {c : Recon}
    (h : e.recons.find? (fun c => c.id == id && c.asked) = some c) (hleft : c.got.length < c.count) :
    e.chunkTimeout id =
      (e.setRecon { c with got := [], granted := 0 }).sendRequests { c with got := [], granted := 0 } := by
  simp only [Eng.chunkTimeout, h, hleft, if_true]

/-- A need, with its class, is one of a request. -/
def AccNeed.ofRequest (id : Nat) (x : Nat × AccNeed) : Bool :=
  match x.2 with
  | .place _ i _ => i == id
  | .coll i => i == id

/-- A need whose slot has not come: the memory area gives one, where the SRAM has none and the area has room. -/
theorem accFallback_grants {e : Eng} {id k p want : Nat} {need : AccNeed}
    (hneed : e.accNeeds.find? (AccNeed.ofRequest id) = some (k, need))
    (hwant : e.accWant need = some (p, want)) (hpos : 0 < want) (hfull : e.slotsFree = 0)
    (hroom : e.slotsTaken < 512 + e.rd Reg.RBD_ACC_CTL_MEM * 16384) (hraised : e.acc.raised = true) :
    e.accFallback id = (((e.bump Reg.RBD_ACC_STAT_FALLBACKS).grantTo p 1).accNote 1 need).accView := by
  have hgo : (decide (0 < e.slotsFree) || decide (want = 0) ||
      decide (512 + e.rd Reg.RBD_ACC_CTL_MEM * 16384 ≤ e.slotsTaken)) = false := by
    simp [hfull, hpos.ne', hroom]
  unfold Eng.accFallback
  dsimp only
  -- The definition tests each need by a match of its own, which is `AccNeed.ofRequest` by unfolding.
  erw [hneed]
  simp only [Option.map_some, hwant, hgo, Eng.bump_acc, hraised, Bool.false_eq_true, if_false, if_true]

/-- Settles O38: each timer by what it finds, with the rule for it. -/
theorem transportTimersAct : Obligations.TransportTimersAct := by
  unfold Obligations.TransportTimersAct
  intro s
  refine ⟨fun k dest i m r hidx hm htyp hr hfirst => ?missed, fun k dest i hidx => exec_packetResend_some hidx,
    fun k dest hidx => ⟨exec_packetResend_none hidx, exec_ackDeadlineMiss_none hidx⟩,
    fun region row dest r hr hstreamed hdests huntold => ⟨fun hrel => ?zero, fun hrel => ?release⟩, fun pos => rfl,
    fun region copy dest m hm hdone hwaits => ?torn, fun req q hq => ?read, fun req c hc hleft => ?chunk,
    fun req k need p want hneed hwant hpos hfull hroom hraised => ?slot⟩
  case missed => rw [exec_ackDeadlineMiss_some hidx, deadlineMiss_first hm htyp hr hfirst]
  case zero => exact next_leaving (sendRelease_zero hr huntold hrel)
  case release => exact ⟨_, rfl, sendRelease_untold_changes hr huntold hstreamed hdests hrel⟩
  case torn => exact next_leaving (mirrorAckTimeout_waiting hm hdone hwaits)
  case read => exact next_leaving (mirrorRetry_asked hq)
  case chunk => exact next_leaving (congrArg Eng.recon (chunkTimeout_unfinished hc hleft))
  case slot => exact next_leaving (accFallback_grants hneed hwant hpos hfull hroom hraised)

end Sys2Proof.Machine
end

section
/-!
PROOF. Thinning (R102 to R105): a delta by planes and back, and the plane lines that go into a payload and out of it.
-/
namespace Sys2Proof.Machine

/-! ### Planes -/

theorem map_getD_range (d : List Byte) : (List.range d.length).map (fun i => d.getD i 0) = d :=
  List.ext_getElem (by simp) fun i _ h => by simp [List.getD_eq_getElem?_getD, h]

/-- The numbers below `w * m` that leave the remainder `p` (R103). -/
theorem filter_range_mod_eq {w p : Nat} (hp : p < w) (m : Nat) :
    (List.range (w * m)).filter (fun i => i % w == p) = (List.range m).map (fun n => n * w + p) := by
  induction m with
  | zero => rfl
  | succ m ih =>
    have hone : (List.range w).filter (fun i => i == p) = [p] := by
      rw [List.filter_beq, List.count_eq_one_of_mem List.nodup_range (List.mem_range.2 hp)]
      rfl
    have hlast : ((List.range w).map (w * m + ·)).filter (fun i => i % w == p) = [m * w + p] := by
      rw [List.filter_map, show (List.range w).filter ((fun i => i % w == p) ∘ (w * m + ·)) = [p] from ?_, Nat.mul_comm w m]
      · rfl
      · rw [← hone]
        refine List.filter_congr fun i hi => ?_
        rw [Function.comp, Nat.mul_add_mod, Nat.mod_eq_of_lt (List.mem_range.1 hi)]
    rw [Nat.mul_succ, List.range_add, List.filter_append, ih, hlast, List.range_succ, List.map_append]
    rfl

/-- Plane `p` of a delta: byte `p` of each element. -/
theorem plane_eq {w p m : Nat} (hp : p < w) {d : List Byte} (hd : d.length = w * m) :
    (d.zipIdx.filter (fun e => e.2 % w == p)).map (·.1) = (List.range m).map (fun n => d.getD (n * w + p) 0) := by
  have hidx : d.zipIdx = (List.range d.length).map (fun i => (d.getD i 0, i)) :=
    List.ext_getElem (by simp) fun i _ h => by simp at h; simp [List.getD_eq_getElem?_getD, h]
  rw [hidx, List.filter_map, List.map_map, hd]
  have hmod := filter_range_mod_eq hp m
  rw [show ((fun e : Byte × Nat => e.2 % w == p) ∘ fun i => (d.getD i 0, i)) = fun i => i % w == p from rfl, hmod, List.map_map]
  rfl

/-- A piece of a string that is made of pieces of one length. -/
theorem take_drop_flatMap_range {f : Nat → List Byte} {m : Nat} (w : Nat) (hf : ∀ i < w, (f i).length = m) {p : Nat}
    (hp : p < w) :
    (((List.range w).flatMap f).drop (p * m)).take m = f p := by
  obtain ⟨k, rfl⟩ : ∃ k, w = p + (1 + k) := ⟨w - p - 1, by omega⟩
  have hbefore : ((List.range p).flatMap f).length = p * m := by
    rw [flatMap_length _ fun i hi => hf i (by have := List.mem_range.1 hi; omega), List.length_range, Nat.mul_comm]
  rw [List.range_add, List.flatMap_append, List.drop_left' hbefore, Nat.add_comm 1 k, List.range_succ_eq_map, List.map_cons,
    List.flatMap_cons, Nat.add_zero, List.take_left' (hf p hp)]

/-- Elements of `w` values each, one after another. -/
theorem flatMap_elements {α : Type} (g : Nat → α) (w m : Nat) :
    (List.range m).flatMap (fun n => (List.range w).map (fun p => g (n * w + p))) = (List.range (w * m)).map g := by
  induction m with
  | zero => rfl
  | succ m ih =>
    rw [List.range_succ, List.flatMap_append, ih, Nat.mul_succ, List.range_add, List.map_append, List.map_map, Nat.mul_comm w m]
    simp [Function.comp_def]

theorem planeMajor_length {w : Nat} {d : List Byte} (hw : 4096 = w * (4096 / w)) (hd : d.length = 4096) :
    (planeMajor w d).length = 4096 := by
  unfold planeMajor
  split
  · exact hd
  · rw [flatMap_length (n := 4096 / w), List.length_range, Nat.mul_comm, ← hw]
    intro p hp
    rw [plane_eq (List.mem_range.1 hp) (hd.trans hw), List.length_map, List.length_range]

/-- R103 is undone, for an element width that divides the sector. -/
theorem planeMinor_planeMajor {w : Nat} {d : List Byte} (hw : 4096 = w * (4096 / w)) (hd : d.length = 4096) :
    planeMinor w (planeMajor w d) = d := by
  unfold planeMinor planeMajor
  split
  · rfl
  · generalize 4096 / w = m at hw
    have hlen : d.length = w * m := hd.trans hw
    have hplane : ∀ p ∈ List.range w,
        ((((List.range w).flatMap fun p => (d.zipIdx.filter (fun e => e.2 % w == p)).map (·.1)).drop (p * m)).take m) =
          (List.range m).map (fun n => d.getD (n * w + p) 0) := by
      intro p hp
      rw [take_drop_flatMap_range w (fun i hi => ?_) (List.mem_range.1 hp), plane_eq (List.mem_range.1 hp) hlen]
      rw [plane_eq hi hlen, List.length_map, List.length_range]
    have helem : ∀ n ∈ List.range m,
        ((List.range w).map fun p => (List.range m).map (fun n => d.getD (n * w + p) 0)).map (fun pl => pl.getD n 0) =
          (List.range w).map (fun p => d.getD (n * w + p) 0) := by
      intro n hn
      rw [List.map_map]
      refine List.map_congr_left fun p _ => ?_
      simp [List.getD_eq_getElem?_getD, List.mem_range.1 hn]
    dsimp only
    rw [List.map_congr_left hplane, List.flatMap_congr helem, flatMap_elements (fun i => d.getD i 0), ← hlen, map_getD_range]

theorem elemWidth_dvd (fmt : Nat) : 4096 = elemWidth fmt * (4096 / elemWidth fmt) := by
  unfold elemWidth
  split_ifs <;> rfl

/-! ### Plane lines -/

theorem chunksOf_exact (n : Nat) : ∀ (m : Nat) (bs : List Byte), 0 < n → bs.length = n * m →
    (chunksOf n m bs).length = m ∧ (chunksOf n m bs).flatten = bs ∧ ∀ c ∈ chunksOf n m bs, c.length = n
  | 0, bs, _, h => by simp_all [chunksOf]
  | m + 1, bs, hn, h => by
    rw [Nat.mul_succ] at h
    have hne : bs.isEmpty = false := by rw [List.isEmpty_eq_false_iff, ← List.length_pos_iff]; omega
    obtain ⟨hcount, hjoin, hsize⟩ := chunksOf_exact n m (bs.drop n) hn (by rw [List.length_drop]; omega)
    have hhead : (bs.take n).length = n := by rw [List.length_take]; omega
    simp only [chunksOf, hne, Bool.false_eq_true, if_false, List.length_cons, List.flatten_cons, List.mem_cons, hcount, hjoin,
      List.take_append_drop, forall_eq_or_imp, hhead, true_and]
    exact hsize

section
variable {w : Nat} {d : List Byte} (hw : 4096 = w * (4096 / w)) (hd : d.length = 4096)
include hw hd

theorem planeLines_join : (planeLines w d).flatMap (·.1) = planeMajor w d := by
  rw [planeLines, List.flatMap_def, List.zipIdx_map_fst,
    (chunksOf_exact 64 64 _ (by decide) (planeMajor_length hw hd)).2.1]

theorem planeLines_numbers : (planeLines w d).map (·.2) = List.range 64 := by
  rw [planeLines, List.zipIdx_map_snd, (chunksOf_exact 64 64 _ (by decide) (planeMajor_length hw hd)).1, List.range_eq_range']

theorem planeLines_size : ∀ l ∈ planeLines w d, l.1.length = 64 := by
  intro l hl
  exact (chunksOf_exact 64 64 _ (by decide) (planeMajor_length hw hd)).2.2 _ (List.fst_mem_of_mem_zipIdx hl)

end

/-- A plane line has one number. -/
theorem planeLines_unique {w : Nat} {d : List Byte} {l l' : List Byte × Nat} (hl : l ∈ planeLines w d)
    (hl' : l' ∈ planeLines w d) (h : l.2 = l'.2) : l = l' := by
  have h1 := List.mem_zipIdx_iff_getElem?.1 hl
  have h2 := List.mem_zipIdx_iff_getElem?.1 hl'
  rw [h, h2] at h1
  exact Prod.ext (Option.some.inj h1).symm h

/-! ### The line map -/

/-- The numbers of the plane lines that a payload holds (R104). -/
def keptLines (w : Nat) (d : List Byte) : List Nat := ((planeLines w d).filter (fun l => !allZero l.1)).map (·.2)

theorem lineMapOf_eq_sum (w : Nat) (d : List Byte) : lineMapOf w d = ((keptLines w d).map (2 ^ ·)).sum := by
  rw [lineMapOf, keptLines, List.map_map, List.sum_eq_foldl, List.foldl_map]
  rfl

section
variable {w : Nat} {d : List Byte} (hw : 4096 = w * (4096 / w)) (hd : d.length = 4096)
include hw hd

theorem keptLines_sublist : (keptLines w d).Sublist (List.range 64) :=
  planeLines_numbers hw hd ▸ List.filter_sublist.map _

/-- The line map's bits are the kept lines. -/
theorem bit_lineMapOf (t : Nat) : bit (lineMapOf w d) t = true ↔ t ∈ keptLines w d := by
  have hsorted : (keptLines w d).SortedLT := (List.pairwise_lt_range.sublist (keptLines_sublist hw hd)).sortedLT
  rw [bit, ← Nat.mem_bitIndices, lineMapOf_eq_sum, Nat.bitIndices_sum_map_two_pow hsorted]

theorem lineMapOf_lt : lineMapOf w d < 2 ^ 64 :=
  Nat.lt_pow_two_of_testBit _ fun t ht => Bool.eq_false_iff.2 fun h =>
    absurd (List.mem_range.1 ((keptLines_sublist hw hd).subset ((bit_lineMapOf hw hd t).1 h))) (by omega)

/-- The line map names the plane lines that are not zero. -/
theorem bit_lineMapOf_line {l : List Byte × Nat} (hl : l ∈ planeLines w d) : bit (lineMapOf w d) l.2 = !allZero l.1 := by
  rw [Bool.eq_iff_iff, bit_lineMapOf hw hd, keptLines, List.mem_map]
  refine ⟨fun ⟨l', hl', h⟩ => ?_, fun h => ⟨l, List.mem_filter.2 ⟨hl, h⟩, rfl⟩⟩
  obtain ⟨hmem, hkept⟩ := List.mem_filter.1 hl'
  exact planeLines_unique hmem hl h ▸ hkept

/-- The lines that the map names are as many as the payload holds. -/
theorem keptLines_eq_filter : (List.range 64).filter (fun t => bit (lineMapOf w d) t) = keptLines w d := by
  rw [← planeLines_numbers hw hd, List.filter_map, keptLines]
  exact congrArg _ (List.filter_congr fun l hl => bit_lineMapOf_line hw hd hl)

theorem thin_length : (thin w d).length = 64 * (keptLines w d).length := by
  rw [thin, keptLines, List.length_map]
  exact flatMap_length _ fun l hl => planeLines_size hw hd l (List.mem_filter.1 hl).1

end

/-! ### Expansion -/

theorem eq_zeros_of_allZero {bs : List Byte} (h : allZero bs = true) : bs = zeros bs.length := by
  simp only [allZero, List.all_eq_true, beq_iff_eq] at h
  exact List.eq_replicate_of_mem h

theorem padTo_of_length {n : Nat} {bs : List Byte} (h : bs.length = n) : padTo n bs = bs := by
  subst h
  simp [padTo, zeros]

/-- Lines that a map names are found in a payload, and the others are zero (R105). -/
theorem fillLines_kept (map : Nat) : ∀ ls : List (List Byte × Nat),
    (∀ l ∈ ls, l.1.length = 64 ∧ bit map l.2 = !allZero l.1) →
    fillLines map (ls.map (·.2)) ((ls.filter (fun l => !allZero l.1)).flatMap (·.1)) = ls.flatMap (·.1)
  | [], _ => rfl
  | l :: ls, h => by
    obtain ⟨⟨hlen, hbit⟩, hrest⟩ := List.forall_mem_cons.1 h
    have ih := fillLines_kept map ls hrest
    rw [List.map_cons, List.filter_cons, List.flatMap_cons, fillLines, hbit]
    cases hz : allZero l.1 with
    | true =>
      simp only [Bool.not_true, Bool.false_eq_true, if_false, ih]
      rw [eq_zeros_of_allZero hz, hlen]
    | false =>
      simp only [Bool.not_false, if_true, List.flatMap_cons, List.take_left' hlen, List.drop_left' hlen, padTo_of_length hlen, ih]

theorem expand_thin {w : Nat} {d : List Byte} (hw : 4096 = w * (4096 / w)) (hd : d.length = 4096) :
    expand w (lineMapOf w d) (thin w d) = d := by
  have hfill := fillLines_kept (lineMapOf w d) (planeLines w d) fun l hl =>
    ⟨planeLines_size hw hd l hl, bit_lineMapOf_line hw hd hl⟩
  rw [planeLines_numbers hw hd, planeLines_join hw hd] at hfill
  rw [expand, thin, hfill, planeMinor_planeMajor hw hd]

/-- Settles O58: the payload lines go back where the map names them, and the planes are put together again. -/
theorem thinningLosesNothing : Obligations.ThinningLosesNothing := by
  unfold Obligations.ThinningLosesNothing
  intro fmt delta hd
  have hw := elemWidth_dvd fmt
  exact ⟨expand_thin hw hd, lineMapOf_lt hw hd, by rw [keptLines_eq_filter hw hd, thin_length hw hd]⟩

end Sys2Proof.Machine
end

section
/-!
PROOF. The wire form of a packet (R107, R108, R289), read back field by field.
-/
namespace Sys2Proof.Machine

/-! ### Numbers as bytes -/

/-- A number of `w` bytes is what its bytes say (R8). -/
theorem leNat_natLe {w n : Nat} (h : n < 256 ^ w) : leNat (natLe w n) = n := by
  induction w generalizing n with
  | zero => simp at h; simp [natLe, leNat, h]
  | succ w ih =>
    rw [Nat.pow_succ] at h
    rw [natLe, leNat, ih (by omega), byteOf, BitVec.toNat_ofNat]
    omega

theorem beNat_natBe {w n : Nat} (h : n < 256 ^ w) : beNat (natBe w n) = n := by
  rw [beNat_eq, natBe, List.reverse_reverse, leNat_natLe h]

theorem natLe_toNat (b : Byte) : natLe 1 b.toNat = [b] := by simp [natLe, byteOf]

/-! ### Fields one behind another -/

/-- Fields, each a width and a value, as the string of their bytes. -/
def packed (fs : List (Nat × Nat)) : List Byte := fs.flatMap (fun f => natLe f.1 f.2)

theorem packed_length (fs : List (Nat × Nat)) : (packed fs).length = (fs.map (·.1)).sum := by
  simp [packed, List.length_flatMap, natLe_length]

/-- Behind the fields before it a field is read as it was written. -/
theorem fieldAt_packed {fs : List (Nat × Nat)} (hfit : ∀ f ∈ fs, f.2 < 256 ^ f.1) (rest : List Byte) (i : Nat) {off w n : Nat}
    (hi : fs[i]? = some (w, n)) (hoff : ((fs.take i).map (·.1)).sum = off) : fieldAt (packed fs ++ rest) off w = n := by
  obtain ⟨hlt, hget⟩ := List.getElem?_eq_some_iff.1 hi
  have hsplit : packed fs ++ rest = packed (fs.take i) ++ (natLe w n ++ (packed (fs.drop (i + 1)) ++ rest)) := by
    conv_lhs => rw [← List.take_append_drop i fs, List.drop_eq_getElem_cons hlt, hget]
    simp only [packed, List.flatMap_append, List.flatMap_cons, List.append_assoc]
  rw [hsplit, fieldAt, List.drop_left' ((packed_length _).trans hoff), List.take_left' (natLe_length w n),
    leNat_natLe (hfit _ (List.mem_of_getElem? hi))]

/-! ### The packet -/

/-- The fields of envelope and header, in their order, each with its width in bytes (R107, R289). -/
def wireFields (p : SapPkt) (typ : Nat) : List (Nat × Nat) :=
  [(8, p.counter.toNat), (1, p.hops.toNat), (7, 0), (1, typ), (1, p.flags.toNat), (1, p.gen.toNat), (1, p.planes.toNat),
   (2, p.region.toNat), (1, p.sector.toNat), (1, p.pos.toNat), (4, p.row.toNat), (4, p.stamp.toNat), (4, p.seq.toNat),
   (4, p.release.toNat), (8, p.lineMap.toNat)]

theorem wireFields_fit (p : SapPkt) {typ : Nat} (h : typ < 256) : ∀ f ∈ wireFields p typ, f.2 < 256 ^ f.1 := by
  simp only [wireFields, List.forall_mem_cons, List.not_mem_nil, false_implies, implies_true, and_true]
  exact ⟨p.counter.isLt, p.hops.isLt, by decide, h, p.flags.isLt, p.gen.isLt, p.planes.isLt, p.region.isLt, p.sector.isLt,
    p.pos.isLt, p.row.isLt, p.stamp.isLt, p.seq.isLt, p.release.isLt, p.lineMap.isLt⟩

theorem sapWire_eq (p : SapPkt) (typ : Nat) :
    sapWire p typ = packed (wireFields p typ) ++ (p.body ++ natBe 16 p.tag.toNat) := by
  have htyp : natLe 1 typ = [byteOf typ] := rfl
  have hzeros : natLe 7 0 = zeros 7 := rfl
  simp only [sapWire, sapHeader, packed, wireFields, List.flatMap_cons, List.flatMap_nil, natLe_toNat, htyp, hzeros,
    List.append_assoc, List.cons_append, List.nil_append]

section
variable (p : SapPkt) {typ : Nat} (h : typ < 256)

theorem packed_wireFields_length (typ : Nat) : (packed (wireFields p typ)).length = 48 := by
  simp [packed_length, wireFields]

theorem sapWire_length (typ : Nat) : (sapWire p typ).length = 64 + p.body.length := by
  simp only [sapWire_eq, List.length_append, packed_wireFields_length, natBe_length]
  omega

theorem sapWire_body (typ : Nat) : ((sapWire p typ).drop 48).take p.body.length = p.body := by
  rw [sapWire_eq, List.drop_left' (packed_wireFields_length p typ), List.take_left' rfl]

theorem sapWire_tag (typ : Nat) : (sapWire p typ).drop (48 + p.body.length) = natBe 16 p.tag.toNat := by
  rw [sapWire_eq, ← List.append_assoc, List.drop_left' (by rw [List.length_append, packed_wireFields_length])]

include h

theorem fieldAt_sapWire (i : Nat) {off w n : Nat} (hi : (wireFields p typ)[i]? = some (w, n))
    (hoff : (((wireFields p typ).take i).map (·.1)).sum = off) : fieldAt (sapWire p typ) off w = n := by
  rw [sapWire_eq, fieldAt_packed (wireFields_fit p h) _ i hi hoff]

theorem sapWire_envelope :
    fieldAt (sapWire p typ) 0 8 = p.counter.toNat ∧ fieldAt (sapWire p typ) 8 1 = p.hops.toNat := by
  refine ⟨fieldAt_sapWire p h 0 ?_ ?_, fieldAt_sapWire p h 1 ?_ ?_⟩ <;> simp [wireFields]

theorem sapWire_header :
    let f := fun o w => fieldAt (sapWire p typ) (16 + o) w
    f 0 1 = typ ∧ f 1 1 = p.flags.toNat ∧ f 2 1 = p.gen.toNat ∧ f 3 1 = p.planes.toNat ∧ f 4 2 = p.region.toNat ∧
    f 6 1 = p.sector.toNat ∧ f 7 1 = p.pos.toNat ∧ f 8 4 = p.row.toNat ∧ f 12 4 = p.stamp.toNat ∧ f 16 4 = p.seq.toNat ∧
    f 20 4 = p.release.toNat ∧ f 24 8 = p.lineMap.toNat := by
  have field := fieldAt_sapWire p h
  refine ⟨field 3 ?_ ?_, field 4 ?_ ?_, field 5 ?_ ?_, field 6 ?_ ?_, field 7 ?_ ?_, field 8 ?_ ?_, field 9 ?_ ?_,
    field 10 ?_ ?_, field 11 ?_ ?_, field 12 ?_ ?_, field 13 ?_ ?_, field 14 ?_ ?_⟩ <;> simp [wireFields]

end

/-- Settles O59: each field stands where it is read, and the body lies between the header and the tag. -/
theorem wireFormKeepsEveryField : Obligations.WireFormKeepsEveryField := by
  unfold Obligations.WireFormKeepsEveryField
  intro p typ h
  obtain ⟨hcounter, hhops⟩ := sapWire_envelope p h
  obtain ⟨htyp, hflags, hgen, hplanes, hregion, hsector, hpos, hrow, hstamp, hseq, hrelease, hmap⟩ := sapWire_header p h
  have htag : beNat (natBe 16 p.tag.toNat) = p.tag.toNat := beNat_natBe (p.tag.isLt.trans_eq (by norm_num))
  have hbody : 64 + p.body.length - 64 = p.body.length := Nat.add_sub_cancel_left ..
  have hlast : 64 + p.body.length - 16 = 48 + p.body.length := by omega
  rw [parseWire, sapWire_length, if_neg (by omega), hbody, hlast]
  simp only [hcounter, hhops, htyp, hflags, hgen, hplanes, hregion, hsector, hpos, hrow, hstamp, hseq, hrelease, hmap,
    sapWire_body, sapWire_tag, htag, byteOf, BitVec.ofNat_toNat, BitVec.setWidth_eq]

end Sys2Proof.Machine
end

section
/-!
PROOF. Packets on their way in (R119, R237, R305, R404, R406, R412, R452, R459): what becomes of a packet of each
TYPE, taken or not, and of one written into an aperture (R90, R126, R254).
-/
namespace Sys2Proof.Machine

/-! ### The clocks run (R438) -/

theorem awake_rd {s : State} {f : Fld} (h : f.key ≠ Reg.GEN_PWR_ASLEEP.key) : (awake s).rd f = s.eng.rd f := by
  unfold awake
  split
  · exact Eng.rd_flag_ne _ _ h
  · rfl

theorem awake_rgn? (s : State) (n : Nat) : (awake s).rgn? n = s.eng.rgn? n := by
  unfold awake
  split <;> rfl

/-! ### Arrival -/

/-- A packet's row of the table is its arrival under its TYPE. -/
theorem exec_packetRow {p : SapPkt} {x : Instr × Nat} (hx : x ∈ packetRows p) (s : State) :
    exec x.1 s = .next (leaving s ((quiet s).receive x.2 p)) := by
  unfold packetRows at hx
  fin_cases hx <;> rfl

theorem receive_deaf {e : Eng} (h : e.on Reg.GEN_BOOT_READY = false ∨ e.serving = false ∨ e.on Reg.SEC_STAT_ERROR = true)
    (typ : Nat) (p : SapPkt) : e.receive typ p = e := by
  refine if_pos ?_
  rcases h with h | h | h <;> simp [h]

theorem receive_inReset {e : Eng} (hready : e.on Reg.GEN_BOOT_READY = true) (hserving : e.serving = true)
    (hmodule : e.on Reg.SEC_STAT_ERROR = false) (hreset : e.boot.inReset = true) (typ : Nat) (p : SapPkt) :
    e.receive typ p = { e with late := e.late ++ [.packet typ p] } := by
  simp [Eng.receive, hready, hserving, hmodule, hreset]

/-- The checks 1 to 3 of R119, at an engine whose clocks run, and what follows them. -/
def Eng.check (e : Eng) (typ : Nat) (p : SapPkt) : Eng :=
  match e.door typ p with
  | .gen => (e.bump Reg.GRV_SAP_DROP_GEN).stillHeard (p.pos.toNat % 16)
  | .tag => e.malformed.authFail Reg.SEC_AUTH_FAIL_LINK
  | .keyless => e
  | .pass place gen payload =>
    let q := sapPlain p typ payload
    let heard := e.heardAt place gen q.src
    if heard.check3 q = true ∧ heard.mayComeFrom place q = true then (heard.rxTyped place q).settle else heard.malformed

theorem receive_running {e : Eng} (hready : e.on Reg.GEN_BOOT_READY = true) (hserving : e.serving = true)
    (hmodule : e.on Reg.SEC_STAT_ERROR = false) (hrun : e.boot.inReset = false) (typ : Nat) (p : SapPkt) :
    e.receive typ p = (if e.on Reg.GEN_PWR_ASLEEP then e.startClocks else e).check typ p := by
  simp only [Eng.receive, hready, hserving, hmodule, hrun, Bool.not_true, Bool.or_self, Bool.false_eq_true, if_false]
  generalize (if e.on Reg.GEN_PWR_ASLEEP then e.startClocks else e) = a
  unfold Eng.check
  cases a.door typ p with
  | gen | tag | keyless => rfl
  | pass place gen payload =>
    dsimp only
    rw [← ite_not]
    simp only [Bool.or_eq_true, Bool.not_eq_true', not_or, Bool.not_eq_false]

theorem receive_checked {s : State} (h : takesPackets s.eng) (typ : Nat) (p : SapPkt) :
    (quiet s).receive typ p = (awake s).check typ p := by
  obtain ⟨hready, hserving, hmodule, hrun⟩ := h
  exact receive_running (e := quiet s) hready hserving hmodule hrun typ p

section
variable {e : Eng} {typ : Nat} {p : SapPkt}

theorem check_gen (h : e.door typ p = .gen) :
    e.check typ p = (e.bump Reg.GRV_SAP_DROP_GEN).stillHeard (p.pos.toNat % 16) := by
  simp only [Eng.check, h]

theorem check_tag (h : e.door typ p = .tag) : e.check typ p = e.malformed.authFail Reg.SEC_AUTH_FAIL_LINK := by
  simp only [Eng.check, h]

theorem check_keyless (h : e.door typ p = .keyless) : e.check typ p = e := by simp only [Eng.check, h]

variable {place gen : Nat} {payload : List Byte} (h : e.door typ p = .pass place gen payload) {q : Pkt}
  (hq : q = sapPlain p typ payload) {heard : Eng} (hheard : heard = e.heardAt place gen q.src)
include h hq hheard

theorem check_broken (hbad : heard.check3 q = false ∨ heard.mayComeFrom place q = false) :
    e.check typ p = heard.malformed := by
  subst hq hheard
  rw [← Bool.not_eq_true, ← Bool.not_eq_true, ← not_and_or] at hbad
  simp only [Eng.check, h, hbad, if_false]

theorem check_taken (hform : heard.check3 q = true) (hfrom : heard.mayComeFrom place q = true) :
    e.check typ p = (heard.rxTyped place q).settle := by
  subst hq hheard
  simp only [Eng.check, h, hform, hfrom, and_self, if_true]

end

/-! ### Packets that are taken -/

/-- A packet that passes the checks is taken as its TYPE says, and the work that this makes possible goes on. -/
theorem exec_packet_taken {p : SapPkt} {i : Instr} {typ : Nat} {s : State}
    (hexec : exec i s = .next (leaving s ((quiet s).receive typ p))) {place : Nat} {q : Pkt} {e : Eng}
    (h : passes typ p s place q e) {t : Eng} (ht : q.typ = typ → e.rxTyped place q = t) :
    exec i s = .next (leaving s t.settle) := by
  obtain ⟨htakes, gen, payload, hdoor, hq, hheard, hform, hfrom⟩ := h
  have heffect := ht (by rw [hq]; rfl)
  rw [hexec, receive_checked htakes, check_taken hdoor hq hheard hform hfrom, heffect]

section
variable (e : Eng) {q : Pkt}

theorem rxLossNotice_eq :
    e.rxLossNotice q = if q.sector = 0 ∨ 3 < q.sector then e.malformed else e.declareLost q.row q.sector := by
  simp only [Eng.rxLossNotice, Bool.or_eq_true, decide_eq_true_eq]

theorem rxPoint_report (h : q.typ = 0x38) : e.rxPoint q = e.roundGate q (fun e => e.rxReport q) := by
  simp [Eng.rxPoint, h, tPointReport]

theorem rxPoint_done (h : q.typ = 0x3A) : e.rxPoint q = e.roundGate q (fun e => e.rxDone q) := by
  simp [Eng.rxPoint, h, tPointReport, tPointDecide, tPointDone]

theorem rxPoint_settled (h : q.typ = 0x3B) : e.rxPoint q = e.roundGate q (fun e => e.rxSettled q) := by
  simp [Eng.rxPoint, h, tPointReport, tPointDecide, tPointDone]

end

/-- Settles O34: each command is the arrival of its TYPE, whose effect is the one that `rxTyped` names. -/
theorem packetsThatPassTheChecksAreTaken : Obligations.PacketsThatPassTheChecksAreTaken := by
  unfold Obligations.PacketsThatPassTheChecksAreTaken
  intro p s place q e
  dsimp only
  and_intros
  all_goals
    refine fun h => exec_packet_taken rfl h fun htyp => ?_
    simp only [Eng.rxTyped, htyp, Eng.rxAck, Eng.rxRelease, Eng.rxBusy, Eng.rxHeartbeat, rxLossNotice_eq, rxPoint_report,
      rxPoint_done, rxPoint_settled]

/-! ### Packets written into an aperture (R90, R126, R254) -/

section
variable {e : Eng} (route : Bool) (key requester typ : Nat) (p : SapPkt)

theorem fabricPkt_notReady (h : e.on Reg.GEN_BOOT_READY = false) :
    e.fabricPkt route key requester typ p = e.fabricError := by
  simp only [Eng.fabricPkt, h, Bool.not_false, if_true]

theorem fabricPkt_inReset (h : e.on Reg.GEN_BOOT_READY = true) (hreset : e.boot.inReset = true) :
    e.fabricPkt route key requester typ p = { e with late := e.late ++ [.fabric route key requester typ p] } := by
  simp only [Eng.fabricPkt, h, hreset, Bool.not_true, Bool.false_eq_true, if_false, if_true]

end

/-- A packet from an aperture whose key lets it in: the write is answered, and the packet arrives. -/
def Eng.arriving (e : Eng) (typ : Nat) (p : SapPkt) : Eng := (e.emit (.fabricAnswer (some []))).receive typ p

section
variable {s : State} (hready : s.eng.on Reg.GEN_BOOT_READY = true) (hrun : s.eng.boot.inReset = false)
  (key requester typ : Nat) (p : SapPkt)
include hready hrun

/-- The route aperture takes packets under its one key, and none where that is 0. -/
theorem fabricPkt_route :
    (quiet s).fabricPkt true key requester typ p =
      if key ≠ s.eng.rd Reg.RBD_ROUTE_KEY_KEY ∨ key = 0 then ((awake s).keyMiss none requester).fabricError
      else (awake s).arriving typ p := by
  have hawake : (if s.eng.on Reg.GEN_PWR_ASLEEP then (quiet s).startClocks else quiet s) = awake s := rfl
  have hkey : (awake s).rd Reg.RBD_ROUTE_KEY_KEY = s.eng.rd Reg.RBD_ROUTE_KEY_KEY := awake_rd (by decide)
  simp only [Eng.fabricPkt, quiet_on, hready, show (quiet s).boot.inReset = false from hrun, hawake, hkey, Bool.not_true,
    Bool.false_eq_true, if_false, if_true, Bool.or_eq_true, bne_iff_ne, beq_iff_eq, Eng.arriving]

theorem fabricPkt_spill_noRegion (hr : s.eng.rgn? (p.region.toNat % 4096) = none) :
    (quiet s).fabricPkt false key requester typ p = ((awake s).keyMiss none requester).fabricError := by
  have hawake : (if s.eng.on Reg.GEN_PWR_ASLEEP then (quiet s).startClocks else quiet s) = awake s := rfl
  simp only [Eng.fabricPkt, quiet_on, hready, show (quiet s).boot.inReset = false from hrun, hawake, awake_rgn?, hr,
    Bool.not_true, Bool.false_eq_true, if_false]

/-- The spill aperture takes packets for a region of class 1 to 4, under the key of the region. -/
theorem fabricPkt_spill_region {r : Rgn} (hr : s.eng.rgn? (p.region.toNat % 4096) = some r) :
    (quiet s).fabricPkt false key requester typ p =
      if r.protectedCls = false then ((awake s).keyMiss none requester).fabricError
      else if key ≠ r.key then ((awake s).keyMiss (some r.num) requester).fabricError
      else (awake s).arriving typ p := by
  have hawake : (if s.eng.on Reg.GEN_PWR_ASLEEP then (quiet s).startClocks else quiet s) = awake s := rfl
  simp only [Eng.fabricPkt, quiet_on, hready, show (quiet s).boot.inReset = false from hrun, hawake, awake_rgn?, hr,
    Bool.not_true, Bool.false_eq_true, if_false, Bool.not_eq_true', bne_iff_ne, Eng.arriving]

end

/-! ### Packets that are not taken -/

theorem exec_packet_checked {p : SapPkt} {x : Instr × Nat} (hx : x ∈ packetRows p) {s : State} (h : takesPackets s.eng) :
    exec x.1 s = .next (leaving s ((awake s).check x.2 p)) := by
  rw [exec_packetRow hx, receive_checked h]

section
variable {s : State} {key : Word} {requester : Place} {typ : Byte} {p : SapPkt} {e : Eng}

theorem exec_routeWrite (h : (quiet s).fabricPkt true key.toNat requester.toNat typ.toNat p = e) :
    exec (.routeWrite key requester typ p) s = .next (leaving s e) := by rw [← h]; rfl

theorem exec_spillWrite (h : (quiet s).fabricPkt false key.toNat requester.toNat typ.toNat p = e) :
    exec (.spillWrite key requester typ p) s = .next (leaving s e) := by rw [← h]; rfl

end

/-- Settles O35: one case after another, at a port by what the checks find, and at an aperture by the key. -/
theorem packetsThatFailACheckAreNotTaken : Obligations.PacketsThatFailACheckAreNotTaken := by
  unfold Obligations.PacketsThatFailACheckAreNotTaken
  refine ⟨fun p s x hx => ⟨fun hdeaf => ?deaf, fun hready hserving hmodule hreset => ?waits, fun htakes => ?checked⟩,
    fun s key requester typ p => ⟨fun hready => ?notReady, fun hready hreset => ?aperturesWait⟩,
    fun s key requester typ p hready hrun => ?apertures⟩
  case deaf => rw [exec_packetRow hx, receive_deaf (e := quiet s) hdeaf]
  case waits => rw [exec_packetRow hx, receive_inReset (e := quiet s) hready hserving hmodule hreset]; rfl
  case checked =>
    have hexec := exec_packet_checked hx htakes
    refine ⟨fun hdoor => ?_, fun hdoor => ?_, fun hdoor => ?_, fun place gen payload hdoor hbad => ?_⟩
    · rw [hexec, check_gen hdoor]
    · rw [hexec, check_tag hdoor]
    · rw [hexec, check_keyless hdoor]
    · rw [hexec, check_broken hdoor rfl rfl hbad]
  case notReady =>
    exact ⟨exec_routeWrite (fabricPkt_notReady true _ _ _ _ hready), exec_spillWrite (fabricPkt_notReady false _ _ _ _ hready)⟩
  case aperturesWait =>
    exact ⟨exec_routeWrite (fabricPkt_inReset true _ _ _ _ hready hreset),
      exec_spillWrite (fabricPkt_inReset false _ _ _ _ hready hreset)⟩
  case apertures =>
    have hzero : key.toNat = 0 ↔ key = 0 := BitVec.toNat_inj (y := 0)
    have hroute := fabricPkt_route hready hrun key.toNat requester.toNat typ.toNat p
    simp only [hzero] at hroute
    refine ⟨fun hkey hne => exec_routeWrite (hroute.trans (if_neg ?_)),
      fun hmiss => exec_routeWrite (hroute.trans (if_pos hmiss)),
      fun hr => exec_spillWrite (fabricPkt_spill_noRegion hready hrun _ _ _ _ hr), fun r hr => ?_⟩
    · exact not_or.2 ⟨not_not.2 hkey, hne⟩
    · have hspill := fabricPkt_spill_region hready hrun key.toNat requester.toNat typ.toNat p hr
      refine ⟨fun hcls => exec_spillWrite (hspill.trans (if_pos hcls)), fun hcls hkey => ?_, fun hcls hkey => ?_⟩
      · exact exec_spillWrite (hspill.trans ((if_neg (ne_false_of_eq_true hcls)).trans (if_pos hkey)))
      · exact exec_spillWrite (hspill.trans ((if_neg (ne_false_of_eq_true hcls)).trans (if_neg (not_not.2 hkey))))

end Sys2Proof.Machine
end

section
/-!
PROOF. The idle time of a capture entry (R93, R100, R164): an entry of a mirror region that no switch takes
towards coded stays, though its ring has opened.
-/
namespace Sys2Proof.Machine

theorem exec_captureIdleClose_stays {s : State} {region : BitVec 12} {row : BitVec 20} {sector : Byte} {ring : Word} {c : Capture}
    (hfind : (quiet s).caps.find? (fun c => c.region == region.toNat && c.row == row.toNat && c.sector == sector.toNat &&
      c.ring == ring.toNat) = some c) (hclose : (quiet s).mayClose c = false) :
    exec (.captureIdleClose region row sector ring) s = .next (leaving s (quiet s)) := by
  simp only [exec, execCaptureIdleClose, State.run_eq, hfind, hclose, Bool.false_eq_true, if_false]

theorem closeEntry_of_allZero {c : Capture} (h : allZero c.delta = true) (e : Eng) :
    e.closeEntry c = { e with caps := e.caps.erase c } := by
  simp only [Eng.closeEntry, h, if_true]
  split <;> rfl

theorem retryTaps_of_none {e : Eng} (h : e.taps = []) : e.retryTaps = e := by rw [Eng.retryTaps, h, Eng.each_nil]

/-- An entry of row 0 of region 0, in ring 1. -/
def mirrorEntry : Capture := { region := 0, row := 0, sector := 0, ring := 1, delta := zeros sectorBytes, stamp := 0 }

/-- Region 0 is a mirror region, nothing switches it, and ring 1 is open. -/
def mirrorOpen : State :=
  { pending := []
    eng :=
      { Eng.reset with
        rgns := [{ num := 0, base := 0, len := 4194304, cls := 4, fmt := 1, layout := 0, mirrorN := 1, writer := 0, auto := 0,
                   partner := 0, key := 0, tag := 0, layoutDg := 0, rateUp := 0, rateDown := 0, streak := 0, sync := 0 }]
        caps := [mirrorEntry]
        rings := { Eng.reset.rings with recs := [{ num := 1, st := .opened, bnd := none, wstep := none }] } } }

/-- Refutes O41: in `mirrorOpen` the entry's ring has opened, but its region's deltas are not sent, so the entry stays, where the
statement has it close. -/
theorem not_linesAreMendedAndEntriesClose : ¬ Obligations.LinesAreMendedAndEntriesClose := by
  unfold Obligations.LinesAreMendedAndEntriesClose
  intro h
  have hstays := exec_captureIdleClose_stays (s := mirrorOpen) (region := 0) (row := 0) (sector := 0) (ring := 1)
    (c := mirrorEntry) rfl rfl
  have hcloses := ((h mirrorOpen).1 0 0 0 1).1 mirrorEntry rfl rfl
  have hzero : allZero mirrorEntry.delta = true := by simp [mirrorEntry, allZero, zeros]
  rw [closeEntry_of_allZero hzero, retryTaps_of_none rfl, hstays] at hcloses
  have hcaps := congrArg (fun t => t.eng.caps) (Host.Outcome.next.inj hcloses)
  simp only [leaving_eng] at hcaps
  rw [show (quiet mirrorOpen).caps = [mirrorEntry] from rfl, List.erase_cons_head] at hcaps
  exact List.cons_ne_nil _ _ hcaps

end Sys2Proof.Machine
end

section
/-!
PROOF. What raising an interrupt source (R478 to R484) and sending a packet change: of the registers, those that show it; of the
rest, only the interfaces.
-/
namespace Sys2Proof.Machine

/-- The fields that raising a source or sending a packet may write. -/
inductive Fld.Tells : Fld → Prop where
  | raw (n : Nat) : Tells (Reg.INT_SRC_CFG_RAW n)
  | pending (n : Nat) : Tells (Reg.INT_SRC_CFG_PENDING n)
  | firedPend (g : Nat) : Tells (Reg.INT_GRP_CFG_FIRED_PEND g)
  | noAddr : Tells Reg.INT_STAT_NOADDR
  | msgs : Tells Reg.INT_STAT_MSGS
  | asleep : Tells Reg.GEN_PWR_ASLEEP
  | portState (p : Nat) : Tells (Reg.GP_STAT_STATE p)
  | lowNow (p : Nat) : Tells (Reg.GP_PWR_LOW_NOW p)

/-- A field that neither writes. -/
def Fld.untold (f : Fld) : Prop := ∀ g : Fld, g.Tells → f.key ≠ g.key

/-- The engine but for the links and the interrupt controller. -/
def Eng.beyondNotices (e : Eng) : Eng := { e.beyondLinks with intr := Eng.reset.intr }

/-- The engine `e` has become `e'` by raising sources and sending packets. -/
structure OnlyTells (e e' : Eng) : Prop where
  beyond : e'.beyondNotices = e.beyondNotices
  rd     : ∀ f : Fld, f.untold → e'.rd f = e.rd f

/-! ### Flits leave the registers -/

theorem regs_sendFlit (e : Eng) (p ftype vc cls first : Nat) (body : List Byte) :
    (e.sendFlit p ftype vc cls first body).regs = e.regs := (rfl)

theorem regs_unrefBuf (e : Eng) (p id : Nat) : (e.unrefBuf p id).regs = e.regs := by
  dsimp only [Eng.unrefBuf]
  split
  · rfl
  · split <;> rfl

theorem regs_unmark (e : Eng) (t : TxPkt) (n : Nat) : (e.unmark t n).regs = e.regs := by
  dsimp only [Eng.unmark]
  split
  · exact Eng.each_keeps (P := fun e' => e'.regs = e.regs) _ (fun _ _ _ h => (regs_unrefBuf _ _ _).trans h) rfl
  · rfl

theorem regs_takeBytes (e : Eng) (p i : Nat) (t : TxPkt) (c room : Nat) : (e.takeBytes p i t c room).regs = e.regs :=
  regs_unmark _ _ _

theorem regs_fillBody (n : Nat) (e : Eng) (p vc c : Nat) (body : List Byte) (first : Nat) :
    (Eng.fillBody n e p vc c body first).1.regs = e.regs := by
  induction n generalizing e body first with
  | zero => rfl
  | succ n ih =>
    dsimp only [Eng.fillBody]
    split
    · rfl
    · rw [ih, regs_takeBytes]

theorem regs_sendFrom (e : Eng) (p i : Nat) (t : TxPkt) (c : Nat) : (e.sendFrom p i t c).regs = e.regs := by
  dsimp only [Eng.sendFrom]
  rw [regs_sendFlit, Eng.updPort, Eng.setPort, regs_fillBody, regs_takeBytes]

theorem regs_pumpN (n p : Nat) (e : Eng) : (Eng.pumpN n p e).regs = e.regs := by
  induction n generalizing e with
  | zero => rfl
  | succ n ih =>
    dsimp only [Eng.pumpN]
    split
    · split
      · exact ih _
      · split
        · rw [ih, regs_sendFrom]
        · rfl
    · rfl

/-! ### Packets leave the registers but for the states of ports -/

section
variable {f : Fld} (hf : f.untold) (e : Eng)
include hf

theorem rd_startWake (p : Nat) : (e.startWake p).rd f = e.rd f := by
  unfold Eng.startWake
  split
  · rw [Eng.toWake, Eng.rd_flag_ne _ _ (hf _ (.lowNow p)), Eng.rd_wr_ne _ _ (hf _ (.portState p))]
    rfl
  · rfl

theorem rd_pump (p : Nat) : (e.pump p).rd f = e.rd f := by
  dsimp only [Eng.pump]
  split
  · rw [rd_startWake hf, Eng.rd_congr (regs_pumpN _ _ _)]
  · exact Eng.rd_congr (regs_pumpN _ _ _) f

theorem rd_dispatch (place dst typ : Nat) (p : SapPkt) (fabric : Bool) :
    (e.dispatch place dst typ p fabric).rd f = e.rd f := by
  unfold Eng.dispatch
  split
  · rfl
  · split
    · rfl
    · exact rd_pump hf _ _

theorem rd_sendPlace (place : Nat) (p : Pkt) : (e.sendPlace place p).rd f = e.rd f := by
  dsimp only [Eng.sendPlace]
  split
  · split
    · exact rd_dispatch hf _ _ _ _ _ _
    · rfl
  · rfl

theorem rd_send (dst : Nat) (p : Pkt) : (e.send dst p).rd f = e.rd f := by
  unfold Eng.send
  split
  · split <;> rfl
  · exact rd_sendPlace hf _ _ _

end

/-! ### What is only told -/

namespace OnlyTells

theorem refl (e : Eng) : OnlyTells e e := ⟨rfl, fun _ _ => rfl⟩

theorem ite {e₀ a b : Eng} {c : Prop} {_ : Decidable c} (ha : OnlyTells e₀ a) (hb : OnlyTells e₀ b) :
    OnlyTells e₀ (if c then a else b) := by split; exacts [ha, hb]

section
variable {e₀ e : Eng} (h : OnlyTells e₀ e)
include h

theorem agrees_eq : e.agrees = e₀.agrees := (congrArg Eng.agrees h.beyond :)
theorem mem_eq : e.mem = e₀.mem := (congrArg Eng.mem h.beyond :)
theorem rings_eq : e.rings = e₀.rings := (congrArg Eng.rings h.beyond :)
theorem evac_eq : e.evac = e₀.evac := (congrArg Eng.evac h.beyond :)

theorem each {α : Type} {f : α → Eng → Eng} {xs : List α} (hf : ∀ x e, OnlyTells e₀ e → OnlyTells e₀ (f x e)) :
    OnlyTells e₀ (e.each xs f) := Eng.each_keeps xs (fun x _ => hf x) h

/-- A change of actions and of the interrupt controller's lists. -/
theorem frame {out intr} : OnlyTells e₀ { e with out, intr } := ⟨h.beyond, h.rd⟩

theorem wr {f : Fld} {v : Nat} (hf : f.Tells) : OnlyTells e₀ (e.wr f v) :=
  ⟨h.beyond, fun g hg => (Eng.rd_wr_ne _ _ (hg _ hf)).trans (h.rd g hg)⟩

/-! #### Interrupts -/

theorem deliver {g : Nat} : OnlyTells e₀ (e.deliver g) := .frame (.ite (.ite (h.wr .noAddr) (h.wr .msgs).frame) h)

theorem fire {g : Nat} : OnlyTells e₀ (e.fire g) := .ite (h.wr (.firedPend g)) h.deliver

theorem groupEvent {g : Nat} : OnlyTells e₀ (e.groupEvent g) := .ite (.ite h h.fire.frame) (.ite h.fire h)

theorem srcEvent {n : Nat} : OnlyTells e₀ (e.srcEvent n) :=
  have hawake := OnlyTells.ite (c := (e.on Reg.GEN_PWR_ASLEEP && e.watched n) = true) (h.wr .asleep) h
  .ite h (.ite hawake (hawake.wr (.pending n)).frame.groupEvent)

theorem levelCheck {n : Nat} : OnlyTells e₀ (e.levelCheck n) := by
  dsimp only [Eng.levelCheck]
  split
  · exact h
  · exact .ite (.ite h h.srcEvent) (h.wr (.pending n))

theorem request {n : Nat} {b : Bool} : OnlyTells e₀ (e.request n b) :=
  have hraw := h.wr (.raw n)
  .ite hraw.levelCheck (.ite hraw (.ite hraw.srcEvent hraw))

theorem raise {src : Src} : OnlyTells e₀ (e.raise src) := h.request.request

/-! #### Packets -/

theorem send {dst : Nat} {p : Pkt} : OnlyTells e₀ (e.send dst p) where
  beyond := (congrArg (fun x : Eng => { x with intr := Eng.reset.intr }) (beyondLinks_send e dst p)).trans h.beyond
  rd f hf := (rd_send hf e dst p).trans (h.rd f hf)

theorem sendAll {p : Pkt} : OnlyTells e₀ (e.sendAll p) := h.each fun _ _ h => h.send

theorem sendRecs {dst typ x : Nat} {rs : List PointRec} : OnlyTells e₀ (e.sendRecs dst typ x rs) :=
  h.each fun _ _ h => .ite h h.send

theorem sendCuts {x : Nat} : OnlyTells e₀ (e.sendCuts x) := .ite h.sendRecs h

theorem sendSettled {x : Nat} : OnlyTells e₀ (e.sendSettled x) := .ite h.sendAll.sendCuts h

theorem sendReports {x : Nat} {sel : Agree → Bool} : OnlyTells e₀ (e.sendReports x sel) := h.each fun _ _ h => h.sendRecs

end

end OnlyTells

end Sys2Proof.Machine
end

section
/-!
PROOF. The timers of the rings (R148, R161, R173, R175, R180, R189) and the packets that are held (R113, R166).
-/
namespace Sys2Proof.Machine

/-! ### A store leaves the packets that wait -/

theorem memWrite_waits (e : Eng) (a : Nat) (bs : List Byte) : (e.memWrite a bs).waits = e.waits := (rfl)
theorem freshLines_waits (e : Eng) (a n : Nat) : (e.freshLines a n).waits = e.waits := (rfl)

theorem evictHw_waits (e : Eng) : e.evictHw.waits = e.waits := by unfold Eng.evictHw; split <;> rfl

theorem hwChange_waits (e : Eng) (n : Nat) (d : List Byte) : (e.hwChange n d).waits = e.waits := by
  dsimp only [Eng.hwChange]
  split
  · exact evictHw_waits _
  · rfl

theorem noteWrote_waits (e : Eng) (a n : Nat) : (e.noteWrote a n).waits = e.waits := by unfold Eng.noteWrote; split <;> rfl

theorem foldDig_waits (e : Eng) (a : Nat) (d : List Byte) : (e.foldDig a d).waits = e.waits := by
  unfold Eng.foldDig
  split <;> rfl

theorem setBitmapLine_waits (e : Eng) (i v : Nat) : (e.setBitmapLine i v).waits = e.waits := by
  dsimp only [Eng.setBitmapLine]
  split
  · rfl
  · split
    · rw [memWrite_waits, hwChange_waits]
    · rfl

theorem markDirty_waits (e : Eng) (a : Nat) : (e.markDirty a).waits = e.waits := by
  dsimp only [Eng.markDirty]
  split
  · exact setBitmapLine_waits _ _ _
  · rfl

theorem touch_waits (e : Eng) (a : Nat) (d : List Byte) : (e.touch a d).waits = e.waits := by
  dsimp only [Eng.touch]
  rw [markDirty_waits, foldDig_waits, noteWrote_waits]
  split
  · exact hwChange_waits _ _ _
  · rfl

theorem storeIn_waits (e : Eng) (a : Nat) (bs : List Byte) : (e.storeIn a bs).waits = e.waits := by
  rw [Eng.storeIn, freshLines_waits, touch_waits, memWrite_waits]

theorem store_waits (e : Eng) (a : Nat) (bs : List Byte) : (e.store a bs).waits = e.waits := by
  refine Eng.each_keeps (P := fun e' => e'.waits = e.waits) _ (fun p _ e' h => ?_) rfl
  split
  · exact h
  · exact (storeIn_waits _ _ _).trans h

theorem foldParity_waits (e : Eng) (r : Rgn) (row sector : Nat) (thick : Bool) (prod : List Byte) :
    (e.foldParity r row sector thick prod).waits = e.waits := by
  unfold Eng.foldParity
  split
  · rfl
  · exact Eng.each_keeps (P := fun e' => e'.waits = e.waits) _ (fun _ _ _ h => (store_waits _ _ _).trans h) rfl

theorem takeRelease_waits (e : Eng) (region row src : Nat) (thick : Bool) (rel : Nat) :
    (e.takeRelease region row src thick rel).waits = e.waits := by
  rcases takeRelease_cases e region row src thick rel with h | ⟨_, _, _, h⟩ <;> simp only [h, Eng.setApplied]

theorem waits_of_beyondLinks {e e' : Eng} (h : e'.beyondLinks = e.beyondLinks) : e'.waits = e.waits :=
  (congrArg Eng.waits h :)

theorem applyStream_waits (e : Eng) (r : Rgn) (p : Pkt) (j : Nat) : (e.applyStream r p j).waits = e.waits := by
  dsimp only [Eng.applyStream]
  rw [waits_of_beyondLinks (beyondLinks_ackPkt _ _), takeRelease_waits]
  exact foldParity_waits _ _ _ _ _ _

/-! ### Held packets -/

theorem drainStream_none {e : Eng} (h : e.waits = []) (n : Nat) : Eng.drainStream n e = e := by
  cases n with
  | zero => rfl
  | succ n => simp only [Eng.drainStream, h, List.find?_nil]

theorem drainRing_none {e : Eng} (h : e.waits = []) (n : Nat) : Eng.drainRing n e = e := by
  cases n with
  | zero => rfl
  | succ n => simp only [Eng.drainRing, h, List.find?_nil]

theorem drainWaits_none {e : Eng} (h : e.waits = []) : e.drainWaits = e := by
  rw [Eng.drainWaits, drainStream_none h, drainRing_none h]

/-- A streamed packet that its row can take now: the next in order, or one that has been applied (R113). -/
def Eng.takesNow (e : Eng) (p : Pkt) : Bool :=
  p.typ == tStreamDelta &&
  (match e.rgn? p.region with
   | some r => !e.parityBusy r p.row p.thick &&
       (p.seq == w32 ((e.appliedRec p.region p.row p.src p.thick).a + 1) ||
        atOrBefore p.seq (e.appliedRec p.region p.row p.src p.thick).a)
   | none => false)

/-- The engine with other packets held. -/
def Eng.setWaits (e : Eng) (ps : List Pkt) : Eng := { e with waits := ps }

@[simp] theorem setWaits_rgn? (e : Eng) (ps : List Pkt) (n : Nat) : (e.setWaits ps).rgn? n = e.rgn? n := (rfl)
@[simp] theorem setWaits_parityRowFor (e : Eng) (ps : List Pkt) (region row : Nat) (thick : Bool) :
    (e.setWaits ps).parityRowFor region row thick = e.parityRowFor region row thick := (rfl)
@[simp] theorem setWaits_parityBusy (e : Eng) (ps : List Pkt) (r : Rgn) (row : Nat) (thick : Bool) :
    (e.setWaits ps).parityBusy r row thick = e.parityBusy r row thick := (rfl)
@[simp] theorem setWaits_appliedRec (e : Eng) (ps : List Pkt) (region row src : Nat) (thick : Bool) :
    (e.setWaits ps).appliedRec region row src thick = e.appliedRec region row src thick := (rfl)

/-- The first packet that its row can take is taken off the list and ordered. -/
theorem drainStream_takes {e : Eng} {p : Pkt} {r : Rgn} {j : Nat} (n : Nat) (hp : e.waits.find? e.takesNow = some p)
    (hr : e.rgn? p.region = some r) (hrow : e.parityRowFor p.region p.row p.thick = some j) :
    Eng.drainStream (n + 1) e = Eng.drainStream n ((e.setWaits (e.waits.erase p)).orderStream r p j) := by
  rw [Eng.drainStream]
  split
  case h_1 hnone => exact absurd (hp.symm.trans hnone) nofun
  case h_2 q hq =>
    obtain rfl : p = q := Option.some.inj (hp.symm.trans hq)
    dsimp only
    rw [← Eng.setWaits, setWaits_rgn?, hr]
    dsimp only
    rw [setWaits_parityRowFor, hrow]

/-- The next SEQ is serially after the last (R112). -/
theorem atOrBefore_w32_succ (a : Nat) : atOrBefore (w32 (a + 1)) a = false := by
  have hdist : (a + 2 ^ 32 - w32 (w32 (a + 1))) % 2 ^ 32 = 2 ^ 32 - 1 := by simp only [w32]; omega
  have hne : w32 (w32 (a + 1)) ≠ w32 a := by simp only [w32]; omega
  simp only [atOrBefore, precedes, hdist, beq_false_of_ne hne]
  rfl

theorem orderStream_next {e : Eng} {p : Pkt} {r : Rgn}
    (hseq : p.seq = w32 ((e.appliedRec p.region p.row p.src p.thick).a + 1)) (hidle : e.parityBusy r p.row p.thick = false)
    (j : Nat) : e.orderStream r p j = e.applyStream r p j := by
  simp only [Eng.orderStream, hseq, atOrBefore_w32_succ, hidle, Bool.false_eq_true, beq_self_eq_true, Bool.not_false,
    Bool.and_self, if_true, if_false]

/-- The only packet held, next in order at an idle row, is applied. -/
theorem drainWaits_next {e : Eng} {p : Pkt} {r : Rgn} {j : Nat} (hwaits : e.waits = [p]) (htyp : p.typ = tStreamDelta)
    (hr : e.rgn? p.region = some r) (hidle : e.parityBusy r p.row p.thick = false)
    (hseq : p.seq = w32 ((e.appliedRec p.region p.row p.src p.thick).a + 1))
    (hrow : e.parityRowFor p.region p.row p.thick = some j) :
    e.drainWaits = (e.setWaits []).applyStream r p j := by
  have hp : e.waits.find? e.takesNow = some p := by
    rw [hwaits, List.find?_cons_of_pos (by simp [Eng.takesNow, htyp, hr, hidle, hseq])]
  have hdrained : ((e.setWaits []).applyStream r p j).waits = [] := applyStream_waits _ _ _ _
  have hstream : Eng.drainStream 2 e = (e.setWaits []).applyStream r p j := by
    rw [drainStream_takes 1 hp hr hrow, hwaits, List.erase_cons_head,
      orderStream_next (by rw [setWaits_appliedRec, hseq]) (by rw [setWaits_parityBusy, hidle]), drainStream_none hdrained]
  rw [Eng.drainWaits, hwaits]
  exact (congrArg (Eng.drainRing 2) hstream).trans (drainRing_none hdrained 2)

/-! ### Seals and rollbacks -/

theorem trySeal_none {e : Eng} (h : ∀ r ∈ e.rings.recs, e.canLocalSeal r.num = false) : e.trySeal = e := by
  refine Eng.each_keeps (P := (· = e)) _ (fun n hn e' he => ?_) rfl
  obtain ⟨r, hr, rfl⟩ := List.mem_map.1 hn
  rw [he, h r hr, if_neg Bool.false_ne_true]

theorem trySeal_only {e : Eng} {r : RingRec} (hrecs : e.rings.recs = [r]) (h : e.canLocalSeal r.num = true) :
    e.trySeal = e.sealLocally r.num := by
  rw [Eng.trySeal, hrecs, List.map_singleton, Eng.each_cons, Eng.each_nil, if_pos h]

theorem sealTimeout_localSealed {e : Eng} {n : Nat} (h : e.ringSt n = .localSealed) :
    e.sealTimeout n = (e.askVotes n).raise .SEAL_STUCK := by rw [Eng.sealTimeout, h]

theorem sealTimeout_underWay {e : Eng} {n : Nat} (h : e.ringSt n = .flushing ∨ e.ringSt n = .sending) :
    e.sealTimeout n = e.raise .SEAL_STUCK := by
  rcases h with h | h <;> rw [Eng.sealTimeout, h]

theorem sealTimeout_over {e : Eng} {n : Nat}
    (h : ¬(e.ringSt n = .localSealed ∨ e.ringSt n = .flushing ∨ e.ringSt n = .sending)) : e.sealTimeout n = e := by
  unfold Eng.sealTimeout
  split
  case h_1 hst => exact absurd (.inl hst) h
  case h_2 hst => exact absurd (.inr (.inl hst)) h
  case h_3 hst => exact absurd (.inr (.inr hst)) h
  case h_4 => rfl

/-- The effect of RING_APPLY_END in an engine that works, for the oldest committed ring (R180). -/
theorem exec_ringApplyEnd {s : State} {c : Option Nat × Nat × Bnd} {rest : List (Option Nat × Nat × Bnd)}
    (hworks : (quiet s).working = true) (hcommits : (quiet s).rings.commits = c :: rest) :
    exec .ringApplyEnd s = .next (leaving s (if (quiet s).rings.applies.any (fun j => j.ring == c.2.1) then quiet s
      else ((quiet s).applyEnd.commitRows c.2.1).settle)) := by
  simp only [exec, execRingApplyEnd, State.run_eq, hworks, hcommits, Bool.not_true, Bool.false_eq_true, if_false]

theorem rollTimeout_open {e : Eng} {region row ring : Nat} {ro : Roll} {f : Fetch} (hroll : e.rings.roll = some ro)
    (hf : ro.fetches.find? (fun f => f.region == region && f.row == row && f.ring == ring && f.live && !f.ended) = some f) :
    e.rollTimeout region row ring = (e.setFetch f { f with got := [], ah := 0 }).send f.holder
      { typ := tRollFetch, region := region, row := row, stamp := ring, release := ro.target } := by
  simp only [Eng.rollTimeout, hroll, hf]

/-! ### Point-in-time agreement -/

theorem pointTimeout_settled {e : Eng} {x : Nat} (h : e.agrees.all (fun a => !(a.x == x && !a.settled)) = true) :
    e.pointTimeout x = e := by
  have hnone : e.agrees.filter (fun a => a.x == x && !a.settled) = [] :=
    List.filter_eq_nil_iff.2 fun a ha => by
      simpa only [Bool.not_eq_true, Bool.not_eq_true'] using List.all_eq_true.1 h a ha
  rw [Eng.pointTimeout, hnone]
  rfl

/-- The round is counted; what goes again, and the interrupt, are notices (R148). -/
theorem onlyTells_pointTimeout {e : Eng} {x : Nat} (h : e.agrees.any (fun a => a.x == x && !a.settled) = true) :
    OnlyTells (e.bump Reg.GRV_PT_STAT_STUCK) (e.pointTimeout x) := by
  have hsome : (e.agrees.filter (fun a => a.x == x && !a.settled)).isEmpty = false := by
    obtain ⟨a, ha, hopen⟩ := List.any_eq_true.1 h
    exact List.isEmpty_eq_false_iff_exists_mem.2 ⟨a, List.mem_filter.2 ⟨ha, hopen⟩⟩
  rw [Eng.pointTimeout, hsome, if_neg Bool.false_ne_true]
  have hcounted := (OnlyTells.refl (e.bump Reg.GRV_PT_STAT_STUCK)).raise (src := .POINT_STUCK)
  exact .each (.sendReports (.sendSettled (.each hcounted fun _ _ h => h.sendRecs))) fun _ _ h => h.sendRecs

theorem untold_ptStuck : Reg.GRV_PT_STAT_STUCK.untold := by
  intro g hg
  cases hg <;> simp only [Fld.key, Reg.GRV_PT_STAT_STUCK, Reg.INT_SRC_CFG_RAW, Reg.INT_SRC_CFG_PENDING,
    Reg.INT_GRP_CFG_FIRED_PEND, Reg.INT_STAT_NOADDR, Reg.INT_STAT_MSGS, Reg.GEN_PWR_ASLEEP, Reg.GP_STAT_STATE,
    Reg.GP_PWR_LOW_NOW] <;> omega

/-- Settles O39: each timer by what it finds, with the rule for it. -/
theorem ringTimersAct : Obligations.RingTimersAct := by
  unfold Obligations.RingTimersAct
  intro s
  refine ⟨fun hnone => next_leaving (trySeal_none hnone), fun r hrecs hseal => next_leaving (trySeal_only hrecs hseal),
    fun n => ⟨fun hst => next_leaving (sealTimeout_localSealed hst), fun hst => next_leaving (sealTimeout_underWay hst),
      fun hst => next_leaving (sealTimeout_over hst)⟩,
    ?commitLate, rfl, ?ringStall, fun cmd n b rest hworks hcommits => ?applyEnd,
    fun region row ring ro f hroll hf => next_leaving (rollTimeout_open hroll hf),
    fun hnone => next_leaving (drainWaits_none hnone),
    fun p r j hwaits htyp hr hidle hseq hrow => next_leaving (drainWaits_next hwaits htyp hr hidle hseq hrow),
    fun x hsettled => next_leaving (pointTimeout_settled hsettled), fun x hopen => ?pointTimeout⟩
  case commitLate => simp only [exec, execCommitLate, State.run_eq, beq_iff_eq]
  case ringStall => simp only [exec, execRingStall, State.run_eq, Eng.setRings, Bool.and_eq_true, Bool.not_eq_true']
  case applyEnd =>
    have hexec := exec_ringApplyEnd hworks hcommits
    exact ⟨fun hjobs => hexec.trans (next_leaving (if_pos hjobs)),
      fun hdone => hexec.trans (next_leaving (if_neg (Bool.eq_false_iff.1 hdone)))⟩
  case pointTimeout =>
    have htells := onlyTells_pointTimeout hopen
    exact ⟨_, rfl, htells.agrees_eq, htells.mem_eq, htells.rings_eq,
      (htells.rd _ untold_ptStuck).trans (Eng.rd_bumpBy_same _ _ 1)⟩

end Sys2Proof.Machine
end

section
/-!
PROOF. The timers of losses (R138, R233, R234, R242 to R245, R268, R448).
-/
namespace Sys2Proof.Machine

/-! ### Heartbeats and silence -/

theorem heartbeat_unlocked {e : Eng} (h : e.locked = false) : e.heartbeat = e := by rw [Eng.heartbeat, h]; rfl

theorem heartbeat_locked {e : Eng} (hlock : e.locked = true) (hrun : e.boot.inReset = false) :
    e.heartbeat = e.advanceSessions.sendAll
      { typ := tHeartbeat, stamp := e.rd Reg.GRV_PT_STAT_LOSSES, release := e.lostMap } := by
  rw [Eng.heartbeat, hlock, hrun]
  rfl

theorem membersSilent_deaf {e : Eng} (h : e.canTalk = false ∨ e.locked = false) (xs : List Nat) : e.membersSilent xs = e := by
  rw [Eng.membersSilent, if_pos]
  rcases h with h | h <;> simp [h]

/-- The positions of a list that are found silent, by a member that has not known it. -/
def Eng.newlySilent (e : Eng) (xs : List Nat) : List Nat :=
  (xs.filter (fun x => e.isPresent x && x != e.pos && !e.loss.silent.contains x)).eraseDups

/-- They join the positions known to be silent. -/
def Eng.noteSilent (e : Eng) (xs : List Nat) : Eng :=
  { e with loss := { e.loss with silent := e.loss.silent ++ e.newlySilent xs } }

theorem membersSilent_noted {e : Eng} (htalk : e.canTalk = true) (hlock : e.locked = true) (xs : List Nat) :
    e.membersSilent xs = (e.noteSilent xs).silenceRule := by
  rw [Eng.membersSilent, htalk, hlock]
  rfl

section
variable {e : Eng} (hjoined : e.on Reg.RBD_LOSS_STAT_ISOLATED = false)
include hjoined

theorem silenceRule_declares (h : e.awayCount ≤ e.m) :
    e.silenceRule = e.loss.silent.foldl (fun e x => e.declareLost x 1) e := by
  rw [Eng.silenceRule, if_pos h, hjoined]
  rfl

theorem silenceRule_isolates (h : e.m < e.awayCount) :
    e.silenceRule = (e.flag Reg.RBD_LOSS_STAT_ISOLATED true).setLevel .GROVE_ISOLATED true := by
  rw [Eng.silenceRule, if_neg (Nat.not_le.2 h), hjoined, if_neg Bool.false_ne_true]

end

theorem exec_memberSilent {s : State} {xs : List (Fin 16)} {e : Eng} (h : (quiet s).membersSilent (xs.map (·.val)) = e) :
    exec (.memberSilent xs) s = .next (leaving s e.settle) := next_leaving (congrArg Eng.settle h)

/-! ### The first copy of an evacuation -/

theorem evacReady_other {e : Eng} (h : e.rd Reg.RBD_EVAC_STAT_PHASE ≠ 1) : e.evacReady = e := if_pos (bne_iff_ne.2 h)

theorem evacReady_awaited {e : Eng} (hphase : e.rd Reg.RBD_EVAC_STAT_PHASE = 1) (hcmd : e.evac.copyCmd = none) :
    e.evacReady = (e.wr Reg.RBD_EVAC_STAT_PHASE 2).raise .EVAC_READY := by
  have hevac : ((e.wr Reg.RBD_EVAC_STAT_PHASE 2).raise .EVAC_READY).evac = e.evac := (OnlyTells.refl _).raise.evac_eq
  rw [Eng.evacReady, Eng.evacPhase, hphase, if_neg (by decide)]
  simp only [hevac, hcmd]

/-! ### Retirement -/

theorem retireReady_none {e : Eng} (h : e.log.retires = []) : e.retireReady = e := by
  rw [Eng.retireReady, h, List.mergeSort_nil, Eng.each_nil]

/-- Settles O46: each timer by the phase that it finds, with the rule for it. -/
theorem lossTimersAct : Obligations.LossTimersAct := by
  unfold Obligations.LossTimersAct
  intro s
  refine ⟨fun hopen => ⟨next_leaving (heartbeat_unlocked hopen), fun xs => ?unlocked⟩,
    fun hlock hrun => next_leaving (heartbeat_locked hlock hrun),
    fun xs htalk hlock => ⟨fun hfew hjoined => ?declared, fun hmany hjoined => ?isolated⟩, fun xs hdeaf => ?deaf,
    fun hphase => next_leaving (evacReady_other hphase), fun hphase hcmd => next_leaving (evacReady_awaited hphase hcmd),
    fun off => rfl, rfl, retireReady_none⟩
  case unlocked => exact exec_memberSilent (membersSilent_deaf (.inr hopen) _)
  case deaf => exact exec_memberSilent (membersSilent_deaf (.inl hdeaf) _)
  case declared => exact exec_memberSilent ((membersSilent_noted htalk hlock _).trans (silenceRule_declares hjoined hfew))
  case isolated => exact exec_memberSilent ((membersSilent_noted htalk hlock _).trans (silenceRule_isolates hjoined hmany))

end Sys2Proof.Machine
end

section
/-!
PROOF. Ringed packets at their holder (R112, R113, R166, R167): the gate of the rings, and the staging of a source leaf.
-/
namespace Sys2Proof.Machine

/-! ### The gate of the rings -/

/-- A ring beyond the target of the rollback under way. -/
theorem frozenPast_iff {e : Eng} {n : Nat} :
    e.frozenPast n = true ↔ ∃ c, e.rings.frozen = some c ∧ precedes c n = true := by
  unfold Eng.frozenPast
  cases e.rings.frozen <;> simp

section
variable {e : Eng} {n : Nat}

theorem ringGate_past (h : e.frozenPast n = true) : e.ringGate n = 2 := if_pos h

section
variable (hpast : ¬e.frozenPast n = true)
include hpast

theorem ringGate_slot (hslot : n = e.base ∨ n = w32 (e.base + 1)) : e.ringGate n = 0 := by
  rw [Eng.ringGate, if_neg hpast, if_pos (by simpa using hslot)]

theorem ringGate_soon (hslot : ¬(n = e.base ∨ n = w32 (e.base + 1))) (hsoon : n = w32 (e.base + 2)) : e.ringGate n = 1 := by
  rw [Eng.ringGate, if_neg hpast, if_neg (by simpa using hslot), if_pos (by simpa using hsoon)]

end

/-- A ring without a slot, and not the one after the slots, is none of the holder's, frozen or not. -/
theorem ringGate_other (hslot : ¬(n = e.base ∨ n = w32 (e.base + 1))) (hsoon : n ≠ w32 (e.base + 2)) : e.ringGate n = 2 := by
  by_cases hpast : e.frozenPast n = true
  · exact ringGate_past hpast
  · rw [Eng.ringGate, if_neg hpast, if_neg (by simpa using hslot), if_neg (by simpa using hsoon)]

end

section
variable {e : Eng} {p : Pkt} (r : Rgn)

theorem orderRing_discards (h : e.ringGate p.stamp = 2) : e.orderRing r p = e.bump Reg.GRV_RING_DROP_COUNT := by
  simp only [Eng.orderRing, h]

theorem orderRing_holds (h : e.ringGate p.stamp = 1) : e.orderRing r p = e.hold p := by
  simp only [Eng.orderRing, h]

/-- In a slot the packet's SEQ decides, by the last SEQ staged of its source. -/
theorem orderRing_slot (h : e.ringGate p.stamp = 0) : e.orderRing r p =
    if atOrBefore p.seq (e.stagedTo p.stamp p.region p.row p.src p.thick) = true then (e.bump Reg.GRV_SAP_DROP_DUP).ackPkt p
    else if p.seq = w32 (e.stagedTo p.stamp p.region p.row p.src p.thick + 1) ∧ e.parityBusy r p.row p.thick = false then
      e.stagePkt r p
    else e.hold p := by
  simp only [Eng.orderRing, h, Bool.and_eq_true, beq_iff_eq, Bool.not_eq_true']

end

/-! ### The staging of a source leaf -/

theorem Stage.same_iff {s : Stage} {ring region row src : Nat} {thick : Bool} :
    s.same ring region row src thick = true ↔
      (s.ring, s.region, s.row, s.src, s.thick) = (ring, region, row, src, thick) := by
  simp only [Stage.same, Bool.and_eq_true, beq_iff_eq, Prod.mk.injEq, and_assoc]

/-- The staging of a packet's source leaf replaced by another. -/
def Eng.setStage (e : Eng) (p : Pkt) (g : Stage) : Eng :=
  e.setRings (fun rings => { rings with
    stages := rings.stages.filter (fun x => !x.same p.stamp p.region p.row p.src p.thick) ++ [g] })

section
variable (e : Eng) {p : Pkt} {g : Stage} (hg : g.same p.stamp p.region p.row p.src p.thick = true)
include hg

theorem stage?_setStage_same : (e.setStage p g).stage? p.stamp p.region p.row p.src p.thick = some g := by
  have hgone : (e.rings.stages.filter (fun x => !x.same p.stamp p.region p.row p.src p.thick)).find?
      (fun x => x.same p.stamp p.region p.row p.src p.thick) = none :=
    List.find?_eq_none.2 fun x hx => by simpa using (List.mem_filter.1 hx).2
  rw [Eng.stage?, Eng.setStage, Eng.setRings, List.find?_append, hgone, Option.none_or]
  exact List.find?_cons_of_pos hg

theorem stage?_setStage_ne {ring region row src : Nat} {thick : Bool}
    (hne : (ring, region, row, src, thick) ≠ (p.stamp, p.region, p.row, p.src, p.thick)) :
    (e.setStage p g).stage? ring region row src thick = e.stage? ring region row src thick := by
  have hother {x : Stage} (hx : x.same ring region row src thick = true) :
      x.same p.stamp p.region p.row p.src p.thick = false :=
    Bool.eq_false_iff.2 fun hp => hne ((Stage.same_iff.1 hx).symm.trans (Stage.same_iff.1 hp))
  have hnew : g.same ring region row src thick = false :=
    Bool.eq_false_iff.2 fun h => Bool.false_ne_true ((hother h).symm.trans hg)
  have hstays (x : Stage) :
      ((!x.same p.stamp p.region p.row p.src p.thick) = true ∧ x.same ring region row src thick = true) ↔
        x.same ring region row src thick = true := and_iff_right_of_imp fun hx => by rw [hother hx]; rfl
  simp only [Eng.stage?, Eng.setStage, Eng.setRings, List.find?_append, List.find?_filter, hstays, Bool.decide_eq_true,
    List.find?_cons, hnew, List.find?_nil, Option.or_none]

end

/-- Acknowledging a packet leaves what is staged. -/
theorem stage?_ackPkt (e : Eng) (p : Pkt) (ring region row src : Nat) (thick : Bool) :
    (e.ackPkt p).stage? ring region row src thick = e.stage? ring region row src thick :=
  (congrArg (fun x : Eng => x.stage? ring region row src thick) (beyondLinks_ackPkt e p) :)

/-- What is staged in a sector after a delta has come to it (R167). -/
def stagedSector (secs : SMap (List Byte)) (sector : Nat) (d : List Byte) : List Byte :=
  (look secs sector).elim d (fun old => xorBytes old d)

/-- The packet's SEQ becomes the last staged of its source, its delta joins its sector, and it is acknowledged. -/
theorem stagePkt_stages (e : Eng) (r : Rgn) (p : Pkt) :
    let secs := ((e.stage? p.stamp p.region p.row p.src p.thick).map (·.secs)).getD []
    ∃ g : Stage, g.same p.stamp p.region p.row p.src p.thick = true ∧ g.ah = p.seq ∧
      g.secs = put secs p.sector (stagedSector secs p.sector (expand (elemWidth r.fmt) p.lineMap p.payload)) ∧
      e.stagePkt r p = (e.setStage p g).ackPkt p := by
  cases hs : e.stage? p.stamp p.region p.row p.src p.thick with
  | none =>
    refine ⟨_, ?_, ?_, ?_, by rw [Eng.stagePkt, hs]; rfl⟩
    · simp [Stage.same]
    · rfl
    · rfl
  | some s =>
    have hsame : s.same p.stamp p.region p.row p.src p.thick = true := by
      simpa using List.find?_some hs
    refine ⟨_, ?_, ?_, ?_, by rw [Eng.stagePkt, hs]; rfl⟩
    · exact hsame
    · rfl
    · dsimp only [Option.getD_some, Option.map_some, stagedSector]
      cases look s.secs p.sector <;> rfl

/-! ### Memory -/

theorem orderRing_mem (e : Eng) (r : Rgn) (p : Pkt) : (e.orderRing r p).mem = e.mem := by
  unfold Eng.orderRing
  split
  · rfl
  · exact hold_mem _ _
  · dsimp only
    split
    · exact mem_of_beyondLinks (beyondLinks_ackPkt _ _)
    · split
      · obtain ⟨_, -, -, -, hstage⟩ := stagePkt_stages e r p
        rw [hstage, mem_of_beyondLinks (beyondLinks_ackPkt _ _)]
        rfl
      · exact hold_mem _ _

/-- Settles O37: by the gate of the packet's ring and, in a slot, by its SEQ. -/
theorem ringedPacketsAreStagedInOrder : Obligations.RingedPacketsAreStagedInOrder := by
  unfold Obligations.RingedPacketsAreStagedInOrder
  intro e r p
  dsimp only
  rw [← frozenPast_iff]
  refine ⟨orderRing_mem e r p, fun hpast => orderRing_discards r (ringGate_past hpast),
    fun hpast hslot hsoon => orderRing_holds r (ringGate_soon hpast hslot hsoon),
    fun hslot hsoon => orderRing_discards r (ringGate_other hslot hsoon), fun hpast hslot hdup => ?old,
    fun hpast hslot hnew hwait => ?later, fun hpast hslot hnew hseq hidle => ?next⟩
  case old => rw [orderRing_slot r (ringGate_slot hpast hslot), if_pos hdup]
  case later =>
    have hturn : ¬(p.seq = w32 (e.stagedTo p.stamp p.region p.row p.src p.thick + 1) ∧
        e.parityBusy r p.row p.thick = false) := by
      rintro ⟨hseq, hidle⟩
      simp [hseq, hidle] at hwait
    rw [orderRing_slot r (ringGate_slot hpast hslot), if_neg (by simp [hnew]), if_neg hturn]
  case next =>
    obtain ⟨g, hg, hah, hsecs, hstage⟩ := stagePkt_stages e r p
    have ht : e.orderRing r p = (e.setStage p g).ackPkt p := by
      rw [orderRing_slot r (ringGate_slot hpast hslot), if_neg (by simp [hnew]), if_pos ⟨hseq, hidle⟩, hstage]
    refine ⟨g, ?_, hah, hsecs, fun n region row src thick hne => ?_⟩
    · rw [ht, stage?_ackPkt, stage?_setStage_same e hg]
    · rw [ht, stage?_ackPkt, stage?_setStage_ne e hg hne]

end Sys2Proof.Machine
end

section
/-!
PROOF. The order of boundaries and of job risks (R157, R430, R431).
-/
namespace Sys2Proof.Machine

/-! ### The two sequences -/

/-- A step follows the last declared of its sequence, 0 the steps and 1 the time steps, or is the first of it (R157). -/
def Eng.follows (e : Eng) (seq step : Nat) : Bool :=
  if seq = 0 then !e.rings.seenStep || precedes (e.rd Reg.GRV_BND_LAST_LAST_STEP) step
  else !e.rings.seenTstep || precedes (e.rd Reg.GRV_BND_LAST_LAST_TSTEP) step

theorem follows_iff {e : Eng} {seq step : Nat} : e.follows seq step = true ↔
    (if seq = 0 then e.rings.seenStep = false else e.rings.seenTstep = false) ∨
    precedes (if seq = 0 then e.rd Reg.GRV_BND_LAST_LAST_STEP else e.rd Reg.GRV_BND_LAST_LAST_TSTEP) step = true := by
  unfold Eng.follows
  split <;> simp

theorem not_follows (e : Eng) (seq step : Nat) :
    ((if seq = 0 then e.rings.seenStep else e.rings.seenTstep) &&
      !precedes (if seq = 0 then e.rd Reg.GRV_BND_LAST_LAST_STEP else e.rd Reg.GRV_BND_LAST_LAST_TSTEP) step) =
    !e.follows seq step := by
  unfold Eng.follows
  split <;> simp

theorem follows_congr {e e' : Eng} (hrings : e'.rings = e.rings)
    (hstep : e'.rd Reg.GRV_BND_LAST_LAST_STEP = e.rd Reg.GRV_BND_LAST_LAST_STEP)
    (htstep : e'.rd Reg.GRV_BND_LAST_LAST_TSTEP = e.rd Reg.GRV_BND_LAST_LAST_TSTEP) (seq step : Nat) :
    e'.follows seq step = e.follows seq step := by
  rw [Eng.follows, Eng.follows, hrings, hstep, htstep]

theorem written_follows (d : Dom) (flds : List Fld) (v : Nat) (s : State) (seq step : Nat) :
    (written d flds v s).follows seq step = s.eng.follows seq step :=
  follows_congr (by rw [written_eq]; rfl) (written_rd (by decide) (by decide)) (written_rd (by decide) (by decide)) _ _

theorem inOrder_eq (e : Eng) (b : Bnd) : e.inOrder b = e.follows (seqOf b.kind) b.step := (rfl)

theorem kind_lt (v : Nat) : Reg.GRV_BND_DECL_KIND.of v < 4 := Nat.mod_lt _ (by decide)

/-- Of the kinds that declare a boundary, 2 alone is none of a step. -/
theorem bit_kind {kind : Nat} (hkind : kind ≠ 0) (hlt : kind < 4) : bit kind 0 = true ↔ kind ≠ 2 := by
  simp only [bit, Nat.testBit_zero, decide_eq_true_eq]
  omega

theorem seqOf_eq {kind : Nat} (hkind : kind ≠ 0) (hlt : kind < 4) : seqOf kind = if kind = 2 then 1 else 0 := by
  simp only [seqOf, bit_kind hkind hlt, ite_not]

/-! ### A declared boundary -/

/-- The boundary that a value written to GRV_BND_DECL declares. -/
def Eng.declared (e : Eng) (v : Nat) : Bnd :=
  { step := Reg.GRV_BND_DECL_STEP.of v, kind := Reg.GRV_BND_DECL_KIND.of v, count := e.rd Reg.GRV_BND_COUNT_COUNT }

/-- A boundary that has been noted meets the pending job risk and, behind the start lock, the ring, the picks and the anchor. -/
def Eng.meetNoted (e : Eng) (b : Bnd) : Eng :=
  let now := e.jobRiskAt b
  if now.locked && now.serving then now.meetBoundary b else now

theorem exec_boundaryDeclare {s : State} (h : takesWrites .coding s) (v : DWord) :
    exec (.boundaryDeclare v) s = .next (leaving s
      ((written .coding [Reg.GRV_BND_DECL_KIND, Reg.GRV_BND_DECL_STEP] v.toNat s).declareBoundary v.toNat)) :=
  next_leaving (write_written h _ _ _)

theorem declareBoundary_none {e : Eng} {v : Nat} (h : Reg.GRV_BND_DECL_KIND.of v = 0) : e.declareBoundary v = e := if_pos h

section
variable {e : Eng} {v : Nat} (hkind : Reg.GRV_BND_DECL_KIND.of v ≠ 0)
include hkind

theorem declareBoundary_disorder (h : e.inOrder (e.declared v) = false) : e.declareBoundary v = e.raise .BND_ORDER :=
  (if_neg hkind).trans (if_pos (by rw [Bool.not_eq_true']; exact h))

theorem declareBoundary_inOrder (h : e.inOrder (e.declared v) = true) : e.declareBoundary v =
    let met := (e.noteBoundary (e.declared v)).meetNoted (e.declared v)
    if bit (Reg.GRV_BND_DECL_KIND.of v) 0 then met.prewake else met :=
  (if_neg hkind).trans (if_neg (by rw [Bool.not_eq_true', Bool.not_eq_false]; exact h))

end

theorem noteBoundary_eq (e : Eng) {b : Bnd} (hkind : b.kind ≠ 0) (hlt : b.kind < 4) : e.noteBoundary b =
    (if b.kind = 2
      then ({ e with rings := { e.rings with seenTstep := true } } : Eng).wr Reg.GRV_BND_LAST_LAST_TSTEP b.step
      else ({ e with rings := { e.rings with seenStep := true } } : Eng).wr Reg.GRV_BND_LAST_LAST_STEP b.step).wr
      Reg.GRV_RING_STEP_LAST_STEP b.step := by
  rw [Eng.noteBoundary, seqOf_eq hkind hlt]
  by_cases h : b.kind = 2
  · rw [if_pos h, if_pos h]; rfl
  · rw [if_neg h, if_neg h]; rfl

/-- The fields that the way in and the noting of a boundary may write. -/
def noteWrites : List Fld :=
  [Reg.GEN_PWR_ASLEEP, Reg.GEN_ERR_RSVD_WR, Reg.GRV_BND_LAST_LAST_STEP, Reg.GRV_BND_LAST_LAST_TSTEP,
   Reg.GRV_RING_STEP_LAST_STEP]

theorem rd_noteBoundary (d : Dom) (flds : List Fld) (v : Nat) (s : State) (b : Bnd) {f : Fld}
    (h : ∀ g ∈ noteWrites, f.key ≠ g.key) : ((written d flds v s).noteBoundary b).rd f = s.eng.rd f := by
  simp only [noteWrites, List.forall_mem_cons] at h
  obtain ⟨hasleep, hrsvd, hstep, htstep, hlast, -⟩ := h
  dsimp only [Eng.noteBoundary]
  rw [Eng.rd_wr_ne _ _ hlast, ← written_rd hasleep hrsvd]
  split
  · exact Eng.rd_wr_ne _ _ hstep
  · exact Eng.rd_wr_ne _ _ htstep

theorem jobRiskAt_eq (e : Eng) (b : Bnd) : e.jobRiskAt b =
    if e.on Reg.HLT_JOB_RISK_PENDING = true ∧ e.rd Reg.HLT_JOB_RISK_SEQ = seqOf b.kind ∧
      atOrBefore (e.rd Reg.HLT_JOB_RISK_STEP) b.step = true
    then ({ e with health := { e.health with jobRisk := e.rd Reg.HLT_JOB_RISK_RISK } } : Eng).flag
      Reg.HLT_JOB_RISK_PENDING false
    else e := by
  simp only [Eng.jobRiskAt, Eng.setHealth, Bool.and_eq_true, beq_iff_eq, and_assoc]

theorem on_jobRiskAt (e : Eng) (b : Bnd) {f : Fld} (h : f.key ≠ Reg.HLT_JOB_RISK_PENDING.key) :
    (e.jobRiskAt b).on f = e.on f := by
  unfold Eng.jobRiskAt
  split
  · exact Eng.on_flag_ne _ _ h
  · rfl

/-- A step's boundary wakes the first three ports from LOW, where PREWAKE is set (R430). -/
theorem prewake_at {kind : Nat} (hkind : kind ≠ 0) (hlt : kind < 4) (e : Eng) : (if bit kind 0 then e.prewake else e) =
    if kind = 2 ∨ e.on Reg.HLT_LINK_LOOP_PREWAKE = false then e
    else e.each ((List.range 3).filter (fun p => e.portState p == psLow)) (fun p e => e.wakePort p) := by
  simp only [bit_kind hkind hlt, ite_not, ite_or, Eng.prewake]
  cases e.on Reg.HLT_LINK_LOOP_PREWAKE <;> simp

/-! ### A job risk -/

/-- A written 1 clears LATE. -/
def Eng.clearLate (e : Eng) (v : Nat) : Eng :=
  if Reg.HLT_JOB_RISK_LATE.of v = 1 then e.flag Reg.HLT_JOB_RISK_LATE false else e

theorem clearLate_follows (e : Eng) (v seq step : Nat) : (e.clearLate v).follows seq step = e.follows seq step := by
  unfold Eng.clearLate
  split
  · refine follows_congr (Eng.flag_rings _ _ _) ?_ ?_ _ _ <;> exact Eng.rd_flag_ne _ _ (by decide)
  · rfl

theorem exec_jobRiskWrite {s : State} (h : s.eng.answers .alwaysOn = true) (v : DWord) :
    exec (.jobRiskWrite v) s = .next (leaving s ((written .alwaysOn jobRiskFields v.toNat s).jobRiskWrite v.toNat)) :=
  next_leaving (write_written ⟨h, nofun⟩ _ _ _)

/-- A job risk that keeps the order of its sequence is held as pending; one that does not sets LATE (R431). -/
theorem jobRiskWrite_eq (e : Eng) (v : Nat) : e.jobRiskWrite v =
    if (e.clearLate v).follows (Reg.HLT_JOB_RISK_SEQ.of v) (Reg.HLT_JOB_RISK_STEP.of v) = true then
      ((((e.clearLate v).wr Reg.HLT_JOB_RISK_STEP (Reg.HLT_JOB_RISK_STEP.of v)).wr Reg.HLT_JOB_RISK_SEQ
        (Reg.HLT_JOB_RISK_SEQ.of v)).wr Reg.HLT_JOB_RISK_RISK (Reg.HLT_JOB_RISK_RISK.of v)).flag Reg.HLT_JOB_RISK_PENDING true
    else (e.clearLate v).flag Reg.HLT_JOB_RISK_LATE true := by
  dsimp only [Eng.jobRiskWrite]
  rw [← Eng.clearLate, not_follows]
  cases (e.clearLate v).follows (Reg.HLT_JOB_RISK_SEQ.of v) (Reg.HLT_JOB_RISK_STEP.of v) <;> rfl

/-- Settles O12: whether a step follows the last of its sequence decides both, and a boundary in order is met part by part. -/
theorem boundariesAndJobRisksKeepTheirOrder : Obligations.BoundariesAndJobRisksKeepTheirOrder := by
  unfold Obligations.BoundariesAndJobRisksKeepTheirOrder
  refine ⟨fun s v hw => ?boundary, fun s v hw => ?jobRisk⟩
  case boundary =>
    intro e b first last noted
    have hb : e.declared v.toNat = b := by rw [Eng.declared, written_rd (by decide) (by decide)]
    have hlt : b.kind < 4 := kind_lt _
    rw [exec_boundaryDeclare hw]
    have horder (hkind : b.kind ≠ 0) : e.inOrder (e.declared v.toNat) = true ↔ first ∨ precedes last b.step = true := by
      rw [hb, inOrder_eq, written_follows, follows_iff, seqOf_eq hkind hlt]
      by_cases h2 : b.kind = 2 <;> simp [first, last, h2]
    refine ⟨fun hkind => next_leaving (declareBoundary_none hkind), fun hkind hseen hbefore => ?disorder,
      fun hkind hfollows => ?inOrder⟩
    case disorder =>
      refine next_leaving (declareBoundary_disorder hkind (Bool.eq_false_iff.2 fun h => ?_))
      rcases (horder hkind).1 h with hfirst | hafter
      · exact hseen hfirst
      · exact Bool.false_ne_true (hbefore.symm.trans hafter)
    case inOrder =>
      intro due now met woken
      have hnoted : e.noteBoundary b = noted := noteBoundary_eq e hkind hlt
      have hrd {f : Fld} (h : ∀ g ∈ noteWrites, f.key ≠ g.key) : noted.rd f = s.eng.rd f := by
        rw [← hnoted]
        exact rd_noteBoundary _ _ _ _ b h
      have hnow : noted.jobRiskAt b = now := by
        rw [jobRiskAt_eq, Eng.on, hrd (by decide), hrd (by decide), hrd (by decide), hrd (by decide), seqOf_eq hkind hlt]
        rfl
      have hon {f : Fld} (hpending : f.key ≠ Reg.HLT_JOB_RISK_PENDING.key) (h : ∀ g ∈ noteWrites, f.key ≠ g.key) :
          now.on f = s.eng.on f := by rw [← hnow, on_jobRiskAt _ _ hpending, Eng.on, hrd h, Eng.on]
      have hlocked : now.locked = s.eng.locked := hon (by decide) (by decide)
      have hserving : now.serving = s.eng.serving :=
        congrArg₂ (fun oos fenced => !oos && !fenced) (hon (by decide) (by decide)) (hon (by decide) (by decide))
      have hmet : noted.meetNoted b = met := by
        simp only [Eng.meetNoted, hnow, hlocked, hserving, Bool.and_eq_true, met]
      refine next_leaving ((declareBoundary_inOrder hkind ((horder hkind).2 hfollows)).trans ?_)
      rw [hb, hnoted, hmet]
      exact prewake_at hkind hlt met
  case jobRisk =>
    intro w e seq step first last
    have hfollows : e.follows seq step = true ↔ first ∨ precedes last step = true := by
      rw [show e = w.clearLate v.toNat from rfl, clearLate_follows, written_follows, follows_iff]
    rw [exec_jobRiskWrite hw, jobRiskWrite_eq]
    exact ⟨fun h => next_leaving (if_pos (hfollows.2 h)), fun hseen hbefore => next_leaving (if_neg fun h =>
      (hfollows.1 h).elim hseen fun hafter => Bool.false_ne_true (hbefore.symm.trans hafter))⟩

end Sys2Proof.Machine
end

section
/-!
PROOF. The answers of the tier manager (R161, R182, R230, R268, R335).
-/
namespace Sys2Proof.Machine

/-- An operation of the tier manager is off the list of those that are open. -/
def Eng.closeTier (e : Eng) (t : TierOpen) : Eng := { e with tier := e.tier.erase t }

/-- What goes on once the last operation asked for a reason has been answered. -/
def Eng.afterTier (e : Eng) : TierWhy → Eng
  | .ringFlush => e.flushEndRing.anchorCut
  | .rollDiscard => e.rollStep
  | .evacFlush | .run _ => e

theorem tierDone_unasked {e : Eng} {op : Nat} (h : e.tier.find? (fun t => t.op == op) = none) : e.tierDone op = e := by
  rw [Eng.tierDone, h]

section
variable {e : Eng} {op : Nat} {t : TierOpen} (h : e.tier.find? (fun t => t.op == op) = some t)
include h

theorem tierDone_more (hmore : (e.closeTier t).tierWaits t.why = true) : e.tierDone op = e.closeTier t := by
  rw [Eng.tierDone, h]
  exact if_pos hmore

theorem tierDone_last (hlast : (e.closeTier t).tierWaits t.why = false) :
    e.tierDone op = (e.closeTier t).afterTier t.why := by
  rw [Eng.tierDone, h]
  refine (if_neg (Bool.eq_false_iff.1 hlast)).trans ?_
  cases t.why <;> rfl

end

theorem exec_tierDone {s : State} (hworks : s.eng.working = true) {op : Nat} {e : Eng} (h : (quiet s).tierDone op = e) :
    exec (.tierDone op) s = .next (leaving s e.settle) :=
  next_leaving ((if_pos hworks).trans (congrArg Eng.settle h))

/-- An open operation that a run asked for. -/
def TierOpen.ofRun (t : TierOpen) (op : Nat) : Prop := t.op = op ∧ ∃ h, t.why = .run h

theorem exec_tierLate (op : Nat) (s : State) :
    ((∃ t ∈ (quiet s).tier, t.ofRun op) →
      exec (.tierLate op) s = .next (leaving s (((quiet s).bump Reg.UPD_TIER_LATE_COUNT).raise .TIER_LATE))) ∧
    (¬(∃ t ∈ (quiet s).tier, t.ofRun op) → exec (.tierLate op) s = .next (leaving s (quiet s))) := by
  have hany : (∃ t ∈ (quiet s).tier, t.ofRun op) ↔
      (quiet s).tier.any (fun t => t.op == op && (match t.why with | .run _ => true | _ => false)) = true := by
    simp only [List.any_eq_true, Bool.and_eq_true, beq_iff_eq]
    refine exists_congr fun t => and_congr_right fun _ => and_congr_right fun _ => ?_
    cases t.why <;> simp
  rw [hany]
  exact ⟨fun h => next_leaving (if_pos h), fun h => next_leaving (if_neg h)⟩

/-- Settles O45: an answer by what it finds on the list, a lateness by whether a run asked for the operation. -/
theorem tierAnswersLetWorkGoOn : Obligations.TierAnswersLetWorkGoOn := by
  unfold Obligations.TierAnswersLetWorkGoOn
  intro s op hworks
  obtain ⟨hlate, hother⟩ := exec_tierLate op s
  refine ⟨fun hnone => exec_tierDone hworks (tierDone_unasked hnone),
    fun t hfound => ⟨fun hmore => exec_tierDone hworks (tierDone_more hfound hmore), fun hlast => ?last⟩,
    fun t h ht hop hwhy => hlate ⟨t, ht, hop, h, hwhy⟩,
    fun hnone => hother fun ⟨t, ht, hop, h, hwhy⟩ => hnone t ht hop h hwhy⟩
  case last =>
    have hdone {why : TierWhy} (hwhy : t.why = why) :
        exec (.tierDone op) s = .next (leaving s (((quiet s).closeTier t).afterTier why).settle) :=
      exec_tierDone hworks (hwhy ▸ tierDone_last hfound hlast)
    exact ⟨hdone, hdone, hdone, fun _ => hdone⟩

end Sys2Proof.Machine
end

section
/-!
PROOF. Intake records and chunks (R207, R210, R217 to R220, R223, R225, R228, R329, R459).
-/
namespace Sys2Proof.Machine

/-! ### What bars a record -/

theorem screen_passes {e : Eng} {c : Contribution} (h : e.screen c = (e, true)) :
    (e.tagged c.tag (·.frozen)).isSome = false ∧ (e.tagged c.tag (fun _ => true)).isNone = false := by
  unfold Eng.screen at h
  split at h
  case isTrue => simp at h
  case isFalse hfrozen =>
    split at h
    case isTrue => simp at h
    case isFalse hknown => exact ⟨Bool.eq_false_iff.2 hfrozen, Bool.eq_false_iff.2 hknown⟩

/-- A native record speaks of the tag in its header. -/
theorem tag_of_native {e : Eng} {hdr payload : List Byte} {c : Contribution} (hnative : bit (fieldAt hdr 1 1) 0 = false)
    (h : e.contributions hdr payload = some [c]) : c.tag = fieldAt hdr 4 4 := by
  simp only [Eng.contributions, hnative, Bool.false_eq_true, if_false, Option.ite_none_left_eq_some, Option.some.injEq,
    List.cons.injEq, and_true] at h
  exact h.2 ▸ rfl

theorem tryIntake_off {e : Eng} (h : e.on Reg.UPD_INTAKE_CTL_EN = false ∨ e.locked = false) (hdr payload : List Byte) :
    e.tryIntake hdr payload = some e.intakeBad := by
  rcases h with h | h <;> simp [Eng.tryIntake, h]

section
variable {e : Eng} {hdr payload : List Byte} (hon : e.on Reg.UPD_INTAKE_CTL_EN = true) (hlocked : e.locked = true)
include hon hlocked

theorem tryIntake_stale (hgen : fieldAt hdr 0 1 ≠ e.upd.gen % 256) :
    e.tryIntake hdr payload = some (e.bump Reg.UPD_INTAKE_STAT_STALE) := by
  simp [Eng.tryIntake, hon, hlocked, hgen]

variable (hgen : fieldAt hdr 0 1 = e.upd.gen % 256)
include hgen

theorem tryIntake_frozen (hnative : bit (fieldAt hdr 1 1) 0 = false) (hbuckets : e.on Reg.UPD_INTAKE_CTL_B5 = false)
    (hfrozen : (e.tagged (fieldAt hdr 4 4) (·.frozen)).isSome = true) :
    e.tryIntake hdr payload = some (e.bump Reg.UPD_INTAKE_STAT_FROZEN) := by
  simp [Eng.tryIntake, hon, hlocked, hgen, hnative, hbuckets, hfrozen]

theorem tryIntake_unknown (hnative : bit (fieldAt hdr 1 1) 0 = false) (hbuckets : e.on Reg.UPD_INTAKE_CTL_B5 = false)
    (hfrozen : (e.tagged (fieldAt hdr 4 4) (·.frozen)).isSome = false)
    (hnone : (e.tagged (fieldAt hdr 4 4) (fun _ => true)).isNone = true) :
    e.tryIntake hdr payload = some ((e.bump Reg.UPD_INTAKE_STAT_UNKNOWN).raise .INTAKE_UNKNOWN) := by
  simp [Eng.tryIntake, hon, hlocked, hgen, hnative, hbuckets, hfrozen, hnone]

/-- A record whose one contribution stands, and for which there is room, is taken in: the tag in a native header is not barred
where its contribution's is not. -/
theorem tryIntake_takes {c : Contribution} (hone : e.contributions hdr payload = some [c])
    (hscreen : e.screen c = (e, true)) (hroom : e.intakeUsed + e.intakeNeed c + intakeReserve ≤ e.intakeLen) :
    e.tryIntake hdr payload = some (e.takeIn c) := by
  obtain ⟨hfrozen, hknown⟩ := screen_passes hscreen
  have hopen : bit (fieldAt hdr 1 1) 0 = false →
      (e.tagged (fieldAt hdr 4 4) (·.frozen)).isSome = false ∧ (e.tagged (fieldAt hdr 4 4) (fun _ => true)).isNone = false :=
    fun hnative => tag_of_native hnative hone ▸ ⟨hfrozen, hknown⟩
  cases hnative : bit (fieldAt hdr 1 1) 0 with
  | true => simp [Eng.tryIntake, hon, hlocked, hgen, hnative, hone, hscreen, hroom]
  | false => simp [Eng.tryIntake, hon, hlocked, hgen, hopen hnative, hone, hscreen, hroom]

end

/-! ### The first contribution of a slice -/

/-- The slice that its first contribution begins, in fast mode and with others to come (R219). -/
def Contribution.begins (c : Contribution) : Slice :=
  { tag := c.tag, step := c.step, eoff := c.eoff, count := c.count, n := c.n, sum := c.vals, added := [c.index], early := [],
    full := false, row := none }

section
variable {e : Eng} {c : Contribution} (hnew : e.sliceOf c = none) (hfast : e.on Reg.UPD_CTL_STRICT = false)
include hnew hfast

theorem intakeNeed_first : e.intakeNeed c = 4 * c.count := by simp [Eng.intakeNeed, hnew, hfast]

theorem takeIn_first (hmore : 1 < c.n) :
    e.takeIn c = { e with upd := { e.upd with slices := e.upd.slices ++ [c.begins] } } := by
  simp [Eng.takeIn, addTo, Eng.setUpd, Contribution.begins, hnew, hfast, hmore.ne]

end

/-! ### A record arrives -/

theorem exec_intakeRecord {s : State} {hdr payload : List Byte} {e : Eng} (h : (awake s).intake hdr payload = e) :
    exec (.intakeRecord hdr payload) s = .next (leaving s e.pumpRuns) :=
  next_leaving (congrArg Eng.pumpRuns h)

theorem not_idle {e : Eng} (hruns : e.boot.inReset = false) (hserves : e.serving = true) :
    ¬(e.boot.inReset || !e.serving) = true := by simp [hruns, hserves]

theorem pumpRuns_idle {e : Eng} (h : e.boot.inReset = true ∨ e.serving = false) : e.pumpRuns = e :=
  if_pos (by simpa using h)

theorem serving_of_oos {e : Eng} (h : e.oos = true) : e.serving = false := by simp [Eng.serving, h]

/-- A record is withheld as the first to wait (R220). -/
def Eng.withholds (e : Eng) (hdr payload : List Byte) : Eng :=
  ({ e with upd := { e.upd with held := [(hdr, payload)], heldAt := e.now } } : Eng).emit .withheld

section
variable {e : Eng} {hdr payload : List Byte}

theorem intake_oos (hoos : e.oos = true) : e.intake hdr payload = e := if_pos hoos

theorem intake_reset (hoos : e.oos = false) (hreset : e.boot.inReset = true) (hfirst : e.upd.held = []) :
    e.intake hdr payload = e.withholds hdr payload := by
  simp [Eng.intake, Eng.setUpd, Eng.withholds, hoos, hreset, hfirst]

variable (hoos : e.oos = false) (hruns : e.boot.inReset = false)
include hoos hruns

theorem intake_of_tried {t : Eng} (h : e.tryIntake hdr payload = some t) : e.intake hdr payload = t := by
  simp [Eng.intake, hoos, hruns, h]

theorem intake_no_room (h : e.tryIntake hdr payload = none) (hfirst : e.upd.held = []) :
    e.intake hdr payload = e.withholds hdr payload := by
  simp [Eng.intake, Eng.setUpd, Eng.withholds, hoos, hruns, h, hfirst]

end

/-! ### A cluster finishes a chunk -/

/-- A run whose chunk is no longer in a cluster. -/
def Run.returned (u : Run) (chunk cluster : Nat) : Run := { u with issued := u.issued.erase (chunk, cluster) }

/-- Only the writing pass leaves sectors that are not complete. -/
theorem partialSectors_not_writing {e : Eng} {u : Run} (h : u.phase ≠ .writing) : e.partialSectors u = u :=
  foldl_keeps (P := fun v => v = u) (fun v l hv => by simp [hv, h]) _ u rfl

theorem wrote_passOne {u : Run} (h : u.phase = .pass1) : u.wrote = 0 := by simp [Run.wrote, h]

section
variable {e : Eng} {h c k : Nat}

theorem chunkDone_no_run (hnone : e.run? h = none) : e.chunkDone h c k = e := by rw [Eng.chunkDone, hnone]

variable {u : Run} (hrun : e.run? h = some u)
include hrun

theorem chunkDone_not_issued (hnot : u.issued.contains (c, k) = false) : e.chunkDone h c k = e := by
  simp only [Eng.chunkDone, hrun, hnot, Bool.not_false, if_true]

variable (hissued : u.issued.contains (c, k) = true)
include hissued

theorem chunkDone_dead {l : Nat} (hdead : e.chunkDead (u.returned c k) c = some l) :
    e.chunkDone h c k = ((e.setRun (e.partialSectors (u.returned c k))).endRun (e.partialSectors (u.returned c k)) stMemError
      (e.partialSectors (u.returned c k)).wrote (64 * l)).pumpRuns := by
  simp only [Run.returned] at hdead ⊢
  simp only [Eng.chunkDone, hrun, hissued, hdead, Bool.not_true, Bool.false_eq_true, if_false]

theorem chunkDone_passOne (hsound : e.chunkDead (u.returned c k) c = none) (hpass : u.phase = .pass1) :
    e.chunkDone h c k = (e.setRun { u.returned c k with
      parts := u.parts ++ [e.passOne (u.returned c k) c], done := u.done ++ [c] }).pumpRuns := by
  simp only [Run.returned] at hsound ⊢
  simp only [Eng.chunkDone, hrun, hissued, hsound, Bool.not_true, Bool.false_eq_true, if_false]
  exact if_pos (beq_iff_eq.2 hpass)

/-- In pass 1 no element has been written, so the run ends with none. -/
theorem chunkDone_dead_passOne {l : Nat} (hdead : e.chunkDead (u.returned c k) c = some l) (hpass : u.phase = .pass1) :
    e.chunkDone h c k = ((e.setRun (e.partialSectors (u.returned c k))).endRun (e.partialSectors (u.returned c k)) stMemError 0
      (64 * l)).pumpRuns := by
  have hphase : (u.returned c k).phase = .pass1 := hpass
  have hwrote : (e.partialSectors (u.returned c k)).wrote = 0 := by
    rw [partialSectors_not_writing (by simp [hphase]), wrote_passOne hphase]
  rw [chunkDone_dead hrun hissued hdead, hwrote]

end

theorem exec_chunkComplete {s : State} {h : BitVec 16} {chunk : Nat} {cluster : Fin 64} {e : Eng}
    (hdone : (quiet s).chunkDone h.toNat chunk cluster.val = e) :
    exec (.chunkComplete h chunk cluster) s = .next (leaving s e) :=
  next_leaving hdone

theorem exec_spanUnblock {s : State} (hruns : (quiet s).boot.inReset = false) (hserves : (quiet s).serving = true)
    (h : BitVec 16) (span : Nat) :
    exec (.spanUnblock h span) s = .next (leaving s ((quiet s).runGo 8 h.toNat)) :=
  next_leaving (if_neg (not_idle hruns hserves))

/-- Settles O44: a record by the first rule that bars it, or by the room for it; a chunk by what its run finds. -/
theorem intakeAndChunksAreTaken : Obligations.IntakeAndChunksAreTaken := by
  unfold Obligations.IntakeAndChunksAreTaken
  refine ⟨fun s hdr payload => ⟨fun hoos => ?oos, fun hoos hreset hfirst => ?reset, fun hoos hruns => ?record⟩,
    fun s h chunk cluster => ⟨fun hnone => exec_chunkComplete (chunkDone_no_run hnone), fun u hrun => ?chunk,
      fun span hruns hserves => exec_spanUnblock hruns hserves h span⟩⟩
  case oos => exact (exec_intakeRecord (intake_oos hoos)).trans (next_leaving (pumpRuns_idle (.inr (serving_of_oos hoos))))
  case reset => exact (exec_intakeRecord (intake_reset hoos hreset hfirst)).trans (next_leaving (pumpRuns_idle (.inl hreset)))
  case record =>
    have htried {t : Eng} (h : (awake s).tryIntake hdr payload = some t) :
        exec (.intakeRecord hdr payload) s = .next (leaving s t.pumpRuns) :=
      exec_intakeRecord (intake_of_tried hoos hruns h)
    refine ⟨fun hoff => htried (tryIntake_off hoff _ _), fun hon hlocked =>
      ⟨fun hgen => htried (tryIntake_stale hon hlocked hgen),
        fun hgen hnative hbuckets =>
          ⟨fun hfrozen => htried (tryIntake_frozen hon hlocked hgen hnative hbuckets hfrozen), fun hnone hfrozen => ?unknown⟩,
        fun c hgen hone hscreen hnew hmore hfast hroom => ?first⟩,
      fun t => htried, fun hfull hfirst => exec_intakeRecord (intake_no_room hoos hruns hfull hfirst)⟩
    case unknown =>
      exact htried (tryIntake_unknown hon hlocked hgen hnative hbuckets (Option.isSome_eq_false_iff.2 hfrozen) hnone)
    case first =>
      have htaken := tryIntake_takes hon hlocked hgen hone hscreen ((intakeNeed_first hnew hfast).symm ▸ hroom)
      exact htried (htaken.trans (congrArg some (takeIn_first hnew hfast hmore)))
  case chunk =>
    exact ⟨fun hnot => exec_chunkComplete (chunkDone_not_issued hrun hnot), fun hissued =>
      ⟨fun l hdead hpass => exec_chunkComplete (chunkDone_dead_passOne hrun hissued hdead hpass),
        fun hsound hpass => exec_chunkComplete (chunkDone_passOne hrun hissued hsound hpass)⟩⟩

end Sys2Proof.Machine
end

section
/-!
PROOF. A sealed packet at its receiver (R301, R397, R402): what it was sent with.
-/
namespace Sys2Proof.Machine

/-- The position byte holds both positions (R108). -/
theorem toNat_posByte {src dst : Nat} (hsrc : src < 2 ^ 4) (hdst : dst < 2 ^ 4) :
    (byteOf (src % 16 + 16 * (dst % 16))).toNat % 16 = src ∧ (byteOf (src % 16 + 16 * (dst % 16))).toNat / 16 = dst := by
  rw [byteOf, BitVec.toNat_ofNat]
  omega

/-- The receiver reads the IV of R301 off the header and the envelope of the packet that was sealed under it. -/
theorem sapIv_sealPkt {q : Pkt} {ctr : Nat} (hsrc : q.src < 2 ^ 4) (hdst : q.dst < 2 ^ 4) (hctr : ctr < 2 ^ 64)
    (key : List Byte) :
    sapIv ((sealPkt key ctr q).pos.toNat % 16) q.gen (sealPkt key ctr q).counter.toNat = sapIv (q.src % 16) q.gen ctr := by
  have hpos : (sealPkt key ctr q).pos = byteOf (q.src % 16 + 16 * (q.dst % 16)) := rfl
  have hcounter : (sealPkt key ctr q).counter.toNat = ctr := (BitVec.toNat_ofNat ..).trans (Nat.mod_eq_of_lt hctr)
  rw [hpos, hcounter, (toNat_posByte hsrc hdst).1, Nat.mod_eq_of_lt (show q.src < 16 from hsrc)]

/-- The tag of a sealed packet, as the receiver compares it. -/
theorem natBe_tag_sealPkt {key : List Byte} (hkey : key.length = 32) (ctr : Nat) (q : Pkt) :
    natBe 16 (sealPkt key ctr q).tag.toNat =
      (gcmSeal key (sapIv (q.src % 16) q.gen ctr) (sapHeader q.typ (sealPkt key ctr q)) q.payload).2 :=
  natBe_tag (gcmTag_length hkey ..)

/-- A packet sealed for this engine opens here (R301). -/
theorem openPkt_sealPkt {e : Eng} {jlk : List Byte} {place ctr : Nat} {q : Pkt} (hjlk : e.sec.jlk = some jlk)
    (hsrc : q.src < 2 ^ 4) (hdst : q.dst < 2 ^ 4) (hctr : ctr < 2 ^ 64) :
    e.openPkt place q.gen q.typ (sealPkt (sessionKey jlk place e.place q.gen) ctr q) = some q.payload := by
  have hkey : (sessionKey jlk place e.place q.gen).length = 32 := kdf_length ..
  rw [Eng.openPkt, hjlk, Option.bind_some, sapIv_sealPkt hsrc hdst hctr, natBe_tag_sealPkt hkey]
  exact gcmOpen_gcmSeal hkey ..

/-- Settles O60: AES-GCM opens what it sealed, and every field stands in its place of the header. -/
theorem sealedPacketsOpenAsTheyWereSent : Obligations.SealedPacketsOpenAsTheyWereSent := by
  unfold Obligations.SealedPacketsOpenAsTheyWereSent
  intro e jlk place ctr q hjlk hflags hgen hplanes hsector hsrc hdst hregion hrow hstamp hseq hrelease hmap hctr
  refine ⟨openPkt_sealPkt hjlk hsrc hdst hctr, ?_⟩
  obtain ⟨hlow, hhigh⟩ := toNat_posByte hsrc hdst
  simp only [sapPlain, sealPkt, hlow, hhigh]
  simp (disch := assumption) only [byteOf, BitVec.toNat_ofNat, Nat.mod_eq_of_lt]

end Sys2Proof.Machine
end

section
/-!
PROOF. Training (R278 to R283) and test modes (R311 to R313): what a step of a port's training does, by the state that it finds.
-/
namespace Sys2Proof.Machine

/-! ### The steps of a training -/

section
variable {e : Eng} {p lanes : Nat} {met : Bool}

theorem trainingStep_detected (h : e.portState p = psDetect) : e.trainingStep p 1 lanes true =
    (e.wr (Reg.GP_STAT_STATE p) psEqualise).updPort p (fun q => { q with asks := [] }) := by
  simp [Eng.trainingStep, h]

theorem trainingStep_undetected (h : e.portState p = psDetect) : e.trainingStep p 1 lanes false = e.attemptFails p := by
  simp [Eng.trainingStep, h]

theorem attemptFails_again (h : (e.port p).attempt < 3) : e.attemptFails p = e.startAttempt p ((e.port p).attempt + 1) := if_pos h

theorem attemptFails_third (h : 3 ≤ (e.port p).attempt) :
    e.attemptFails p = e.excludePort p (if (e.port p).resetting then 3 else 1) := if_neg (Nat.not_lt.2 h)

theorem trainingStep_equalised (h : e.portState p = psEqualise) : e.trainingStep p 2 lanes met =
    (e.wr (Reg.GP_LANES_TRAINED p) (lanes &&& e.presentLanes p)).wr (Reg.GP_STAT_STATE p) psLock := by
  simp [Eng.trainingStep, h]

theorem trainingStep_locked (h : e.portState p = psLock) : e.trainingStep p 3 lanes met =
    ((e.wr (Reg.GP_LANES_TRAINED p) (lanes &&& e.rd (Reg.GP_LANES_TRAINED p))).wr (Reg.GP_STAT_STATE p) psWidth).widthMsg p
      false := by
  simp [Eng.trainingStep, h]

theorem trainingStep_width (h : e.portState p = psWidth) (hwidth : e.widthOfPort p ≠ 0) :
    e.trainingStep p 4 lanes true = e.setUsed p (e.usedLanes p) := by
  simp [Eng.trainingStep, h, hwidth]

theorem trainingStep_up (h : e.portState p = psWidth) (hwidth : e.rd (Reg.GP_STAT_WIDTH p) ≠ 0) :
    e.trainingStep p 5 lanes true = e.portGoesUp p := by
  simp [Eng.trainingStep, h, hwidth]

/-! ### Link resets and lanes that leave service -/

theorem linkReset_idle (h : e.portState p < 1 ∨ psWake < e.portState p) : e.linkReset p = e :=
  if_neg (by rw [Bool.and_eq_true, decide_eq_true_eq, decide_eq_true_eq]; omega)

theorem linkReset_attempts (hlow : 1 ≤ e.portState p) (hhigh : e.portState p ≤ psWake) : e.linkReset p =
    (e.updPort p (fun q => { q with resetting := true, kept := true, reqCount := 0, reqTimes := [] })).startAttempt p 1 :=
  if_pos (by simp [hlow, hhigh])

theorem loseLane_eq (e : Eng) (p l : Nat) : e.loseLane p l =
    let lost := e.updPort p (fun q => { q with lost := setBit q.lost l })
    if e.portState p = psUp ∨ e.portState p = psLow then lost.restripe p else lost := by
  simp [Eng.loseLane]

end

/-! ### Test modes -/

/-- The fields of GP_TEST that a write stores as it stands. -/
def Eng.setTest (e : Eng) (p v : Nat) : Eng := (e.sw (Reg.GP_TEST_PATTERN p) v).sw (Reg.GP_TEST_MODE p) v

theorem rd_setTest {e : Eng} {p v : Nat} {f : Fld} (hpattern : f.key ≠ (Reg.GP_TEST_PATTERN p).key)
    (hmode : f.key ≠ (Reg.GP_TEST_MODE p).key) : (e.setTest p v).rd f = e.rd f := by
  rw [Eng.setTest, Eng.sw, Eng.rd_wr_ne _ _ hmode, Eng.sw, Eng.rd_wr_ne _ _ hpattern]

/-- The port counts anew, for a test that finds it in a state (R311, R313). -/
def Eng.countingFrom (e : Eng) (p st : Nat) : Eng :=
  ((e.flag (Reg.GP_TEST_RUN p) true).updPort p (fun q => { q with stBefore := st })).each (List.range 16)
    (fun l e => e.wr (Reg.GP_PRBS_ERR_COUNT p l) 0)

theorem rd_countingFrom {e : Eng} {p st : Nat} {f : Fld} (hrun : f.key ≠ (Reg.GP_TEST_RUN p).key)
    (hcount : ∀ l, f.key ≠ (Reg.GP_PRBS_ERR_COUNT p l).key) : (e.countingFrom p st).rd f = e.rd f :=
  Eng.each_keeps (P := fun t => t.rd f = e.rd f) _ (fun l _ _ h => (Eng.rd_wr_ne _ _ (hcount l)).trans h)
    (Eng.rd_flag_ne _ _ hrun)

/-- A test begins: what the port carried is lost, and its lanes send the pattern of the mode (R311, R312). -/
def Eng.beginTest (e : Eng) (p st : Nat) : Eng :=
  (((e.countingFrom p st).abortInbound p).linkDown p psTest).emit
    (.lanesTest p (e.rd (Reg.GP_TEST_MODE p)) (e.rd (Reg.GP_TEST_PATTERN p)))

/-- The fields of a port that decide on a test and those that its start writes do not meet. -/
theorem testKeys (p : Nat) : (Reg.GP_STAT_STATE p).key ≠ (Reg.GP_TEST_PATTERN p).key ∧
    (Reg.GP_STAT_STATE p).key ≠ (Reg.GP_TEST_MODE p).key ∧
    (∀ f ∈ [Reg.GP_TEST_MODE p, Reg.GP_TEST_PATTERN p], f.key ≠ (Reg.GP_TEST_RUN p).key ∧
      ∀ l, f.key ≠ (Reg.GP_PRBS_ERR_COUNT p l).key) := by
  simp only [List.forall_mem_cons, List.not_mem_nil, false_implies, implies_true, and_true, Fld.key, Reg.GP_STAT_STATE,
    Reg.GP_TEST_PATTERN, Reg.GP_TEST_MODE, Reg.GP_TEST_RUN, Reg.GP_PRBS_ERR_COUNT]
  refine ⟨?_, ?_, ⟨?_, fun l => ?_⟩, ?_, fun l => ?_⟩ <;> omega

/-- A write of RUN = 1 with REFUSED 0 to a port without a test (R311). -/
theorem portTest_run {e : Eng} {p v : Nat} (hv : v / 2 ^ 30 = 2) (hidle : e.on (Reg.GP_TEST_RUN p) = false) :
    e.portTest p v = if !e.locked || e.portState p == psExcluded || e.on (Reg.GP_CTL_HOLD p) then
      (e.setTest p v).beginTest p (e.portState p) else (e.setTest p v).flag (Reg.GP_TEST_REFUSED p) true := by
  have hrun : (Reg.GP_TEST_RUN p).of v = 1 := by simp [Fld.of, bits, Reg.GP_TEST_RUN, Nat.shiftRight_eq_div_pow]; omega
  have hkept : (Reg.GP_TEST_REFUSED p).of v ≠ 1 := by
    simp [Fld.of, bits, Reg.GP_TEST_REFUSED, Nat.shiftRight_eq_div_pow]; omega
  obtain ⟨hstPattern, hstMode, hset⟩ := testKeys p
  have hstate : (e.setTest p v).portState p = e.portState p := rd_setTest hstPattern hstMode
  have hrd : ∀ f ∈ [Reg.GP_TEST_MODE p, Reg.GP_TEST_PATTERN p],
      ((e.setTest p v).countingFrom p (e.portState p)).rd f = (e.setTest p v).rd f :=
    fun f hf => rd_countingFrom (hset f hf).1 (hset f hf).2
  simp only [List.forall_mem_cons] at hrd
  obtain ⟨hmode, hpattern, -⟩ := hrd
  simp only [Eng.portTest, hrun, hkept, hidle]
  rw [Eng.beginTest, ← hmode, ← hpattern, ← hstate]
  rfl

/-! ### The commands -/

theorem exec_portTrainingStep {s : State} {p : Fin 4} {step : Fin 6} {lanes : BitVec 16} {met : Bool} {e : Eng}
    (h : (quiet s).trainingStep p step lanes.toNat met = e) :
    exec (.portTrainingStep p step lanes met) s = .next (leaving s e.bootReady) :=
  next_leaving (congrArg Eng.bootReady h)

theorem exec_portRetrain {s : State} (h : s.eng.answers .link = true) (p : Fin 4) (v : Word) :
    exec (.portRetrain p v) s = .next (leaving s
      (((written .link [Reg.GP_CTL_RETRAIN p, Reg.GP_CTL_HOLD p] v.toNat s).portCtl p v.toNat).bootReady)) :=
  next_leaving (write_written ⟨h, nofun⟩ _ _ _)

/-- The way in of a write leaves the registers of the ports. -/
theorem written_rd_port {d : Dom} {s : State} {flds : List Fld} {v : Nat} {f : Fld} (h : 0x040000 ≤ f.off) :
    (written d flds v s).rd f = s.eng.rd f :=
  written_rd (by simp only [Fld.key, Reg.GEN_PWR_ASLEEP]; omega) (by simp only [Fld.key, Reg.GEN_ERR_RSVD_WR]; omega)

/-- The fields of a write of GP_TEST. -/
def testFields (p : Nat) : List Fld := [Reg.GP_TEST_RUN p, Reg.GP_TEST_REFUSED p, Reg.GP_TEST_PATTERN p, Reg.GP_TEST_MODE p]

theorem exec_portTestRun {s : State} {p : Fin 4} {v : Word} (h : s.eng.answers .link = true) (hv : v.toNat / 2 ^ 30 = 2)
    (hidle : (quiet s).on (Reg.GP_TEST_RUN p) = false) :
    let set := (written .link (testFields p) v.toNat s).setTest p v.toNat
    exec (.portTestRun p v) s = .next (leaving s
      (if !(quiet s).locked || (quiet s).portState p == psExcluded || (quiet s).on (Reg.GP_CTL_HOLD p) then
        set.beginTest p ((quiet s).portState p) else set.flag (Reg.GP_TEST_REFUSED p) true)) := by
  set w := written .link (testFields p) v.toNat s
  have hlocked : w.locked = (quiet s).locked := written_on (by decide) (by decide)
  have hstate : w.portState p = (quiet s).portState p := written_rd_port (Nat.le_add_right_of_le (by decide))
  have hhold : w.on (Reg.GP_CTL_HOLD p) = (quiet s).on (Reg.GP_CTL_HOLD p) := by
    rw [quiet_on, Eng.on, Eng.on, written_rd_port (Nat.le_add_right ..)]
  have hrun : w.on (Reg.GP_TEST_RUN p) = false := by
    rw [← hidle, quiet_on, Eng.on, Eng.on, written_rd_port (Nat.le_add_right_of_le (by decide))]
  rw [← hlocked, ← hstate, ← hhold]
  exact next_leaving ((write_written ⟨h, nofun⟩ _ _ _).trans (portTest_run hv hrun))

theorem exec_prbsLockTimeout {s : State} {p : Fin 4} {l : Fin 16} (hrun : (quiet s).on (Reg.GP_TEST_RUN p) = true)
    (hmode : (quiet s).rd (Reg.GP_TEST_MODE p) ∈ [1, 2, 4]) (hlane : bit ((quiet s).presentLanes p) l = true) :
    exec (.prbsLockTimeout p l) s = .next (leaving s ((quiet s).wr (Reg.GP_PRBS_ERR_COUNT p l) 0xFFFFFFFF)) := by
  have hchecking : (quiet s).checking p = true := by simpa [Eng.checking, or_assoc] using And.intro hrun hmode
  exact next_leaving (if_pos (Bool.and_eq_true_iff.2 ⟨hchecking, hlane⟩))

/-- Settles O50: each step by the state of the port, and a test by whether the port may run one. -/
theorem portsTrain : Obligations.PortsTrain := by
  unfold Obligations.PortsTrain
  intro s p
  refine ⟨fun hst => ⟨fun _ => exec_portTrainingStep (trainingStep_detected hst), fun _ hmore => ?again, fun _ hlast => ?third⟩,
    fun hst _ _ => exec_portTrainingStep (trainingStep_equalised hst),
    fun hst _ _ => exec_portTrainingStep (trainingStep_locked hst),
    fun hst hwidth _ => exec_portTrainingStep (trainingStep_width hst hwidth),
    fun hst hwidth _ => exec_portTrainingStep (trainingStep_up hst hwidth),
    fun hidle => next_leaving (linkReset_idle hidle), fun hlow hhigh => next_leaving (linkReset_attempts hlow hhigh),
    fun _ => next_leaving (loseLane_eq ..), fun v h => exec_portRetrain h p v, fun v h hv hidle => ⟨?refused, ?begins⟩,
    fun _ hrun hmode hlane => exec_prbsLockTimeout hrun hmode hlane⟩
  case again => exact exec_portTrainingStep ((trainingStep_undetected hst).trans (attemptFails_again hmore))
  case third => exact exec_portTrainingStep ((trainingStep_undetected hst).trans (attemptFails_third hlast))
  case refused =>
    exact fun hlocked hst hhold => (exec_portTestRun h hv hidle).trans (next_leaving (if_neg (by simp [hlocked, hst, hhold])))
  case begins =>
    exact fun hmay => (exec_portTestRun h hv hidle).trans (next_leaving (if_pos (by simpa [or_assoc] using hmay)))

end Sys2Proof.Machine
end

section
/-!
PROOF. Low power (R308, R310, R438, R485): a wake that raises a watched interrupt.
-/
namespace Sys2Proof.Machine

/-- An engine in keep-alive during a job, its floor of lanes at the reset value of 75 %: port 0 wakes from 16 lanes with 2 left,
and a watch names PLANE_UNDER, which is enabled. -/
def wakingNarrowed : Eng :=
  let e := (((Eng.reset.flag Reg.GEN_START_LOCKED true).flag Reg.GEN_PWR_ASLEEP true).flag (Reg.INT_SRC_CFG_EN 145) true).flag
    (Reg.INT_WATCH_EN 0) true
  let e := ((e.wr (Reg.INT_WATCH_SOURCE 0) 145).wr (Reg.GP_STAT_STATE 0) psWake).wr (Reg.GP_LANES_TRAINED 0) 0x0003
  let e := ((e.wr (Reg.GP_LANES_USED 0) 0xFFFF).wr (Reg.GP_LANES_USED 1) 0xFFFF).wr (Reg.GP_LANES_USED 2) 0xFFFF
  (e.wr Reg.GRV_PLANE_STAT_OWN_LANES 48).updPort 0 (fun q => { q with farPassing := 0xFFFF })

/-- The wake ends with the port UP. -/
theorem portStateAfter_wakingNarrowed :
    portStateAfter (exec (.wakeComplete 0) { pending := [], eng := wakingNarrowed }) = some psUp := by decide +kernel

/-- Refutes O52: the clause of WAKE_COMPLETE sends the port back to LOW where the engine was in keep-alive before the command. In
`wakingNarrowed` the re-striping leaves the plane below its floor (R285), and the watched event of PLANE_UNDER starts the fast
clocks (R485): the engine is no longer in keep-alive, so R310 leaves the port UP, as the model does. -/
theorem not_portsSaveAndReturnPower : ¬ Obligations.PortsSaveAndReturnPower := by
  unfold Obligations.PortsSaveAndReturnPower
  intro h
  obtain ⟨-, -, -, -, -, -, -, -, hwake⟩ := h { pending := [], eng := wakingNarrowed } 0
  obtain ⟨-, hcomplete, -⟩ := hwake (by decide +kernel)
  have hlow := hcomplete (by decide +kernel)
  exact absurd ((portStateAfter_wakingNarrowed).symm.trans (congrArg portStateAfter hlow)) (by decide +kernel)

end Sys2Proof.Machine
end

section
/-!
PROOF. Flits at a port (R276, R286, R287, R291, R293, R299, R438): what a flit of each kind does, by what the port's state and the
flit's checks say.
-/
namespace Sys2Proof.Machine

/-- A port carries traffic: it is UP, in LOW or waking. -/
def Eng.carries (e : Eng) (p : Nat) : Prop := e.portState p = psUp ∨ e.portState p = psLow ∨ e.portState p = psWake

/-- A port trains: it is in one of the first four steps of R278. -/
def Eng.trains (e : Eng) (p : Nat) : Prop := psDetect ≤ e.portState p ∧ e.portState p ≤ psWidth

section
variable {e : Eng} {p : Nat} {f : List Byte} {bad : Bool} {body : Eng → Eng}

/-- At a port that neither carries traffic nor trains with a CTRL flit, nothing is taken. -/
theorem rxFlit_closed (hdown : ¬e.carries p) (hnot : ¬(fieldAt f 0 1 = 2 ∧ e.trains p)) : e.rxFlit p f bad body = e := by
  refine if_pos ?_
  simpa [Eng.carries, Eng.trains, ftCtrl, and_assoc, or_assoc, imp_iff_not_or] using And.intro hdown hnot

/-- A CTRL flit at a port in training is checked, and its messages are taken. -/
theorem rxFlit_training (hdown : ¬e.carries p) (hctrl : fieldAt f 0 1 = 2) (htrain : e.trains p) :
    e.rxFlit p f bad body = if bad then e.bump (Reg.GP_FLIT_ERR_FEC_BAD p)
      else if flitOk f = false then e.bump (Reg.GP_FLIT_ERR_CRC p) else e.ctrlBody p f := by
  obtain ⟨hlow, hhigh⟩ := htrain
  simp only [Eng.carries, not_or] at hdown
  simp [Eng.rxFlit, hdown, hctrl, hlow, hhigh, ftCtrl]

/-- At a port that carries traffic a flit is checked, and then goes by its type and sequence. -/
theorem rxFlit_carrying (hup : e.carries p) :
    e.rxFlit p f bad body = if bad then (e.bump (Reg.GP_FLIT_ERR_FEC_BAD p)).askRetry p
      else if flitOk f = false then (e.bump (Reg.GP_FLIT_ERR_CRC p)).askRetry p
      else if fieldAt f 0 1 = 2 then e.ctrlBody p f
      else if fieldAt f 0 1 = 0 then e
      else if fieldAt f 2 2 ≠ (e.port p).rxFseq then e.askRetry p else body (e.wakeClocks.takeFlit p) := by
  have hb : (e.portState p == psUp || e.portState p == psLow || e.portState p == psWake) = true := by
    simpa [Eng.carries, or_assoc] using hup
  simp [Eng.rxFlit, hb, ftCtrl, ftIdle]

end

/-- A flit whose effect does not depend on its body has it for both rows that bring flits. -/
theorem exec_flits {s : State} {p : Fin 4} {f : List Byte} {bad : Bool} {t : Eng}
    (h : ∀ body, (quiet s).rxFlit p f bad body = t) :
    exec (.dataFlit p f bad) s = .next (leaving s t) ∧ exec (.abortFlit p f bad) s = .next (leaving s t) :=
  ⟨next_leaving (h _), next_leaving (h _)⟩

/-- The engine with the clocks running, after the sequenced flit that it expects: the next FSEQ is expected, and one more flit is
unacknowledged, or the 64 are acknowledged (R292, R438). -/
def flitTaken (s : State) (p : Nat) : Eng :=
  let q := (quiet s).port p
  let next := (awake s).setPort p { q with rxFseq := (q.rxFseq + 1) % 4096, unacked := q.unacked + 1, retrying := false }
  if 64 ≤ (next.port p).unacked then next.sendAck p else next

theorem takeFlit_wakeClocks (s : State) (p : Nat) : (quiet s).wakeClocks.takeFlit p = flitTaken s p := by
  have hport : (awake s).port p = (quiet s).port p := by unfold awake; split <;> rfl
  rw [flitTaken, ← hport]
  rfl

section
variable {s : State} {p : Fin 4} {f : List Byte} (hup : (quiet s).carries p) (hok : flitOk f = true)
  (hnext : fieldAt f 2 2 = ((quiet s).port p).rxFseq)
include hup hok hnext

/-- A sequenced flit that is sound and expected. -/
theorem rxFlit_expected (hidle : fieldAt f 0 1 ≠ 0) (hctrl : fieldAt f 0 1 ≠ 2) (body : Eng → Eng) :
    (quiet s).rxFlit p f false body = body (flitTaken s p) := by
  simp [rxFlit_carrying hup, hok, hnext, hidle, hctrl, takeFlit_wakeClocks]

theorem exec_dataFlit_expected (hdata : fieldAt f 0 1 = 1) :
    exec (.dataFlit p f false) s = .next (leaving s ((flitTaken s p).dataBody p f)) :=
  next_leaving ((rxFlit_expected hup hok hnext (by simp [hdata]) (by simp [hdata]) _).trans (if_pos (beq_iff_eq.2 hdata)))

theorem exec_abortFlit_expected (habort : fieldAt f 0 1 = 3) :
    exec (.abortFlit p f false) s =
      .next (leaving s ((flitTaken s p).streamAbort p (fieldAt f 1 1 % 4) (fieldAt f 1 1 / 4))) :=
  next_leaving ((rxFlit_expected hup hok hnext (by simp [habort]) (by simp [habort]) _).trans (if_pos (beq_iff_eq.2 habort)))

end

/-- An ABORT finds no packet in progress. -/
theorem streamAbort_none {e : Eng} {p vc cls : Nat} (h : e.stream p vc cls = none) : e.streamAbort p vc cls = e := by
  rw [Eng.streamAbort, h]

/-- A stream's relayed packet that stalls is dropped here, and ended on its way on; nothing else stalls. -/
theorem exec_relayStall (s : State) (p v : Fin 4) (c : Fin 17) :
    ((quiet s).stream p v c = none → exec (.relayStall p v c) s = .next (leaving s (quiet s))) ∧
    ∀ r, (quiet s).stream p v c = some r → exec (.relayStall p v c) s = .next (leaving s (if r.relayed then
      ((quiet s).setStream p v c (some { r with relayed := false, drop := true })).abortArriving (p.val, v.val, c.val)
      else quiet s)) := by
  simp +contextual [exec, execRelayStall]

/-- Settles O53: by the port's state first, then by the flit's checks, its type and its sequence. -/
theorem flitsAreTakenInOrder : Obligations.FlitsAreTakenInOrder := by
  unfold Obligations.FlitsAreTakenInOrder
  intro s p f bad
  have stall v c := exec_relayStall s p v c
  refine ⟨fun hdown hnot => exec_flits fun _ => rxFlit_closed hdown hnot, fun hdown hctrl htrain => ?training,
    fun hup => ?carrying, fun v c => (stall v c).1, fun v c r hr => ⟨fun hown => ?own, fun hrelayed => ?relayed⟩⟩
  case training =>
    have training := fun body => rxFlit_training (f := f) (bad := bad) (body := body) hdown hctrl htrain
    refine ⟨fun hbad => exec_flits fun body => (training body).trans ?_, fun hbad hcrc => exec_flits fun body =>
      (training body).trans ?_, fun hbad hok => exec_flits fun body => (training body).trans ?_⟩
    · simp [hbad]
    · simp [hbad, hcrc]
    · simp [hbad, hok]
  case carrying =>
    have carrying := fun body => rxFlit_carrying (f := f) (bad := bad) (body := body) hup
    refine ⟨fun hbad => exec_flits fun body => (carrying body).trans ?_, fun hbad hcrc => exec_flits fun body =>
      (carrying body).trans ?_, fun hbad hok hidle => exec_flits fun body => (carrying body).trans ?_,
      fun hbad hok hctrl => exec_flits fun body => (carrying body).trans ?_, fun hbad hok hidle hctrl hother =>
      exec_flits fun body => (carrying body).trans ?_, fun hbad hok hnext => ?expected⟩
    · simp [hbad]
    · simp [hbad, hcrc]
    · simp [hbad, hok, hidle]
    · simp [hbad, hok, hctrl]
    · simp [hbad, hok, hidle, hctrl, hother]
    case expected =>
      subst hbad
      exact ⟨exec_dataFlit_expected hup hok hnext, exec_abortFlit_expected hup hok hnext, fun habort hnone =>
        (exec_abortFlit_expected hup hok hnext habort).trans (next_leaving (streamAbort_none hnone))⟩
  case own => simpa [hown] using (stall v c).2 r hr
  case relayed => simpa [hrelayed] using (stall v c).2 r hr

end Sys2Proof.Machine
end

section
/-!
PROOF. The field of R45: its product distributes, commutes and associates, and has inverses and logarithms.
-/
namespace Sys2Proof.Machine

/-! ### Doubling -/

theorem gfDouble_lt : ∀ a < 256, gfDouble a < 256 := by decide +kernel

theorem gfDouble_eq : ∀ a < 256, gfDouble a = 2 * a ^^^ a / 128 * 0x11D := by decide +kernel

theorem gfDouble_xor {a b : Nat} (ha : a < 256) (hb : b < 256) : gfDouble (a ^^^ b) = gfDouble a ^^^ gfDouble b := by
  have htwice : 2 * (a ^^^ b) = 2 * a ^^^ 2 * b := by
    simpa [Nat.shiftLeft_eq, Nat.mul_comm] using Nat.shiftLeft_xor_distrib (i := 1) (a := a) (b := b)
  have hcarry : (a ^^^ b) / 128 * 0x11D = a / 128 * 0x11D ^^^ b / 128 * 0x11D := by
    have hbits : ∀ c < 2, ∀ d < 2, (c ^^^ d) * 0x11D = c * 0x11D ^^^ d * 0x11D := by decide
    rw [Nat.xor_div_two_pow (n := 7)]
    exact hbits _ (by omega) _ (by omega)
  rw [gfDouble_eq _ (Nat.xor_lt_two_pow (n := 8) ha hb), gfDouble_eq a ha, gfDouble_eq b hb, htwice, hcarry]
  ac_rfl

/-! ### Products of bytes -/

theorem gfMulAux_lt (n : Nat) {a : Nat} (ha : a < 256) (b : Nat) : gfMulAux n a b < 256 := by
  induction n generalizing a b with
  | zero => exact Nat.zero_lt_succ _
  | succ n ih =>
    refine Nat.xor_lt_two_pow (n := 8) ?_ (ih (gfDouble_lt a ha) _)
    split <;> omega

@[simp] theorem gfMulAux_zero_left (n b : Nat) : gfMulAux n 0 b = 0 := by
  induction n generalizing b with
  | zero => rfl
  | succ n ih =>
    have hdouble : gfDouble 0 = 0 := rfl
    simp [gfMulAux, hdouble, ih]

theorem gfMulAux_xor_left (n : Nat) {a b : Nat} (ha : a < 256) (hb : b < 256) (c : Nat) :
    gfMulAux n (a ^^^ b) c = gfMulAux n a c ^^^ gfMulAux n b c := by
  induction n generalizing a b c with
  | zero => simp [gfMulAux]
  | succ n ih =>
    have hbit : (if c % 2 = 1 then a ^^^ b else 0) = (if c % 2 = 1 then a else 0) ^^^ (if c % 2 = 1 then b else 0) := by
      split <;> simp
    simp only [gfMulAux, hbit, gfDouble_xor ha hb, ih (gfDouble_lt a ha) (gfDouble_lt b hb)]
    ac_rfl

/-- Doubling a factor doubles the product. -/
theorem gfMulAux_gfDouble (n : Nat) {a : Nat} (ha : a < 256) (b : Nat) :
    gfMulAux n (gfDouble a) b = gfDouble (gfMulAux n a b) := by
  induction n generalizing a b with
  | zero => rfl
  | succ n ih =>
    have hbit : (if b % 2 = 1 then gfDouble a else 0) = gfDouble (if b % 2 = 1 then a else 0) := by split <;> rfl
    have hlt : (if b % 2 = 1 then a else 0) < 256 := by split <;> omega
    have hdouble := gfDouble_lt a ha
    rw [gfMulAux, gfMulAux, hbit, ih hdouble, gfDouble_xor hlt (gfMulAux_lt n hdouble _)]

/-- Two factors may be multiplied in in either order: each doubling of the one passes through the product with the other. -/
theorem gfMulAux_right_comm (m n : Nat) {a : Nat} (ha : a < 256) (b c : Nat) :
    gfMulAux n (gfMulAux m a b) c = gfMulAux m (gfMulAux n a c) b := by
  induction n generalizing a c with
  | zero => exact (gfMulAux_zero_left m b).symm
  | succ n ih =>
    have hdouble := gfDouble_lt a ha
    have hrest := gfMulAux_lt n hdouble (c / 2)
    have hlt : (if c % 2 = 1 then a else 0) < 256 := by split <;> omega
    rw [gfMulAux, gfMulAux, ← gfMulAux_gfDouble m ha, ih hdouble, gfMulAux_xor_left m hlt hrest]
    split <;> simp

/-! ### The product -/

theorem gfMul_lt (a b : Nat) : gfMul a b < 256 := gfMulAux_lt 8 (Nat.mod_lt _ (by decide)) _

theorem gfMul_mod (a b : Nat) : gfMul (a % 256) (b % 256) = gfMul a b := by simp only [gfMul, Nat.mod_mod]

theorem gfMul_right_comm (a b c : Nat) : gfMul (gfMul a b) c = gfMul (gfMul a c) b := by
  have hmod (x y : Nat) : gfMul x y % 256 = gfMul x y := Nat.mod_eq_of_lt (gfMul_lt x y)
  rw [gfMul, hmod, gfMul.eq_def (gfMul a c), hmod]
  exact gfMulAux_right_comm 8 8 (Nat.mod_lt _ (by decide)) _ _

theorem one_gfMul : ∀ a < 256, gfMul 1 a = a := by decide +kernel

theorem gfMul_comm (a b : Nat) : gfMul a b = gfMul b a := by
  have h := gfMul_right_comm 1 (a % 256) (b % 256)
  rwa [one_gfMul _ (Nat.mod_lt _ (by decide)), one_gfMul _ (Nat.mod_lt _ (by decide)), gfMul_mod, gfMul_mod] at h

theorem gfMul_assoc (a b c : Nat) : gfMul (gfMul a b) c = gfMul a (gfMul b c) := by
  rw [gfMul_comm a b, gfMul_right_comm, gfMul_comm]

theorem gfMul_xor_left (a b c : Nat) : gfMul (a ^^^ b) c = gfMul a c ^^^ gfMul b c := by
  rw [gfMul_comm, gfMul_xor, gfMul_comm c a, gfMul_comm c b]

theorem gfMul_one {a : Nat} (ha : a < 256) : gfMul a 1 = a := (gfMul_comm a 1).trans (one_gfMul a ha)

@[simp] theorem gfMul_zero_left (a : Nat) : gfMul 0 a = 0 := gfMulAux_zero_left 8 _

/-! ### Inverses and logarithms -/

theorem gfMul_gfInv : ∀ a < 256, a ≠ 0 → gfMul a (gfInv a) = 1 := by decide +kernel

/-- A product, divided by one of its factors, is the other. -/
theorem gfMul_gfMul_gfInv {a b : Nat} (ha : a < 256) (hb : b < 256) (hne : b ≠ 0) : gfMul (gfMul a b) (gfInv b) = a := by
  rw [gfMul_assoc, gfMul_gfInv b hb hne, gfMul_one ha]

theorem gfPow_lt (n : Nat) : gfPow 2 n < 256 := by
  cases n with
  | zero => exact Nat.one_lt_succ_succ _
  | succ n => exact gfMul_lt _ _

/-- The exponents of a codeword are the logarithms of their powers (R323, R324). -/
theorem gfLog_gfPow : ∀ j < 130, gfLog (gfPow 2 j) = j := by decide +kernel

end Sys2Proof.Machine
end

section
/-!
PROOF. The heartwood code (R323 to R325): its syndromes, its check bytes and its two ways to mend a sector.
-/
namespace Sys2Proof.Machine

/-! ### Syndromes -/

/-- The sum of a function of the symbols of a codeword and their exponents, from an exponent on. -/
def symbolSum (f : Nat → Nat → Nat) : Nat → List Nat → Nat
  | _, [] => 0
  | k, x :: xs => f x k ^^^ symbolSum f (k + 1) xs

theorem foldl_zipIdx_eq_symbolSum (f : Nat → Nat → Nat) (xs : List Nat) (k s : Nat) :
    (xs.zipIdx k).foldl (fun s e => s ^^^ f e.1 e.2) s = s ^^^ symbolSum f k xs := by
  induction xs generalizing k s with
  | nil => simp [symbolSum]
  | cons x xs ih => rw [List.zipIdx_cons, List.foldl_cons, ih, symbolSum, Nat.xor_assoc]

/-- One symbol changed changes the sum by what the change itself amounts to. -/
theorem symbolSum_set {f : Nat → Nat → Nat} (hf : ∀ x y j, f (x ^^^ y) j = f x j ^^^ f y j) {xs : List Nat} {j : Nat}
    (hj : j < xs.length) (k y : Nat) :
    symbolSum f k (xs.set j y) = symbolSum f k xs ^^^ f (xs.getD j 0 ^^^ y) (k + j) := by
  induction xs generalizing j k with
  | nil => simp at hj
  | cons x xs ih =>
    cases j with
    | zero =>
      simp only [List.set_cons_zero, symbolSum, List.getD_cons_zero, Nat.add_zero, hf]
      rw [Nat.xor_right_comm, ← Nat.xor_assoc, Nat.xor_self, Nat.zero_xor]
    | succ j =>
      rw [List.set_cons_succ, symbolSum, symbolSum, ih (by simpa using hj), List.getD_cons_succ, Nat.xor_assoc]
      congr 3
      omega

/-- The syndromes of a single symbol at an exponent. -/
def symbolSyndromes (j v : Nat) : Nat × Nat := (v, gfMul v (gfPow 2 j))

/-- Sums of syndromes, S0 and S1 each for itself. -/
def addSyndromes (s t : Nat × Nat) : Nat × Nat := (s.1 ^^^ t.1, s.2 ^^^ t.2)

theorem syndromes_eq (cw : List Nat) :
    syndromes cw = (symbolSum (fun v _ => v) 0 cw, symbolSum (fun v j => gfMul v (gfPow 2 j)) 0 cw) := by
  have hzeroth := foldl_zipIdx_eq_symbolSum (fun v _ => v) cw 0 0
  have hfirst := foldl_zipIdx_eq_symbolSum (fun v j => gfMul v (gfPow 2 j)) cw 0 0
  rw [Nat.zero_xor] at hzeroth hfirst
  rw [syndromes, hfirst, ← hzeroth, ← List.foldl_map (f := Prod.fst), List.zipIdx_map_fst]

/-- The code is linear: a changed symbol changes the syndromes by those of its change (R324). -/
theorem syndromes_set {cw : List Nat} {j : Nat} (hj : j < cw.length) (v : Nat) :
    syndromes (cw.set j v) = addSyndromes (syndromes cw) (symbolSyndromes j (cw.getD j 0 ^^^ v)) := by
  rw [syndromes_eq, syndromes_eq, symbolSum_set (fun _ _ _ => rfl) hj,
    symbolSum_set (fun x y j => gfMul_xor_left x y (gfPow 2 j)) hj, Nat.zero_add]
  rfl

/-! ### The symbols of a sector and its heartwood line -/

/-- The symbol of codeword i at exponent j: a check byte at 0 and 1, data byte n at n + 2 (R323). -/
def symbolAt (p : List Byte × List Byte) (i j : Nat) : Byte :=
  if j < 2 then p.2.getD (2 * i + j) 0 else p.1.getD (32 * (j - 2) + i) 0

theorem codeword_eq (p : List Byte × List Byte) (i : Nat) :
    codeword p.1 p.2 i = (List.range 130).map fun j => (symbolAt p i j).toNat := by
  have hsplit : List.range 130 = [0, 1] ++ (List.range 128).map (2 + ·) := List.range_add (n := 2) (m := 128)
  rw [codeword, hsplit, List.map_append, List.map_map]
  refine congrArg _ (List.map_congr_left fun n _ => ?_)
  rw [Function.comp_apply, symbolAt, if_neg (by omega), Nat.add_sub_cancel_left]

@[simp] theorem codeword_length (s c : List Byte) (i : Nat) : (codeword s c i).length = 130 := by
  simp [codeword_eq (s, c)]

theorem getD_codeword (p : List Byte × List Byte) (i : Nat) {j : Nat} (hj : j < 130) :
    (codeword p.1 p.2 i).getD j 0 = (symbolAt p i j).toNat := by
  simp [codeword_eq, List.getD_eq_getElem?_getD, hj]

/-- A string with a byte added at an offset. -/
def addAt (bs : List Byte) (o : Nat) (v : Byte) : List Byte := bs.set o (bs.getD o 0 ^^^ v)

@[simp] theorem addAt_length (bs : List Byte) (o : Nat) (v : Byte) : (addAt bs o v).length = bs.length := List.length_set

theorem getD_addAt {bs : List Byte} {o : Nat} (ho : o < bs.length) (v : Byte) (k : Nat) :
    (addAt bs o v).getD k 0 = if k = o then bs.getD k 0 ^^^ v else bs.getD k 0 := by
  split
  case isTrue h => subst h; simp [addAt, List.getD_eq_getElem?_getD, ho]
  case isFalse h => simp [addAt, List.getD_eq_getElem?_getD, List.getElem?_set_ne (Ne.symm h)]

/-- The lengths of a sector and its heartwood line. -/
def IsSector (p : List Byte × List Byte) : Prop := p.1.length = 4096 ∧ p.2.length = 64

theorem fixSymbol_check (p : List Byte × List Byte) (i v : Nat) {j : Nat} (hj : j < 2) :
    fixSymbol p i j v = (p.1, addAt p.2 (2 * i + j) (byteOf v)) := by
  simp [fixSymbol, addAt, hj]

theorem fixSymbol_data (p : List Byte × List Byte) (i n v : Nat) :
    fixSymbol p i (n + 2) v = (addAt p.1 (32 * n + i) (byteOf v), p.2) := by
  simp [fixSymbol, addAt]

/-- A byte of a sector is a symbol of a codeword. -/
theorem addAt_eq_fixSymbol (p : List Byte × List Byte) (o : Nat) (v : Byte) :
    (addAt p.1 o v, p.2) = fixSymbol p (o % 32) (o / 32 + 2) v.toNat := by
  have hbyte : byteOf v.toNat = v := BitVec.eq_of_toNat_eq (Nat.mod_eq_of_lt v.isLt)
  have hplace : 32 * (o / 32) + o % 32 = o := Nat.div_add_mod o 32
  rw [fixSymbol_data, hbyte, hplace]

theorem IsSector.fixSymbol {p : List Byte × List Byte} (h : IsSector p) (i j v : Nat) : IsSector (fixSymbol p i j v) := by
  obtain ⟨hdata, hcheck⟩ := h
  rcases Nat.lt_or_ge j 2 with hj | hj
  · rw [fixSymbol_check p i v hj]
    exact ⟨hdata, (addAt_length _ _ _).trans hcheck⟩
  · obtain ⟨n, rfl⟩ := Nat.exists_eq_add_of_le' hj
    rw [fixSymbol_data]
    exact ⟨(addAt_length _ _ _).trans hdata, hcheck⟩

/-- No two symbols of the codewords share a byte. -/
theorem symbolAt_fixSymbol {p : List Byte × List Byte} (h : IsSector p) {i j : Nat} (hi : i < 32) (hj : j < 130) (v : Nat)
    {i' : Nat} (hi' : i' < 32) (j' : Nat) :
    symbolAt (fixSymbol p i j v) i' j' = if i' = i ∧ j' = j then symbolAt p i' j' ^^^ byteOf v else symbolAt p i' j' := by
  obtain ⟨hdata, hcheck⟩ := h
  rcases Nat.lt_or_ge j 2 with hlow | hhigh
  · rw [fixSymbol_check p i v hlow]
    by_cases hj' : j' < 2
    · simp only [symbolAt, if_pos hj', getD_addAt (show 2 * i + j < p.2.length by omega)]
      exact if_congr (by omega) rfl rfl
    · simp only [symbolAt, if_neg hj']
      rw [if_neg (by omega)]
  · obtain ⟨n, rfl⟩ := Nat.exists_eq_add_of_le' hhigh
    rw [fixSymbol_data]
    by_cases hj' : j' < 2
    · simp only [symbolAt, if_pos hj']
      rw [if_neg (by omega)]
    · simp only [symbolAt, if_neg hj', getD_addAt (show 32 * n + i < p.1.length by omega)]
      exact if_congr (by omega) rfl rfl

theorem codeword_fixSymbol {p : List Byte × List Byte} (h : IsSector p) {i j : Nat} (hi : i < 32) (hj : j < 130) (v : Nat) :
    codeword (fixSymbol p i j v).1 (fixSymbol p i j v).2 i =
      (codeword p.1 p.2 i).set j (symbolAt p i j ^^^ byteOf v).toNat := by
  refine List.ext_getElem (by simp) fun k hk _ => ?_
  simp only [codeword_eq, List.getElem_set, List.getElem_map, List.getElem_range, symbolAt_fixSymbol h hi hj v hi]
  by_cases hjk : k = j
  · simp [hjk]
  · simp [hjk, Ne.symm hjk]

theorem codeword_fixSymbol_ne {p : List Byte × List Byte} (h : IsSector p) {i j : Nat} (hi : i < 32) (hj : j < 130) (v : Nat)
    {i' : Nat} (hi' : i' < 32) (hne : i' ≠ i) :
    codeword (fixSymbol p i j v).1 (fixSymbol p i j v).2 i' = codeword p.1 p.2 i' := by
  simp only [codeword_eq, symbolAt_fixSymbol h hi hj v hi', hne, false_and, if_false]

/-- The syndromes of codeword i of a sector and its heartwood line. -/
def syndromesAt (p : List Byte × List Byte) (i : Nat) : Nat × Nat := syndromes (codeword p.1 p.2 i)

theorem syndromesAt_fixSymbol {p : List Byte × List Byte} (h : IsSector p) {i j : Nat} (hi : i < 32) (hj : j < 130)
    {v : Nat} (hv : v < 256) :
    syndromesAt (fixSymbol p i j v) i = addSyndromes (syndromesAt p i) (symbolSyndromes j v) := by
  have hchange : (symbolAt p i j).toNat ^^^ (symbolAt p i j ^^^ byteOf v).toNat = v := by
    rw [BitVec.toNat_xor, ← Nat.xor_assoc, Nat.xor_self, Nat.zero_xor]
    exact Nat.mod_eq_of_lt hv
  rw [syndromesAt, codeword_fixSymbol h hi hj, syndromes_set (by simpa using hj), getD_codeword p i hj, hchange, syndromesAt]

theorem syndromesAt_fixSymbol_ne {p : List Byte × List Byte} (h : IsSector p) {i j : Nat} (hi : i < 32) (hj : j < 130) (v : Nat)
    {i' : Nat} (hi' : i' < 32) (hne : i' ≠ i) : syndromesAt (fixSymbol p i j v) i' = syndromesAt p i' := by
  rw [syndromesAt, codeword_fixSymbol_ne h hi hj v hi' hne, syndromesAt]

/-! ### The check bytes of one byte -/

/-- What a data byte of a codeword adds to the second check byte (R325). -/
def checkTerm (n d : Nat) : Nat := gfMul (gfMul d (1 ^^^ gfPow 2 (n + 2))) 0xF4

theorem heartDelta_eq (o : Nat) (d : Byte) :
    heartDelta o d = (byteOf (d.toNat ^^^ checkTerm (o / 32) d.toNat), byteOf (checkTerm (o / 32) d.toNat)) := rfl

theorem checkTerm_lt (n d : Nat) : checkTerm n d < 256 := gfMul_lt _ _

theorem checkTerm_xor (n a b : Nat) : checkTerm n (a ^^^ b) = checkTerm n a ^^^ checkTerm n b := by
  simp only [checkTerm, gfMul_xor_left]

/-- 0xF4 is the inverse of 1 ⊕ α. -/
theorem checkTerm_sum (n : Nat) {d : Nat} (hd : d < 256) :
    gfMul (checkTerm n d) 1 ^^^ gfMul (checkTerm n d) 2 = d ^^^ gfMul d (gfPow 2 (n + 2)) := by
  have hinverse : gfMul 0xF4 3 = 1 := by decide
  calc gfMul (checkTerm n d) 1 ^^^ gfMul (checkTerm n d) 2
    _ = gfMul (checkTerm n d) 3 := (gfMul_xor _ 1 2).symm
    _ = gfMul d (1 ^^^ gfPow 2 (n + 2)) := by rw [checkTerm, gfMul_assoc, hinverse, gfMul_one (gfMul_lt _ _)]
    _ = d ^^^ gfMul d (gfPow 2 (n + 2)) := by rw [gfMul_xor, gfMul_one hd]

/-- A data byte and the check bytes that go with it have no syndromes together. -/
theorem checkTerm_syndromes (n : Nat) {d : Nat} (hd : d < 256) :
    addSyndromes (addSyndromes (symbolSyndromes (n + 2) d) (symbolSyndromes 0 (d ^^^ checkTerm n d)))
      (symbolSyndromes 1 (checkTerm n d)) = (0, 0) := by
  have hpowers : gfPow 2 0 = 1 ∧ gfPow 2 1 = 2 := by decide
  refine Prod.ext ?_ ?_
  · show d ^^^ (d ^^^ checkTerm n d) ^^^ checkTerm n d = 0
    rw [← Nat.xor_assoc d, Nat.xor_self, Nat.zero_xor, Nat.xor_self]
  · show gfMul d (gfPow 2 (n + 2)) ^^^ gfMul (d ^^^ checkTerm n d) (gfPow 2 0) ^^^ gfMul (checkTerm n d) (gfPow 2 1) = 0
    rw [hpowers.1, hpowers.2, gfMul_xor_left, gfMul_one hd, Nat.xor_assoc, Nat.xor_assoc d, checkTerm_sum n hd, ← Nat.xor_assoc d,
      Nat.xor_self, Nat.zero_xor, Nat.xor_self]

/-! ### The check bytes of a string of bytes -/

/-- Check bytes with the change that one data byte makes (R325). -/
def heartAdd (h : List Byte) (o : Nat) (d : Byte) : List Byte :=
  addAt (addAt h (2 * (o % 32)) (heartDelta o d).1) (2 * (o % 32) + 1) (heartDelta o d).2

/-- Check bytes with the changes that a string from an offset on makes, byte after byte. -/
def heartFrom (h : List Byte) : Nat → List Byte → List Byte
  | _, [] => h
  | o, d :: ds => heartFrom (heartAdd h o d) (o + 1) ds

theorem addAt_zero (bs : List Byte) (o : Nat) : addAt bs o 0 = bs := by
  rw [addAt, BitVec.ofNat_eq_ofNat, BitVec.xor_zero]
  refine List.ext_getElem List.length_set fun k _ hk => ?_
  rw [List.getElem_set]
  split
  case isTrue h => subst h; simp [List.getD_eq_getElem?_getD, hk]
  case isFalse => rfl

@[simp] theorem heartDelta_zero (o : Nat) : heartDelta o 0 = (0, 0) := by
  simp [heartDelta, byteOf]

@[simp] theorem heartAdd_zero (h : List Byte) (o : Nat) : heartAdd h o 0 = h := by
  simp only [heartAdd, heartDelta_zero, addAt_zero]

@[simp] theorem heartAdd_length (h : List Byte) (o : Nat) (d : Byte) : (heartAdd h o d).length = h.length := by
  simp [heartAdd]

theorem heartAdd_eq_set (h : List Byte) (o : Nat) (d : Byte) :
    heartAdd h o d = if d = 0 then h else
      (h.set (2 * (o % 32)) (h.getD (2 * (o % 32)) 0 ^^^ (heartDelta o d).1)).set (2 * (o % 32) + 1)
        (h.getD (2 * (o % 32) + 1) 0 ^^^ (heartDelta o d).2) := by
  split
  case isTrue hd => rw [hd, heartAdd_zero]
  case isFalse => simp [heartAdd, addAt, List.getD_eq_getElem?_getD]

theorem foldl_zipIdx_heartAdd (o k : Nat) (ds h : List Byte) :
    (ds.zipIdx k).foldl (fun h de => heartAdd h (o + de.2) de.1) h = heartFrom h (o + k) ds := by
  induction ds generalizing k h with
  | nil => rfl
  | cons d ds ih => exact ih (k + 1) _

theorem heartChange_eq (o : Nat) (ds : List Byte) : heartChange o ds = heartFrom (zeros 64) o ds := by
  rw [← Nat.add_zero o, ← foldl_zipIdx_heartAdd]
  simp only [heartAdd_eq_set]
  rfl

theorem heartwood_eq (s : List Byte) : heartwood s = heartFrom (zeros 64) 0 s := heartChange_eq 0 s

theorem heartFrom_append (h : List Byte) (o : Nat) (a b : List Byte) :
    heartFrom h o (a ++ b) = heartFrom (heartFrom h o a) (o + a.length) b := by
  induction a generalizing h o with
  | nil => rfl
  | cons x xs ih =>
    rw [List.cons_append, heartFrom, ih, List.length_cons, heartFrom, Nat.add_assoc, Nat.add_comm 1]

@[simp] theorem heartFrom_zeros (h : List Byte) (o n : Nat) : heartFrom h o (zeros n) = h := by
  induction n generalizing o with
  | zero => rfl
  | succ n ih =>
    rw [zeros, List.replicate_succ, heartFrom, heartAdd_zero]
    exact ih (o + 1)

@[simp] theorem heartFrom_length (h : List Byte) (o : Nat) (ds : List Byte) : (heartFrom h o ds).length = h.length := by
  induction ds generalizing h o with
  | nil => rfl
  | cons d ds ih => exact (ih _ _).trans (heartAdd_length _ _ _)

@[simp] theorem zeros_length (n : Nat) : (zeros n).length = n := List.length_replicate

/-! ### They are linear -/

theorem addAt_xorBytes (g h : List Byte) (k : Nat) (x y : Byte) :
    addAt (xorBytes g h) k (x ^^^ y) = xorBytes (addAt g k x) (addAt h k y) := by
  induction g generalizing h k with
  | nil => simp [addAt, xorBytes]
  | cons a g ih =>
    cases h with
    | nil => simp [addAt, xorBytes]
    | cons b h =>
      cases k with
      | zero =>
        have hbyte : (a ^^^ b) ^^^ (x ^^^ y) = (a ^^^ x) ^^^ (b ^^^ y) := by ac_rfl
        simp [addAt, xorBytes, hbyte]
      | succ k => exact congrArg (List.cons (a ^^^ b)) (ih h k)

theorem heartDelta_xor (o : Nat) (a b : Byte) :
    heartDelta o (a ^^^ b) = ((heartDelta o a).1 ^^^ (heartDelta o b).1, (heartDelta o a).2 ^^^ (heartDelta o b).2) := by
  simp only [heartDelta_eq, byteOf, BitVec.toNat_xor, checkTerm_xor, ← BitVec.ofNat_xor]
  refine Prod.ext (congrArg byteOf ?_) rfl
  ac_rfl

theorem heartAdd_xorBytes (g h : List Byte) (o : Nat) (a b : Byte) :
    heartAdd (xorBytes g h) o (a ^^^ b) = xorBytes (heartAdd g o a) (heartAdd h o b) := by
  simp only [heartAdd, heartDelta_xor, addAt_xorBytes]

theorem heartFrom_xorBytes (g h : List Byte) (o : Nat) {a b : List Byte} (hlen : a.length = b.length) :
    heartFrom (xorBytes g h) o (xorBytes a b) = xorBytes (heartFrom g o a) (heartFrom h o b) := by
  induction a generalizing g h o b with
  | nil =>
    obtain rfl : b = [] := List.length_eq_zero_iff.1 hlen.symm
    rfl
  | cons x xs ih =>
    cases b with
    | nil => simp at hlen
    | cons y ys =>
      rw [heartFrom, heartFrom, ← ih _ _ _ (by simpa using hlen), ← heartAdd_xorBytes]
      rfl

theorem xorBytes_zeros {a : List Byte} {n : Nat} (h : a.length = n) : xorBytes a (zeros n) = a := by
  subst h
  induction a with
  | nil => rfl
  | cons x xs ih => exact congrArg₂ List.cons BitVec.xor_zero ih

/-- A string with other bytes in place of some of its own is the string and a change of those bytes alone. -/
theorem overlay_eq_xorBytes {s line : List Byte} {o : Nat} (h : o + line.length ≤ s.length) :
    overlay s o line = xorBytes s
      (zeros o ++ xorBytes ((s.drop o).take line.length) line ++ zeros (s.length - (o + line.length))) := by
  have hbefore : (s.take o).length = o := by simp; omega
  have hthere : ((s.drop o).take line.length).length = line.length := by simp; omega
  have hbehind : (s.drop (o + line.length)).length = s.length - (o + line.length) := List.length_drop
  have hs : s = s.take o ++ (s.drop o).take line.length ++ s.drop (o + line.length) := by
    rw [List.append_assoc, ← List.drop_drop, List.take_append_drop, List.take_append_drop]
  conv_rhs => enter [1]; rw [hs]
  rw [xorBytes, List.zipWith_append (by simp; omega), List.zipWith_append (by simpa using hbefore)]
  exact congrArg₂ _ (congrArg₂ _ (xorBytes_zeros hbefore).symm (xorBytes_change hthere.ge).symm) (xorBytes_zeros hbehind).symm

/-- The check bytes follow a change of some bytes by the change's own check bytes (R325). -/
theorem heartwood_overlay {s line : List Byte} {o : Nat} (h : o + line.length ≤ s.length) :
    heartwood (overlay s o line) =
      xorBytes (heartwood s) (heartChange o (xorBytes ((s.drop o).take line.length) line)) := by
  have hzeros : zeros 64 = xorBytes (zeros 64) (zeros 64) := (xorBytes_zeros (zeros_length 64)).symm
  rw [overlay_eq_xorBytes h, heartwood_eq, hzeros, heartFrom_xorBytes, ← heartwood_eq, heartFrom_append, heartFrom_zeros,
    heartFrom_append, heartFrom_zeros, heartChange_eq, zeros_length, Nat.zero_add]
  simp
  omega

/-! ### The syndromes of a sector with its check bytes -/

theorem addSyndromes_assoc (s t u : Nat × Nat) : addSyndromes (addSyndromes s t) u = addSyndromes s (addSyndromes t u) :=
  Prod.ext (Nat.xor_assoc _ _ _) (Nat.xor_assoc _ _ _)

@[simp] theorem addSyndromes_zero (s : Nat × Nat) : addSyndromes s (0, 0) = s := Prod.ext (Nat.xor_zero _) (Nat.xor_zero _)

/-- A sector and its heartwood line with a byte added at an offset: its own symbol and its codeword's two check bytes change. -/
def takeByte (p : List Byte × List Byte) (o : Nat) (d : Byte) : List Byte × List Byte :=
  fixSymbol (fixSymbol (fixSymbol p (o % 32) (o / 32 + 2) d.toNat) (o % 32) 0 (d.toNat ^^^ checkTerm (o / 32) d.toNat))
    (o % 32) 1 (checkTerm (o / 32) d.toNat)

theorem takeByte_eq (p : List Byte × List Byte) (o : Nat) (d : Byte) : takeByte p o d = (addAt p.1 o d, heartAdd p.2 o d) := by
  rw [takeByte, ← addAt_eq_fixSymbol, fixSymbol_check _ _ _ Nat.zero_lt_two, fixSymbol_check _ _ _ Nat.one_lt_two]
  rfl

/-- A byte changed together with its check bytes leaves every codeword's syndromes as they are. -/
theorem syndromesAt_takeByte {p : List Byte × List Byte} (h : IsSector p) {o : Nat} (ho : o < 4096) (d : Byte) {i : Nat}
    (hi : i < 32) : syndromesAt (takeByte p o d) i = syndromesAt p i := by
  have hdata := h.fixSymbol (o % 32) (o / 32 + 2) d.toNat
  have hcheck := hdata.fixSymbol (o % 32) 0 (d.toNat ^^^ checkTerm (o / 32) d.toNat)
  have hj : o / 32 + 2 < 130 := by omega
  rw [takeByte]
  by_cases hsame : i = o % 32
  · have hterm := checkTerm_lt (o / 32) d.toNat
    subst hsame
    rw [syndromesAt_fixSymbol hcheck hi (by decide) hterm,
      syndromesAt_fixSymbol hdata hi (by decide) (Nat.xor_lt_two_pow (n := 8) d.isLt hterm),
      syndromesAt_fixSymbol h hi hj d.isLt, addSyndromes_assoc, addSyndromes_assoc, ← addSyndromes_assoc (symbolSyndromes _ _),
      checkTerm_syndromes _ d.isLt, addSyndromes_zero]
  · have hi₀ : o % 32 < 32 := Nat.mod_lt _ (by decide)
    rw [syndromesAt_fixSymbol_ne hcheck hi₀ (by decide) _ hi hsame, syndromesAt_fixSymbol_ne hdata hi₀ (by decide) _ hi hsame,
      syndromesAt_fixSymbol_ne h hi₀ hj _ hi hsame]

theorem addAt_append_zero (p zs : List Byte) (d : Byte) : addAt (p ++ 0 :: zs) p.length d = p ++ d :: zs := by
  simp [addAt]

/-- Bytes that are taken in with their check bytes, one after the other, leave the syndromes as they are. -/
theorem syndromesAt_heartFrom {p h ds : List Byte} (hlen : p.length + ds.length = 4096) (hh : h.length = 64) {i : Nat}
    (hi : i < 32) : syndromesAt (p ++ ds, heartFrom h p.length ds) i = syndromesAt (p ++ zeros ds.length, h) i := by
  induction ds generalizing p h with
  | nil => rfl
  | cons d ds ih =>
    rw [List.length_cons] at hlen
    have hnext := ih (p := p ++ [d]) (h := heartAdd h p.length d) (by simp; omega) ((heartAdd_length _ _ _).trans hh)
    have hbyte := syndromesAt_takeByte (p := (p ++ 0 :: zeros ds.length, h)) ⟨by simp; omega, hh⟩
      (o := p.length) (by omega) d hi
    rw [takeByte_eq, addAt_append_zero] at hbyte
    simp only [List.append_assoc, List.singleton_append, List.length_append, List.length_singleton] at hnext
    exact hnext.trans hbyte

@[simp] theorem getD_zeros (n k : Nat) : (zeros n).getD k 0 = 0 := by simp [zeros]

theorem syndromesAt_zeros (i : Nat) : syndromesAt (zeros 4096, zeros 64) i = (0, 0) := by
  have hsymbol (j : Nat) : symbolAt (zeros 4096, zeros 64) i j = 0 := by
    simp only [symbolAt, getD_zeros, ite_self]
  have hword : codeword (zeros 4096) (zeros 64) i = List.replicate 130 0 := by
    rw [codeword_eq (zeros 4096, zeros 64), List.eq_replicate_iff]
    simp [hsymbol]
  rw [syndromesAt, hword]
  decide +kernel

/-- A sector and its check bytes are codewords (R323). -/
theorem syndromesAt_heartwood {s : List Byte} (h : s.length = 4096) {i : Nat} (hi : i < 32) :
    syndromesAt (s, heartwood s) i = (0, 0) := by
  have hall := syndromesAt_heartFrom (p := []) (ds := s) (by simpa using h) (zeros_length 64) hi
  rw [List.nil_append, List.nil_append, h, syndromesAt_zeros] at hall
  rwa [heartwood_eq]

theorem isSector_heartwood {s : List Byte} (h : s.length = 4096) : IsSector (s, heartwood s) :=
  ⟨h, by rw [heartwood_eq, heartFrom_length, zeros_length]⟩

end Sys2Proof.Machine
end

section
/-!
PROOF. The two modes in which the heartwood code mends a sector (R324).
-/
namespace Sys2Proof.Machine

/-! ### Error mode -/

/-- The syndromes of one wrong symbol name its exponent and what was added to it. -/
theorem errorMode_symbolSyndromes {j v : Nat} (hj : j < 130) (hv : v < 256) (hne : v ≠ 0) :
    errorMode (symbolSyndromes j v) = some (some (j, v)) := by
  have hpower : ∀ j < 130, gfPow 2 j ≠ 0 := by decide +kernel
  have hquot : gfMul (gfMul v (gfPow 2 j)) (gfInv v) = gfPow 2 j := by
    rw [gfMul_comm v, gfMul_gfMul_gfInv (gfPow_lt j) hv hne]
  have hfirst : gfMul v (gfPow 2 j) ≠ 0 := by
    intro hzero
    rw [hzero, gfMul_zero_left] at hquot
    exact hpower j hj hquot.symm
  rw [errorMode, symbolSyndromes, if_neg (by simp [hne]), if_neg (by simp [hne, hfirst]), hquot, gfLog_gfPow j hj]
  exact if_neg (by omega)

/-- A fold over numbers of which one alone has an effect, and that one once. -/
theorem foldl_range_of_one {α : Type} {f : α → Nat → α} {x y : α} {n i₀ : Nat} (hact : f x i₀ = y)
    (hkeep : ∀ i < n, i ≠ i₀ → f x i = x ∧ f y i = y) : (List.range n).foldl f x = if i₀ < n then y else x := by
  induction n with
  | zero => rfl
  | succ n ih =>
    rw [List.range_succ, List.foldl_append, ih fun i hi => hkeep i (by omega), List.foldl_cons, List.foldl_nil]
    rcases Nat.lt_trichotomy i₀ n with hlt | rfl | hgt
    · rw [if_pos hlt, if_pos (by omega), (hkeep n (by omega) (by omega)).2]
    · rw [if_neg (by omega), if_pos (by omega), hact]
    · rw [if_neg (by omega), if_neg (by omega), (hkeep n (by omega) (by omega)).1]

/-- A sector with no error in any codeword stays as it is. -/
theorem heartDecode_clean {p : List Byte × List Byte} (h : ∀ i < 32, syndromesAt p i = (0, 0)) :
    heartDecode p.1 p.2 = some p := by
  have hkeep (i : Nat) (hi : i < 32) : errorMode (syndromes (codeword p.1 p.2 i)) = some none := congrArg errorMode (h i hi)
  rw [heartDecode, foldl_range_of_one (i₀ := 0) (y := some p)]
  · rfl
  · simp [hkeep]
  · intro i hi _
    simp [hkeep i hi]

/-- A sector with one wrong symbol is mended there, and only there. -/
theorem heartDecode_of_one {p : List Byte × List Byte} {i₀ j v : Nat} (hi₀ : i₀ < 32)
    (herror : errorMode (syndromesAt p i₀) = some (some (j, v)))
    (hclean : ∀ i < 32, i ≠ i₀ → syndromesAt p i = (0, 0)) : heartDecode p.1 p.2 = some (fixSymbol p i₀ j v) := by
  have hact : errorMode (syndromes (codeword p.1 p.2 i₀)) = some (some (j, v)) := herror
  have hkeep (i : Nat) (hi : i < 32) (hne : i ≠ i₀) : errorMode (syndromes (codeword p.1 p.2 i)) = some none :=
    congrArg errorMode (hclean i hi hne)
  rw [heartDecode, foldl_range_of_one (i₀ := i₀) (y := some (fixSymbol p i₀ j v)), if_pos hi₀]
  · simp [hact]
  · intro i hi hne
    simp [hkeep i hi hne]

theorem addAt_addAt (bs : List Byte) (o : Nat) (v : Byte) : addAt (addAt bs o v) o v = bs := by
  have hset : addAt (addAt bs o v) o v = addAt bs o 0 := by
    rcases Nat.lt_or_ge o bs.length with ho | ho
    · simp [addAt, List.getD_eq_getElem?_getD, ho]
    · simp [addAt, List.set_eq_of_length_le, ho]
  rw [hset, addAt_zero]

/-- One wrong byte is put right (R324). -/
theorem heartError_addAt {s : List Byte} (h : s.length = 4096) {o : Nat} (ho : o < 4096) (v : Byte) :
    heartError (addAt s o v) (heartwood s) = some s := by
  let p := (s, heartwood s)
  have hp : IsSector p := isSector_heartwood h
  have hsound (i : Nat) (hi : i < 32) : syndromesAt p i = (0, 0) := syndromesAt_heartwood h hi
  by_cases hv : v = 0
  · rw [hv, addAt_zero, heartError, heartDecode_clean (p := p) hsound]
    rfl
  · have hi : o % 32 < 32 := Nat.mod_lt _ (by decide)
    have hj : o / 32 + 2 < 130 := by omega
    have hne : v.toNat ≠ 0 := fun hzero => hv (BitVec.eq_of_toNat_eq hzero)
    let q := (addAt s o v, heartwood s)
    have hq : q = fixSymbol p (o % 32) (o / 32 + 2) v.toNat := addAt_eq_fixSymbol p o v
    have herror : errorMode (syndromesAt q (o % 32)) = some (some (o / 32 + 2, v.toNat)) := by
      rw [hq, syndromesAt_fixSymbol hp hi hj v.isLt, hsound _ hi, ← errorMode_symbolSyndromes hj v.isLt hne]
      simp [addSyndromes]
    have hdecode := heartDecode_of_one (p := q) hi herror fun i hi' hne => by
      rw [hq, syndromesAt_fixSymbol_ne hp hi hj _ hi' hne, hsound i hi']
    rw [heartError, hdecode, ← addAt_eq_fixSymbol]
    exact congrArg some (addAt_addAt s o v)

/-! ### Erasure mode -/

theorem getD_overlay {s line : List Byte} {o : Nat} (h : o + line.length ≤ s.length) (k : Nat) :
    (overlay s o line).getD k 0 = if o ≤ k ∧ k < o + line.length then line.getD (k - o) 0 else s.getD k 0 := by
  have hbefore : (s.take o).length = o := by simp; omega
  simp only [overlay, List.getD_eq_getElem?_getD, List.getElem?_append, List.length_append, hbefore, List.getElem?_take,
    List.getElem?_drop]
  rcases Nat.lt_or_ge k o with hlow | hhigh
  · rw [if_pos (by omega), if_pos hlow, if_pos hlow, if_neg (by omega)]
  · rcases Nat.lt_or_ge k (o + line.length) with hin | hout
    · rw [if_pos hin, if_neg (by omega), if_pos ⟨hhigh, hin⟩]
    · rw [if_neg (by omega), if_neg (by omega), Nat.add_sub_cancel' hout]

theorem overlay_overlay {s a b : List Byte} {o : Nat} (h : o + a.length ≤ s.length) (hlen : a.length = b.length) :
    overlay (overlay s o a) o b = overlay s o b := by
  have hbefore : (s.take o).length = o := by simp; omega
  have hhead : (s.take o ++ a).length = o + b.length := by simp [hbefore, hlen]
  have htake : (overlay s o a).take o = s.take o := by
    rw [overlay, List.append_assoc, List.take_left' hbefore]
  have hdrop : (overlay s o a).drop (o + b.length) = s.drop (o + b.length) := by
    rw [overlay, List.drop_left' hhead, hlen]
  rw [overlay, htake, hdrop, ← overlay]

theorem overlay_length {s line : List Byte} {o : Nat} (h : o + line.length ≤ s.length) :
    (overlay s o line).length = s.length := by
  simp [overlay]
  omega

theorem symbolAt_erased {s : List Byte} (h : s.length = 4096) (c : List Byte) {i l : Nat} (hi : i < 32) (hl : l < 64) (j : Nat) :
    symbolAt (overlay s (64 * l) (zeros 64), c) i j =
      if j = 2 * l + 2 ∨ j = 2 * l + 3 then 0 else symbolAt (s, c) i j := by
  by_cases hj : j < 2
  · simp only [symbolAt, if_pos hj]
    rw [if_neg (by omega)]
  · simp only [symbolAt, if_neg hj]
    rw [getD_overlay (by simp; omega), getD_zeros]
    exact if_congr (by simp; omega) rfl rfl

/-- A line that is erased leaves the syndromes of its two symbols of each codeword. -/
theorem syndromesAt_erased {s : List Byte} (h : s.length = 4096) {i l : Nat} (hi : i < 32) (hl : l < 64) :
    syndromesAt (overlay s (64 * l) (zeros 64), heartwood s) i =
      addSyndromes (symbolSyndromes (2 * l + 2) (s.getD (64 * l + i) 0).toNat)
        (symbolSyndromes (2 * l + 3) (s.getD (64 * l + 32 + i) 0).toNat) := by
  let p := (s, heartwood s)
  have hword : codeword (overlay s (64 * l) (zeros 64)) (heartwood s) i =
      ((codeword p.1 p.2 i).set (2 * l + 2) 0).set (2 * l + 3) 0 := by
    refine List.ext_getElem (by simp) fun j _ _ => ?_
    simp only [codeword_eq (overlay s (64 * l) (zeros 64), heartwood s), codeword_eq p, List.getElem_set, List.getElem_map,
      List.getElem_range, symbolAt_erased h _ hi hl]
    by_cases hfirst : j = 2 * l + 2
    · simp [hfirst]
    · by_cases hsecond : j = 2 * l + 3
      · simp [hsecond]
      · simp [hfirst, hsecond, Ne.symm hfirst, Ne.symm hsecond, p]
  have hsymbol (n : Nat) : symbolAt p i (n + 2) = s.getD (32 * n + i) 0 := by simp [symbolAt, p]
  have hone : (codeword p.1 p.2 i).getD (2 * l + 2) 0 = (s.getD (64 * l + i) 0).toNat := by
    rw [getD_codeword p i (by omega), hsymbol, show 32 * (2 * l) = 64 * l by omega]
  have htwo : ((codeword p.1 p.2 i).set (2 * l + 2) 0).getD (2 * l + 3) 0 = (s.getD (64 * l + 32 + i) 0).toNat := by
    have hother : ((codeword p.1 p.2 i).set (2 * l + 2) 0).getD (2 * l + 3) 0 = (codeword p.1 p.2 i).getD (2 * l + 3) 0 := by
      simp [List.getD_eq_getElem?_getD]
    rw [hother, getD_codeword p i (by omega), hsymbol (2 * l + 1), show 32 * (2 * l + 1) = 64 * l + 32 by omega]
  have hsound : syndromes (codeword p.1 p.2 i) = (0, 0) := syndromesAt_heartwood h hi
  rw [syndromesAt, hword, syndromes_set (by simp [p]; omega), syndromes_set (by simp [p]; omega), hone, htwo, hsound]
  simp [addSyndromes]

/-- What R324 works out from the syndromes of two erased symbols are the two symbols. -/
theorem erasure_solves {l e1 e2 : Nat} (hl : l < 64) (he2 : e2 < 256) :
    let s := addSyndromes (symbolSyndromes (2 * l + 2) e1) (symbolSyndromes (2 * l + 3) e2)
    gfMul (s.2 ^^^ gfMul (gfPow 2 (2 * l + 2)) s.1) (gfInv (gfPow 2 (2 * l + 2) ^^^ gfPow 2 (2 * l + 3))) = e2 ∧
    s.1 ^^^ e2 = e1 := by
  intro s
  have hdistinct : ∀ l < 64, gfPow 2 (2 * l + 2) ^^^ gfPow 2 (2 * l + 3) ≠ 0 := by decide +kernel
  have hlt := Nat.xor_lt_two_pow (n := 8) (gfPow_lt (2 * l + 2)) (gfPow_lt (2 * l + 3))
  refine ⟨?_, by simp [s, addSyndromes, symbolSyndromes]⟩
  have hsum : s.2 ^^^ gfMul (gfPow 2 (2 * l + 2)) s.1 = gfMul e2 (gfPow 2 (2 * l + 2) ^^^ gfPow 2 (2 * l + 3)) := by
    simp only [s, addSyndromes, symbolSyndromes, gfMul_xor, gfMul_comm (gfPow 2 (2 * l + 2)), gfMul_xor_left]
    rw [Nat.xor_comm (gfMul e1 _), Nat.xor_assoc, ← Nat.xor_assoc (gfMul e1 _), Nat.xor_self, Nat.zero_xor, Nat.xor_comm]
  rw [hsum, gfMul_gfMul_gfInv he2 hlt (hdistinct l hl)]

/-- Two bytes of a string taken over from another, those of codeword i in line l. -/
def restorePair (t : List Byte) (l : Nat) (s : List Byte) (i : Nat) : List Byte :=
  (s.set (64 * l + i) (t.getD (64 * l + i) 0)).set (64 * l + 32 + i) (t.getD (64 * l + 32 + i) 0)

@[simp] theorem restorePair_length (t : List Byte) (l : Nat) (s : List Byte) (i : Nat) :
    (restorePair t l s i).length = s.length := by
  simp [restorePair]

theorem getD_restorePair {t s : List Byte} (hs : s.length = 4096) {l i : Nat} (hl : l < 64) (hi : i < 32) (k : Nat) :
    (restorePair t l s i).getD k 0 = if k = 64 * l + i ∨ k = 64 * l + 32 + i then t.getD k 0 else s.getD k 0 := by
  simp only [restorePair, List.getD_eq_getElem?_getD, List.getElem?_set, List.length_set]
  by_cases hsecond : 64 * l + 32 + i = k
  · rw [if_pos hsecond, if_pos (by omega), if_pos (by omega), hsecond]
    rfl
  · rw [if_neg hsecond]
    by_cases hfirst : 64 * l + i = k
    · rw [if_pos hfirst, if_pos (by omega), if_pos (by omega), hfirst]
      rfl
    · rw [if_neg hfirst, if_neg (by omega)]

/-- After the codewords below n, what may still differ lies in the line and in the codewords from n on. -/
theorem foldl_restorePair {t s : List Byte} (hs : s.length = 4096) {l : Nat} (hl : l < 64)
    (hout : ∀ k, k / 64 ≠ l → s.getD k 0 = t.getD k 0) {n : Nat} (hn : n ≤ 32) :
    ((List.range n).foldl (restorePair t l) s).length = 4096 ∧
    ∀ k, k / 64 ≠ l ∨ k % 32 < n → ((List.range n).foldl (restorePair t l) s).getD k 0 = t.getD k 0 := by
  induction n with
  | zero => exact ⟨hs, fun k hk => hout k (by omega)⟩
  | succ n ih =>
    obtain ⟨hlen, hget⟩ := ih (by omega)
    rw [List.range_succ, List.foldl_append, List.foldl_cons, List.foldl_nil]
    refine ⟨(restorePair_length _ _ _ _).trans hlen, fun k hk => ?_⟩
    rw [getD_restorePair hlen hl (by omega)]
    split
    case isTrue => rfl
    case isFalse hnot => exact hget k (by omega)

theorem foldl_restorePair_all {t s : List Byte} (ht : t.length = 4096) (hs : s.length = 4096) {l : Nat} (hl : l < 64)
    (hout : ∀ k, k / 64 ≠ l → s.getD k 0 = t.getD k 0) : (List.range 32).foldl (restorePair t l) s = t := by
  obtain ⟨hlen, hget⟩ := foldl_restorePair hs hl hout (Nat.le_refl 32)
  refine List.ext_getElem (hlen.trans ht.symm) fun k hk hk' => ?_
  have h := hget k (.inr (Nat.mod_lt _ (by decide)))
  rwa [List.getD_eq_getElem _ _ hk, List.getD_eq_getElem _ _ hk'] at h

/-- A lost line is put back (R324). -/
theorem heartErasure_overlay {s line : List Byte} (h : s.length = 4096) {l : Nat} (hl : l < 64) (hline : line.length = 64) :
    heartErasure (overlay s (64 * l) line) (heartwood s) l = s := by
  have herased : overlay (overlay s (64 * l) line) (64 * l) (zeros 64) = overlay s (64 * l) (zeros 64) :=
    overlay_overlay (by omega) (by simp [hline])
  have hfit : 64 * l + (zeros 64).length ≤ s.length := by simp; omega
  have hmended : (List.range 32).foldl (restorePair s l) (overlay s (64 * l) (zeros 64)) = s := by
    refine foldl_restorePair_all h ((overlay_length hfit).trans h) hl fun k hk => ?_
    rw [getD_overlay hfit, if_neg (by simp; omega)]
  refine Eq.trans ?_ hmended
  rw [heartErasure, herased]
  refine List.foldl_ext _ _ _ fun acc i hi => ?_
  have hi : i < 32 := List.mem_range.1 hi
  have hsyn : syndromes (codeword (overlay s (64 * l) (zeros 64)) (heartwood s) i) = _ := syndromesAt_erased h hi hl
  obtain ⟨hsecond, hfirst⟩ :=
    erasure_solves (l := l) (e1 := (s.getD (64 * l + i) 0).toNat) hl (s.getD (64 * l + 32 + i) 0).isLt
  have hbyte (b : Byte) : byteOf b.toNat = b := BitVec.eq_of_toNat_eq (Nat.mod_eq_of_lt b.isLt)
  simp only [hsyn, hsecond, hfirst, hbyte]
  rfl

/-- Settles O57: the code is linear, so a sector and its check bytes have no syndromes, and what is wrong in it shows as the
syndromes of the wrong bytes alone. -/
theorem heartwoodMendsItsSector : Obligations.HeartwoodMendsItsSector := by
  unfold Obligations.HeartwoodMendsItsSector
  intro s hs
  refine ⟨fun i hi => syndromesAt_heartwood hs hi, fun l line hl hline => ⟨?_, heartErasure_overlay hs hl hline⟩,
    fun o v ho => heartError_addAt hs ho v⟩
  have hfit : 64 * l + line.length ≤ s.length := by omega
  rw [heartwood_overlay hfit, hline]

end Sys2Proof.Machine
end

section
/-!
PROOF. The commands of the memory side (R317 to R320, R332, R333, R338, R429, R534).
-/
namespace Sys2Proof.Machine

/-! ### Holds -/

theorem holdQuery_free {e : Eng} {leaf : Nat} {wr : Bool} (h : e.holds leaf wr = false) (port id : Nat) :
    e.holdQuery port id leaf wr = e.emit (.hold port id false) :=
  if_pos (by simp [h])

/-- An access that is held makes its leaf urgent (R534). -/
theorem holdQuery_held {e : Eng} {leaf : Nat} {wr : Bool} (hworks : e.working = true) (h : e.holds leaf wr = true)
    (port id : Nat) : e.holdQuery port id leaf wr =
      ((({ e.emit (.hold port id true) with
        held := e.held ++ [{ port := port, id := id, leaf := leaf, wr := wr }] } : Eng).urgent leaf).makeUrgent leaf).settle :=
  if_neg (by simp [hworks, h])

/-! ### Transfers -/

/-- What goes on once a transfer's last READ is answered, by what it was for; a write takes no answer of a READ. -/
def Eng.afterRead (e : Eng) (x : Xfer) (bads : List LineRead) : XferKind → Eng
  | .mirrorRead region copy => ((e.xferEnds x).mirrorReadDone region copy x bads).settle
  | .anchorRead leaf => ((e.xferEnds x).anchorReadDone leaf bads).settle
  | .hashRead cmd leaf => ((e.xferEnds x).hashReadDone cmd leaf bads).settle
  | .lineRead => e.xferEnds x
  | .applyWrite | .cwrite => e

section
variable {e : Eng} {tag : Nat} {x : Xfer} (h : e.xfer? tag = some x)
include h

theorem readDone_more (hread : x.isRead = true) (hmore : ¬x.len ≤ x.off + x.size) (bads : List LineRead) :
    e.readDone tag bads = e.nextPiece x bads := by
  rw [Eng.readDone, h]
  exact (if_pos (Nat.lt_of_not_le hmore)).trans (if_pos hread)

theorem readDone_last (hlast : x.len ≤ x.off + x.size) (bads : List LineRead) :
    e.readDone tag bads = e.afterRead x (x.bads ++ bads) x.kind := by
  rw [Eng.readDone, h]
  refine (if_neg (Nat.not_lt.2 hlast)).trans ?_
  cases x.kind <;> rfl

theorem writeDone_apply_last (hkind : x.kind = .applyWrite) (hlast : x.len ≤ x.off + x.size) (discarded : Bool) :
    e.writeDone tag discarded = ((e.xferEnds x).applyWritten x).settle := by
  simp only [Eng.writeDone, h, hkind]
  exact if_neg (Nat.not_lt.2 hlast)

theorem writeDone_apply_more (hkind : x.kind = .applyWrite) (hmore : ¬x.len ≤ x.off + x.size) (discarded : Bool) :
    e.writeDone tag discarded = e.nextPiece x [] := by
  simp only [Eng.writeDone, h, hkind]
  exact if_pos (Nat.lt_of_not_le hmore)

/-- A conditional write stores its line unless it was discarded (R317). -/
theorem writeDone_cwrite (hkind : x.kind = .cwrite) (discarded : Bool) :
    e.writeDone tag discarded = if discarded then e.xferEnds x
      else ((e.xferEnds x).memWrite x.addr x.data).freshLines x.addr x.data.length := by
  simp only [Eng.writeDone, h, hkind]

end

/-- A tag names a READ that is not answered. -/
def Eng.readIsOpen (e : Eng) (tag : Nat) : Bool :=
  match e.xfer? tag with
  | some x => x.isRead
  | none => false

section
variable {s : State} (hworks : s.eng.working = true)
include hworks

theorem exec_memoryReadComplete {tag : BitVec 10} {bads : List LineRead} {e : Eng} (h : (quiet s).readDone tag.toNat bads = e)
    (port : Fin 8) : exec (.memoryReadComplete port tag bads) s = .next (leaving s e) :=
  next_leaving ((if_pos hworks).trans h)

theorem exec_memoryWriteResponse {tag : BitVec 10} {discarded : Bool} {e : Eng}
    (h : (quiet s).writeDone tag.toNat discarded = e) (port : Fin 8) :
    exec (.memoryWriteResponse port tag discarded) s = .next (leaving s e) :=
  next_leaving ((if_pos hworks).trans h)

theorem exec_readSlow {tag : BitVec 10} {x : Xfer} (h : (quiet s).xfer? tag.toNat = some x) (hread : x.isRead = true)
    (port : Fin 8) : exec (.readSlow port tag) s = .next (leaving s ((quiet s).bump Reg.MEM_SHARE_STAT_SLOW)) := by
  have hgo : ((quiet s).working && (quiet s).readIsOpen tag.toNat) = true := by
    refine Bool.and_eq_true_iff.2 ⟨hworks, ?_⟩
    rw [Eng.readIsOpen, h]
    exact hread
  exact next_leaving (if_pos hgo)

end

/-! ### The share's loop -/

/-- Where the loop would take the share (R429). -/
def Eng.shareWish (e : Eng) (age : Nat) : Nat :=
  let now := e.rd Reg.MEM_SHARE_NOW
  let hi := 10 * e.rd Reg.HLT_SHARE_LOOP_WAIT_HI
  let step := e.rd Reg.HLT_SHARE_LOOP_STEP
  if hi < age then now + step else if 4 * age < hi && e.shareIdle then now - step else now

/-- The share moved towards a wish, within the loop's bounds (R426). -/
def Eng.shareMoved (e : Eng) (wish : Nat) : Eng :=
  e.wr Reg.MEM_SHARE_NOW (clampTo (e.rd Reg.HLT_SHARE_LOOP_FLOOR) (e.rd Reg.HLT_SHARE_LOOP_CEIL) wish)

theorem shareIdle_iff {e : Eng} : e.shareIdle = true ↔ ∀ p < 8, let ws := (look e.health.windows p).getD []
    2 * (ws.map (·.1)).foldl (· + ·) 0 < (ws.map (·.2)).foldl (· + ·) 0 := by
  simp [Eng.shareIdle]

section
variable {e : Eng} {other wish : Nat} (hon : e.on Reg.HLT_SHARE_LOOP_EN = true) (hwish : e.shareWish (e.oldestAge other) = wish)
include hon hwish

theorem shareDecision_within (hin : wish ≤ e.rd Reg.HLT_SHARE_LOOP_CEIL) : e.shareDecision other = e.shareMoved wish := by
  subst hwish
  exact (if_neg (Nat.not_lt.2 hin)).trans (if_pos hon)

/-- A wish beyond the ceiling is told as advice (R427). -/
theorem shareDecision_beyond (hout : e.rd Reg.HLT_SHARE_LOOP_CEIL < wish) :
    e.shareDecision other = (e.shareMoved wish).advise 1 0 wish Reg.HLT_ADVICE_SHARE .SHARE_ADVICE := by
  subst hwish
  exact (if_pos hout).trans (congrArg (fun t => Eng.advise t _ _ _ _ _) (if_pos hon))

end

theorem exec_shareLoopDecision {s : State} (hworks : s.eng.working = true) (hready : s.eng.on Reg.GEN_BOOT_READY = true)
    {ageUs : Nat} {waits : Bool} {e : Eng} (h : (quiet s).shareDecision (if waits then ageUs else 0) = e) :
    exec (.shareLoopDecision ageUs waits) s = .next (leaving s e) := by
  have hruns : s.eng.boot.inReset = false := by
    rw [Eng.working, Bool.and_eq_true, Bool.not_eq_true', Bool.not_eq_true'] at hworks
    exact hworks.2
  have hgo : (s.eng.on Reg.GEN_BOOT_READY && !s.eng.boot.inReset) = true := by simp [hready, hruns]
  exact next_leaving ((if_pos hgo).trans h)

/-! ### The SRAM patrol -/

theorem exec_sramPatrol {s : State} (hworks : s.eng.working = true) (halive : s.eng.alive = true) {bank : Fin 112}
    {f : SramFinding} {e : Eng} (h : (quiet s).sramPatrol bank.val f = e) :
    exec (.sramPatrol bank f) s = .next (leaving s e) := by
  have hgo : (s.eng.alive && s.eng.working) = true := by simp [hworks, halive]
  exact next_leaving ((if_pos hgo).trans h)

theorem sramPatrol_uncorrectable (e : Eng) (bank : Nat) {f : SramFinding} (h : f ≠ .corrected) :
    e.sramPatrol bank f = (((e.bump Reg.MEM_SRAM_STAT_UE).raise .SRAM_UE).sramLoss f).settle := by
  cases f
  case corrected => exact absurd rfl h
  all_goals rfl

/-- Settles O42: each command by what the engine finds, a transfer by its kind and by whether its last operation is answered. -/
theorem memorySideCommandsAct : Obligations.MemorySideCommandsAct := by
  unfold Obligations.MemorySideCommandsAct
  intro s hworks
  refine ⟨fun leaf => next_leaving (if_pos hworks), next_leaving (if_pos hworks), fun leaf => rfl,
    fun port id leaf wr => ⟨fun hfree => next_leaving (holdQuery_free hfree _ _),
      fun hheld => next_leaving (holdQuery_held (e := quiet s) hworks hheld _ _)⟩,
    fun port tag x hx => ?transfer, fun used exempt => next_leaving (if_pos hworks),
    fun bank halive => ⟨exec_sramPatrol hworks halive rfl, fun f hf =>
      exec_sramPatrol hworks halive (sramPatrol_uncorrectable _ _ hf)⟩, fun ageUs waits hready hon => ?loop⟩
  case transfer =>
    have hread {bads e} (hlast : x.len ≤ x.off + x.size) (h : (quiet s).afterRead x (x.bads ++ bads) x.kind = e) :
        exec (.memoryReadComplete port tag bads) s = .next (leaving s e) :=
      exec_memoryReadComplete hworks ((readDone_last hx hlast bads).trans h) port
    refine ⟨fun bads hisRead => ⟨exec_readSlow hworks hx hisRead port, fun hmore =>
        exec_memoryReadComplete hworks (readDone_more hx hisRead hmore bads) port⟩,
      fun bads leaf hkind hlast => hread hlast ?_, fun bads cmd leaf hkind hlast => hread hlast ?_,
      fun bads region copy hkind hlast => hread hlast ?_, fun bads hkind hlast => hread hlast ?_,
      fun hkind d => ⟨fun hlast => exec_memoryWriteResponse hworks (writeDone_apply_last hx hkind hlast d) port,
        fun hmore => exec_memoryWriteResponse hworks (writeDone_apply_more hx hkind hmore d) port⟩,
      fun hkind => ⟨exec_memoryWriteResponse hworks (writeDone_cwrite hx hkind true) port,
        exec_memoryWriteResponse hworks (writeDone_cwrite hx hkind false) port⟩⟩
    all_goals
      rw [hkind]
      rfl
  case loop =>
    refine ⟨fun hold hin => ?_, fun hyoung hslack hidle hin => ?_, fun hold hout => ?_⟩
    · exact exec_shareLoopDecision hworks hready (shareDecision_within hon (if_pos hold) hin)
    · have hdown : (decide (4 * (quiet s).oldestAge (if waits then ageUs else 0) < 10 * (quiet s).rd Reg.HLT_SHARE_LOOP_WAIT_HI) &&
          (quiet s).shareIdle) = true := by
        rw [shareIdle_iff.2 hidle, Bool.and_true]
        exact decide_eq_true hslack
      exact exec_shareLoopDecision hworks hready (shareDecision_within hon
        ((if_neg (Nat.not_lt.2 hyoung)).trans (if_pos hdown)) ((Nat.sub_le _ _).trans hin))
    · exact exec_shareLoopDecision hworks hready (shareDecision_beyond hon (if_pos hold) hout)

end Sys2Proof.Machine
end

section
/-!
PROOF. Anchors, restores and digests (R344, R356 to R358, R361, R372, R378, R379).
-/
namespace Sys2Proof.Machine

/-! ### What the event of a source writes (R478 to R484) -/

/-- The fields that an event of source `n` may write. `Fld.Tells` is too wide here: it ranges over every number, and beyond the
table of sources INT_SRC_CFG reaches the keys of ANC_DUE_STAT. -/
inductive Fld.ShowsEvent (n : Nat) : Fld → Prop where
  | raw : ShowsEvent n (Reg.INT_SRC_CFG_RAW n)
  | pending : ShowsEvent n (Reg.INT_SRC_CFG_PENDING n)
  | firedPend (g : Nat) : ShowsEvent n (Reg.INT_GRP_CFG_FIRED_PEND g)
  | noAddr : ShowsEvent n Reg.INT_STAT_NOADDR
  | msgs : ShowsEvent n Reg.INT_STAT_MSGS
  | asleep : ShowsEvent n Reg.GEN_PWR_ASLEEP

theorem Eng.rd_ite {a b : Eng} {f : Fld} {v : Nat} {c : Prop} {_ : Decidable c} (ha : a.rd f = v) (hb : b.rd f = v) :
    (if c then a else b).rd f = v := by split; exacts [ha, hb]

section
variable {n : Nat} {f : Fld} (hf : ∀ g : Fld, g.ShowsEvent n → f.key ≠ g.key) (e : Eng)
include hf

theorem rd_fire (g : Nat) : (e.fire g).rd f = e.rd f :=
  have hdeliver : (e.deliver g).rd f = e.rd f :=
    Eng.rd_ite (Eng.rd_ite (Eng.rd_bump_ne _ (hf _ .noAddr)) (Eng.rd_bump_ne _ (hf _ .msgs))) rfl
  Eng.rd_ite (Eng.rd_flag_ne _ _ (hf _ (.firedPend g))) hdeliver

theorem rd_groupEvent (g : Nat) : (e.groupEvent g).rd f = e.rd f :=
  Eng.rd_ite (Eng.rd_ite rfl (rd_fire hf e g)) (Eng.rd_ite (rd_fire hf e g) rfl)

theorem rd_srcEvent : (e.srcEvent n).rd f = e.rd f :=
  have hawake : (if e.on Reg.GEN_PWR_ASLEEP && e.watched n then e.startClocks else e).rd f = e.rd f :=
    Eng.rd_ite (Eng.rd_flag_ne _ _ (hf _ .asleep)) rfl
  Eng.rd_ite rfl (Eng.rd_ite hawake
    ((rd_groupEvent hf _ _).trans ((Eng.rd_flag_ne _ true (hf _ .pending)).trans hawake)))

theorem rd_levelCheck : (e.levelCheck n).rd f = e.rd f := by
  unfold Eng.levelCheck
  split
  · rfl
  · exact Eng.rd_ite (Eng.rd_ite rfl (rd_srcEvent hf e)) (Eng.rd_flag_ne _ _ (hf _ .pending))

theorem rd_request (b : Bool) : (e.request n b).rd f = e.rd f :=
  have hraw := Eng.rd_flag_ne e b (hf _ .raw)
  Eng.rd_ite ((rd_levelCheck hf _).trans hraw)
    (Eng.rd_ite hraw (Eng.rd_ite ((rd_srcEvent hf _).trans hraw) hraw))

end

theorem rd_raise {src : Src} {f : Fld} (hf : ∀ g : Fld, g.ShowsEvent (srcNum src) → f.key ≠ g.key) (e : Eng) :
    (e.raise src).rd f = e.rd f := (rd_request hf _ false).trans (rd_request hf e true)

/-! ### The reasons of an anchor (R344) -/

theorem rd_setKeep (e : Eng) (g : Keep → Keep) (f : Fld) : (e.setKeep g).rd f = e.rd f :=
  Eng.rd_congr (Eng.setKeep_regs e g) f

/-- The event of ANCHOR_DUE writes none of these registers of the reasons. -/
theorem rd_raise_anchorDue {f : Fld} (hf : f ∈ [Reg.ANC_DUE_CTL_RISK, Reg.ANC_DUE_STAT_STEPS, Reg.ANC_DUE_STAT_TIME,
    Reg.ANC_DUE_STAT_RISK, Reg.ANC_DUE_STAT_DUE]) (e : Eng) : (e.raise .ANCHOR_DUE).rd f = e.rd f := by
  refine rd_raise (fun g hg => ?_) e
  simp only [List.mem_cons, List.not_mem_nil, or_false] at hf
  rcases hf with rfl | rfl | rfl | rfl | rfl <;> cases hg <;>
    simp only [Fld.key, srcNum, Reg.ANC_DUE_CTL_RISK, Reg.ANC_DUE_STAT_STEPS, Reg.ANC_DUE_STAT_TIME, Reg.ANC_DUE_STAT_RISK,
      Reg.ANC_DUE_STAT_DUE, Reg.INT_SRC_CFG_RAW, Reg.INT_SRC_CFG_PENDING, Reg.INT_GRP_CFG_FIRED_PEND, Reg.INT_STAT_NOADDR,
      Reg.INT_STAT_MSGS, Reg.GEN_PWR_ASLEEP] <;> omega

theorem dueReason_absent {e : Eng} {i : Nat} (h : e.dueHolds i = false) : e.dueReason i = e :=
  if_neg (by simp [h])

/-- A reason that is found to hold: DUE is set, and the interrupt raised. -/
def Eng.dueFound (e : Eng) (i : Nat) : Eng :=
  ((e.setKeep (fun k => { k with due := { k.due with raised := k.due.raised ++ [i] } })).flag Reg.ANC_DUE_STAT_DUE true).raise
    .ANCHOR_DUE

theorem dueReason_found {e : Eng} {i : Nat} (h : e.dueHolds i = true) (hnew : e.keep.due.raised.contains i = false) :
    e.dueReason i = e.dueFound i := if_pos (by simp only [h, hnew]; rfl)

theorem rd_dueFlags (e : Eng) {f : Fld} (hf : f ∈ [Reg.ANC_DUE_CTL_STEPS, Reg.ANC_DUE_CTL_MINUTES, Reg.ANC_DUE_CTL_RISK,
    Reg.HLT_RISK_RISK]) : e.dueFlags.rd f = e.rd f := by
  have hne : f.key ≠ Reg.ANC_DUE_STAT_STEPS.key ∧ f.key ≠ Reg.ANC_DUE_STAT_TIME.key ∧ f.key ≠ Reg.ANC_DUE_STAT_RISK.key := by
    revert f
    decide
  obtain ⟨hsteps, htime, hrisk⟩ := hne
  rw [Eng.dueFlags, Eng.rd_flag_ne _ _ hrisk, Eng.rd_flag_ne _ _ htime, Eng.rd_flag_ne _ _ hsteps]

/-- What the flags show tells nothing of what holds. -/
theorem dueHolds_dueFlags (e : Eng) (i : Nat) : e.dueFlags.dueHolds i = e.dueHolds i := by
  unfold Eng.dueHolds
  rw [rd_dueFlags e (by simp), rd_dueFlags e (by simp), rd_dueFlags e (by simp), rd_dueFlags e (by simp)]
  rfl

section
variable {e : Eng}

theorem dueHolds_steps_disabled (h : e.rd Reg.ANC_DUE_CTL_STEPS = 0) : e.dueHolds 0 = false := by simp [Eng.dueHolds, h]

theorem dueHolds_risk_disabled (h : e.rd Reg.ANC_DUE_CTL_RISK = 0) : e.dueHolds 2 = false := by simp [Eng.dueHolds, h]

theorem dueHolds_time_iff : e.dueHolds 1 = true ↔ e.rd Reg.ANC_DUE_CTL_MINUTES ≠ 0 ∧
    e.keep.due.at_ + e.rd Reg.ANC_DUE_CTL_MINUTES * 60000000000 ≤ e.now := by simp [Eng.dueHolds]

end

/-- No reason holds: DUE stays as it was, and nothing is raised. -/
theorem dueCheck_none {e : Eng} (h : ∀ i ∈ List.range 3, e.dueHolds i = false) : e.dueCheck = e.dueFlags :=
  Eng.each_keeps (P := (· = e.dueFlags)) (List.range 3)
    (fun i hi x hx => by rw [hx]; exact dueReason_absent ((dueHolds_dueFlags e i).trans (h i hi))) rfl

section
variable {e : Eng} (hsteps : e.rd Reg.ANC_DUE_CTL_STEPS = 0) (hrisk : e.rd Reg.ANC_DUE_CTL_RISK = 0)
include hsteps hrisk

/-- Before the minutes have passed no reason holds. -/
theorem dueCheck_early (h : ¬(e.rd Reg.ANC_DUE_CTL_MINUTES ≠ 0 ∧
    e.keep.due.at_ + e.rd Reg.ANC_DUE_CTL_MINUTES * 60000000000 ≤ e.now)) :
    e.dueCheck = ((e.flag Reg.ANC_DUE_STAT_STEPS false).flag Reg.ANC_DUE_STAT_TIME false).flag Reg.ANC_DUE_STAT_RISK false := by
  have h0 := dueHolds_steps_disabled hsteps
  have h1 : e.dueHolds 1 = false := Bool.eq_false_iff.2 (mt dueHolds_time_iff.1 h)
  have h2 := dueHolds_risk_disabled hrisk
  have hnone : ∀ i ∈ List.range 3, e.dueHolds i = false := by
    intro i hi
    have hcase : i = 0 ∨ i = 1 ∨ i = 2 := by have := List.mem_range.1 hi; omega
    rcases hcase with rfl | rfl | rfl
    exacts [h0, h1, h2]
  rw [dueCheck_none hnone, Eng.dueFlags, h0, h1, h2]

/-- Once they have passed, the minutes are the one reason that is found. -/
theorem dueCheck_late (hnew : e.keep.due.raised = []) (htime : e.dueHolds 1 = true) :
    e.dueCheck = e.dueFlags.dueFound 1 := by
  have h0 : e.dueFlags.dueReason 0 = e.dueFlags :=
    dueReason_absent ((dueHolds_dueFlags e 0).trans (dueHolds_steps_disabled hsteps))
  have h1 : e.dueFlags.dueReason 1 = e.dueFlags.dueFound 1 :=
    dueReason_found ((dueHolds_dueFlags e 1).trans htime) (by simp [Eng.dueFlags, hnew])
  have hrisk' : (e.dueFlags.dueFound 1).rd Reg.ANC_DUE_CTL_RISK = 0 := by
    rw [Eng.dueFound, rd_raise_anchorDue (by simp), Eng.rd_flag_ne _ _ (by decide), rd_setKeep, rd_dueFlags e (by simp),
      hrisk]
  calc e.dueCheck = ((e.dueFlags.dueReason 0).dueReason 1).dueReason 2 := by
        rw [Eng.dueCheck, show List.range 3 = [0, 1, 2] by decide, Eng.each_cons, Eng.each_cons, Eng.each_cons, Eng.each_nil]
    _ = (e.dueFlags.dueFound 1).dueReason 2 := by rw [h0, h1]
    _ = e.dueFlags.dueFound 1 := dueReason_absent (dueHolds_risk_disabled hrisk')

end

/-- A found reason is noted, and DUE shows it. -/
theorem dueFound_changes (e : Eng) (i : Nat) : (e.dueFound i).on Reg.ANC_DUE_STAT_DUE = true ∧
    (e.dueFound i).keep.due.raised = e.keep.due.raised ++ [i] ∧ (e.dueFound i).mem = e.mem :=
  have htells := OnlyTells.raise (.refl ((e.setKeep (fun k =>
    { k with due := { k.due with raised := k.due.raised ++ [i] } })).flag Reg.ANC_DUE_STAT_DUE true)) (src := .ANCHOR_DUE)
  ⟨(congrArg (· == 1) (rd_raise_anchorDue (by simp) _)).trans (Eng.on_flag_same _ true (by decide)),
    (congrArg (·.keep.due.raised) htells.beyond :), htells.mem_eq⟩

/-- The reasons that hold stay shown. -/
theorem on_dueFound {f : Fld} (hf : f ∈ [Reg.ANC_DUE_STAT_STEPS, Reg.ANC_DUE_STAT_TIME, Reg.ANC_DUE_STAT_RISK]) (e : Eng)
    (i : Nat) : (e.dueFound i).on f = e.on f := by
  have hne : f.key ≠ Reg.ANC_DUE_STAT_DUE.key := by revert f; decide
  have hin : f ∈ [Reg.ANC_DUE_CTL_RISK, Reg.ANC_DUE_STAT_STEPS, Reg.ANC_DUE_STAT_TIME, Reg.ANC_DUE_STAT_RISK,
    Reg.ANC_DUE_STAT_DUE] := by revert f; decide
  rw [Eng.on, Eng.dueFound, rd_raise_anchorDue hin, Eng.rd_flag_ne _ _ hne, rd_setKeep, Eng.on]

theorem on_dueFlags (e : Eng) : e.dueFlags.on Reg.ANC_DUE_STAT_STEPS = e.dueHolds 0 ∧
    e.dueFlags.on Reg.ANC_DUE_STAT_TIME = e.dueHolds 1 ∧ e.dueFlags.on Reg.ANC_DUE_STAT_RISK = e.dueHolds 2 := by
  rw [Eng.dueFlags]
  refine ⟨?_, ?_, Eng.on_flag_same _ _ (by decide)⟩
  · rw [Eng.on_flag_ne _ _ (by decide), Eng.on_flag_ne _ _ (by decide), Eng.on_flag_same _ _ (by decide)]
  · rw [Eng.on_flag_ne _ _ (by decide), Eng.on_flag_same _ _ (by decide)]

/-! ### The parts of an anchor's object (R356 to R358) -/

/-- An anchor whose written part has joined its object. -/
def Anchor.joined (a : Anchor) (w : Nat × List Byte) : Anchor := { a with object := a.object ++ [w], writing := none }

/-- What an anchor does next once a part before the trailer has joined. -/
def Anchor.goesOn (a : Anchor) : Anchor :=
  match a.part with
  | .manifest => { a with part := .records }
  | .records => { a with sent := a.sent + 1 }
  | .chunks => { a with part := .header }
  | .header | .trailer => { a with part := .trailer }

section
variable {e : Eng} {a : Anchor} (ha : e.keep.anchor = some a)
include ha

theorem setAnchor_some (f : Anchor → Anchor) :
    e.setAnchor f = { e with keep := { e.keep with anchor := some (f a) } } := by
  rw [Eng.setAnchor, Eng.setKeep, ha]
  rfl

variable {w : Nat × List Byte} (hw : a.writing = some w)
include hw

theorem storageDone_part (hpart : a.part ≠ .trailer) : e.storageDone true =
    ({ e with keep := { e.keep with anchor := some (a.joined w).goesOn } } : Eng).anchorStep := by
  simp only [Eng.storageDone, ha, hw, setAnchor_some ha]
  cases hp : a.part
  case trailer => exact absurd hp hpart
  all_goals
    simp only [Anchor.goesOn, Anchor.joined, hp]
    exact if_neg Bool.false_ne_true

theorem storageDone_trailer (hpart : a.part = .trailer) : e.storageDone true =
    ({ e with keep := { e.keep with anchor := some (a.joined w) } } : Eng).anchorDone (a.joined w) := by
  simp only [Eng.storageDone, ha, hw, hpart, setAnchor_some ha, Anchor.joined]
  exact if_neg Bool.false_ne_true

theorem storageDone_failed :
    e.storageDone false = if a.retries < 3 then e else e.abortAnchor stStorageError 0 := by
  simp only [Eng.storageDone, ha, hw]
  exact if_pos rfl

theorem storageRetry_over (h : 3 ≤ a.retries) : e.storageRetry = e := by
  simp only [Eng.storageRetry, ha, hw]
  exact if_pos h

theorem storageRetry_again (h : a.retries < 3) : e.storageRetry =
    (({ e with keep := { e.keep with anchor := some { a with retries := a.retries + 1 } } } : Eng).bump
      Reg.ANC_ERR_RETRIES).emit (.storageWrite a.handle w.1 w.2) := by
  simp only [Eng.storageRetry, ha, hw, setAnchor_some ha]
  exact if_neg (Nat.not_le.2 h)

end

/-! ### Restores and weight digests (R361, R378, R379) -/

theorem restoreRead_none {e : Eng} (h : e.keep.restore = none) (data : Option (List Byte)) : e.restoreRead data = e := by
  rw [Eng.restoreRead, h]

theorem weightDigest_none {e : Eng} (h : e.openWeights = []) : e.weightDigest = e := by
  rw [Eng.weightDigest, h]
  rfl

theorem weightDigest_first {e : Eng} {w : Nat} {rest : List Nat} (h : e.openWeights = w :: rest) : e.weightDigest =
    if e.weightReady w then
      ((e.weightDigestAt w).1.keepWeight w (e.weightDigestAt w).2).finishReady.pumpRuns.anchorStep
    else e := by
  simp only [Eng.weightDigest, h, List.head?_cons]
  cases e.weightReady w <;> rfl

/-! ### Quick digests (R369, R372) -/

theorem dig_setDig (e : Eng) (leaf n : Nat) (d : Dig) : (e.setDig leaf d).dig n = if n = leaf then d else e.dig n := by
  show (look (put e.digs leaf d) n).getD Dig.zero = _
  rw [look_put]
  split <;> rfl

/-- A leaf recomputed: its entry from its bytes, with the ledger and the table's lines told. -/
theorem recomputeDig_eq (e : Eng) (leaf : Nat) : ∃ keep unrep, e.recomputeDig leaf =
    (({ e with keep, unrep } : Eng).setDig leaf
      { e.dig leaf with cur := e.leafCrc leaf, current := true, priorValid := false }).bump Reg.DIG_STAT_RECOMPUTED := by
  unfold Eng.recomputeDig
  cases e.rgnAt (leaf * leafBytes) with
  | none => exact ⟨e.keep, _, rfl⟩
  | some r =>
    dsimp -zeta only
    cases r.streamed
    · exact ⟨e.keep, _, rfl⟩
    · exact ⟨{ e.keep with led := { e.keep.led with recomputed := true } }, _, rfl⟩

theorem recomputeDig_mem (e : Eng) (leaf : Nat) : (e.recomputeDig leaf).mem = e.mem := by
  obtain ⟨keep, unrep, h⟩ := recomputeDig_eq e leaf
  rw [h]
  rfl

theorem dig_recomputeDig (e : Eng) (leaf n : Nat) : (e.recomputeDig leaf).dig n =
    if n = leaf then { e.dig leaf with cur := e.leafCrc leaf, current := true, priorValid := false } else e.dig n := by
  obtain ⟨keep, unrep, h⟩ := recomputeDig_eq e leaf
  rw [h]
  exact dig_setDig _ leaf n _

/-! ### The commands -/

theorem exec_storageReadComplete {s : State} (hworks : s.eng.working = true) {data : Option (List Byte)} {e : Eng}
    (h : (quiet s).restoreRead data = e) : exec (.storageReadComplete data) s = .next (leaving s e.settle) :=
  next_leaving ((if_pos hworks).trans (congrArg Eng.settle h))

section
variable {s : State} (hactive : s.eng.locked = true ∧ s.eng.serving = true ∧ s.eng.boot.inReset = false)
include hactive

theorem quiet_active : ((quiet s).locked && (quiet s).serving && !(quiet s).boot.inReset) = true := by
  obtain ⟨hlocked, hserves, hruns⟩ := hactive
  have h : (s.eng.locked && s.eng.serving && !s.eng.boot.inReset) = true := by simp [hlocked, hserves, hruns]
  exact h

theorem exec_anchorDueTimer {e : Eng} (h : (quiet s).dueCheck = e) : exec .anchorDueTimer s = .next (leaving s e) :=
  next_leaving ((if_pos (quiet_active hactive)).trans h)

theorem exec_weightDigest {e : Eng} (h : (quiet s).weightDigest = e) : exec .weightDigest s = .next (leaving s e) :=
  next_leaving ((if_pos (quiet_active hactive)).trans h)

theorem exec_digestRecompute {leaf : BitVec 20} (hleaf : (quiet s).digLeaf (leaf.toNat * leafBytes) = true) {e : Eng}
    (h : (quiet s).needDig leaf.toNat = e) : exec (.digestRecompute leaf) s = .next (leaving s e) :=
  next_leaving ((if_pos (Bool.and_eq_true_iff.2 ⟨quiet_active hactive, hleaf⟩)).trans h)

end

/-- Settles O49: each command by what the engine finds, a written part by which part it is. -/
theorem anchorAndDigestCommandsAct : Obligations.AnchorAndDigestCommandsAct := by
  unfold Obligations.AnchorAndDigestCommandsAct
  intro s
  refine ⟨fun hactive hsteps hrisk hnew => ⟨fun hearly => exec_anchorDueTimer hactive (dueCheck_early hsteps hrisk ?early),
      fun hmins hlate => ?late⟩,
    fun a w ha hw => ?written, fun data hworks => exec_storageReadComplete hworks rfl,
    fun data hworks hnone => exec_storageReadComplete hworks (restoreRead_none hnone data),
    fun hactive hnone => exec_weightDigest hactive (weightDigest_none hnone),
    fun hactive w rest hfirst => ⟨fun hwaits => exec_weightDigest hactive
        ((weightDigest_first hfirst).trans (if_neg (Bool.eq_false_iff.1 hwaits))),
      fun hready => exec_weightDigest hactive ((weightDigest_first hfirst).trans (if_pos hready))⟩,
    fun hactive leaf hleaf => ⟨fun hcurrent => exec_digestRecompute hactive hleaf (if_pos hcurrent), fun hstale => ?recompute⟩⟩
  case early => exact fun ⟨hmins, hlate⟩ => hearly.elim hmins (Nat.not_lt.2 hlate)
  case late =>
    have htime : (quiet s).dueHolds 1 = true := dueHolds_time_iff.2 ⟨hmins, hlate⟩
    obtain ⟨hshowSteps, hshowTime, hshowRisk⟩ := on_dueFlags (quiet s)
    obtain ⟨hdue, hraised, hmem⟩ := dueFound_changes (quiet s).dueFlags 1
    exact ⟨_, exec_anchorDueTimer hactive (dueCheck_late hsteps hrisk hnew htime),
      (on_dueFound (by simp) _ 1).trans (hshowTime.trans htime), hdue,
      (on_dueFound (by simp) _ 1).trans (hshowSteps.trans (dueHolds_steps_disabled hsteps)),
      (on_dueFound (by simp) _ 1).trans (hshowRisk.trans (dueHolds_risk_disabled hrisk)),
      hraised.trans (congrArg (· ++ [1]) hnew), hmem⟩
  case written =>
    have hpart {p : AncPart} {x : Anchor} (hp : a.part = p) (hnot : p ≠ .trailer)
        (hx : (a.joined w).goesOn = x) : exec (.storageWriteComplete true) s = .next (leaving s
          (({ quiet s with keep := { (quiet s).keep with anchor := some x } } : Eng).anchorStep)) :=
      next_leaving ((storageDone_part ha hw (hp ▸ hnot)).trans (by rw [hx]))
    refine ⟨fun hp => hpart hp nofun ?_, fun hp => hpart hp nofun ?_, fun hp => hpart hp nofun ?_,
      fun hp => hpart hp nofun ?_, fun hp => next_leaving (storageDone_trailer ha hw hp),
      fun hfew => ⟨next_leaving ((storageDone_failed ha hw).trans (if_pos hfew)), next_leaving (storageRetry_again ha hw hfew)⟩,
      fun hmany => ⟨next_leaving ((storageDone_failed ha hw).trans (if_neg (Nat.not_lt.2 hmany))),
        next_leaving (storageRetry_over ha hw hmany)⟩⟩
    all_goals
      simp only [Anchor.goesOn, Anchor.joined, hp]
  case recompute =>
    have hsame := (dig_recomputeDig (quiet s) leaf.toNat leaf.toNat).trans (if_pos rfl)
    exact ⟨_, exec_digestRecompute hactive hleaf (if_neg (Bool.eq_false_iff.1 hstale)),
      congrArg Dig.cur hsame, congrArg Dig.current hsame, congrArg Dig.priorValid hsame, recomputeDig_mem _ _,
      fun n hn => (dig_recomputeDig _ _ n).trans (if_neg hn)⟩

end Sys2Proof.Machine
end

section
/-!
PROOF. The timeout of an open command (R456, R502).
-/
namespace Sys2Proof.Machine

/-! ### What an update of a field leaves of the engine -/

@[simp] theorem beyondNotices_wr (e : Eng) (f : Fld) (v : Nat) : (e.wr f v).beyondNotices = e.beyondNotices := (rfl)
@[simp] theorem beyondNotices_bump (e : Eng) (f : Fld) : (e.bump f).beyondNotices = e.beyondNotices := (rfl)
@[simp] theorem beyondNotices_raise (e : Eng) (src : Src) : (e.raise src).beyondNotices = e.beyondNotices :=
  (OnlyTells.refl e).raise.beyond

theorem q_of_beyondNotices {e e' : Eng} (h : e'.beyondNotices = e.beyondNotices) : e'.q = e.q := (congrArg Eng.q h :)
theorem mem_of_beyondNotices {e e' : Eng} (h : e'.beyondNotices = e.beyondNotices) : e'.mem = e.mem := (congrArg Eng.mem h :)
theorem rings_of_beyondNotices {e e' : Eng} (h : e'.beyondNotices = e.beyondNotices) : e'.rings = e.rings :=
  (congrArg Eng.rings h :)

/-- Fields at different bits of their registers are different. -/
theorem Fld.key_ne_of_lo {f g : Fld} (h : (f.lo % 64).beq (g.lo % 64) = false) : f.key ≠ g.key := by
  have hne := Nat.ne_of_beq_eq_false h
  rw [Fld.key, Fld.key]
  omega

/-! ### Completion (R502, R504) -/

/-- The engine once the mailbox `b` is ready. -/
def Eng.readied (e : Eng) (b : Nat) : Eng := { e with q := { e.q with mbox := put e.q.mbox b .ready } }

theorem readied_beyond {e e' : Eng} (h : e'.beyondNotices = e.beyondNotices) (b : Nat) :
    (e'.readied b).beyondNotices = (e.readied b).beyondNotices := (congrArg (·.readied b) h :)

theorem rd_readied (e : Eng) (b : Nat) (f : Fld) : (e.readied b).rd f = e.rd f := (rfl)

/-- The engine once the command `c` is closed and its mailbox ready, but for the registers that show it. -/
def Eng.closes (e : Eng) (c : OpenCmd) : Eng :=
  ({ e with q := { e.q with opens := e.q.opens.filter (fun x => x.id != c.id) } } : Eng).readied c.mailbox

/-- The words of a mailbox's result. -/
def Eng.putWords (e : Eng) (b : Nat) (data : List Byte) : Eng :=
  e.each (List.range 28) (fun n e => e.wr (Reg.MBX_DATA_WORD b n) (fieldAt data (4 * n) 4))

theorem readyMbox_eq (e : Eng) (b status reason addr : Nat) (data : List Byte) : e.readyMbox b status reason addr data =
    ((((e.wr (Reg.MBX_AUX_REASON b) reason).wr (Reg.MBX_AUX_ADDR b) addr).putWords b data).wr (Reg.MBX_HDR_STATUS b)
      status).readied b := (rfl)

theorem putWords_beyond (e : Eng) (b : Nat) (data : List Byte) : (e.putWords b data).beyondNotices = e.beyondNotices :=
  Eng.each_keeps (P := fun x => x.beyondNotices = e.beyondNotices) _ (fun _ _ _ h => (beyondNotices_wr _ _ _).trans h) rfl

theorem readyMbox_beyond (e : Eng) (b status reason addr : Nat) (data : List Byte) :
    (e.readyMbox b status reason addr data).beyondNotices = (e.readied b).beyondNotices := by
  rw [readyMbox_eq]
  refine readied_beyond ?_ b
  rw [beyondNotices_wr, putWords_beyond, beyondNotices_wr, beyondNotices_wr]

theorem rd_readyMbox_status (e : Eng) (b status reason addr : Nat) (data : List Byte) :
    (e.readyMbox b status reason addr data).rd (Reg.MBX_HDR_STATUS b) = status % 2 ^ 16 := by
  rw [readyMbox_eq, rd_readied]
  exact Eng.rd_wr_same _ _ _

theorem cmd_closes (e : Eng) (c : OpenCmd) : (e.closes c).cmd c.id = none :=
  List.find?_eq_none.2 fun x hx => by simpa using (List.mem_filter.1 hx).2

/-- No event of a source writes the status of a mailbox. -/
theorem rd_raise_status (e : Eng) (src : Src) (b : Nat) :
    (e.raise src).rd (Reg.MBX_HDR_STATUS b) = e.rd (Reg.MBX_HDR_STATUS b) :=
  rd_raise (fun g hg => by cases hg <;> exact Fld.key_ne_of_lo rfl) e

theorem completeWith_closed {e : Eng} {id : Nat} (h : e.cmd id = none) (status reason addr : Nat) (data : List Byte) :
    e.completeWith id status reason addr data = e := by
  rw [Eng.completeWith, h]

section
variable {e : Eng} {c : OpenCmd} (h : e.cmd c.id = some c) (status reason addr : Nat) (data : List Byte)
include h

theorem completeWith_beyond : (e.completeWith c.id status reason addr data).beyondNotices = (e.closes c).beyondNotices := by
  rw [Eng.completeWith, h]
  dsimp only
  rw [apply_ite Eng.beyondNotices, beyondNotices_raise, ite_self, beyondNotices_bump, beyondNotices_wr,
    apply_ite Eng.beyondNotices, beyondNotices_bump, ite_self]
  exact readyMbox_beyond _ _ _ _ _ _

/-- The status of a completed command stands in its mailbox: nothing that is told after it writes there. -/
theorem rd_completeWith_status :
    (e.completeWith c.id status reason addr data).rd (Reg.MBX_HDR_STATUS c.mailbox) = status % 2 ^ 16 := by
  rw [Eng.completeWith, h]
  dsimp only
  rw [apply_ite (Eng.rd · _), rd_raise_status, ite_self, Eng.rd_bump_ne _ (Fld.key_ne_of_lo rfl),
    Eng.rd_wr_ne _ _ (Fld.key_ne_of_lo rfl), apply_ite (Eng.rd · _),
    Eng.rd_bump_ne _ (Fld.key_ne_of_lo rfl), ite_self]
  exact rd_readyMbox_status _ _ _ _ _ _

end

/-! ### The timeout -/

/-- A join dropped with its command: only the joins that are held change. -/
theorem dropJoin_eq (e : Eng) (op : Op) : ∃ heldJoins, e.dropJoin op = { e with heldJoins } := by
  unfold Eng.dropJoin
  split
  · exact ⟨_, rfl⟩
  · exact ⟨e.heldJoins, rfl⟩

theorem rd_dropJoin (e : Eng) (op : Op) (f : Fld) : (e.dropJoin op).rd f = e.rd f := by
  obtain ⟨heldJoins, h⟩ := dropJoin_eq e op
  rw [h]
  rfl

/-- The engine once the open command `c` has timed out. -/
def Eng.timesOut (e : Eng) (c : OpenCmd) : Eng := ((e.endCmd c 0x0050).raise .CMD_TIMEOUT).dropJoin c.op

section
variable {e : Eng} {c : OpenCmd} (h : e.cmd c.id = some c)
include h

theorem endCmd_keeps (status : Nat) :
    (e.endCmd c status).q = (e.closes c).q ∧ (e.endCmd c status).mem = e.mem ∧ (e.endCmd c status).rings = e.rings := by
  have hdone := completeWith_beyond h status 0 0 (e.openResult c).1
  rw [Eng.endCmd, Eng.useFree_q, Eng.useFree_mem, Eng.useFree_rings]
  exact ⟨q_of_beyondNotices hdone, (mem_of_beyondNotices hdone :), (rings_of_beyondNotices hdone :)⟩

theorem timesOut_keeps : (e.timesOut c).q = (e.closes c).q ∧ (e.timesOut c).mem = e.mem ∧ (e.timesOut c).rings = e.rings := by
  obtain ⟨heldJoins, hdrop⟩ := dropJoin_eq ((e.endCmd c 0x0050).raise .CMD_TIMEOUT) c.op
  have hraise := beyondNotices_raise (e.endCmd c 0x0050) .CMD_TIMEOUT
  obtain ⟨hq, hmem, hrings⟩ := endCmd_keeps h 0x0050
  rw [Eng.timesOut, hdrop]
  exact ⟨(q_of_beyondNotices hraise).trans hq, (mem_of_beyondNotices hraise).trans hmem,
    (rings_of_beyondNotices hraise).trans hrings⟩

theorem rd_timesOut_status : (e.timesOut c).rd (Reg.MBX_HDR_STATUS c.mailbox) = 0x0050 := by
  rw [Eng.timesOut, rd_dropJoin, rd_raise_status, Eng.endCmd, Eng.rd_useFree]
  exact rd_completeWith_status h 0x0050 0 0 _

end

theorem exec_commandTimeout {s : State} {b : BitVec 8} {c : OpenCmd}
    (h : s.eng.q.opens.find? (fun x => x.mailbox == b.toNat) = some c) :
    exec (.commandTimeout b) s = .next (leaving s ((quiet s).timesOut c)) := by
  have hquiet : (quiet s).q.opens.find? (fun x => x.mailbox == b.toNat) = some c := h
  simp only [exec, execCommandTimeout, State.run_eq, hquiet]
  rfl

/-- Settles O33: the command is closed before anything is told of it, and what is told leaves the queues. -/
theorem timeoutsCompleteTheirCommand : Obligations.TimeoutsCompleteTheirCommand := by
  unfold Obligations.TimeoutsCompleteTheirCommand
  intro s b c hfind huniq _
  have hmem : c ∈ s.eng.q.opens := List.mem_of_find?_eq_some hfind
  have hbox : c.mailbox = b.toNat := by simpa using List.find?_some hfind
  have hcmd : (quiet s).cmd c.id = some c := by
    have hsome : (s.eng.q.opens.find? (fun x => x.id == c.id)).isSome := List.find?_isSome.2 ⟨c, hmem, by simp⟩
    obtain ⟨x, hx⟩ := Option.isSome_iff_exists.1 hsome
    have hxc : x = c := huniq x (List.mem_of_find?_eq_some hx) (by simpa using List.find?_some hx)
    exact hxc ▸ hx
  obtain ⟨hq, hmemory, hrings⟩ := timesOut_keeps hcmd
  have hmbox (n : Nat) : look ((quiet s).timesOut c).q.mbox n = look (put s.eng.q.mbox b.toNat .ready) n := by
    rw [hq, ← hbox]
    rfl
  refine ⟨(quiet s).timesOut c, exec_commandTimeout hfind, rfl, (hmbox _).trans (look_put_same _ _ _), ?status,
    congrArg Queues.opens hq, fun st reason addr data => completeWith_closed ?gone _ _ _ _,
    fun n hn => (hmbox n).trans (look_put_ne _ _ hn), hmemory, hrings⟩
  case status => exact hbox ▸ rd_timesOut_status hcmd
  case gone =>
    rw [Eng.cmd, hq]
    exact cmd_closes _ _

end Sys2Proof.Machine
end

section
/-!
PROOF. The machine: the queue of commands, the cycle of the time clock with none waiting, and the state right after reset.
-/
namespace Sys2Proof.Machine

/-! ### What a command does -/

/-- A meaning that is an effect on the engine. -/
def IsEffect (x : State → Host.Outcome State Fault Refusal) : Prop := ∃ f : Eng → Eng, ∀ s, x s = .next (s.run f)

/-- A meaning that is an effect on the engine unless the line it names lies beyond local memory (log entry 86). -/
def IsEffectInside (line : Nat) (x : State → Host.Outcome State Fault Refusal) : Prop :=
  ∃ f : Eng → Eng, ∀ s, x s = if s.eng.memSize ≤ 64 * line then .fault .outsideMemory else .next (s.run f)

/-- Every command is an effect on the engine, of two those whose line lies in local memory. -/
theorem exec_effect (c : Instr) : IsEffect (exec c) ∨
    (∃ line old new src bark, c = .tapPair line old new src bark ∧ IsEffectInside line.toNat (exec c)) ∨
    (∃ port id line bad, c = .referredRead port id line bad ∧ IsEffectInside line.toNat (exec c)) := by
  cases c
  case tapPair => exact .inr (.inl ⟨_, _, _, _, _, rfl, _, fun _ => rfl⟩)
  case referredRead => exact .inr (.inr ⟨_, _, _, _, rfl, _, fun _ => rfl⟩)
  all_goals exact .inl ⟨_, fun _ => rfl⟩

/-- Settles O1: a step takes the front of the queue. -/
theorem stepRunsTheFrontCommand : Obligations.StepRunsTheFrontCommand := by
  unfold Obligations.StepRunsTheFrontCommand
  intro c rest s h
  rw [step, h]

/-- An effect on the engine completes, keeps the queue, is never refused and does not depend on the last actions. -/
theorem IsEffect.laws {x : State → Host.Outcome State Fault Refusal} (h : IsEffect x) (s : State) :
    (∀ t, x s = .next t → t.pending = s.pending) ∧
    (∀ o : List Action, x { s with eng := { s.eng with out := o } } = x s) ∧ (∀ r, x s ≠ .refused r) ∧
    ∃ e, x s = .next (leaving s e) := by
  obtain ⟨f, hf⟩ := h
  refine ⟨fun t ht => ?_, fun o => by rw [hf, hf]; rfl, fun r => by rw [hf]; nofun, f (quiet s), hf s⟩
  rw [hf] at ht
  cases ht
  rfl

/-- So does one that names a line, but that it faults where the line lies beyond local memory. -/
theorem IsEffectInside.laws {line : Nat} {x : State → Host.Outcome State Fault Refusal} (h : IsEffectInside line x)
    (s : State) : (∀ t, x s = .next t → t.pending = s.pending) ∧
    (∀ o : List Action, x { s with eng := { s.eng with out := o } } = x s) ∧ (∀ r, x s ≠ .refused r) ∧
    (64 * line < s.eng.memSize → ∃ e, x s = .next (leaving s e)) := by
  obtain ⟨f, hf⟩ := h
  refine ⟨fun t ht => ?_, fun o => by rw [hf, hf]; rfl, fun r => ?_, fun hin => ⟨f (quiet s), ?_⟩⟩
  · rw [hf] at ht
    split at ht
    · cases ht
    · cases ht
      rfl
  · rw [hf]
    split <;> nofun
  · rw [hf, if_neg (Nat.not_le.2 hin)]
    rfl

/-- Settles O4: every command is an effect on the engine, of two those whose line lies in local memory. -/
theorem commandsLeaveTheQueueAndForgetTheLastActions : Obligations.CommandsLeaveTheQueueAndForgetTheLastActions := by
  unfold Obligations.CommandsLeaveTheQueueAndForgetTheLastActions
  intro c s
  obtain h | ⟨line, old, new, src, bark, rfl, h⟩ | ⟨port, id, line, bad, rfl, h⟩ := exec_effect c
  · obtain ⟨hqueue, hout, hasked, hdone⟩ := h.laws s
    exact ⟨hqueue, hout, hasked, fun _ _ => hdone⟩
  · obtain ⟨hqueue, hout, hasked, hdone⟩ := h.laws s
    exact ⟨hqueue, hout, hasked, fun htap _ => hdone (htap _ _ _ _ _ rfl)⟩
  · obtain ⟨hqueue, hout, hasked, hdone⟩ := h.laws s
    exact ⟨hqueue, hout, hasked, fun _ hread => hdone (hread _ _ _ _ rfl)⟩

/-! ### Reset -/

/-- Settles O3: no table lists anything, so that every register field reads its reset value and every byte 0. -/
theorem resetLeavesEverythingClear : Obligations.ResetLeavesEverythingClear := by
  unfold Obligations.ResetLeavesEverythingClear
  have hkept : WellKept State.reset.eng :=
    { regs := .nil, mem := ⟨.nil, nofun⟩, descs := ⟨.nil, nofun⟩, progs := ⟨.nil, nofun⟩, syncs := .nil, ctxs := .nil,
      digs := .nil }
  exact ⟨rfl, fun f => rfl, by decide, fun n => rfl, fun a => rfl, by decide, rfl, rfl, rfl, rfl, fun b => rfl, rfl, hkept⟩

/-! ### The cycle of the time clock (R466) -/

/-- What every effect of a list leaves of a field, the list leaves. -/
theorem rd_each {α : Type} {f : Fld} {g : α → Eng → Eng} (h : ∀ x e, (g x e).rd f = e.rd f) (xs : List α) (e : Eng) :
    (e.each xs g).rd f = e.rd f :=
  Eng.each_keeps (P := fun e' => e'.rd f = e.rd f) xs (fun x _ e' he => (h x e').trans he) rfl

/-- Before its alarm engine time only passes. -/
theorem alarmCheck_before {e : Eng} (h : e.rd Reg.TIM_ALARM_NS = 0 ∨ e.now < e.rd Reg.TIM_ALARM_NS) : e.alarmCheck = e := by
  refine if_neg ?_
  rw [Bool.and_eq_true, bne_iff_ne, decide_eq_true_eq]
  omega

theorem tick_full {e : Eng} (h : e.time.slew = none) :
    e.tick = (e.setAcc (e.time.acc + e.rd Reg.TIM_RATE_INC)).alarmCheck := by
  rw [Eng.tick, h]

theorem repeatAsks_none {e : Eng} (h : ∀ q ∈ e.ports, q.asks = []) : e.repeatAsks = e := by
  refine if_pos (List.all_eq_true.2 fun q hq => ?_)
  rw [h q hq]
  rfl

theorem countPrbs_none {e : Eng} (h : ∀ p < 4, e.checking p = false) : e.countPrbs = e := by
  have hnone : (List.range 4).filter e.checking = [] :=
    List.filter_eq_nil_iff.2 fun p hp => Bool.not_eq_true _ ▸ h p (List.mem_range.1 hp)
  rw [Eng.countPrbs, hnone]
  rfl

theorem checking_iff (e : Eng) (p : Nat) :
    e.checking p = true ↔ e.on (Reg.GP_TEST_RUN p) = true ∧ e.rd (Reg.GP_TEST_MODE p) ∈ [1, 2, 4] := by
  simp [Eng.checking, or_assoc]

/-! ### Symbol errors under test (R313) -/

/-- The registers of a test of lanes: its run, its mode and the error counts. -/
inductive Fld.OfTest : Fld → Prop where
  | run (p : Nat) (hp : p < 4) : OfTest (Reg.GP_TEST_RUN p)
  | mode (p : Nat) : OfTest (Reg.GP_TEST_MODE p)
  | count (p l : Nat) (hp : p < 4) (hl : l < 16) : OfTest (Reg.GP_PRBS_ERR_COUNT p l)

/-- Fields of different registers are different. -/
theorem Fld.key_ne_of_off {f g : Fld} (hf : f.lo < 64) (hg : g.lo < 64) (h : f.off ≠ g.off) : f.key ≠ g.key := by
  rw [Fld.key, Fld.key]
  omega

theorem Fld.OfTest.ne_shown {f g : Fld} (hf : f.OfTest) (hg : g.ShowsEvent (srcNum .TIME_ALARM)) : f.key ≠ g.key := by
  cases hf with
  | run p hp =>
    cases hg with
    | pending =>
      refine Fld.key_ne_of_off (f := Reg.GP_TEST_RUN p) (by decide : 31 < 64) (by decide) ?_
      simp only [Reg.GP_TEST_RUN, Reg.INT_SRC_CFG_PENDING, srcNum]
      omega
    | _ => exact Fld.key_ne_of_lo rfl
  | mode p => cases hg <;> exact Fld.key_ne_of_lo rfl
  | count p l hp hl => cases hg <;> exact Fld.key_ne_of_lo rfl

theorem Fld.OfTest.ne_alarm {f : Fld} (hf : f.OfTest) : f.key ≠ Reg.TIM_ALARM_NS.key := by
  cases hf with
  | run p hp => exact Fld.key_ne_of_lo rfl
  | mode p =>
    simp only [Fld.key, Reg.GP_TEST_MODE, Reg.TIM_ALARM_NS]
    omega
  | count p l hp hl =>
    simp only [Fld.key, Reg.GP_PRBS_ERR_COUNT, Reg.TIM_ALARM_NS]
    omega

/-- A cycle moves engine time, and then looks at the alarm. -/
theorem tick_eq (e : Eng) : ∃ time, e.tick = ({ e with time } : Eng).alarmCheck := by
  dsimp only [Eng.tick]
  split
  · exact ⟨_, rfl⟩
  · refine ⟨_, congrArg Eng.alarmCheck (apply_ite (fun time => ({ e with time } : Eng)) _ _ _).symm⟩

section
variable {f : Fld} (hf : f.OfTest) (e : Eng)
include hf

theorem rd_alarmCheck : e.alarmCheck.rd f = e.rd f := by
  dsimp only [Eng.alarmCheck]
  split
  · rw [Eng.rd_wr_ne _ _ hf.ne_alarm, rd_raise fun g => hf.ne_shown]
  · rfl

theorem rd_tick : e.tick.rd f = e.rd f := by
  obtain ⟨time, h⟩ := tick_eq e
  rw [h, rd_alarmCheck hf]
  rfl

end

theorem fuses_alarmCheck (e : Eng) : e.alarmCheck.fuses = e.fuses := by
  dsimp only [Eng.alarmCheck]
  split
  · exact (congrArg Eng.fuses (OnlyTells.refl e).raise.beyond :)
  · rfl

theorem fuses_tick (e : Eng) : e.tick.fuses = e.fuses := by
  obtain ⟨time, h⟩ := tick_eq e
  rw [h, fuses_alarmCheck]

theorem rd_repeatAsks (e : Eng) (f : Fld) : e.repeatAsks.rd f = e.rd f := by
  dsimp only [Eng.repeatAsks]
  split
  · rfl
  · exact rd_each (fun p e => rd_each (fun m e => (Eng.rd_emit _ _ f : (e.ctl p m).rd f = e.rd f)) _ e) _ _

theorem prbsCount_key_inj {p l p' l' : Nat} (hl : l < 16) (hl' : l' < 16)
    (h : (Reg.GP_PRBS_ERR_COUNT p l).key = (Reg.GP_PRBS_ERR_COUNT p' l').key) : p = p' ∧ l = l' := by
  simp only [Fld.key, Reg.GP_PRBS_ERR_COUNT] at h
  omega

/-- One lane's errors of a cycle are counted. -/
def Eng.laneErrors (p l : Nat) (e : Eng) : Eng :=
  (e.useFree 1).wr (Reg.GP_PRBS_ERR_COUNT p l)
    (min (e.rd (Reg.GP_PRBS_ERR_COUNT p l) + (Config.freeWord e.free).toNat % 256) 0xFFFFFFFE)

theorem prbsErrors_eq (p : Nat) (e : Eng) : e.prbsErrors p = e.each ((List.range 16).filter (fun l =>
    bit e.fuses.lanes (16 * p + l) && e.rd (Reg.GP_PRBS_ERR_COUNT p l) != 0xFFFFFFFF)) (Eng.laneErrors p) := (rfl)

theorem fuses_prbsErrors (p : Nat) (e : Eng) : (e.prbsErrors p).fuses = e.fuses := by
  rw [prbsErrors_eq]
  exact Eng.each_keeps (f := Eng.laneErrors p) (P := fun x => x.fuses = e.fuses) _ (fun _ _ _ h => h) rfl

section
variable {p l : Nat} (hl : l < 16)
include hl

theorem rd_laneErrors_ne {q k : Nat} (hk : k < 16) (h : p = q → l ≠ k) (e : Eng) :
    (e.laneErrors q k).rd (Reg.GP_PRBS_ERR_COUNT p l) = e.rd (Reg.GP_PRBS_ERR_COUNT p l) := by
  refine Eng.rd_wr_ne _ _ fun hkey => ?_
  obtain ⟨hp, hlane⟩ := prbsCount_key_inj hl hk hkey
  exact h hp hlane

/-- An error count that a test has opened only grows, up to 0xFFFF_FFFE. -/
theorem rd_laneErrors_grows {n q k : Nat} (hk : k < 16) {e : Eng}
    (h : n ≤ e.rd (Reg.GP_PRBS_ERR_COUNT p l) ∧ e.rd (Reg.GP_PRBS_ERR_COUNT p l) ≤ 0xFFFFFFFE) :
    n ≤ (e.laneErrors q k).rd (Reg.GP_PRBS_ERR_COUNT p l) ∧
      (e.laneErrors q k).rd (Reg.GP_PRBS_ERR_COUNT p l) ≤ 0xFFFFFFFE := by
  by_cases hsame : p = q ∧ l = k
  · obtain ⟨rfl, rfl⟩ := hsame
    rw [Eng.laneErrors, Eng.rd_wr_same]
    simp only [Reg.GP_PRBS_ERR_COUNT] at h ⊢
    omega
  · rwa [rd_laneErrors_ne hl hk fun hp hlane => hsame ⟨hp, hlane⟩]

theorem rd_prbsErrors_grows {n : Nat} (q : Nat) {e : Eng}
    (h : n ≤ e.rd (Reg.GP_PRBS_ERR_COUNT p l) ∧ e.rd (Reg.GP_PRBS_ERR_COUNT p l) ≤ 0xFFFFFFFE) :
    n ≤ (e.prbsErrors q).rd (Reg.GP_PRBS_ERR_COUNT p l) ∧ (e.prbsErrors q).rd (Reg.GP_PRBS_ERR_COUNT p l) ≤ 0xFFFFFFFE := by
  rw [prbsErrors_eq]
  exact Eng.each_keeps (P := fun x => n ≤ x.rd (Reg.GP_PRBS_ERR_COUNT p l) ∧ x.rd (Reg.GP_PRBS_ERR_COUNT p l) ≤ 0xFFFFFFFE) _
    (fun k hk e he => rd_laneErrors_grows hl (List.mem_range.1 (List.mem_filter.1 hk).1) he) h

/-- The count of a lane that is not checked stays. -/
theorem rd_prbsErrors_unchecked {q : Nat} {e : Eng}
    (h : p = q → bit e.fuses.lanes (16 * p + l) = false ∨ e.rd (Reg.GP_PRBS_ERR_COUNT p l) = 0xFFFFFFFF) :
    (e.prbsErrors q).rd (Reg.GP_PRBS_ERR_COUNT p l) = e.rd (Reg.GP_PRBS_ERR_COUNT p l) := by
  rw [prbsErrors_eq]
  refine Eng.each_keeps (P := fun x => x.rd (Reg.GP_PRBS_ERR_COUNT p l) = e.rd (Reg.GP_PRBS_ERR_COUNT p l)) _
    (fun k hk x hx => (rd_laneErrors_ne hl (List.mem_range.1 (List.mem_filter.1 hk).1) ?_ x).trans hx) rfl
  rintro rfl rfl
  obtain ⟨-, hcounted⟩ := List.mem_filter.1 hk
  rw [Bool.and_eq_true, bne_iff_ne] at hcounted
  obtain hlane | hunlocked := h rfl
  · exact absurd hcounted.1 (by rw [hlane]; decide)
  · exact hcounted.2 hunlocked

theorem rd_countPrbs_grows {n : Nat} {e : Eng}
    (h : n ≤ e.rd (Reg.GP_PRBS_ERR_COUNT p l) ∧ e.rd (Reg.GP_PRBS_ERR_COUNT p l) ≤ 0xFFFFFFFE) :
    n ≤ e.countPrbs.rd (Reg.GP_PRBS_ERR_COUNT p l) ∧ e.countPrbs.rd (Reg.GP_PRBS_ERR_COUNT p l) ≤ 0xFFFFFFFE :=
  Eng.each_keeps (P := fun x => n ≤ x.rd (Reg.GP_PRBS_ERR_COUNT p l) ∧ x.rd (Reg.GP_PRBS_ERR_COUNT p l) ≤ 0xFFFFFFFE) _
    (fun _ _ _ he => rd_prbsErrors_grows hl _ he) h

theorem rd_countPrbs_unchecked {e : Eng} (h : e.checking p = true →
      bit e.fuses.lanes (16 * p + l) = false ∨ e.rd (Reg.GP_PRBS_ERR_COUNT p l) = 0xFFFFFFFF) :
    e.countPrbs.rd (Reg.GP_PRBS_ERR_COUNT p l) = e.rd (Reg.GP_PRBS_ERR_COUNT p l) := by
  refine (Eng.each_keeps (P := fun x => x.rd (Reg.GP_PRBS_ERR_COUNT p l) = e.rd (Reg.GP_PRBS_ERR_COUNT p l) ∧
    x.fuses = e.fuses) _ ?_ ⟨rfl, rfl⟩ : _ ∧ _).1
  rintro q hq x ⟨hcount, hfuses⟩
  refine ⟨(rd_prbsErrors_unchecked hl ?_).trans hcount, (fuses_prbsErrors q x).trans hfuses⟩
  rintro rfl
  rw [hcount, hfuses]
  exact h (List.mem_filter.1 hq).2

end

/-- Settles O2: the cycle moves engine time, looks at the alarm and counts the errors of the lanes under test. -/
theorem emptyQueueIsOneTimeClockCycle : Obligations.EmptyQueueIsOneTimeClockCycle := by
  unfold Obligations.EmptyQueueIsOneTimeClockCycle
  intro s hqueue
  have hstep : step s = .next (leaving s (quiet s).idle) := by rw [step, hqueue]; rfl
  refine ⟨fun hpower => ?_, fun hpower hslew hasks htest halarm => ?_, fun hpower => ?_⟩
  · have hidle : (quiet s).idle = quiet s := if_neg (ne_of_eq_of_ne hpower Bool.false_ne_true)
    rw [hstep, hidle]
  · have hidle : (quiet s).idle = (quiet s).tick.countPrbs.repeatAsks := if_pos hpower
    have hpassed : (quiet s).tick = (quiet s).setAcc (s.eng.time.acc + s.eng.rd Reg.TIM_RATE_INC) :=
      (tick_full (e := quiet s) hslew).trans (alarmCheck_before halarm)
    rw [hstep, hidle, hpassed, countPrbs_none, repeatAsks_none]
    · rfl
    · exact hasks
    · intro p hp
      refine Bool.eq_false_iff.2 fun hchecking => ?_
      obtain ⟨hrun, hmode⟩ := (checking_iff (quiet s) p).1 hchecking
      obtain hoff | hoff := htest p hp
      · exact Bool.false_ne_true (hoff.symm.trans hrun)
      · exact hoff hmode
  · have hidle : (quiet s).idle = (quiet s).tick.countPrbs.repeatAsks := if_pos hpower
    refine ⟨_, hstep, fun p hp l hl => ?_⟩
    have hcount : (quiet s).tick.rd (Reg.GP_PRBS_ERR_COUNT p l) = s.eng.rd (Reg.GP_PRBS_ERR_COUNT p l) :=
      rd_tick (.count p l hp hl) _
    rw [hidle, rd_repeatAsks]
    refine ⟨fun _ hle => ?_, fun hunchecked => ?_⟩
    · exact rd_countPrbs_grows hl (by rw [hcount]; exact ⟨Nat.le_refl _, hle⟩)
    · rw [rd_countPrbs_unchecked hl, hcount]
      intro hchecking
      rw [hcount, fuses_tick]
      obtain ⟨hrun, hmode⟩ := (checking_iff _ p).1 hchecking
      rw [Eng.on, rd_tick (.run p hp)] at hrun
      rw [rd_tick (.mode p)] at hmode
      by_contra hboth
      obtain ⟨hlane, hlocked⟩ := not_or.1 hboth
      exact hunchecked ⟨hrun, hmode, Bool.not_eq_false _ ▸ hlane, hlocked⟩

end Sys2Proof.Machine
end

section
/-!
PROOF. Sync objects and their watches (R475 to R477).
-/
namespace Sys2Proof.Machine

/-! ### What an engine write to local memory leaves -/

/-- The engine but for local memory and what follows its writes: the heartwood cache, the digests, the dirty bitmaps, the
repairs and the lines not repaired. -/
def Eng.beyondMemory (e : Eng) : Eng :=
  { e with mem := [], ctxs := [], digs := [], hwc := [], evac := Eng.reset.evac, unrep := [], recons := [] }

theorem regs_of_beyondMemory {e e' : Eng} (h : e'.beyondMemory = e.beyondMemory) : e'.regs = e.regs :=
  (congrArg Eng.regs h :)
theorem syncs_of_beyondMemory {e e' : Eng} (h : e'.beyondMemory = e.beyondMemory) : e'.syncs = e.syncs :=
  (congrArg Eng.syncs h :)

@[simp] theorem beyondMemory_memWrite (e : Eng) (a : Nat) (bs : List Byte) :
    (e.memWrite a bs).beyondMemory = e.beyondMemory := (rfl)
@[simp] theorem beyondMemory_freshLines (e : Eng) (a n : Nat) : (e.freshLines a n).beyondMemory = e.beyondMemory := (rfl)

theorem beyondMemory_evictHw (e : Eng) : e.evictHw.beyondMemory = e.beyondMemory := by
  unfold Eng.evictHw
  split <;> rfl

theorem beyondMemory_hwChange (e : Eng) (n : Nat) (h : List Byte) : (e.hwChange n h).beyondMemory = e.beyondMemory := by
  dsimp only [Eng.hwChange]
  split
  · exact beyondMemory_evictHw _
  · rfl

theorem beyondMemory_noteWrote (e : Eng) (a n : Nat) : (e.noteWrote a n).beyondMemory = e.beyondMemory := by
  unfold Eng.noteWrote
  split <;> rfl

theorem beyondMemory_foldDig (e : Eng) (a : Nat) (delta : List Byte) : (e.foldDig a delta).beyondMemory = e.beyondMemory := by
  unfold Eng.foldDig
  split <;> rfl

theorem beyondMemory_setBitmapLine (e : Eng) (i v : Nat) : (e.setBitmapLine i v).beyondMemory = e.beyondMemory := by
  dsimp only [Eng.setBitmapLine]
  split
  · rfl
  · split
    · rw [beyondMemory_memWrite, beyondMemory_hwChange]
      rfl
    · rfl

theorem beyondMemory_markDirty (e : Eng) (a : Nat) : (e.markDirty a).beyondMemory = e.beyondMemory := by
  dsimp only [Eng.markDirty]
  split
  · exact beyondMemory_setBitmapLine _ _ _
  · rfl

theorem beyondMemory_touch (e : Eng) (a : Nat) (delta : List Byte) : (e.touch a delta).beyondMemory = e.beyondMemory := by
  dsimp only [Eng.touch]
  rw [beyondMemory_markDirty, beyondMemory_foldDig, beyondMemory_noteWrote]
  split
  · exact beyondMemory_hwChange _ _ _
  · rfl

theorem beyondMemory_storeIn (e : Eng) (a : Nat) (bs : List Byte) : (e.storeIn a bs).beyondMemory = e.beyondMemory := by
  rw [Eng.storeIn, beyondMemory_freshLines, beyondMemory_touch, beyondMemory_memWrite]

theorem beyondMemory_store (e : Eng) (a : Nat) (bs : List Byte) : (e.store a bs).beyondMemory = e.beyondMemory := by
  refine Eng.each_keeps (P := fun e' => e'.beyondMemory = e.beyondMemory) _ (fun p _ e' h => ?_) rfl
  split
  · exact h
  · exact (beyondMemory_storeIn _ _ _).trans h

/-! ### A change of an object -/

/-- The engine once an object has a value, below 2^64. -/
def Eng.putSync (e : Eng) (n m : Nat) : Eng := { e with syncs := if m = 0 then cut e.syncs n else put e.syncs n m }

/-- The watches on an object. -/
def Eng.watching (e : Eng) (n : Nat) : List Nat := (List.range 64).filter (fun i => e.rd (Reg.SYN_WATCH_CTL_OBJ i) == n)

theorem setSync_eq (e : Eng) (n v : Nat) : e.setSync n v =
    ((e.putSync n (v % 2 ^ 64)).syncMirror n).each (((e.putSync n (v % 2 ^ 64)).syncMirror n).watching n)
      (fun i e => e.watchCheck i) := (rfl)

theorem sync_putSync {e : Eng} (h : SMap.Sorted e.syncs) (n m k : Nat) :
    (e.putSync n m).sync k = if k = n then m else e.sync k := by
  simp only [Eng.sync, Eng.putSync]
  split
  · next hzero =>
    rw [look_cut h, hzero]
    split <;> rfl
  · rw [look_put]
    split <;> rfl

theorem syncs_syncMirror (e : Eng) (n : Nat) : (e.syncMirror n).syncs = e.syncs := by
  dsimp only [Eng.syncMirror]
  split
  · split
    · exact syncs_of_beyondMemory (beyondMemory_store _ _ _)
    · rfl
  · rfl

theorem syncs_watchCheck (e : Eng) (i : Nat) : (e.watchCheck i).syncs = e.syncs := by
  unfold Eng.watchCheck
  split
  · exact (congrArg Eng.syncs (OnlyTells.refl (e.wr _ _)).raise.beyond :)
  · rfl

theorem syncs_setSync (e : Eng) (n v : Nat) : (e.setSync n v).syncs = (e.putSync n (v % 2 ^ 64)).syncs := by
  rw [setSync_eq]
  exact Eng.each_keeps (P := fun e' => e'.syncs = (e.putSync n (v % 2 ^ 64)).syncs) _
    (fun i _ e' h => (syncs_watchCheck e' i).trans h) (syncs_syncMirror _ _)

theorem sync_setSync {e : Eng} (h : SMap.Sorted e.syncs) (n v k : Nat) :
    (e.setSync n v).sync k = if k = n then v % 2 ^ 64 else e.sync k := by
  rw [Eng.sync, syncs_setSync, ← sync_putSync h]
  rfl

theorem rd_syncMirror (e : Eng) (n : Nat) {f : Fld} (h : f.key ≠ Reg.SYN_MEM_BAD.key) : (e.syncMirror n).rd f = e.rd f := by
  dsimp only [Eng.syncMirror]
  split
  · split
    · exact Eng.rd_congr (regs_of_beyondMemory (beyondMemory_store _ _ _)) f
    · exact Eng.rd_flag_ne _ _ h
  · rfl

theorem setSync_unwatched {e : Eng} {n : Nat} (h : ∀ i < 64, e.rd (Reg.SYN_WATCH_CTL_OBJ i) ≠ n) (v : Nat) :
    e.setSync n v = (e.putSync n (v % 2 ^ 64)).syncMirror n := by
  have hnone : ((e.putSync n (v % 2 ^ 64)).syncMirror n).watching n = [] := by
    refine List.filter_eq_nil_iff.2 fun i hi hobj => h i (List.mem_range.1 hi) ?_
    rw [rd_syncMirror _ _ (Fld.key_ne_of_lo rfl)] at hobj
    exact beq_iff_eq.1 hobj
  rw [setSync_eq, hnone, Eng.each_nil]

/-! ### The mirror (R476) -/

section
variable {e : Eng} {n : Nat}

theorem syncMirror_off (h : e.on Reg.SYN_MEM_EN = false) : e.syncMirror n = e :=
  if_neg (ne_of_eq_of_ne h Bool.false_ne_true)

theorem syncMirror_skipped (h : e.on Reg.SYN_MEM_EN = true) (hbad : e.mirrorable (e.rd Reg.SYN_MEM_BASE * 64 + 8 * n) = false) :
    e.syncMirror n = e.flag Reg.SYN_MEM_BAD true :=
  (if_pos h).trans (if_neg (ne_of_eq_of_ne hbad Bool.false_ne_true))

theorem syncMirror_written (h : e.on Reg.SYN_MEM_EN = true) (hok : e.mirrorable (e.rd Reg.SYN_MEM_BASE * 64 + 8 * n) = true) :
    e.syncMirror n = e.store (e.rd Reg.SYN_MEM_BASE * 64 + 8 * n) (natLe 8 (e.sync n)) :=
  (if_pos h).trans (if_pos hok)

end

/-! ### Watches (R477) -/

/-- A field that takes every value of its width is written as it stands. -/
theorem sw_eq_wr (e : Eng) {f : Fld} (hmin : f.cmin = 0) (hmax : f.cmax = 2 ^ f.width - 1) (hwidth : f.width ≠ 0) (v : Nat) :
    e.sw f v = e.wr f (f.of v) := by
  have hlt : f.of v < 2 ^ f.width := by
    rw [Fld.of, bits, show f.lo + f.width - 1 + 1 - f.lo = f.width by omega]
    exact Nat.mod_lt _ (Nat.two_pow_pos _)
  rw [Eng.sw, Fld.clamp, hmin, hmax, Nat.max_eq_left (Nat.zero_le _), Nat.min_eq_left (by omega)]

/-- The engine once a watch is set. -/
def Eng.setWatch (e : Eng) (n v : Nat) : Eng :=
  (e.wr (Reg.SYN_WATCH_CTL_OBJ n) ((Reg.SYN_WATCH_CTL_OBJ n).of v)).wr (Reg.SYN_WATCH_CTL_EN n) ((Reg.SYN_WATCH_CTL_EN n).of v)

theorem watchWrite_eq (e : Eng) (n v : Nat) : e.watchWrite n v = (e.setWatch n v).watchCheck n := by
  rw [Eng.watchWrite, sw_eq_wr e (f := Reg.SYN_WATCH_CTL_OBJ n) rfl rfl (by decide : (15 : Nat) ≠ 0),
    sw_eq_wr _ (f := Reg.SYN_WATCH_CTL_EN n) rfl rfl (by decide : (1 : Nat) ≠ 0)]
  rfl

/-- A serial comparison over 64 bits: a value at or above a threshold. -/
def atOrAbove (v t : Nat) : Prop := (v + 2 ^ 64 - t) % 2 ^ 64 < 2 ^ 63

theorem setWatch_hits (e : Eng) (n v : Nat) :
    ((e.setWatch n v).on (Reg.SYN_WATCH_CTL_EN n) && (e.setWatch n v).watchHolds n) = true ↔
      (Reg.SYN_WATCH_CTL_EN n).of v = 1 ∧
        atOrAbove (e.sync ((Reg.SYN_WATCH_CTL_OBJ n).of v)) (e.rd (Reg.SYN_WATCH_THR_THRESH n)) := by
  have hen : (e.setWatch n v).rd (Reg.SYN_WATCH_CTL_EN n) = (Reg.SYN_WATCH_CTL_EN n).of v :=
    (Eng.rd_wr_same _ _ _).trans (Nat.mod_mod _ _)
  have hobj : (e.setWatch n v).rd (Reg.SYN_WATCH_CTL_OBJ n) = (Reg.SYN_WATCH_CTL_OBJ n).of v :=
    (Eng.rd_wr_ne _ _ (Fld.key_ne_of_lo rfl)).trans ((Eng.rd_wr_same _ _ _).trans (Nat.mod_mod _ _))
  have hthr : (e.setWatch n v).rd (Reg.SYN_WATCH_THR_THRESH n) = e.rd (Reg.SYN_WATCH_THR_THRESH n) := by
    rw [Eng.setWatch, Eng.rd_wr_ne _ _ (Fld.key_ne_of_lo rfl), Eng.rd_wr_ne]
    simp only [Fld.key, Reg.SYN_WATCH_THR_THRESH, Reg.SYN_WATCH_CTL_OBJ]
    omega
  rw [Bool.and_eq_true, Eng.on, hen, beq_iff_eq, Eng.watchHolds, hobj, hthr, decide_eq_true_eq]
  rfl

theorem rd_setWatch_hit {n : Nat} (hn : n < 64) (e : Eng) (v : Nat) :
    (e.setWatch n v).rd Reg.SYN_HIT_HIT = e.rd Reg.SYN_HIT_HIT := by
  rw [Eng.setWatch, Eng.rd_wr_ne _ _ (Fld.key_ne_of_lo rfl), Eng.rd_wr_ne]
  simp only [Fld.key, Reg.SYN_HIT_HIT, Reg.SYN_WATCH_CTL_OBJ]
  omega

/-! ### The commands -/

@[simp] theorem written_syncs (d : Dom) (flds : List Fld) (v : Nat) (s : State) : (written d flds v s).syncs = s.eng.syncs := by
  rw [written_eq]
  rfl

theorem written_sync (d : Dom) (flds : List Fld) (v : Nat) (s : State) (n : Nat) : (written d flds v s).sync n = s.eng.sync n := by
  rw [Eng.sync, written_syncs]
  rfl

section
variable {s : State} (h : takesWrites .coding s)
include h

theorem exec_syncSignal (v : Word) : exec (.syncSignal v) s =
    .next (leaving s ((written .coding [Reg.SYN_SIGNAL_OBJ] v.toNat s).signal (Reg.SYN_SIGNAL_OBJ.of v.toNat))) :=
  next_leaving (write_written h _ _ _)

theorem exec_syncSet (v : DWord) : exec (.syncSet v) s = .next (leaving s
    ((written .coding [Reg.SYN_VAL_VALUE] v.toNat s).setSync
      ((written .coding [Reg.SYN_VAL_VALUE] v.toNat s).rd Reg.SYN_SEL_OBJ) v.toNat)) :=
  next_leaving (write_written h _ _ _)

theorem exec_watchEnable (n : Fin 64) (v : Word) : exec (.watchEnable n v) s = .next (leaving s
    (((written .coding [Reg.SYN_WATCH_CTL_OBJ n, Reg.SYN_WATCH_CTL_EN n] v.toNat s).setWatch n v.toNat).watchCheck n)) :=
  next_leaving ((write_written h _ _ _).trans (watchWrite_eq _ _ _))

end

/-- A change of objects reads the registers and the regions as they were. -/
theorem mirrorable_putSync (d : Dom) (flds : List Fld) (v : Nat) (s : State) (n m a : Nat) :
    ((written d flds v s).putSync n m).mirrorable a = s.eng.mirrorable a := by
  have htop : ((written d flds v s).putSync n m).usableTop = s.eng.usableTop :=
    congrArg (· * leafBytes) (written_rd (by decide) (by decide))
  have hrgn : ((written d flds v s).putSync n m).rgnOver a = s.eng.rgnOver a := by
    rw [Eng.rgnOver, Eng.rgnOver, ← written_rgns d flds v s]
    rfl
  rw [Eng.mirrorable, Eng.mirrorable, htop, hrgn]

/-- Settles O13: a change puts the object, writes its mirror and then looks at the watches on it. -/
theorem syncObjectsChangeAndAreWatched : Obligations.SyncObjectsChangeAndAreWatched := by
  unfold Obligations.SyncObjectsChangeAndAreWatched
  refine ⟨fun s h hsorted => ⟨fun v => ⟨_, exec_syncSignal h v, fun m => ?_⟩, fun v => ⟨_, exec_syncSet h v, fun m => ?_⟩⟩,
    ?_, ?_⟩
  · rw [leaving_eng, Eng.signal, sync_setSync (by rwa [written_syncs]), written_sync, written_sync]
    by_cases hm : m = Reg.SYN_SIGNAL_OBJ.of v.toNat
    · rw [if_pos hm, if_pos hm, hm]
    · rw [if_neg hm, if_neg hm]
  · rw [leaving_eng, sync_setSync (by rwa [written_syncs]), written_sync, written_rd (by decide) (by decide),
      Nat.mod_eq_of_lt v.isLt]
  · intro s v h n e value a changed hunwatched
    have hchanged : e.putSync n ((e.sync n + 1) % 2 ^ 64) = changed := by
      simp only [Eng.putSync, changed, value, e, written_sync, written_syncs]
    have hexec : exec (.syncSignal v) s = .next (leaving s (changed.syncMirror n)) := by
      rw [← hchanged]
      refine (exec_syncSignal h v).trans (next_leaving (setSync_unwatched (fun i hi => ?_) _))
      rw [written_rd (Fld.key_ne_of_lo rfl) (Fld.key_ne_of_lo rfl)]
      exact hunwatched i hi
    have hen : changed.on Reg.SYN_MEM_EN = s.eng.on Reg.SYN_MEM_EN := written_on (by decide) (by decide)
    have hbase : changed.rd Reg.SYN_MEM_BASE = s.eng.rd Reg.SYN_MEM_BASE := written_rd (by decide) (by decide)
    have hroom : changed.mirrorable a = s.eng.mirrorable a := by
      rw [← hchanged]
      exact mirrorable_putSync _ _ _ _ _ _ _
    rw [hexec]
    refine ⟨fun hoff => ?_, fun hon hbad => ?_, fun hon hok hsorted => ?_⟩
    · rw [syncMirror_off (hen.trans hoff)]
    · rw [syncMirror_skipped (hen.trans hon) (by rw [hbase]; exact hroom.trans hbad)]
    · have hvalue : changed.sync n = value := by
        rw [← hchanged, sync_putSync (by rwa [written_syncs]), if_pos rfl, written_sync]
      rw [syncMirror_written (hen.trans hon) (by rw [hbase]; exact hroom.trans hok), hvalue, hbase]
  · intro s n v h e set above
    have hhits := setWatch_hits e n v.toNat
    rw [written_sync, written_rd (Fld.key_ne_of_lo rfl) (Fld.key_ne_of_lo rfl)] at hhits
    rw [exec_watchEnable h]
    refine ⟨fun hhit => ?_, fun hmiss => next_leaving (if_neg fun hhit => hmiss (hhits.1 hhit))⟩
    have hlist : set.rd Reg.SYN_HIT_HIT = s.eng.rd Reg.SYN_HIT_HIT :=
      (rd_setWatch_hit n.isLt _ _).trans (written_rd (by decide) (by decide))
    rw [← hlist]
    exact next_leaving (if_pos (hhits.2 hhit))

end Sys2Proof.Machine
end

section
/-!
PROOF. Interrupts: their delivery, their claim and their completion (R479 to R484).
-/
namespace Sys2Proof.Machine

/-! ### Delivery (R480, R482) -/

theorem srcNum_lt (src : Src) : srcNum src < 512 := by
  unfold srcNum
  split <;> omega

theorem rd_deliver {f : Fld} (hnone : f.key ≠ Reg.INT_STAT_NOADDR.key) (hsent : f.key ≠ Reg.INT_STAT_MSGS.key) (e : Eng)
    (g : Nat) : (e.deliver g).rd f = e.rd f :=
  Eng.rd_ite (Eng.rd_ite (Eng.rd_bump_ne _ hnone) (Eng.rd_bump_ne _ hsent)) rfl

theorem groupOf_deliver (e : Eng) (g n : Nat) : (e.deliver g).groupOf n = e.groupOf n :=
  rd_deliver (Fld.key_ne_of_lo rfl) (Fld.key_ne_of_lo rfl) e g

theorem deliver_intr (e : Eng) (g : Nat) : (e.deliver g).intr = { e.intr with
    unfired := e.intr.unfired.filter (fun n => e.groupOf n != g),
    delivered := e.intr.delivered ++ ((e.unfiredIn g).eraseDups.filter (fun n => !e.intr.delivered.contains n)) } := by
  dsimp only [Eng.deliver]
  split
  · split <;> rfl
  · rfl

theorem unfiredIn_deliver (e : Eng) (g : Nat) : (e.deliver g).unfiredIn g = [] := by
  rw [Eng.unfiredIn, deliver_intr]
  refine List.filter_eq_nil_iff.2 fun n hn hgroup => ?_
  rw [groupOf_deliver] at hgroup
  exact bne_iff_ne.1 (List.mem_filter.1 hn).2 (beq_iff_eq.1 hgroup)

/-- What target 0 sees of the firing of a group. -/
def Eng.fireMsg (e : Eng) (g : Nat) : List Action :=
  if (e.unfiredIn g).any (fun n => bit (e.target n) 0) ∧ 4 * e.rd (Reg.INT_GRP_ADDR_ADDR g) ≠ 0
  then [.message (4 * e.rd (Reg.INT_GRP_ADDR_ADDR g)) (e.rd (Reg.INT_GRP_DATA_DATA g))] else []

theorem deliver_out (e : Eng) (g : Nat) : (e.deliver g).out = e.out ++ e.fireMsg g := by
  rw [Eng.fireMsg]
  dsimp only [Eng.deliver]
  split
  · next hhost =>
    split
    · next haddr =>
      rw [if_neg fun h => h.2 haddr, List.append_nil]
      rfl
    · next haddr =>
      rw [if_pos ⟨hhost, haddr⟩]
      rfl
  · next hhost =>
    rw [if_neg fun h => hhost h.1, List.append_nil]

theorem fire_unmasked {e : Eng} {g : Nat} (h : e.on (Reg.INT_GRP_CFG_MASK g) = false) : e.fire g = e.deliver g :=
  if_neg (ne_of_eq_of_ne h Bool.false_ne_true)

theorem fire_masked {e : Eng} {g : Nat} (h : e.on (Reg.INT_GRP_CFG_MASK g) = true) :
    e.fire g = e.flag (Reg.INT_GRP_CFG_FIRED_PEND g) true := if_pos h

/-- A privileged group that fires and holds off. -/
theorem firePrivileged_eq {e : Eng} {g : Nat} (hmask : e.on (Reg.INT_GRP_CFG_MASK g) = false)
    (hfree : e.intr.holdoff.contains g = false) : e.firePrivileged g =
      { e.deliver g with intr := { (e.deliver g).intr with holdoff := e.intr.holdoff ++ [g] } } := by
  rw [Eng.firePrivileged, fire_unmasked hmask, deliver_intr]
  dsimp only
  rw [if_neg (ne_of_eq_of_ne hfree Bool.false_ne_true)]

/-! ### A pulse (R478, R479) -/

/-- The engine once a source is pending and its event not yet fired. -/
def Eng.pends (e : Eng) (n : Nat) : Eng :=
  let e := e.flag (Reg.INT_SRC_CFG_PENDING n) true
  { e with intr := { e.intr with unfired := e.intr.unfired ++ [n] } }

theorem srcEvent_pends {e : Eng} {n : Nat} (hen : e.on (Reg.INT_SRC_CFG_EN n) = true)
    (hidle : e.on (Reg.INT_SRC_CFG_PENDING n) = false) (hawake : e.on Reg.GEN_PWR_ASLEEP = false) :
    e.srcEvent n = (e.pends n).groupEvent ((e.pends n).groupOf n) := by
  rw [Eng.srcEvent, hen, hawake]
  exact if_neg (ne_of_eq_of_ne hidle Bool.false_ne_true)

/-- An edge-sensed source whose request was low and rises. -/
theorem request_rises {e : Eng} {n : Nat} (hlow : e.on (Reg.INT_SRC_CFG_RAW n) = false)
    (hsense : e.rd (Reg.INT_SRC_CFG_SENSE n) = 2) :
    e.request n true = (e.flag (Reg.INT_SRC_CFG_RAW n) true).srcEvent n := by
  have hkept : (e.flag (Reg.INT_SRC_CFG_RAW n) true).rd (Reg.INT_SRC_CFG_SENSE n) = 2 :=
    (Eng.rd_flag_ne _ _ (Fld.key_ne_of_lo rfl)).trans hsense
  rw [Eng.request, hlow, hkept]
  rfl

/-- The fall of a rising-edge source's request makes no event. -/
theorem request_falls {e : Eng} {n : Nat} (hhigh : e.on (Reg.INT_SRC_CFG_RAW n) = true)
    (hsense : e.rd (Reg.INT_SRC_CFG_SENSE n) = 2) : e.request n false = e.flag (Reg.INT_SRC_CFG_RAW n) false := by
  have hkept : (e.flag (Reg.INT_SRC_CFG_RAW n) false).rd (Reg.INT_SRC_CFG_SENSE n) = 2 :=
    (Eng.rd_flag_ne _ _ (Fld.key_ne_of_lo rfl)).trans hsense
  rw [Eng.request, hhigh, hkept]
  rfl

/-- What a pulse brings about on a source that takes it: in a privileged group that may fire it is delivered at once. -/
def Eng.pulsed (e : Eng) (n : Nat) : Eng :=
  let p := (e.flag (Reg.INT_SRC_CFG_RAW n) true).pends n
  { p.deliver (e.groupOf n) with
    intr := { (p.deliver (e.groupOf n)).intr with holdoff := e.intr.holdoff ++ [e.groupOf n] } }

/-- A field of a source or group other than RAW and PENDING reads as before in a source that pends. -/
theorem rd_pends {f : Fld} {n : Nat} (hraw : f.key ≠ (Reg.INT_SRC_CFG_RAW n).key)
    (hpending : f.key ≠ (Reg.INT_SRC_CFG_PENDING n).key) (e : Eng) :
    ((e.flag (Reg.INT_SRC_CFG_RAW n) true).pends n).rd f = e.rd f :=
  (Eng.rd_flag_ne _ _ hpending).trans (Eng.rd_flag_ne _ _ hraw)

section
variable {e : Eng} {n : Nat}

theorem unfiredIn_pends (hempty : e.intr.unfired = []) :
    ((e.flag (Reg.INT_SRC_CFG_RAW n) true).pends n).unfiredIn (e.groupOf n) = [n] := by
  have hgroup : ((e.flag (Reg.INT_SRC_CFG_RAW n) true).pends n).groupOf n = e.groupOf n :=
    rd_pends (Fld.key_ne_of_lo rfl) (Fld.key_ne_of_lo rfl) e
  have hunfired : ((e.flag (Reg.INT_SRC_CFG_RAW n) true).pends n).intr.unfired = [n] := congrArg (· ++ [n]) hempty
  rw [Eng.unfiredIn, hunfired, List.filter_singleton, hgroup, beq_self_eq_true]
  rfl

theorem rd_pulsed {f : Fld} (hnone : f.key ≠ Reg.INT_STAT_NOADDR.key) (hsent : f.key ≠ Reg.INT_STAT_MSGS.key) :
    (e.pulsed n).rd f = ((e.flag (Reg.INT_SRC_CFG_RAW n) true).pends n).rd f := rd_deliver hnone hsent _ _

theorem on_pulsed_pending : (e.pulsed n).on (Reg.INT_SRC_CFG_PENDING n) = true := by
  rw [Eng.on, rd_pulsed (Fld.key_ne_of_lo rfl) (Fld.key_ne_of_lo rfl)]
  exact Eng.on_flag_same (f := Reg.INT_SRC_CFG_PENDING n) _ true (by decide : (1 : Nat) ≠ 0)

theorem on_pulsed_raw : (e.pulsed n).on (Reg.INT_SRC_CFG_RAW n) = true := by
  rw [Eng.on, rd_pulsed (Fld.key_ne_of_lo rfl) (Fld.key_ne_of_lo rfl)]
  refine (Eng.on_flag_ne (g := Reg.INT_SRC_CFG_RAW n) _ _ (Fld.key_ne_of_lo rfl)).trans ?_
  exact Eng.on_flag_same (f := Reg.INT_SRC_CFG_RAW n) _ true (by decide : (1 : Nat) ≠ 0)

theorem pulsed_intr (hempty : e.intr.unfired = []) (hnew : e.intr.delivered.contains n = false) :
    (e.pulsed n).intr = { e.intr with
      unfired := [], delivered := e.intr.delivered ++ [n], holdoff := e.intr.holdoff ++ [e.groupOf n] } := by
  rw [Eng.pulsed]
  dsimp only
  rw [deliver_intr, unfiredIn_pends hempty]
  have hunfired : ((e.flag (Reg.INT_SRC_CFG_RAW n) true).pends n).intr.unfired = [n] := congrArg (· ++ [n]) hempty
  have hgroup : ((e.flag (Reg.INT_SRC_CFG_RAW n) true).pends n).groupOf n = e.groupOf n :=
    rd_pends (Fld.key_ne_of_lo rfl) (Fld.key_ne_of_lo rfl) e
  have hdelivered : ((e.flag (Reg.INT_SRC_CFG_RAW n) true).pends n).intr.delivered = e.intr.delivered := rfl
  rw [hunfired, hdelivered, List.filter_singleton, hgroup, bne_self_eq_false]
  have hlist : [n].eraseDups.filter (fun n => !e.intr.delivered.contains n) = [n] := by
    rw [List.eraseDups_cons, List.filter_nil, List.eraseDups_nil, List.filter_singleton, hnew]
    rfl
  rw [hlist]
  rfl

theorem pulsed_out (hempty : e.intr.unfired = []) : (e.pulsed n).out = e.out ++
    (if bit (e.target n) 0 ∧ 4 * e.rd (Reg.INT_GRP_ADDR_ADDR (e.groupOf n)) ≠ 0
      then [.message (4 * e.rd (Reg.INT_GRP_ADDR_ADDR (e.groupOf n))) (e.rd (Reg.INT_GRP_DATA_DATA (e.groupOf n)))]
      else []) := by
  refine (deliver_out _ _).trans ?_
  have htarget : ((e.flag (Reg.INT_SRC_CFG_RAW n) true).pends n).target n = e.target n := by
    rw [Eng.target, Eng.target, rd_pends (Fld.key_ne_of_lo rfl) (Fld.key_ne_of_lo rfl)]
  rw [Eng.fireMsg, unfiredIn_pends hempty, rd_pends (Fld.key_ne_of_lo rfl) (Fld.key_ne_of_lo rfl),
    rd_pends (Fld.key_ne_of_lo rfl) (Fld.key_ne_of_lo rfl), List.any_cons, List.any_nil, Bool.or_false, htarget]
  rfl

/-- A pulse on a rising-edge source, enabled and idle, whose privileged group may fire. -/
theorem raise_pulsed {src : Src} (hn : n = srcNum src) (hen : e.on (Reg.INT_SRC_CFG_EN n) = true)
    (hidle : e.on (Reg.INT_SRC_CFG_PENDING n) = false) (hlow : e.on (Reg.INT_SRC_CFG_RAW n) = false)
    (hsense : e.rd (Reg.INT_SRC_CFG_SENSE n) = 2) (hpriv : e.groupOf n < 8)
    (hmask : e.on (Reg.INT_GRP_CFG_MASK (e.groupOf n)) = false) (hfree : e.intr.holdoff.contains (e.groupOf n) = false)
    (hawake : e.on Reg.GEN_PWR_ASLEEP = false) : e.raise src = (e.pulsed n).flag (Reg.INT_SRC_CFG_RAW n) false := by
  have hlt : n < 512 := hn ▸ srcNum_lt src
  have hrise : e.request n true = e.pulsed n := by
    rw [request_rises hlow hsense, srcEvent_pends ((Eng.on_flag_ne _ _ (Fld.key_ne_of_lo rfl)).trans hen)
      ((Eng.on_flag_ne _ _ (Fld.key_ne_of_lo rfl)).trans hidle) ((Eng.on_flag_ne _ _ (Fld.key_ne_of_lo rfl)).trans hawake)]
    rw [show ((e.flag (Reg.INT_SRC_CFG_RAW n) true).pends n).groupOf n = e.groupOf n from
      rd_pends (Fld.key_ne_of_lo rfl) (Fld.key_ne_of_lo rfl) e]
    rw [Eng.groupEvent, if_pos hpriv]
    refine (if_neg (ne_of_eq_of_ne hfree Bool.false_ne_true)).trans (firePrivileged_eq ?_ hfree)
    rw [Eng.on, rd_pends (Fld.key_ne_of_lo rfl) ?_ e]
    · exact hmask
    · simp only [Fld.key, Reg.INT_GRP_CFG_MASK, Reg.INT_SRC_CFG_PENDING]
      omega
  have hkept : (e.pulsed n).rd (Reg.INT_SRC_CFG_SENSE n) = 2 := by
    rw [rd_pulsed (Fld.key_ne_of_lo rfl) (Fld.key_ne_of_lo rfl), rd_pends (Fld.key_ne_of_lo rfl) (Fld.key_ne_of_lo rfl), hsense]
  rw [Eng.raise, ← hn, hrise, request_falls on_pulsed_raw hkept]

end

/-! ### Timers and masks of a group (R480, R481) -/

theorem coalesceExpiry_fires {e : Eng} {g : Nat} (hg : 8 ≤ g) (hevents : e.unfiredIn g ≠ []) : e.coalesceExpiry g = e.fire g :=
  if_pos (by simp [hg, hevents])

/-- The hold-off of a group ended. -/
def Eng.endsHoldoff (e : Eng) (g : Nat) : Eng := { e with intr := { e.intr with holdoff := e.intr.holdoff.filter (· != g) } }

theorem holdoffExpiry_quiet {e : Eng} {g : Nat} (h : e.intr.holdoff.contains g = true) (hnone : e.unfiredIn g = []) :
    e.holdoffExpiry g = e.endsHoldoff g :=
  (if_pos h).trans (if_pos (List.isEmpty_iff.2 hnone))

theorem holdoffExpiry_fires {e : Eng} {g : Nat} (h : e.intr.holdoff.contains g = true) (hevents : e.unfiredIn g ≠ [])
    (hmask : e.on (Reg.INT_GRP_CFG_MASK g) = false) : e.holdoffExpiry g = { (e.endsHoldoff g).deliver g with
      intr := { ((e.endsHoldoff g).deliver g).intr with holdoff := (e.endsHoldoff g).intr.holdoff ++ [g] } } := by
  have hfree : (e.endsHoldoff g).intr.holdoff.contains g = false := by
    simp [Eng.endsHoldoff, List.mem_filter]
  exact (if_pos h).trans ((if_neg fun hempty => hevents (List.isEmpty_iff.1 hempty)).trans (firePrivileged_eq hmask hfree))

theorem unmask_recorded {e : Eng} {g : Nat} (h : e.on (Reg.INT_GRP_CFG_FIRED_PEND g) = true) :
    e.unmask g = ((e.flag (Reg.INT_GRP_CFG_MASK g) false).flag (Reg.INT_GRP_CFG_FIRED_PEND g) false).deliver g :=
  if_pos ((Eng.on_flag_ne _ _ (Fld.key_ne_of_lo rfl)).trans h)

/-- The engine once the thresholds of a group are set. -/
def Eng.setThresholds (e : Eng) (g v : Nat) : Eng := (e.sw (Reg.INT_GRP_CFG_COUNT g) v).sw (Reg.INT_GRP_CFG_TIME g) v

/-- A write of a group that leaves it no event does not fire it. -/
theorem groupWrite_settled {e u : Eng} {g v : Nat} (h : (if (Reg.INT_GRP_CFG_MASK g).of v = 1
      then (e.setThresholds g v).flag (Reg.INT_GRP_CFG_MASK g) true else (e.setThresholds g v).unmask g) = u)
    (hnone : u.unfiredIn g = []) : e.groupWrite g v = u := by
  have hthresholds : e.groupWrite g v = if 8 ≤ g && 0 < (u.unfiredIn g).length &&
      u.rd (Reg.INT_GRP_CFG_COUNT g) ≤ (u.unfiredIn g).length then u.fire g else u := by
    rw [← h]
    rfl
  rw [hthresholds, hnone, List.length_nil]
  exact if_neg (by simp)

/-- MASK written 0 delivers a recorded firing, and leaves no event of the group to fire. -/
theorem groupWrite_unmasks {e : Eng} {g v : Nat} (hmask : (Reg.INT_GRP_CFG_MASK g).of v = 0)
    (hrecorded : e.on (Reg.INT_GRP_CFG_FIRED_PEND g) = true) : e.groupWrite g v =
      (((e.setThresholds g v).flag (Reg.INT_GRP_CFG_MASK g) false).flag (Reg.INT_GRP_CFG_FIRED_PEND g) false).deliver g := by
  have hkept : (e.setThresholds g v).on (Reg.INT_GRP_CFG_FIRED_PEND g) = true := by
    rw [Eng.setThresholds, Eng.sw, Eng.on_wr_ne _ _ (Fld.key_ne_of_lo rfl), Eng.sw, Eng.on_wr_ne _ _ (Fld.key_ne_of_lo rfl),
      hrecorded]
  exact groupWrite_settled ((if_neg (ne_of_eq_of_ne hmask Nat.zero_ne_one)).trans (unmask_recorded hkept))
    (unfiredIn_deliver _ g)

/-! ### Claims and completions (R484) -/

section
variable {e : Eng} {t n : Nat}

/-- A source that target t may claim. -/
def Eng.mayClaim (e : Eng) (t n : Nat) : Prop :=
  e.intr.delivered.contains n = true ∧ bit (e.target n) t = true ∧ e.on (Reg.INT_SRC_CFG_IN_SERVICE n) = false

theorem claimable_none (h : ∀ n < 512, ¬e.mayClaim t n) : e.claimable t = none :=
  List.find?_eq_none.2 fun n hn hp => h n (List.mem_range.1 hn) (by simpa [Eng.mayClaim, and_assoc] using hp)

theorem claimable_first (hn : n < 512) (h : e.mayClaim t n) (hfirst : ∀ m < n, ¬e.mayClaim t m) : e.claimable t = some n := by
  obtain ⟨hdelivered, hrouted, hfree⟩ := h
  refine List.find?_range_eq_some.2 ⟨by rw [hdelivered, hrouted, hfree]; rfl, List.mem_range.2 hn, fun m hm => ?_⟩
  have hno := hfirst m hm
  rw [Eng.mayClaim, ← Bool.not_eq_true', ← Bool.and_eq_true, ← Bool.and_eq_true, ← Bool.and_assoc] at hno
  rw [Bool.eq_false_of_not_eq_true hno]
  rfl

/-- The engine once the event of a source is taken off. -/
def Eng.undelivers (e : Eng) (n : Nat) : Eng := { e with intr := { e.intr with delivered := e.intr.delivered.filter (· != n) } }

/-- The engine once target t serves a source. -/
def Eng.serves (e : Eng) (t n : Nat) : Eng :=
  ({ e with intr := { e.intr with
      delivered := e.intr.delivered.filter (· != n), claimedBy := put e.intr.claimedBy n t } } : Eng).flag
    (Reg.INT_SRC_CFG_IN_SERVICE n) true

/-- What a claim does with the source it finds. -/
def Eng.claims (e : Eng) (t : Nat) : Option Nat → Eng
  | none => e.emit (.answer 0x3FF)
  | some n =>
    if e.on (Reg.INT_SRC_CFG_PENDING n) then
      (if (e.activeLevel n).isSome then e.serves t n else (e.serves t n).flag (Reg.INT_SRC_CFG_PENDING n) false).emit (.answer n)
    else ((e.undelivers n).bump Reg.INT_STAT_SPURIOUS).emit (.answer 0x3FF)

theorem claim_eq (e : Eng) (t : Nat) : e.claim t = e.claims t (e.claimable t) := by
  unfold Eng.claim
  cases e.claimable t <;> rfl

theorem claim_none (h : e.claimable t = none) : e.claim t = e.emit (.answer 0x3FF) := by
  rw [claim_eq, h]
  rfl

theorem claim_spurious (h : e.claimable t = some n) (hgone : e.on (Reg.INT_SRC_CFG_PENDING n) = false) :
    e.claim t = ((e.undelivers n).bump Reg.INT_STAT_SPURIOUS).emit (.answer 0x3FF) := by
  rw [claim_eq, h]
  exact if_neg (ne_of_eq_of_ne hgone Bool.false_ne_true)

/-- The level of an edge-sensed source makes no event, and one of the levels that of a level-sensed source does. -/
theorem activeLevel_isSome (e : Eng) (n : Nat) : (e.activeLevel n).isSome = true ↔ e.rd (Reg.INT_SRC_CFG_SENSE n) < 2 := by
  unfold Eng.activeLevel
  split
  · next h => simp [h]
  · next h => simp [h]
  · next h0 h1 =>
    simp only [Option.isSome_none, Bool.false_eq_true, false_iff]
    exact Nat.not_lt.2 ((Nat.two_le_iff _).2 ⟨h0, h1⟩)

theorem claim_serves (h : e.claimable t = some n) (hpending : e.on (Reg.INT_SRC_CFG_PENDING n) = true) : e.claim t =
    (if e.rd (Reg.INT_SRC_CFG_SENSE n) < 2 then e.serves t n
      else (e.serves t n).flag (Reg.INT_SRC_CFG_PENDING n) false).emit (.answer n) := by
  rw [claim_eq, h]
  refine (if_pos hpending).trans (congrArg (Eng.emit · (.answer n)) ?_)
  exact if_congr (activeLevel_isSome e n) rfl rfl

/-- The engine once a source is served no more. -/
def Eng.unserves (e : Eng) (n : Nat) : Eng :=
  { e.flag (Reg.INT_SRC_CFG_IN_SERVICE n) false with intr := { e.intr with claimedBy := cut e.intr.claimedBy n } }

/-- A completion by the target that claimed the source, if it is edge-sensed. -/
theorem completeSrc_edge (hserved : e.on (Reg.INT_SRC_CFG_IN_SERVICE n) = true) (hclaimed : look e.intr.claimedBy n = some t)
    (hsense : 2 ≤ e.rd (Reg.INT_SRC_CFG_SENSE n)) : e.completeSrc t n = e.unserves n := by
  have hedge : ¬((e.unserves n).activeLevel n).isSome = true := by
    rw [activeLevel_isSome]
    exact Nat.not_lt.2 (hsense.trans_eq (Eng.rd_flag_ne (g := Reg.INT_SRC_CFG_SENSE n) _ _ (Fld.key_ne_of_lo rfl)).symm)
  refine (if_pos (by rw [hserved, hclaimed]; simp)).trans ?_
  dsimp only
  split
  · rfl
  · next act hact => exact absurd (congrArg Option.isSome hact) hedge

theorem completeSrc_other (h : ¬(e.on (Reg.INT_SRC_CFG_IN_SERVICE n) = true ∧ look e.intr.claimedBy n = some t)) :
    e.completeSrc t n = e := if_neg (by simpa using h)

end

/-! ### The commands -/

@[simp] theorem written_intr (d : Dom) (flds : List Fld) (v : Nat) (s : State) : (written d flds v s).intr = s.eng.intr := by
  rw [written_eq]
  rfl

/-- The always-on registers stop no clocks and take writes always. -/
theorem reached_alwaysOn (s : State) : reached .alwaysOn s = quiet s := by
  refine if_neg ?_
  rw [show (Dom.alwaysOn == .coding || Dom.alwaysOn == .crypto) = false from rfl, Bool.and_false]
  exact Bool.false_ne_true

theorem takesWrites_alwaysOn {s : State} (h : s.eng.answers .alwaysOn = true) : takesWrites .alwaysOn s := ⟨h, nofun⟩

section
variable {s : State} (h : s.eng.answers .alwaysOn = true)
include h

theorem exec_groupUnmask (g : Fin 64) (v : Word) : exec (.groupUnmask g v) s =
    .next (leaving s ((written .alwaysOn (grpCfgFields g) v.toNat s).groupWrite g v.toNat)) :=
  next_leaving (write_written (takesWrites_alwaysOn h) _ _ _)

theorem exec_interruptClaim (t : Fin 2) : exec (.interruptClaim t) s = .next (leaving s ((quiet s).claim t)) :=
  next_leaving ((access_reached h _).trans (by rw [reached_alwaysOn]))

theorem exec_interruptComplete (t : Fin 2) (v : Word) : exec (.interruptComplete t v) s = .next (leaving s
    ((written .alwaysOn [Reg.INT_COMPLETE_SOURCE t] v.toNat s).completeSrc t ((Reg.INT_COMPLETE_SOURCE t).of v.toNat))) :=
  next_leaving (write_written (takesWrites_alwaysOn h) _ _ _)

end

/-- Settles O14, by what each operation of the interrupt controller does. -/
theorem interruptsAreDeliveredClaimedAndCompleted : Obligations.InterruptsAreDeliveredClaimedAndCompleted := by
  unfold Obligations.InterruptsAreDeliveredClaimedAndCompleted
  refine ⟨?_, fun s => ⟨fun g hg hevents => ⟨fun hmask => ?_, fun hmask => ?_⟩, ?_, ?_⟩, fun s t h => ⟨fun hnone => ?_, ?_, ?_⟩⟩
  · intro e src n g hen hidle hlow hsense hpriv hmask hfree hempty hnew hawake
    have hraise : e.raise src = (e.pulsed n).flag (Reg.INT_SRC_CFG_RAW n) false :=
      raise_pulsed rfl hen hidle hlow hsense hpriv hmask hfree hawake
    have hintr : (e.raise src).intr = (e.pulsed n).intr := by rw [hraise]; rfl
    have hout : (e.raise src).out = (e.pulsed n).out := by rw [hraise]; rfl
    rw [hintr, pulsed_intr hempty hnew, hout, pulsed_out hempty, hraise]
    exact ⟨(Eng.on_flag_ne _ _ (Fld.key_ne_of_lo rfl)).trans on_pulsed_pending, rfl, rfl, rfl, rfl⟩
  · exact next_leaving ((coalesceExpiry_fires hg hevents).trans (fire_unmasked hmask))
  · exact next_leaving ((coalesceExpiry_fires hg hevents).trans (fire_masked hmask))
  · intro g hheld e
    exact ⟨fun hnone => next_leaving (holdoffExpiry_quiet hheld hnone),
      fun hevents hmask => next_leaving (holdoffExpiry_fires hheld hevents hmask)⟩
  · intro g v h hmask hrecorded set
    refine (exec_groupUnmask h g v).trans (next_leaving (groupWrite_unmasks hmask ?_))
    rw [written_on (Fld.key_ne_of_lo rfl) (Fld.key_ne_of_lo rfl), hrecorded]
  · exact (exec_interruptClaim h t).trans (next_leaving (claim_none (claimable_none hnone)))
  · intro n hn hdelivered hrouted hfree hfirst rest
    have hclaimable : (quiet s).claimable t = some n := claimable_first hn ⟨hdelivered, hrouted, hfree⟩ hfirst
    rw [exec_interruptClaim h]
    refine ⟨fun hgone => next_leaving (claim_spurious hclaimable hgone), ?_⟩
    intro hpending served
    refine ⟨fun hedge => ?_, fun hlevel => ?_⟩
    · exact next_leaving ((claim_serves hclaimable hpending).trans (congrArg (Eng.emit · (.answer n)) (if_neg (Nat.not_lt.2 hedge))))
    · exact next_leaving ((claim_serves hclaimable hpending).trans (congrArg (Eng.emit · (.answer n)) (if_pos hlevel)))
  · intro v n e
    have hserved : e.on (Reg.INT_SRC_CFG_IN_SERVICE n) = s.eng.on (Reg.INT_SRC_CFG_IN_SERVICE n) :=
      written_on (Fld.key_ne_of_lo rfl) (Fld.key_ne_of_lo rfl)
    have hsense : e.rd (Reg.INT_SRC_CFG_SENSE n) = s.eng.rd (Reg.INT_SRC_CFG_SENSE n) :=
      written_rd (Fld.key_ne_of_lo rfl) (Fld.key_ne_of_lo rfl)
    have hintr : e.intr = s.eng.intr := written_intr _ _ _ _
    rw [exec_interruptComplete h, ← hserved, ← hsense, ← hintr]
    exact ⟨fun hserved hclaimed hedge => next_leaving (completeSrc_edge hserved hclaimed hedge),
      fun hother => next_leaving (completeSrc_other hother)⟩

end Sys2Proof.Machine
end

section
/-!
PROOF. Descriptors as the command rows state them (R498, R499).
-/
namespace Sys2Proof.Machine

/-! ### The operands of an operation, one behind another -/

/-- The operands of an operation, each with its width in bytes (R499). -/
def Op.fields : Op → List (Nat × Nat)
  | .nop => []
  | .ringOpen n => [(4, n)]
  | .ringSeal step seq => [(4, step), (1, seq)]
  | .ringCommit r => [(4, r)]
  | .ringRollback c n => [(4, c), (4, n)]
  | .stepRetire t => [(4, t)]
  | .updateRun addr => [(8, addr)]
  | .graftBegin x mode => [(1, x), (1, mode)]
  | .resumeSet addr count => [(8, addr), (2, count)]
  | .evacuate mode spare => [(1, mode), (3, 0), (4, spare)]
  | .scrubRange base len flags => [(8, base), (8, len), (4, flags)]
  | .anchorWrite addr => [(8, addr)]
  | .anchorRestore addr => [(8, addr)]
  | .reLeaf region step ring => [(2, region), (2, 0), (4, step), (4, ring)]
  | .adopt addr => [(8, addr)]
  | .tensorDigest addr => [(8, addr)]

/-- The operand bytes of an operation in a descriptor. -/
def Op.body (op : Op) : List Byte := padTo 48 (packed op.fields)

theorem padTo_of_le {n : Nat} {bs : List Byte} (h : bs.length ≤ n) : padTo n bs = bs ++ zeros (n - bs.length) :=
  List.take_of_length_le (by simp [zeros]; omega)

theorem fieldAt_padTo_packed {fs : List (Nat × Nat)} (hfit : ∀ f ∈ fs, f.2 < 256 ^ f.1) {n : Nat}
    (hlen : (fs.map (·.1)).sum ≤ n) (i : Nat) {off w v : Nat} (hi : fs[i]? = some (w, v))
    (hoff : ((fs.take i).map (·.1)).sum = off) : fieldAt (padTo n (packed fs)) off w = v := by
  rw [padTo_of_le ((packed_length fs).trans_le hlen)]
  exact fieldAt_packed hfit _ i hi hoff

/-- A padded string is zero but at the listed offsets if the string is. -/
theorem zeroBut_padTo {n : Nat} {bs : List Byte} {used : List Nat} (hlen : bs.length ≤ n)
    (h : ∀ i < bs.length, i ∈ used ∨ bs[i]? = some 0) : zeroBut (padTo n bs) used = true := by
  rw [zeroBut, List.all_eq_true, padTo_of_le hlen]
  rintro ⟨b, i⟩ hmem
  rw [List.mem_zipIdx_iff_getElem?] at hmem
  simp only [Bool.or_eq_true, beq_iff_eq, List.contains_iff_mem]
  by_cases hi : i < bs.length
  · rw [List.getElem?_append_left hi] at hmem
    exact (h i hi).symm.imp_left fun hzero => Option.some.inj (hmem.symm.trans hzero)
  · rw [List.getElem?_append_right (Nat.le_of_not_lt hi), zeros] at hmem
    exact .inl (List.eq_of_mem_replicate (List.mem_of_getElem? hmem))

theorem Op.fields_le (op : Op) : (op.fields.map (·.1)).sum ≤ 48 := by cases op <;> exact Nat.le_of_ble_eq_true rfl

theorem Op.fields_length (op : Op) : (packed op.fields).length ≤ 48 := (packed_length _).trans_le op.fields_le

/-- The operand bytes that an operation uses. -/
def Op.used : Op → List Nat
  | .evacuate _ _ => [0, 4, 5, 6, 7]
  | .reLeaf _ _ _ => [0, 1, 4, 5, 6, 7, 8, 9, 10, 11]
  | op => List.range (op.fields.map (·.1)).sum

/-- The bytes between operands are zero. -/
theorem zeroBut_body (op : Op) : zeroBut op.body op.used = true := by
  refine zeroBut_padTo op.fields_length fun i hi => ?_
  rw [packed_length] at hi
  cases op with
  | evacuate mode spare =>
    have hi : i < 8 := hi
    by_cases hused : i ∈ [0, 4, 5, 6, 7]
    · exact .inl hused
    · simp only [List.mem_cons, List.not_mem_nil, or_false, not_or] at hused
      obtain rfl | rfl | rfl : i = 1 ∨ i = 2 ∨ i = 3 := by omega
      all_goals exact .inr rfl
  | reLeaf region step ring =>
    have hi : i < 12 := hi
    by_cases hused : i ∈ [0, 1, 4, 5, 6, 7, 8, 9, 10, 11]
    · exact .inl hused
    · simp only [List.mem_cons, List.not_mem_nil, or_false, not_or] at hused
      obtain rfl | rfl : i = 2 ∨ i = 3 := by omega
      all_goals exact .inr rfl
  | _ => exact .inl (List.mem_range.2 hi)

/-- An opcode with its operands spells the operation. -/
theorem opOf_body (op : Op) (hfit : ∀ f ∈ op.fields, f.2 < 256 ^ f.1) : opOf op.code op.body = some (op, op.used) := by
  have hread : ∀ (i off w v : Nat), op.fields[i]? = some (w, v) → ((op.fields.take i).map (·.1)).sum = off →
      fieldAt op.body off w = v :=
    fun i _ _ _ hi hoff => fieldAt_padTo_packed hfit op.fields_le i hi hoff
  cases op with
  | nop => rfl
  | ringOpen n =>
    rw [Op.code, opOf, hread 0 0 4 n rfl rfl]
    rfl
  | ringSeal step seq =>
    rw [Op.code, opOf, hread 0 0 4 step rfl rfl, hread 1 4 1 seq rfl rfl]
    rfl
  | ringCommit r =>
    rw [Op.code, opOf, hread 0 0 4 r rfl rfl]
    rfl
  | ringRollback c n =>
    rw [Op.code, opOf, hread 0 0 4 c rfl rfl, hread 1 4 4 n rfl rfl]
    rfl
  | stepRetire t =>
    rw [Op.code, opOf, hread 0 0 4 t rfl rfl]
    rfl
  | updateRun addr =>
    rw [Op.code, opOf, hread 0 0 8 addr rfl rfl]
    rfl
  | graftBegin x mode =>
    rw [Op.code, opOf, hread 0 0 1 x rfl rfl, hread 1 1 1 mode rfl rfl]
    rfl
  | resumeSet addr count =>
    rw [Op.code, opOf, hread 0 0 8 addr rfl rfl, hread 1 8 2 count rfl rfl]
    rfl
  | evacuate mode spare =>
    rw [Op.code, opOf, hread 0 0 1 mode rfl rfl, hread 2 4 4 spare rfl rfl]
    rfl
  | scrubRange base len flags =>
    rw [Op.code, opOf, hread 0 0 8 base rfl rfl, hread 1 8 8 len rfl rfl, hread 2 16 4 flags rfl rfl]
    rfl
  | anchorWrite addr =>
    rw [Op.code, opOf, hread 0 0 8 addr rfl rfl]
    rfl
  | anchorRestore addr =>
    rw [Op.code, opOf, hread 0 0 8 addr rfl rfl]
    rfl
  | reLeaf region step ring =>
    rw [Op.code, opOf, hread 0 0 2 region rfl rfl, hread 2 4 4 step rfl rfl, hread 3 8 4 ring rfl rfl]
    rfl
  | adopt addr =>
    rw [Op.code, opOf, hread 0 0 8 addr rfl rfl]
    rfl
  | tensorDigest addr =>
    rw [Op.code, opOf, hread 0 0 8 addr rfl rfl]
    rfl

/-- The descriptor of a command, as its bytes (R498). -/
def descBytesOf (h : CmdHdr) (op : Op) : List Byte :=
  packed [(1, op.code), (1, h.flags.toNat), (2, h.mailbox.toNat), (4, h.seq.toNat), (4, h.timeout.toNat), (4, 0)] ++ op.body

theorem Op.code_lt (op : Op) : op.code < 256 := by cases op <;> exact Nat.le_of_ble_eq_true rfl

theorem fits_nil : ∀ f ∈ ([] : List (Nat × Nat)), f.2 < 256 ^ f.1 := nofun

theorem fits_cons {w n : Nat} {fs : List (Nat × Nat)} (h : n < 256 ^ w) (hfs : ∀ f ∈ fs, f.2 < 256 ^ f.1) :
    ∀ f ∈ (w, n) :: fs, f.2 < 256 ^ f.1 := List.forall_mem_cons.2 ⟨h, hfs⟩

/-- A descriptor is read as the row that it spells. -/
theorem readDesc_descBytesOf (h : CmdHdr) (op : Op) (hfit : ∀ f ∈ op.fields, f.2 < 256 ^ f.1) :
    readDesc (descBytesOf h op) = hdrDesc h op := by
  have hhdr := fits_cons (w := 1) op.code_lt (fits_cons (w := 1) h.flags.isLt (fits_cons (w := 2) h.mailbox.isLt
    (fits_cons (w := 4) h.seq.isLt (fits_cons (w := 4) h.timeout.isLt (fits_cons (w := 4) (n := 0) (by decide) fits_nil)))))
  have hread := fun {off w n : Nat} (i : Nat) hi hoff => fieldAt_packed hhdr op.body i (off := off) (w := w) (n := n) hi hoff
  have hcode : fieldAt (descBytesOf h op) 0 1 = op.code := hread 0 rfl rfl
  have hflags : fieldAt (descBytesOf h op) 1 1 = h.flags.toNat := hread 1 rfl rfl
  have hmailbox : fieldAt (descBytesOf h op) 2 2 = h.mailbox.toNat := hread 2 rfl rfl
  have hseq : fieldAt (descBytesOf h op) 4 4 = h.seq.toNat := hread 3 rfl rfl
  have htimeout : fieldAt (descBytesOf h op) 8 4 = h.timeout.toNat := hread 4 rfl rfl
  have hzero : fieldAt (descBytesOf h op) 12 4 = 0 := hread 5 rfl rfl
  have hbody : ((descBytesOf h op).drop 16).take 48 = op.body := by
    rw [descBytesOf, List.drop_left' (i := 16) (packed_length _), List.take_of_length_le]
    exact List.length_take_le _ _
  rw [readDesc, hbody, hcode, hflags, hmailbox, hseq, htimeout, hzero, opOf_body op hfit, hdrDesc]
  dsimp only
  rw [zeroBut_body]
  by_cases hreserved : 4 ≤ h.flags.toNat
  · simp [hreserved]
  · simp [hreserved]

/-! ### The rows -/

/-- The descriptor read of a queue that brings the bytes of a descriptor. -/
theorem exec_commandAccept_bytes {h : CmdHdr} {op : Op} {opcode : Byte} {operands : List Byte}
    (hfit : ∀ f ∈ op.fields, f.2 < 256 ^ f.1) (hcode : opcode.toNat = op.code) (hbody : padTo 48 operands = op.body)
    (s : State) : .next (leaving s ((quiet s).command h op)) = exec (.commandAccept h.queue (some
      ([opcode, h.flags] ++ natLe 2 h.mailbox.toNat ++ natLe 4 h.seq.toNat ++ natLe 4 h.timeout.toNat ++ zeros 4
        ++ padTo 48 operands))) s := by
  have hbytes : [opcode, h.flags] ++ natLe 2 h.mailbox.toNat ++ natLe 4 h.seq.toNat ++ natLe 4 h.timeout.toNat ++ zeros 4
      ++ padTo 48 operands = descBytesOf h op := by
    rw [descBytesOf, ← hcode, hbody]
    simp only [packed, List.flatMap_cons, List.flatMap_nil, natLe_toNat, List.append_nil, List.append_assoc]
    rfl
  rw [hbytes]
  exact next_leaving (congrArg (fun d => (quiet s).arrive h.queue.val (some d)) (readDesc_descBytesOf h op hfit).symm)

/-- Settles O29: the bytes of each row are its operation's operands one behind another. -/
theorem commandRowsAreTheirDescriptors : Obligations.CommandRowsAreTheirDescriptors := by
  unfold Obligations.CommandRowsAreTheirDescriptors
  intro s h a b addr len x n read wd dw
  have ha : a.toNat < 256 ^ 4 := a.isLt
  have hb : b.toNat < 256 ^ 4 := b.isLt
  have haddr : addr.toNat < 256 ^ 8 := addr.isLt
  have hlen : len.toNat < 256 ^ 8 := len.isLt
  have hx : x.toNat < 256 ^ 1 := x.isLt
  have hn : n.toNat < 256 ^ 2 := n.isLt
  have hword := fits_cons ha fits_nil
  have hdword := fits_cons haddr fits_nil
  have hspell : ∀ {op : Op} {opcode : Byte} {operands : List Byte}, (∀ f ∈ op.fields, f.2 < 256 ^ f.1) →
      opcode.toNat = op.code → padTo 48 operands = op.body →
      .next (leaving s ((quiet s).command h op)) = read opcode operands :=
    fun hfit hcode hbody => exec_commandAccept_bytes hfit hcode hbody s
  have hbyte : natLe 1 x.toNat = [x] := natLe_toNat x
  refine ⟨hspell (op := .nop) fits_nil rfl rfl, hspell (op := .ringOpen _) hword rfl rfl,
    hspell (op := .ringSeal _ _) (fits_cons ha (fits_cons hx fits_nil)) rfl ?_, hspell (op := .ringCommit _) hword rfl rfl,
    hspell (op := .ringRollback _ _) (fits_cons ha (fits_cons hb fits_nil)) rfl rfl,
    hspell (op := .stepRetire _) hword rfl rfl, hspell (op := .updateRun _) hdword rfl rfl,
    hspell (op := .updateRun _) hdword rfl rfl, hspell (op := .updateRun _) hdword rfl rfl,
    hspell (op := .graftBegin _ _) (fits_cons hx (fits_cons (by decide) fits_nil)) rfl ?_,
    hspell (op := .graftBegin _ _) (fits_cons hx (fits_cons (by decide) fits_nil)) rfl ?_,
    hspell (op := .resumeSet _ _) (fits_cons haddr (fits_cons hn fits_nil)) rfl rfl,
    hspell (op := .evacuate _ _) (fits_cons (by decide) (fits_cons (by decide) hword)) rfl rfl,
    hspell (op := .evacuate _ _) (fits_cons (by decide) (fits_cons (by decide) hword)) rfl rfl,
    hspell (op := .evacuate _ _) (fits_cons (by decide) (fits_cons (by decide) hword)) rfl rfl,
    hspell (op := .scrubRange _ _ _) (fits_cons haddr (fits_cons hlen hword)) rfl rfl,
    hspell (op := .anchorWrite _) hdword rfl rfl, hspell (op := .anchorWrite _) hdword rfl rfl,
    hspell (op := .anchorRestore _) hdword rfl rfl,
    hspell (op := .reLeaf _ _ _) (fits_cons hn (fits_cons (by decide) (fits_cons ha (fits_cons hb fits_nil)))) rfl rfl,
    hspell (op := .adopt _) hdword rfl rfl, hspell (op := .tensorDigest _) hdword rfl rfl⟩
  · rw [← hbyte]
    rfl
  · rw [← hbyte]
    rfl
  · rw [show ([x, 1] : List Byte) = natLe 1 x.toNat ++ [1] by rw [hbyte]; rfl]
    rfl

end Sys2Proof.Machine
end

section
/-!
PROOF. The acceptance of descriptors (R497, R500, R501, R506, R507) and the start of their operations (R499).
-/
namespace Sys2Proof.Machine

/-! ### A descriptor as it is read -/

theorem readDesc_fresh (d : List Byte) : (readDesc d).opened = false ∧ (readDesc d).counted = false ∧ (readDesc d).lost = false := by
  unfold readDesc
  dsimp only
  split
  · exact ⟨rfl, rfl, rfl⟩
  · split <;> exact ⟨rfl, rfl, rfl⟩

/-! ### What opening a mailbox and a command leaves -/

/-- Fields of a register are apart from those of a later one. -/
theorem Fld.key_ne_of_off_lt {f g : Fld} (hf : f.lo < 64) (h : f.off < g.off) : f.key ≠ g.key := by
  rw [Fld.key, Fld.key]
  omega

section
variable {f : Fld} (hlo : f.lo < 64) (hoff : f.off < 0x0C0000) (e : Eng)
include hlo hoff

theorem rd_openMbox (b opcode seq : Nat) : (e.openMbox b opcode seq).rd f = e.rd f := by
  have hmbox : ∀ g : Fld, 0x0C0000 ≤ g.off → f.key ≠ g.key := fun g hg => Fld.key_ne_of_off_lt hlo (hoff.trans_le hg)
  rw [Eng.openMbox, Eng.rd_wr_ne _ _ (hmbox _ (by decide)), Eng.rd_wr_ne _ _ (hmbox _ (Nat.le_add_right_of_le (by decide))),
    Eng.rd_wr_ne _ _ (hmbox _ (Nat.le_add_right_of_le (by decide)))]
  rfl

theorem rd_openCmd (q : Nat) (d : Fetched) : (e.openCmd q d).rd f = e.rd f := by
  have hqueue : ∀ g : Fld, 0x0C0000 ≤ g.off → f.key ≠ g.key := fun g hg => Fld.key_ne_of_off_lt hlo (hoff.trans_le hg)
  rw [Eng.openCmd, Eng.rd_wr_ne _ _ (hqueue _ (Nat.le_add_right_of_le (by decide))), Eng.nextHead,
    Eng.rd_wr_ne _ _ (hqueue _ (Nat.le_add_right_of_le (by decide)))]
  rfl

end

/-! ### A descriptor at the head of its queue -/

section
variable {e : Eng} {q : Nat} {f : Fetched}

theorem tryAccept_full (hopened : f.opened = false) (hcounted : f.counted = false) (hfull : e.mboxEmpty f.mailbox = false) :
    e.tryAccept q f = (e.bump (Reg.CQ_STAT_MBOX_WAIT q)).keepFetched q { f with counted := true } := by
  rw [Eng.tryAccept, hopened, hfull, hcounted]
  rfl

theorem tryAccept_opens (hopened : f.opened = false) (hempty : e.mboxEmpty f.mailbox = true) :
    e.tryAccept q f =
      if (e.openMbox f.mailbox f.opcode f.seq).holdsQueue q { f with opened := true }
      then (e.openMbox f.mailbox f.opcode f.seq).keepFetched q { f with opened := true }
      else (((e.openMbox f.mailbox f.opcode f.seq).openCmd q { f with opened := true }).runCmd e.q.nextId
        { f with opened := true }).fetchNext q := by
  rw [Eng.tryAccept, hopened, hempty]
  rfl

/-- A FENCE waits for the commands of its queue that are open. -/
def Eng.fenceHolds (e : Eng) (q : Nat) (f : Fetched) : Bool := bit f.flags 0 && e.q.opens.any (fun c => c.queue == q)

theorem holdsQueue_eq (hlost : f.lost = false) : e.holdsQueue q f = (e.fenceHolds q f ||
    match f.op with
    | none => false
    | some op => e.badReason f == 0 && ((needsLock op && e.on Reg.GEN_START_BUSY) || e.opWaits op)) := by
  rw [Eng.holdsQueue, hlost]
  rfl

theorem holdsQueue_fence (hlost : f.lost = false) (h : e.fenceHolds q f = true) : e.holdsQueue q f = true := by
  rw [holdsQueue_eq hlost, h, Bool.true_or]

theorem holdsQueue_none (hlost : f.lost = false) (hfence : e.fenceHolds q f = false) (hop : f.op = none) :
    e.holdsQueue q f = false := by
  rw [holdsQueue_eq hlost, hfence, hop]
  rfl

theorem holdsQueue_some (hlost : f.lost = false) {op : Op} (hop : f.op = some op) : e.holdsQueue q f =
    (e.fenceHolds q f || (e.badReason f == 0 && ((needsLock op && e.on Reg.GEN_START_BUSY) || e.opWaits op))) := by
  rw [holdsQueue_eq hlost, hop]

theorem badReason_some {op : Op} (hop : f.op = some op) :
    e.badReason f = if needsLock op && !e.locked && !e.on Reg.GEN_START_BUSY then 3 else 0 := by
  rw [Eng.badReason, hop]
  rfl

theorem runCmd_none (hlost : f.lost = false) (hop : f.op = none) (id : Nat) : e.runCmd id f = e.refuse id f.bad [] := by
  rw [Eng.runCmd, hlost, hop]
  rfl

theorem runCmd_some (hlost : f.lost = false) {op : Op} (hop : f.op = some op) (id : Nat) : e.runCmd id f =
    if e.badReason f != 0 then e.refuse id (e.badReason f) []
    else if e.oos then e.complete id 0x0052 []
    else if needsModule op && e.on Reg.SEC_STAT_ERROR then e.complete id 0x0053 []
    else e.startOp id f.bads op := by
  rw [Eng.runCmd, hlost, hop]
  rfl

end

/-! ### The descriptor read of a queue -/

/-- The engine once the read of a queue's descriptor is answered. -/
def Eng.readsDesc (e : Eng) (q : Nat) : Eng := { e with q := { e.q with asked := e.q.asked.filter (· != q) } }

section
variable {e : Eng} {q : Nat} (hruns : e.boot.inReset = false) (hfetch : e.fetchable q = true)
  (hnone : look e.q.fetched q = none)
include hruns hfetch hnone

theorem arrive_eq (r : Option Fetched) : e.arrive q r = match r with
    | none => (e.readsDesc q).haltQueue q 1
    | some f => if 256 ≤ f.mailbox then (e.readsDesc q).haltQueue q 2 else (e.readsDesc q).tryAccept q f := by
  rw [Eng.arrive, hruns, hfetch, hnone]
  rfl

theorem arrive_error : e.arrive q none = (e.readsDesc q).haltQueue q 1 := arrive_eq hruns hfetch hnone none

theorem arrive_beyond {f : Fetched} (h : 256 ≤ f.mailbox) : e.arrive q (some f) = (e.readsDesc q).haltQueue q 2 :=
  (arrive_eq hruns hfetch hnone (some f)).trans (if_pos h)

theorem arrive_read {f : Fetched} (h : f.mailbox < 256) : e.arrive q (some f) = (e.readsDesc q).tryAccept q f :=
  (arrive_eq hruns hfetch hnone (some f)).trans (if_neg (Nat.not_le.2 h))

end

theorem badReason_lock {e : Eng} {f : Fetched} {op : Op} (hop : f.op = some op) (hneeds : needsLock op = true)
    (hopen : e.locked = false) (hidle : e.on Reg.GEN_START_BUSY = false) : e.badReason f = 3 := by
  rw [badReason_some hop, hneeds, hopen, hidle]
  rfl

theorem badReason_busy {e : Eng} {f : Fetched} {op : Op} (hop : f.op = some op) (hbusy : e.on Reg.GEN_START_BUSY = true) :
    e.badReason f = 0 := by
  rw [badReason_some hop, hbusy]
  exact if_neg (by simp)

theorem badReason_ok {e : Eng} {f : Fetched} {op : Op} (hop : f.op = some op)
    (hlock : needsLock op = true → e.locked = true) : e.badReason f = 0 := by
  refine (badReason_some hop).trans (if_neg fun h => ?_)
  simp only [Bool.and_eq_true, Bool.not_eq_true'] at h
  exact Bool.false_ne_true (h.1.2.symm.trans (hlock h.1.1))

/-- Nothing holds a command at the head of its queue. -/
theorem holdsQueue_free {e : Eng} {q : Nat} {f : Fetched} {op : Op} (hlost : f.lost = false) (hop : f.op = some op)
    (hfence : e.fenceHolds q f = false) (hlock : needsLock op = true → e.on Reg.GEN_START_BUSY = false)
    (hwaits : e.opWaits op = false) : e.holdsQueue q f = false := by
  rw [holdsQueue_some hlost hop, hfence, hwaits, Bool.or_false, Bool.false_or, Bool.and_eq_false_iff, Bool.and_eq_false_iff]
  exact .inr ((Bool.eq_false_or_eq_true _).symm.imp_right hlock)

/-- What stands at the head of the queue and has been opened reads the start lock and the service as the engine had them. -/
structure SameService (e₀ e : Eng) : Prop where
  locked : e.locked = e₀.locked
  busy : e.on Reg.GEN_START_BUSY = e₀.on Reg.GEN_START_BUSY
  oos : e.oos = e₀.oos
  error : e.on Reg.SEC_STAT_ERROR = e₀.on Reg.SEC_STAT_ERROR

theorem sameService_of_rd {e₀ e : Eng} (h : ∀ f : Fld, f.lo < 64 → f.off < 0x0C0000 → e.rd f = e₀.rd f) : SameService e₀ e :=
  ⟨congrArg (· == 1) (h _ (by decide) (by decide)), congrArg (· == 1) (h _ (by decide) (by decide)),
    congrArg (· == 1) (h _ (by decide) (by decide)), congrArg (· == 1) (h _ (by decide) (by decide))⟩

theorem sameService_openCmd (e : Eng) (q : Nat) (d : Fetched) : SameService e (e.openCmd q d) :=
  sameService_of_rd fun _ hlo hoff => rd_openCmd hlo hoff e q d

/-- Settles O30: the read goes through the mailbox, the FENCE, the reasons of R500 and the state of the engine, in that order. -/
theorem descriptorsAreAcceptedInTurn : Obligations.DescriptorsAreAcceptedInTurn := by
  unfold Obligations.DescriptorsAreAcceptedInTurn
  intro s q hruns hfetch hnone e
  have hruns : (quiet s).boot.inReset = false := hruns
  have hnone : look (quiet s).q.fetched q.val = none := hnone
  refine ⟨next_leaving (arrive_error hruns hfetch hnone), ?_⟩
  intro d f opened at_ id
  obtain ⟨hopened, hcounted, hnew⟩ := readDesc_fresh d
  have hlost : at_.lost = false := hnew
  refine ⟨fun hbeyond => next_leaving (arrive_beyond hruns hfetch hnone hbeyond), fun hmailbox hfull => ?_,
    fun hmailbox hempty => ?_⟩
  · exact next_leaving ((arrive_read hruns hfetch hnone hmailbox).trans (tryAccept_full hopened hcounted hfull))
  have hexec : exec (.commandAccept q (some d)) s = .next (leaving s (if opened.holdsQueue q at_ then opened.keepFetched q at_
      else ((opened.openCmd q at_).runCmd id at_).fetchNext q)) :=
    next_leaving ((arrive_read hruns hfetch hnone hmailbox).trans (tryAccept_opens hopened hempty))
  have hholds : opened.holdsQueue q at_ = true → exec (.commandAccept q (some d)) s =
      .next (leaving s (opened.keepFetched q at_)) :=
    fun hholds => hexec.trans (next_leaving (if_pos hholds))
  have hgoes : opened.holdsQueue q at_ = false → exec (.commandAccept q (some d)) s =
      .next (leaving s (((opened.openCmd q at_).runCmd id at_).fetchNext q)) :=
    fun hgoes => hexec.trans (next_leaving (if_neg (ne_of_eq_of_ne hgoes Bool.false_ne_true)))
  have hfence : bit f.flags 0 = false ∨ s.eng.q.opens.any (fun c => c.queue == q.val) = false →
      opened.fenceHolds q at_ = false := fun h => (Bool.and_eq_false_iff).2 h
  have hserves : SameService s.eng opened := sameService_of_rd fun _ hlo hoff => rd_openMbox hlo hoff e _ _ _
  have hservesOpen := sameService_openCmd opened q at_
  refine ⟨fun hbit hany => hholds (holdsQueue_fence hlost (Bool.and_eq_true_iff.2 ⟨hbit, hany⟩)), fun hop hfree => ?_,
    fun op hop => ⟨fun hneeds hopen hidle hfree => ?_, fun hneeds hbusy => ?_, fun hlock hbit hwaits hoos => ?_⟩⟩
  · have hop : at_.op = none := hop
    rw [hgoes (holdsQueue_none hlost (hfence hfree) hop), runCmd_none hlost hop]
  · have hop : at_.op = some op := hop
    have hopen := hserves.locked.trans hopen
    have hidle := hserves.busy.trans hidle
    have hgo : opened.holdsQueue q at_ = false := by
      rw [holdsQueue_some hlost hop, hfence hfree, badReason_lock hop hneeds hopen hidle]
      rfl
    rw [hgoes hgo, runCmd_some hlost hop, badReason_lock hop hneeds (hservesOpen.locked.trans hopen) (hservesOpen.busy.trans hidle)]
    rfl
  · have hop : at_.op = some op := hop
    have hbusy := hserves.busy.trans hbusy
    refine hholds ?_
    rw [holdsQueue_some hlost hop, badReason_busy hop hbusy, hneeds, hbusy]
    exact Bool.or_true _
  · have hop : at_.op = some op := hop
    have hlock' : needsLock op = true → opened.locked = true ∧ opened.on Reg.GEN_START_BUSY = false :=
      fun h => ⟨hserves.locked.trans (hlock h).1, hserves.busy.trans (hlock h).2⟩
    rw [hgoes (holdsQueue_free hlost hop (hfence (.inl hbit)) (fun h => (hlock' h).2) hwaits), runCmd_some hlost hop,
      badReason_ok hop (fun h => hservesOpen.locked.trans (hlock' h).1), hservesOpen.oos.trans (hserves.oos.trans hoos)]
    rfl

/-! ### The start of an operation (R499) -/

theorem command_accepted {h : CmdHdr} {op : Op} {s : State} (hacc : accepts h op s) :
    (quiet s).command h op = ((opened h op s).startOp s.eng.q.nextId [] op).fetchNext h.queue := by
  obtain ⟨⟨hruns, hfetch, hnone, hmailbox, hempty⟩, hflags, hlock, hfence, hwaits, hoos, herror⟩ := hacc
  have hop : (headDesc h op).op = some op := if_neg (Nat.not_le.2 hflags)
  have hlost : (headDesc h op).lost = false := rfl
  have hserves : SameService s.eng (atHead h op s) :=
    sameService_of_rd fun _ hlo hoff => rd_openMbox hlo hoff ((quiet s).readsDesc h.queue) _ _ _
  have hservesOpen : SameService (atHead h op s) (opened h op s) := sameService_openCmd _ _ _
  have hfree : (atHead h op s).fenceHolds h.queue (headDesc h op) = false := by
    refine Bool.and_eq_false_iff.2 ((Bool.eq_false_or_eq_true _).symm.imp_right fun hbit => ?_)
    refine List.any_eq_false.2 fun c hc heq => ?_
    exact bne_iff_ne.1 (List.all_eq_true.1 (hfence hbit) c hc) (beq_iff_eq.1 heq)
  have hlocked : needsLock op = true → (opened h op s).locked = true :=
    fun hneeds => hservesOpen.locked.trans (hserves.locked.trans (hlock hneeds).1)
  have hgoes : (atHead h op s).holdsQueue h.queue (headDesc h op) = false :=
    holdsQueue_free hlost hop hfree (fun hneeds => hserves.busy.trans (hlock hneeds).2) hwaits
  have hmodule : (needsModule op && (opened h op s).on Reg.SEC_STAT_ERROR) = false :=
    Bool.and_eq_false_iff.2 ((Bool.eq_false_or_eq_true _).symm.imp_right fun hneeds =>
      hservesOpen.error.trans (hserves.error.trans (herror hneeds)))
  have hstarts : (opened h op s).runCmd s.eng.q.nextId (headDesc h op) = (opened h op s).startOp s.eng.q.nextId [] op := by
    rw [runCmd_some hlost hop, badReason_ok hop hlocked, hservesOpen.oos.trans (hserves.oos.trans hoos), hmodule]
    rfl
  refine (arrive_read (e := quiet s) hruns hfetch hnone hmailbox).trans ((tryAccept_opens rfl hempty).trans ?_)
  exact (if_neg (ne_of_eq_of_ne hgoes Bool.false_ne_true)).trans (congrArg (·.fetchNext h.queue.val) hstarts)

/-- Settles O31: an accepted command starts what its opcode says. -/
theorem acceptedCommandsStartTheirOperation : Obligations.AcceptedCommandsStartTheirOperation := by
  unfold Obligations.AcceptedCommandsStartTheirOperation
  intro s h a b addr len x n id q runs
  have hstarts : ∀ (i : Instr) (op : Op), exec i s = .next (leaving s ((quiet s).command h op)) →
      runs i op (fun e => e.startOp id [] op) :=
    fun i op hrow hacc => hrow.trans (next_leaving (command_accepted hacc))
  exact ⟨hstarts _ _ rfl, hstarts _ _ rfl, hstarts _ _ rfl, hstarts _ _ rfl, hstarts _ _ rfl, hstarts _ _ rfl,
    hstarts _ _ rfl, hstarts _ _ rfl, hstarts _ _ rfl, hstarts _ _ rfl, hstarts _ _ rfl, hstarts _ _ rfl, hstarts _ _ rfl,
    hstarts _ _ rfl, hstarts _ _ rfl, hstarts _ _ rfl, hstarts _ _ rfl, hstarts _ _ rfl, hstarts _ _ rfl, hstarts _ _ rfl,
    hstarts _ _ rfl, hstarts _ _ rfl⟩

end Sys2Proof.Machine
end

section
/-!
PROOF. The registers of the command queues (R496, R497).
-/
namespace Sys2Proof.Machine

/-- A write of LOG2SIZE, taken only while EN is 0. -/
def Eng.sizesQueue (e : Eng) (q v : Nat) : Eng := if e.on (Reg.CQ_CTL_EN q) then e else e.sw (Reg.CQ_CTL_LOG2SIZE q) v

theorem queueCtl_enables {e : Eng} {q v : Nat} (h : (Reg.CQ_CTL_EN q).of v = 1) : e.queueCtl q v =
    (((((e.sizesQueue q v).flag (Reg.CQ_CTL_EN q) true).flag (Reg.CQ_CTL_HALTED q) false).wr (Reg.CQ_CTL_HALT_WHY q) 0).setLevel
      (.CQ_HALT q) false).fetchNext q := if_pos h

theorem queueCtl_disables {e : Eng} {q v : Nat} (h : (Reg.CQ_CTL_EN q).of v = 0) :
    e.queueCtl q v = ((e.sizesQueue q v).flag (Reg.CQ_CTL_EN q) false).dropFetched q :=
  if_neg (ne_of_eq_of_ne h Nat.zero_ne_one)

/-- Settles O28: the doorbell compares with the size, and a control write sizes the queue before it enables or disables it. -/
theorem queueRegistersSteerTheQueue : Obligations.QueueRegistersSteerTheQueue := by
  unfold Obligations.QueueRegistersSteerTheQueue
  intro s q v h
  refine ⟨⟨fun hin => ?_, fun hout => ?_⟩, ?_⟩
  · exact next_leaving ((write_written h _ _ _).trans (if_neg (Nat.not_le.2 hin)))
  · exact next_leaving ((write_written h _ _ _).trans (if_pos hout))
  · intro e sized
    have hsized : e.sizesQueue q v.toNat = sized := by
      rw [Eng.sizesQueue, written_on (Fld.key_ne_of_lo rfl) (Fld.key_ne_of_lo rfl)]
    rw [← hsized]
    exact ⟨fun hon => next_leaving ((write_written h _ _ _).trans (queueCtl_enables hon)),
      fun hoff => next_leaving ((write_written h _ _ _).trans (queueCtl_disables hoff))⟩

end Sys2Proof.Machine
end

section
/-!
PROOF. Accesses to registers of a domain that does not answer (R436).
-/
namespace Sys2Proof.Machine

/-! ### Where the registers stand in the window -/

/-- The offset of the last register of a row. -/
def RegRow.last (r : RegRow) : Nat := r.base + (r.cnt1 - 1) * r.str1 + (r.cnt2 - 1) * r.str2

/-- Every row stands below the apertures, and beside the capability list. -/
theorem regTable_placed : ∀ r ∈ regTable, r.last < 0x100000 ∧ (r.last < 0x800 ∨ 0x880 ≤ r.base) := by decide +kernel

theorem at?_bounds {r : RegRow} {off i j : Nat} (h : r.at? off = some (i, j)) : r.base ≤ off ∧ off ≤ r.last := by
  unfold RegRow.at? at h
  split at h
  · cases h
  next hbase =>
    obtain ⟨hat, -⟩ := Option.ite_none_right_eq_some.1 h
    simp only [Bool.and_eq_true, decide_eq_true_eq, beq_iff_eq] at hat
    obtain ⟨⟨hi, hj⟩, hd⟩ := hat
    have hrow := Nat.mul_le_mul_right r.str1 (Nat.le_sub_one_of_lt hi)
    have hcol := Nat.mul_le_mul_right r.str2 (Nat.le_sub_one_of_lt hj)
    unfold RegRow.last
    omega

theorem regAt_placed {off i j : Nat} {r : RegRow} (h : regAt off = some (r, i, j)) : off < 0x100000 ∧ inCaps off = false := by
  obtain ⟨r', hr, hat⟩ := List.exists_of_findSome?_eq_some h
  obtain ⟨⟨i', j'⟩, hplace, -⟩ := Option.map_eq_some_iff.1 hat
  obtain ⟨hfirst, hlast⟩ := at?_bounds hplace
  obtain ⟨hlow, hcaps⟩ := regTable_placed r' hr
  refine ⟨hlast.trans_lt hlow, ?_⟩
  rw [inCaps, Bool.and_eq_false_iff, decide_eq_false_iff_not, decide_eq_false_iff_not]
  omega

/-- A write to a register that stores its fields goes through the register's row. -/
theorem regWrite_of_storesAt {off : Nat} {wide : Bool} {flds : List Fld} {d : Dom} (h : storesAt off wide flds d) (e : Eng)
    (v : Nat) : ∃ f, e.regWrite off (if wide then 8 else 4) v = e.write d flds v f := by
  obtain ⟨r, i, j, hreg, halign, hbits, -, rfl, rfl⟩ := h
  obtain ⟨hlow, hcaps⟩ := regAt_placed hreg
  have hword : (((if wide then 8 else 4) == 4 || (if wide then 8 else 4) == 8) && off % (if wide then 8 else 4) == 0) = true := by
    rw [halign]
    cases wide <;> rfl
  have hwidth : r.bits = 8 * (if wide then 8 else 4) := hbits.trans (by cases wide <;> rfl)
  rw [regWrite_of_regAt hword hlow hcaps hreg hwidth, Eng.writeReg]
  exact ⟨_, rfl⟩

theorem change_refused {s : State} {d : Dom} (h : s.eng.answers d = false) (f : Eng → Eng) :
    (quiet s).change d f = (quiet s).emit .busError := access_refused h _

/-- Settles O8: every command of a register goes through the access, the change or the write of its domain. -/
theorem registersOfASilentDomainAnswerWithAnError : Obligations.RegistersOfASilentDomainAnswerWithAnError := by
  unfold Obligations.RegistersOfASilentDomainAnswerWithAnError
  intro s
  refine ⟨fun h v w q n b r slot off wide => ?_, fun h p v => ?_, fun h v w g t x => ?_, fun off wide v flds d hat h => ?_⟩
  · have hwrite := fun flds v f => next_leaving (s := s) (write_refused h flds v f)
    have hchange := fun f => next_leaving (s := s) (change_refused h f)
    exact ⟨hwrite _ _ _, hwrite _ _ _, hwrite _ _ _, hwrite _ _ _, hwrite _ _ _, hwrite _ _ _, hwrite _ _ _, hwrite _ _ _,
      hwrite _ _ _, next_leaving (access_refused h _), hwrite _ _ _, hwrite _ _ _, hchange _, hchange _, hchange _, hchange _⟩
  · have hwrite := fun flds v f => next_leaving (s := s) (write_refused h flds v f)
    exact ⟨hwrite _ _ _, hwrite _ _ _⟩
  · have hwrite := fun flds v f => next_leaving (s := s) (write_refused h flds v f)
    have haccess := fun f => next_leaving (s := s) (access_refused h f)
    exact ⟨hwrite _ _ _, hwrite _ _ _, haccess _, hwrite _ _ _, hwrite _ _ _, haccess _, hwrite _ _ _, hwrite _ _ _,
      hwrite _ _ _, hwrite _ _ _, hwrite _ _ _, hwrite _ _ _, hwrite _ _ _, hwrite _ _ _⟩
  · have hrow : ∀ value, (quiet s).regWrite off (if wide then 8 else 4) value = (quiet s).emit .busError := by
      intro value
      obtain ⟨f, hf⟩ := regWrite_of_storesAt hat (quiet s) value
      rw [hf, write_refused h]
    cases wide
    · exact next_leaving (hrow _)
    · exact next_leaving (hrow _)

end Sys2Proof.Machine
end

section
/-!
PROOF. Engine time, the pulse per second and the global count (R466 to R472).
-/
namespace Sys2Proof.Machine

/-! ### Writes of a whole register -/

/-- A field over all 64 bits leaves no bit of a register reserved. -/
theorem strayBits_whole {f : Fld} (hlo : f.lo = 0) (hwidth : f.width = 64) (v : Nat) : strayBits [f] v = false := by
  refine List.any_eq_false.2 fun i hi => ?_
  have := List.mem_range.1 hi
  simp [hlo, hwidth, this]

theorem written_alwaysOn_whole {f : Fld} (hlo : f.lo = 0) (hwidth : f.width = 64) (v : Nat) (s : State) :
    written .alwaysOn [f] v s = quiet s := by
  rw [written, Eng.rsvdCheck, strayBits_whole hlo hwidth, reached_alwaysOn]
  rfl

/-! ### The alarm (R470) -/

theorem alarmCheck_due {e : Eng} (hset : e.rd Reg.TIM_ALARM_NS ≠ 0) (hdue : e.rd Reg.TIM_ALARM_NS ≤ e.now) :
    e.alarmCheck = (e.raise .TIME_ALARM).wr Reg.TIM_ALARM_NS 0 := if_pos (by simp [hset, hdue])

/-! ### Corrections (R468) -/

section
variable {e : Eng} {t : Nat}

theorem correct_refused (h : e.rd Reg.TIM_CTL_MAX_STEP * 1000 * 2 ^ 32 < t * 2 ^ 32 - e.time.acc ∨
      e.rd Reg.TIM_CTL_MAX_STEP * 1000 * 2 ^ 32 < e.time.acc - t * 2 ^ 32) :
    e.correct t = (e.bump Reg.TIM_PPS_STAT_REJECT).raise .PPS_REJECT := by
  refine if_pos ?_
  split <;> omega

theorem correct_forward (hle : e.time.acc ≤ t * 2 ^ 32)
    (hreach : t * 2 ^ 32 - e.time.acc ≤ e.rd Reg.TIM_CTL_MAX_STEP * 1000 * 2 ^ 32) :
    e.correct t = ((e.setSlew none).setAcc (t * 2 ^ 32)).alarmCheck :=
  (if_neg (by rw [if_pos hle]; omega)).trans (if_pos hle)

theorem correct_backward (hlt : t * 2 ^ 32 < e.time.acc)
    (hreach : e.time.acc - t * 2 ^ 32 ≤ e.rd Reg.TIM_CTL_MAX_STEP * 1000 * 2 ^ 32) :
    e.correct t = e.setSlew (some (t * 2 ^ 32)) :=
  (if_neg (by rw [if_neg (by omega)]; omega)).trans (if_neg (by omega))

end

theorem setAcc_eq {e : Eng} {a : Nat} (h : a < 2 ^ 96) : e.setAcc a = { e with time := { e.time with acc := a } } := by
  rw [Eng.setAcc, Nat.mod_eq_of_lt h]

/-! ### Engine time passes (R468, R470) -/

section
variable {e : Eng} {a : Nat}

theorem passTo_reached (h : a ≤ e.time.acc) : e.passTo a = e := if_pos h

theorem passTo_full (hslew : e.time.slew = none) (h : e.time.acc < a) : e.passTo a = e.setAcc a := by
  refine (if_neg (Nat.not_le.2 h)).trans ?_
  rw [hslew]

theorem passTo_slewing {path : Nat} (hslew : e.time.slew = some path) (h : e.time.acc < a)
    (hbefore : a - e.time.acc < e.time.acc - path) : e.passTo a =
      { e with time := { e.time with acc := a % 2 ^ 96, slew := some (path + 2 * (a - e.time.acc)) } } := by
  refine (if_neg (Nat.not_le.2 h)).trans ?_
  rw [hslew]
  exact if_pos (by omega)

theorem passTo_met {path : Nat} (hslew : e.time.slew = some path) (h : e.time.acc < a)
    (hmet : e.time.acc - path ≤ a - e.time.acc) : e.passTo a = (e.setSlew none).setAcc a := by
  refine (if_neg (Nat.not_le.2 h)).trans ?_
  rw [hslew]
  exact if_neg (by omega)

end

/-- The end of a slew: engine time meets its target's path. -/
def Eng.slewEnd (e : Eng) : Eng :=
  match e.time.slew with
  | none => e
  | some path => ((e.setSlew none).setAcc (e.time.acc + (e.time.acc - path))).alarmCheck

theorem exec_timeSlewEnd (s : State) : exec .timeSlewEnd s = .next (leaving s (quiet s).slewEnd) := rfl

theorem slewEnd_met {e : Eng} {path : Nat} (h : e.time.slew = some path) :
    e.slewEnd = ((e.setSlew none).setAcc (e.time.acc + (e.time.acc - path))).alarmCheck := by
  rw [Eng.slewEnd, h]

/-- Settles O10: reads, corrections, slews and the alarm, each by its branch. -/
theorem engineTimeIsReadSetAndWatched : Obligations.EngineTimeIsReadSetAndWatched := by
  unfold Obligations.EngineTimeIsReadSetAndWatched
  refine ⟨fun s h => ?_, ?_, ?_⟩
  · refine next_leaving ((access_reached h _).trans ?_)
    have hfrac : bits s.eng.time.acc 31 24 = s.eng.time.acc / 2 ^ 24 % 256 :=
      congrArg (· % 256) (Nat.shiftRight_eq_div_pow s.eng.time.acc 24)
    rw [reached_alwaysOn, ← hfrac]
    rfl
  · intro s v h a target reach
    have hexec : exec (.timeCorrection v) s = .next (leaving s ((quiet s).correct v.toNat)) :=
      next_leaving ((write_written (takesWrites_alwaysOn h) _ _ _).trans (by rw [written_alwaysOn_whole rfl rfl]))
    have htarget : target < 2 ^ 96 := by
      have := v.isLt
      omega
    rw [hexec]
    refine ⟨fun hfar => next_leaving (correct_refused hfar), fun ⟨hle, hreach⟩ => ?_, fun ⟨hlt, hreach⟩ => ?_, ?_⟩
    · rw [correct_forward (e := quiet s) hle hreach, setAcc_eq htarget]
      rfl
    · exact next_leaving (correct_backward hlt hreach)
    · intro path hslew hle hlt
      have hmet : a + (a - path) = 2 * a - path := by omega
      have hend : ((quiet s).setSlew none).setAcc (a + (a - path)) =
          { quiet s with time := { s.eng.time with acc := 2 * a - path, slew := none, half := false } } := by
        rw [hmet, setAcc_eq hlt]
        rfl
      exact next_leaving ((slewEnd_met (e := quiet s) hslew).trans (congrArg Eng.alarmCheck hend))
  · intro s v hacc
    refine ⟨fun h => ?_, fun hset hlt => ?_⟩
    · have hexec : exec (.alarmSet v) s = .next (leaving s ((quiet s).wr Reg.TIM_ALARM_NS v.toNat).alarmCheck) :=
        next_leaving ((write_written (takesWrites_alwaysOn h) _ _ _).trans (by rw [written_alwaysOn_whole rfl rfl]))
      have halarm : ((quiet s).wr Reg.TIM_ALARM_NS v.toNat).rd Reg.TIM_ALARM_NS = v.toNat :=
        (Eng.rd_wr_same _ _ _).trans (Nat.mod_eq_of_lt v.isLt)
      rw [hexec]
      refine ⟨fun hlater => ?_, fun ⟨hset, hdue⟩ => ?_⟩
      · rw [alarmCheck_before]
        rw [halarm]
        exact hlater.imp_left fun hzero => by rw [hzero]; rfl
      · rw [alarmCheck_due]
        · rw [halarm]
          exact fun hzero => hset (BitVec.eq_of_toNat_eq hzero)
        · rw [halarm]
          exact hdue
    · intro a at_ met
      have hat : at_ < 2 ^ 96 := by omega
      have hmet : ∀ path half, (quiet s).passTo at_ =
          { quiet s with time := { s.eng.time with acc := max a at_, slew := path, half := half } } → met path half := by
        intro path half hpass
        refine next_leaving ((if_neg hset).trans ((congrArg Eng.alarmCheck hpass).trans (alarmCheck_due hset ?_)))
        have hdue : s.eng.rd Reg.TIM_ALARM_NS ≤ max a at_ / 2 ^ 32 :=
          (Nat.le_div_iff_mul_le (by decide)).2 (Nat.le_max_right a at_)
        exact hdue.trans_eq (Nat.mod_eq_of_lt (by omega)).symm
      refine ⟨fun hfull => hmet _ _ ?_, fun path hslew hlater => ⟨fun hbefore => hmet _ _ ?_, fun hdone => hmet _ _ ?_⟩⟩
      · by_cases hle : at_ ≤ a
        · rw [passTo_reached (e := quiet s) hle, Nat.max_eq_left hle]
          rfl
        · rw [passTo_full (e := quiet s) (hfull.resolve_right hle) (Nat.not_le.1 hle), setAcc_eq hat,
            Nat.max_eq_right (Nat.le_of_not_le hle)]
          rfl
      · rw [passTo_slewing (e := quiet s) hslew hlater hbefore, Nat.mod_eq_of_lt hat, Nat.max_eq_right hlater.le]
        rfl
      · rw [passTo_met (e := quiet s) hslew hlater hdone, setAcc_eq hat, Nat.max_eq_right hlater.le]
        rfl

/-! ### The pulse per second (R469) -/

/-- The engine once an edge is captured and measured. -/
def Eng.capturesPps (e : Eng) : Eng :=
  ((e.wr Reg.TIM_PPS_CAP_NS e.now).wr Reg.TIM_PPS_ERR_NS (e.now + 2 ^ 64 - e.rd Reg.TIM_PPS_NEXT_NS)).flag
    Reg.TIM_PPS_STAT_LOST false

/-- The engine once an edge is the last accepted one. -/
def Eng.takesPps (e : Eng) : Eng := { e with time := { e.time with lastPps := some e.now } }

section
variable {e : Eng}

theorem ppsEdge_glitch {t : Nat} (hlast : e.time.lastPps = some t) (h : e.now ≤ t + 500000000) :
    e.ppsEdge = e.bump Reg.TIM_PPS_STAT_GLITCH := by
  rw [Eng.ppsEdge, hlast]
  exact if_pos (decide_eq_true h)

theorem ppsEdge_accepted (h : ∀ t, e.time.lastPps = some t → t + 500000000 < e.now) : e.ppsEdge =
    ((if e.on Reg.TIM_CTL_ALIGN then e.capturesPps.correct (e.rd Reg.TIM_PPS_NEXT_NS) else e.capturesPps).wr
      Reg.TIM_PPS_NEXT_NS (e.rd Reg.TIM_PPS_NEXT_NS + 1000000000)).takesPps := by
  have hglitch : ¬(match e.time.lastPps with | none => false | some t => decide (e.now ≤ t + 500000000)) = true := by
    cases hlast : e.time.lastPps with
    | none => exact Bool.false_ne_true
    | some t => exact fun hle => Nat.not_lt.2 (of_decide_eq_true hle) (h t hlast)
  have halign : e.capturesPps.on Reg.TIM_CTL_ALIGN = e.on Reg.TIM_CTL_ALIGN := by
    rw [Eng.capturesPps, Eng.on_flag_ne _ _ (by decide), Eng.on_wr_ne _ _ (by decide), Eng.on_wr_ne _ _ (by decide)]
  rw [← halign]
  exact if_neg hglitch

end

/-- Settles O11: edges and counts, each by its branch. -/
theorem ppsAndGlobalCountAreTaken : Obligations.PpsAndGlobalCountAreTaken := by
  unfold Obligations.PpsAndGlobalCountAreTaken
  refine ⟨fun s hoff => ?_, fun s hon => ?_, fun s v hon => ?_⟩
  · have hoff : (quiet s).pins.pwrGood = false := hoff
    have hdown : ¬(quiet s).pins.pwrGood = true := ne_of_eq_of_ne hoff Bool.false_ne_true
    refine ⟨next_leaving (if_neg hdown), next_leaving (if_neg fun hlost => hdown ?_), fun v => next_leaving (if_neg hdown),
      next_leaving (if_pos (Bool.or_eq_true_iff.2 (.inl ?_)))⟩
    · exact (Bool.and_eq_true_iff.1 (Bool.and_eq_true_iff.1 hlost).1).1
    · exact (Bool.not_eq_true' _).mpr hoff
  · have hon : (quiet s).pins.pwrGood = true := hon
    refine ⟨fun hlast => ⟨fun halign => ?_, fun halign => ?_⟩, fun t hlast hle => ?_, fun hen hlost => ?_⟩
    · refine next_leaving ((if_pos hon).trans ((ppsEdge_accepted (e := quiet s) hlast).trans ?_))
      exact congrArg (fun e : Eng => (e.wr Reg.TIM_PPS_NEXT_NS _).takesPps) (if_neg (ne_of_eq_of_ne halign Bool.false_ne_true))
    · refine next_leaving ((if_pos hon).trans ((ppsEdge_accepted (e := quiet s) hlast).trans ?_))
      exact congrArg (fun e : Eng => (e.wr Reg.TIM_PPS_NEXT_NS _).takesPps) (if_pos halign)
    · exact next_leaving ((if_pos hon).trans (ppsEdge_glitch (e := quiet s) hlast hle))
    · refine next_leaving (if_pos (Bool.and_eq_true_iff.2 ⟨Bool.and_eq_true_iff.2 ⟨hon, hen⟩, ?_⟩))
      exact (Bool.not_eq_true' _).mpr hlost
  · have hon : (quiet s).pins.pwrGood = true := hon
    refine ⟨fun hback => next_leaving ((if_pos hon).trans (if_pos hback)), fun hle harm => ?_, fun hlost => ?_⟩
    · refine next_leaving ((if_pos hon).trans ((if_neg (Nat.not_lt.2 hle)).trans (if_neg fun hlate => ?_)))
      have harmed := (Bool.and_eq_true_iff.1 (Bool.and_eq_true_iff.1 hlate).1).1
      rw [Eng.on_flag_ne _ _ (by decide), Eng.on_wr_ne _ _ (by decide)] at harmed
      exact Bool.false_ne_true (harm.symm.trans harmed)
    · refine next_leaving (if_neg fun hheld => ?_)
      obtain hdown | hheld := Bool.or_eq_true_iff.1 hheld
      · exact Bool.false_ne_true (((Bool.not_eq_true' _).mp hdown).symm.trans hon)
      · exact Bool.false_ne_true (hlost.symm.trans hheld)

end Sys2Proof.Machine
end

section
/-!
PROOF. The grove map (R442 to R444).
-/
namespace Sys2Proof.Machine

/-- An engine that fetches while it holds a map of the expected digest, that of the empty string: it had one that does not list
it, and WAIT ended (R443, R444). -/
def fetchingHeld : Eng :=
  let digest := sha3_256 []
  let e := (Eng.reset.wr Reg.GRV_MAP_STAT_STATE 2).each (List.range 4) fun n e =>
    e.wr (Reg.GRV_MAP_DIG_DIGEST n) (fieldAt digest (8 * n) 8)
  { e with map := { e.map with digest := digest } }

/-- GRV_MAP_STAT.STATE after a command that answers a next state. -/
def mapStateAfter : Host.Outcome State Fault Refusal → Option Nat
  | .next s => some s.eng.mapState
  | _ => none

/-- The map stays held (R444). -/
theorem mapStateAfter_fetchingHeld :
    mapStateAfter (exec (.mapFetchComplete (some [])) { pending := [], eng := fetchingHeld }) = some 4 := by decide +kernel

/-- Refutes O17: the clause of a fetched map has it taken in every state, and an engine that holds a map of that digest already
(`fetchingHeld`, which from state 4 the end of WAIT brings about) ignores it and stays at state 4 (R444); the statement does not
ask that none be held. Its clause of a map write has the same gap. -/
theorem not_mapIsArmedWrittenAndFetched : ¬ Obligations.MapIsArmedWrittenAndFetched := by
  unfold Obligations.MapIsArmedWrittenAndFetched
  intro h
  obtain ⟨-, -, hfetch⟩ := h
  obtain ⟨-, -, -, hcomplete⟩ := hfetch { pending := [], eng := fetchingHeld }
  obtain ⟨-, -, htaken⟩ := hcomplete (by decide +kernel)
  have htaken := htaken [] (by decide +kernel)
  exact absurd (mapStateAfter_fetchingHeld.symm.trans (congrArg mapStateAfter htaken)) (by decide +kernel)

end Sys2Proof.Machine
end

section
/-!
PROOF. The records of the roll call (R446, R447).
-/
namespace Sys2Proof.Machine

/-! ### A record that arrives (R446) -/

/-- The engine once a record of the map key is kept, answered and shown. -/
def Eng.keepsRecord (e : Eng) (pos : Nat) (r : List Byte) : Eng :=
  (({ e with rc := { e.rc with records := put e.rc.records pos r } } : Eng).emit (.fabricAnswer (some []))).wr
    Reg.GRV_RC_STAT_HELD (setBit (e.rd Reg.GRV_RC_STAT_HELD) pos)

theorem awake_mapKey (s : State) : (awake s).mapKey = s.eng.mapKey := by
  have hword : ∀ n, (awake s).rd (Reg.GRV_MAP_DIG_DIGEST n) = s.eng.rd (Reg.GRV_MAP_DIG_DIGEST n) :=
    fun n => awake_rd (Fld.key_ne_of_lo rfl)
  simp only [Eng.mapKey, Eng.mapDigest, hword]

/-- An engine that has come up and serves takes an access with its clocks running (R438, R452). -/
theorem rollRecord_taken {s : State} (hready : s.eng.on Reg.GEN_BOOT_READY = true) (hserves : s.eng.fenced = false)
    (hruns : s.eng.boot.inReset = false) {r : List Byte} (hlen : r.length = 128) (hplaced : s.eng.on Reg.GEN_PLACE_VALID = true)
    (key requester pos : Nat) : (quiet s).rollRecord key requester pos r =
      if key != s.eng.mapKey then ((awake s).bump Reg.GRV_RC_STAT_KEY_MISS).refuseFabric
      else ((awake s).keepsRecord pos r).rollCheck := by
  have hup : ¬(!(quiet s).on Reg.GEN_BOOT_READY || (quiet s).fenced) = true := by
    rw [quiet_on, hready, show (quiet s).fenced = false from hserves]
    exact Bool.false_ne_true
  have hrun : ¬(quiet s).boot.inReset = true := ne_of_eq_of_ne hruns Bool.false_ne_true
  have hwhole : ¬(r.length != 128 || !(awake s).on Reg.GEN_PLACE_VALID) = true := by
    rw [hlen, Eng.on, awake_rd (by decide)]
    exact fun h => Bool.false_ne_true (((Bool.not_eq_true' _).mp h).symm.trans hplaced)
  rw [← awake_mapKey]
  exact (if_neg hup).trans ((if_neg hrun).trans (if_neg hwhole))

theorem rollCheck_inactive {e : Eng} (h : e.rc.active = false) : e.rollCheck = e := by
  rw [Eng.rollCheck, h]
  rfl

theorem awake_eq (s : State) : (awake s) = { quiet s with regs := (awake s).regs } := by
  unfold awake
  split <;> rfl

/-! ### Records that go again (R446) -/

/-- The write of this member's record to one position. -/
def Eng.recordWrite (e : Eng) (p : Nat) : Action :=
  .fabricWrite (e.placeOf p) apRollCall (128 * e.pos) e.mapKey e.rc.own

theorem sendRecord_eq (e : Eng) (p : Nat) : e.sendRecord p =
    if e.on Reg.GEN_PLACE_VALID && e.on Reg.GEN_BOOT_READY then e.emit (e.recordWrite p) else e := by
  rw [Eng.sendRecord]
  cases e.on Reg.GEN_PLACE_VALID <;> cases e.on Reg.GEN_BOOT_READY <;> rfl

/-- The records to some positions are one write behind the other. -/
theorem each_sendRecord (e : Eng) (ps : List Nat) : e.each ps (fun p e => e.sendRecord p) =
    { e with out := e.out ++ if e.on Reg.GEN_PLACE_VALID && e.on Reg.GEN_BOOT_READY then ps.map e.recordWrite else [] } := by
  induction ps generalizing e with
  | nil => simp
  | cons p ps ih =>
    rw [Eng.each_cons, ih, sendRecord_eq]
    cases hmay : e.on Reg.GEN_PLACE_VALID && e.on Reg.GEN_BOOT_READY with
    | false => simp [hmay]
    | true =>
      have hmay' : ((e.emit (e.recordWrite p)).on Reg.GEN_PLACE_VALID && (e.emit (e.recordWrite p)).on Reg.GEN_BOOT_READY) = true :=
        hmay
      rw [if_pos rfl, if_pos hmay', if_pos rfl, List.map_cons, ← List.singleton_append, ← List.append_assoc]
      rfl

/-- Settles O16: a record is kept or refused by its key, those outstanding go again one behind the other, and the timeout refuses. -/
theorem rollCallRecordsAreKeptAndResent : Obligations.RollCallRecordsAreKeptAndResent := by
  unfold Obligations.RollCallRecordsAreKeptAndResent
  refine ⟨fun s key requester pos rec hready hserves hruns hlen hplaced => ?_, fun s hruns => ⟨?_, ?_⟩⟩
  · have htaken := rollRecord_taken hready hserves hruns hlen hplaced key.toNat requester.toNat pos
    refine ⟨fun hkey hidle => next_leaving (htaken.trans ?_), fun hkey => next_leaving (htaken.trans (if_pos (bne_iff_ne.2 hkey)))⟩
    have hshown : (awake s).rd Reg.GRV_RC_STAT_HELD = s.eng.rd Reg.GRV_RC_STAT_HELD := awake_rd (by decide)
    have hrc : (awake s).rc = s.eng.rc := by rw [awake_eq]; rfl
    have hinactive : ((awake s).keepsRecord pos rec).rc.active = false := by
      rw [← hrc] at hidle
      exact hidle
    refine (if_neg (by simp [hkey])).trans ((rollCheck_inactive hinactive).trans ?_)
    rw [Eng.keepsRecord, hshown, hrc]
  · intro done hserves left
    have hgoes : ¬((quiet s).boot.inReset || (quiet s).fenced) = true := by
      rw [show (quiet s).boot.inReset = false from hruns, show (quiet s).fenced = false from hserves]
      exact Bool.false_ne_true
    exact next_leaving ((if_neg hgoes).trans (each_sendRecord _ _))
  · intro hactive
    exact next_leaving (if_pos (Bool.and_eq_true_iff.2 ⟨hactive, (Bool.not_eq_true' _).mpr hruns⟩))

end Sys2Proof.Machine
end

section
/-!
PROOF. Resets and resumption, pruning, power modes and zeroization (R310, R406, R407, R410 to R413, R438, R450 to R462, R540).
-/
namespace Sys2Proof.Machine

/-! ### A write to the always-on registers -/

@[simp] theorem written_boot (d : Dom) (flds : List Fld) (v : Nat) (s : State) : (written d flds v s).boot = s.eng.boot := by
  rw [written_eq]
  rfl

@[simp] theorem written_fuses (d : Dom) (flds : List Fld) (v : Nat) (s : State) : (written d flds v s).fuses = s.eng.fuses := by
  rw [written_eq]
  rfl

theorem written_q (d : Dom) (flds : List Fld) (v : Nat) (s : State) : (written d flds v s).q = s.eng.q := by
  rw [written_eq]
  rfl

/-- A write to an always-on register starts no clocks. -/
theorem written_alwaysOn_on {flds : List Fld} {v : Nat} {s : State} {f : Fld} (h : f.key ≠ Reg.GEN_ERR_RSVD_WR.key) :
    (written .alwaysOn flds v s).on f = s.eng.on f := by
  rw [written, reached_alwaysOn, Eng.rsvdCheck]
  split
  · exact Eng.on_flag_ne _ _ h
  · rfl

theorem written_now (d : Dom) (flds : List Fld) (v : Nat) (s : State) : (written d flds v s).now = s.eng.now := by
  rw [written_eq]
  rfl

/-! ### The coding-core reset (R450, R451, R457, R458) -/

/-- The coding-core resets of the last 600 s. -/
def Eng.recentResets (e : Eng) : List Nat := e.boot.resetsAt.filter (fun t => e.now < t + 600000000000)

/-- The engine once its coding core resets. -/
def Eng.beginsReset (e : Eng) (cause : Nat) : Eng :=
  let r : Eng := { e with
    boot := { e.boot with inReset := true, watchdog := cause == 2, resetsAt := e.recentResets ++ [e.now] },
    loss := { e.loss with hbLosses := e.rd Reg.GRV_PT_STAT_LOSSES, hbMap := e.rd Reg.RBD_LOSS_STAT_LOST_MAP } }
  ((r.bump Reg.GEN_RESET_STAT_CORE_TOTAL).wr Reg.GEN_RESET_STAT_IN_WINDOW (e.recentResets.length + 1)).wr
    Reg.GEN_RESET_STAT_LAST_CAUSE cause

section
variable {e : Eng} (hruns : e.boot.inReset = false) (hserves : e.oos = false) (cause : Nat)
include hruns hserves

theorem coreReset_eq : e.coreReset cause = if 3 ≤ e.recentResets.length then e.leaveService 1 else e.beginsReset cause :=
  if_neg (by rw [hruns, hserves]; exact Bool.false_ne_true)

theorem coreReset_begins (h : e.recentResets.length < 3) : e.coreReset cause = e.beginsReset cause :=
  (coreReset_eq hruns hserves cause).trans (if_neg (Nat.not_le.2 h))

theorem coreReset_leaves (h : 3 ≤ e.recentResets.length) : e.coreReset cause = e.leaveService 1 :=
  (coreReset_eq hruns hserves cause).trans (if_pos h)

end

section
variable {e : Eng} {v : Nat} {failing : Option Nat}

theorem genReset_ignored (h : Reg.GEN_RESET_KEY.of v ≠ 0x5A) : e.genReset v failing = e := if_pos (bne_iff_ne.2 h)

theorem genReset_core (hkey : Reg.GEN_RESET_KEY.of v = 0x5A) (hcore : Reg.GEN_RESET_CORE.of v = 1)
    (hcrypto : Reg.GEN_RESET_CRYPTO.of v = 0) : e.genReset v failing = e.coreReset 1 := by
  rw [Eng.genReset, hkey, hcore, hcrypto]
  rfl

theorem genReset_crypto (hkey : Reg.GEN_RESET_KEY.of v = 0x5A) (hcore : Reg.GEN_RESET_CORE.of v = 0)
    (hcrypto : Reg.GEN_RESET_CRYPTO.of v = 1) : e.genReset v failing = e.cryptoReset failing := by
  rw [Eng.genReset, hkey, hcore, hcrypto]
  rfl

end

/-- The engine once its resumption is over and what was withheld is taken (R451, R452). -/
def Eng.takesWithheld (e : Eng) (late : List Withheld) (micros : Nat) : Eng :=
  (((({ e with late := [] } : Eng).resumed micros).each late (fun w e => e.resumeLate w)).each (List.range 4)
    (fun p e => e.pump p)).settle

/-- The end of a resumption, by the shadow's check (R453, R458). -/
def Eng.coreResumes (e : Eng) (shadowOk : Bool) (micros : Nat) : Eng :=
  if !e.boot.inReset then e else if !shadowOk then e.leaveService 3 else e.takesWithheld e.late micros

theorem exec_coreResumed (shadowOk : Bool) (micros : Nat) (s : State) :
    exec (.coreResumed shadowOk micros) s = .next (leaving s ((quiet s).coreResumes shadowOk micros)) := rfl

section
variable {e : Eng} (hreset : e.boot.inReset = true) (micros : Nat)
include hreset

theorem coreResumes_bad : e.coreResumes false micros = e.leaveService 3 := by
  rw [Eng.coreResumes, hreset]
  rfl

theorem coreResumes_none (hnone : e.late = []) :
    e.coreResumes true micros = ((e.resumed micros).each (List.range 4) (fun p e => e.pump p)).settle := by
  have hclear : ({ e with late := [] } : Eng) = e := by
    cases e
    cases hnone
    rfl
  rw [Eng.coreResumes, hreset, hnone, Eng.takesWithheld, hclear, Eng.each_nil]
  rfl

end

/-- Settles O18: the write by its key and its bits, the reset by the window of R458, the resumption by the shadow's check. -/
theorem codingCoreResetsAndResumes : Obligations.CodingCoreResetsAndResumes := by
  unfold Obligations.CodingCoreResetsAndResumes
  refine ⟨?_, fun s micros hreset => ⟨?_, fun hnone => ?_⟩⟩
  · intro s recent began
    refine ⟨?_, fun hruns hserves hfew => ?_⟩
    · intro v h e
      have hcore : exec (.coreReset v) s = .next (leaving s (e.genReset v.toNat none)) :=
        next_leaving (write_written (takesWrites_alwaysOn h) _ _ _)
      have hcrypto : ∀ x : Option (Fin 12), exec (.cryptoReset v x) s = .next (leaving s (e.genReset v.toNat (x.map (·.val)))) :=
        fun x => next_leaving (write_written (takesWrites_alwaysOn h) _ _ _)
      refine ⟨fun hkey => ⟨?_, fun x => ?_⟩, fun hkey hbit hother hruns hserves => ?_, fun hkey hother hbit => ?_⟩
      · rw [hcore, genReset_ignored hkey]
      · rw [hcrypto, genReset_ignored hkey]
      · have hrecent : e.recentResets = recent := by rw [Eng.recentResets, written_boot, written_now]
        have hnow : e.now = s.eng.now := written_now _ _ _ _
        have hruns : e.boot.inReset = false := by rw [written_boot, hruns]
        have hserves : e.oos = false := (written_on (by decide) (by decide)).trans hserves
        have hbegins : e.beginsReset 1 = began e 1 := by rw [Eng.beginsReset, hrecent, hnow]
        rw [hcore, genReset_core hkey hbit hother, ← hrecent]
        exact ⟨fun hfew => by rw [coreReset_begins hruns hserves 1 hfew, hbegins],
          fun hmany => by rw [coreReset_leaves hruns hserves 1 hmany]⟩
      · rw [hcrypto, genReset_crypto hkey hother hbit]
        rfl
    · exact next_leaving (coreReset_begins (e := quiet s) hruns hserves 2 hfew)
  · rw [exec_coreResumed, coreResumes_bad (e := quiet s) hreset micros]
  · rw [exec_coreResumed, coreResumes_none (e := quiet s) hreset micros hnone]

/-! ### Pruning (R460 to R462) -/

/-- The engine once a cluster is pruned, and said to be few where it is (R460). -/
def Eng.marksCluster (e : Eng) (c : Nat) : Eng :=
  let m := (e.wr Reg.GEN_HOLE_CLU_PRUNED (setBit (e.rd Reg.GEN_HOLE_CLU_PRUNED) c)).raise .UNIT_PRUNED
  if m.clustersLeft < m.rd Reg.GEN_PRUNE_CTL_CLU_MIN then m.raise .CLUSTER_LOW else m

section
variable {e : Eng} {c : Nat}

theorem pruneCluster_none (h : bit e.fuses.clusters c = false ∨ bit (e.rd Reg.GEN_HOLE_CLU_PRUNED) c = true) :
    e.pruneCluster c = e :=
  if_pos (Bool.or_eq_true_iff.2 (h.imp_left (Bool.not_eq_true' _).mpr))

theorem pruneCluster_marks (hthere : bit e.fuses.clusters c = true) (hwhole : bit (e.rd Reg.GEN_HOLE_CLU_PRUNED) c = false)
    (hleft : (e.marksCluster c).clustersLeft ≠ 0) : e.pruneCluster c = (e.marksCluster c).dropCluster c := by
  refine (if_neg ?_).trans (if_neg hleft)
  rw [hthere, hwhole]
  exact Bool.false_ne_true

theorem pruneLane_marks (hthere : bit (e.presentLanes (c / 16)) (c % 16) = true)
    (hwhole : bit (e.rd (Reg.GP_LANES_PRUNED (c / 16))) (c % 16) = false) : e.pruneLane c =
      ((e.wr (Reg.GP_LANES_PRUNED (c / 16)) (setBit (e.rd (Reg.GP_LANES_PRUNED (c / 16))) (c % 16))).loseLane (c / 16)
        (c % 16)).raise .UNIT_PRUNED := by
  refine if_neg ?_
  rw [hthere, hwhole]
  exact Bool.false_ne_true

end

section
variable {e : Eng} {v : Nat}

theorem pruneWrite_ignored (h : Reg.GEN_PRUNE_KEY.of v ≠ 0xA5) : e.pruneWrite v = e := if_pos (bne_iff_ne.2 h)

theorem pruneWrite_unprune (hkey : Reg.GEN_PRUNE_KEY.of v = 0xA5) (h : Reg.GEN_PRUNE_UNPRUNE.of v = 1) :
    e.pruneWrite v = e.unprune (Reg.GEN_PRUNE_KIND.of v == 1) (Reg.GEN_PRUNE_UNIT.of v) := by
  rw [Eng.pruneWrite, hkey, h]
  rfl

theorem pruneWrite_cluster (hkey : Reg.GEN_PRUNE_KEY.of v = 0xA5) (h : Reg.GEN_PRUNE_UNPRUNE.of v = 0)
    (hkind : Reg.GEN_PRUNE_KIND.of v = 0) : e.pruneWrite v = e.pruneCluster (Reg.GEN_PRUNE_UNIT.of v) := by
  rw [Eng.pruneWrite, hkey, h, hkind]
  rfl

theorem pruneWrite_lane (hkey : Reg.GEN_PRUNE_KEY.of v = 0xA5) (h : Reg.GEN_PRUNE_UNPRUNE.of v = 0)
    (hkind : Reg.GEN_PRUNE_KIND.of v = 1) : e.pruneWrite v = e.pruneLane (Reg.GEN_PRUNE_UNIT.of v) := by
  rw [Eng.pruneWrite, hkey, h, hkind]
  rfl

end

/-- Settles O19: the write by its key, UNPRUNE and KIND, the unit by its fuse and its mark. -/
theorem pruningMarksUnits : Obligations.PruningMarksUnits := by
  unfold Obligations.PruningMarksUnits
  intro s v h e unit holes cluster
  have hwrite : ∀ flds f, (quiet s).write .alwaysOn flds v.toNat f = f (written .alwaysOn flds v.toNat s) :=
    fun flds f => write_written (takesWrites_alwaysOn h) flds v.toNat f
  have hholes : e.rd Reg.GEN_HOLE_CLU_PRUNED = holes := written_rd (by decide) (by decide)
  have hfuses : e.fuses = s.eng.fuses := written_fuses _ _ _ _
  have hlanes : e.rd (Reg.GP_LANES_PRUNED (unit / 16)) = s.eng.rd (Reg.GP_LANES_PRUNED (unit / 16)) :=
    written_rd (Fld.key_ne_of_lo rfl) (Fld.key_ne_of_lo rfl)
  have hlocked : e.locked = s.eng.locked := written_on (by decide) (by decide)
  have hpruneCluster : exec (.pruneCluster v) s = .next (leaving s (e.pruneWrite v.toNat)) := next_leaving (hwrite _ _)
  have hpruneLane : exec (.pruneLane v) s = .next (leaving s (e.pruneWrite v.toNat)) := next_leaving (hwrite _ _)
  have hunprune : exec (.unprune v) s = .next (leaving s (e.pruneWrite v.toNat)) := next_leaving (hwrite _ _)
  rw [hpruneCluster, hpruneLane, hunprune]
  refine ⟨fun hkey => ?_, fun hkey hprune => ⟨fun hkind => ⟨fun hnone => ?_, fun hthere hwhole hleft => ?_⟩,
    fun hkind hthere hwhole => ?_⟩, fun hkey hprune => ⟨fun hlock => ?_, fun hopen hkind => ?_, fun hopen hkind => ?_⟩,
    fun c hauto hthere hwhole hleft => ?_⟩
  · rw [pruneWrite_ignored hkey]
    exact ⟨rfl, rfl, rfl⟩
  · rw [pruneWrite_cluster hkey hprune hkind, pruneCluster_none]
    rw [hholes, hfuses]
    exact hnone
  · have hmarks : cluster e unit = (e.marksCluster unit).dropCluster unit := by
      simp only [cluster, Eng.marksCluster, hholes]
    rw [pruneWrite_cluster hkey hprune hkind, pruneCluster_marks (by rw [hfuses]; exact hthere) (by rw [hholes]; exact hwhole), hmarks]
    rw [← hholes] at hleft
    exact hleft
  · rw [pruneWrite_lane hkey hprune hkind, pruneLane_marks hthere (by rw [hlanes]; exact hwhole), hlanes]
  · rw [pruneWrite_unprune hkey hprune, Eng.unprune, hlocked, hlock]
    rfl
  · rw [pruneWrite_unprune hkey hprune, Eng.unprune, hlocked, hopen, hkind, hholes]
    rfl
  · rw [pruneWrite_unprune hkey hprune, Eng.unprune, hlocked, hopen, hkind, hlanes]
    rfl
  · exact next_leaving ((if_pos hauto).trans (pruneCluster_marks (e := quiet s) hthere hwhole hleft))

/-! ### Keep-alive and the flash (R310, R438, R540) -/

/-- A row of actions, one behind the other. -/
theorem each_emit {α : Type} (e : Eng) (xs : List α) (a : α → Action) :
    e.each xs (fun x e => e.emit (a x)) = { e with out := e.out ++ xs.map a } := by
  induction xs generalizing e with
  | nil => simp
  | cons x xs ih =>
    rw [Eng.each_cons, ih, List.map_cons, ← List.singleton_append, ← List.append_assoc]
    rfl

/-- The engine once a written 1 has cleared REFUSED. -/
def Eng.clearsRefused (e : Eng) (v : Nat) : Eng :=
  if Reg.GEN_PWR_REFUSED.of v = 1 then e.flag Reg.GEN_PWR_REFUSED false else e

theorem rd_clearsRefused {f : Fld} (h : f.key ≠ Reg.GEN_PWR_REFUSED.key) (e : Eng) (v : Nat) :
    (e.clearsRefused v).rd f = e.rd f := Eng.rd_ite (Eng.rd_flag_ne _ _ h) rfl

theorem q_clearsRefused (e : Eng) (v : Nat) : (e.clearsRefused v).q = e.q := by
  unfold Eng.clearsRefused
  split <;> rfl

/-- The engine once it goes into keep-alive. -/
def Eng.sleeps (e : Eng) : Eng :=
  let z := ((e.flag Reg.GEN_PWR_SLEEP true).flag Reg.GEN_PWR_ASLEEP true).saveWear
  z.each ((List.range 4).filter (fun p => z.portState p == psUp)) (fun p e => e.enterLow p)

section
variable {e : Eng} {v : Nat} (h : Reg.GEN_PWR_SLEEP.of v = 1)
include h

theorem sleepWrite_eq : e.sleepWrite v =
    if (e.clearsRefused v).on Reg.GRV_CFG_VALID || !(e.clearsRefused v).q.opens.isEmpty then
      (e.clearsRefused v).flag Reg.GEN_PWR_REFUSED true
    else if (e.clearsRefused v).on Reg.GEN_PWR_ASLEEP then (e.clearsRefused v).flag Reg.GEN_PWR_SLEEP true
    else (e.clearsRefused v).sleeps :=
  if_neg (ne_of_eq_of_ne h Nat.one_ne_zero)

theorem sleepWrite_refused (hbusy : e.on Reg.GRV_CFG_VALID = true ∨ e.q.opens ≠ []) :
    e.sleepWrite v = (e.clearsRefused v).flag Reg.GEN_PWR_REFUSED true := by
  rw [sleepWrite_eq h, Eng.on, rd_clearsRefused (by decide), q_clearsRefused]
  exact if_pos (Bool.or_eq_true_iff.2 (hbusy.imp_right fun hopens => by simpa using hopens))

theorem sleepWrite_sleeps (hmap : e.on Reg.GRV_CFG_VALID = false) (hopens : e.q.opens = [])
    (hawake : e.on Reg.GEN_PWR_ASLEEP = false) : e.sleepWrite v = (e.clearsRefused v).sleeps := by
  rw [sleepWrite_eq h, Eng.on, rd_clearsRefused (by decide), q_clearsRefused, hopens, Eng.on, rd_clearsRefused (by decide)]
  refine (if_neg ?_).trans (if_neg (ne_of_eq_of_ne hawake Bool.false_ne_true))
  rw [show (e.rd Reg.GRV_CFG_VALID == 1) = false from hmap]
  exact Bool.false_ne_true

end

theorem computeReset_fell {s : State} (h : s.eng.pins.cmpRstL = true) : exec .computeReset s =
    .next (leaving s ({ quiet s with pins := { s.eng.pins with cmpRstL := false } } : Eng).computeReset) :=
  next_leaving (if_pos h)

/-- Settles O20: the sleep by what stands against it, the demand by the clocks, the flash by the level, the compute part by its
reset line. -/
theorem keepAliveAndComputeResets : Obligations.KeepAliveAndComputeResets := by
  unfold Obligations.KeepAliveAndComputeResets
  refine ⟨fun s => ⟨?_, fun d hasleep hwatched => ?_, fun hpower hstage => ?_, rfl⟩, fun s => ⟨fun hhigh => ?_, fun hlow => ?_⟩⟩
  · intro v h hsleep w e
    have hexec : exec (.sleepRequest v) s = .next (leaving s (w.sleepWrite v.toNat)) :=
      next_leaving (write_written (takesWrites_alwaysOn h) _ _ _)
    have hq : w.q = s.eng.q := written_q _ _ _ _
    have hmap : w.on Reg.GRV_CFG_VALID = s.eng.on Reg.GRV_CFG_VALID := written_on (by decide) (by decide)
    have hclocks : w.on Reg.GEN_PWR_ASLEEP = s.eng.on Reg.GEN_PWR_ASLEEP := written_alwaysOn_on (by decide)
    rw [hexec, ← hq, ← hmap, ← hclocks]
    exact ⟨fun hbusy => next_leaving (sleepWrite_refused hsleep hbusy),
      fun hfree hnone hawake => next_leaving (sleepWrite_sleeps hsleep hfree hnone hawake)⟩
  · cases d with
    | interrupt n => exact next_leaving (if_pos (Bool.and_eq_true_iff.2 ⟨hasleep, hwatched⟩))
    | _ => exact next_leaving (if_pos (Bool.and_eq_true_iff.2 ⟨hasleep, rfl⟩))
  · exact next_leaving (if_pos (Bool.and_eq_true_iff.2 ⟨hpower, decide_eq_true hstage⟩))
  · exact computeReset_fell hhigh
  · refine next_leaving ((if_neg (ne_of_eq_of_ne hlow Bool.false_ne_true)).trans ?_)
    exact each_emit _ _ _

end Sys2Proof.Machine
end

section

/-! PROOF. The zeroization and the module's error state (R406 to R413). Each command's equation is the definition's, branch by
branch; what is left says that no later write undoes what the zeroization cleared. -/

namespace Sys2Proof.Machine

/-- R412: ZEROIZED and its cause shown, and no key. -/
def Eng.showsZeroized (k : Eng) (tamper : Bool) : Eng :=
  (((((k.flag Reg.SEC_STAT_ZEROIZED true).flag Reg.SEC_STAT_TAMPER tamper).wr Reg.SEC_STAT_KEYS 0).wr Reg.SEC_JOB_ID_JOB_ID
    0).flag Reg.LED_CTL_KEY false).raise .ZEROIZED

/-- R412: the keys are overwritten. -/
def Eng.overwritesKeys (d : Eng) : Eng := { d with
  sess := d.sess.map (fun x => (x.1, { x.2 with keyLost := x.2.keyLost || x.2.st == 1 })),
  sec := { d.sec with jlk := none, amk := none, atk := none, challenge := none, drbg := zeros 48, reseed := 0 } }

def Eng.clearsKeys (e : Eng) (tamper : Bool) : Eng := e.dropOwnTx.overwritesKeys.showsZeroized tamper

/-- R412 and R413: what needs the keys ends, and a locked engine is fenced. -/
def Eng.losesKeys (e : Eng) (tamper : Bool) : Eng :=
  let x := ((e.clearsKeys tamper).abortAnchor stNoKey 0).endRestores stNoKey
  if x.locked then x.selfFence else x

theorem zeroize_eq (e : Eng) (tamper : Bool) : e.zeroize tamper = e.losesKeys tamper := by
  unfold Eng.zeroize Eng.losesKeys Eng.clearsKeys Eng.overwritesKeys
  generalize e.dropOwnTx = d
  rfl

theorem tampered_of {e x : Eng} (h : e.zeroize true = x) : e.tampered =
    (({ x with fuses := { x.fuses with rootKill := x.fuses.rootKill || x.on Reg.SEC_CTL_TAMPER_KILL } } : Eng).flag
      Reg.SEC_STAT_ROOT_BLOCKED true).settle := by
  rw [Eng.tampered, h]

theorem secWrite_zeroize (e : Eng) {v : Nat} (hzero : Reg.SEC_CTL_ZEROIZE.of v = 1) (hkey : Reg.SEC_CTL_ZKEY.of v = 0xC3) :
    e.secWrite v = ((e.putField v Reg.SEC_CTL_TAMPER_KILL).losesKeys false).settle := by
  rw [Eng.secWrite, zeroize_eq]
  exact if_pos (Bool.and_eq_true_iff.2 ⟨decide_eq_true hzero, decide_eq_true hkey⟩)

theorem errorState_again {e : Eng} (h : e.on Reg.SEC_STAT_ERROR = true) (test : Nat) : e.errorState test = e := if_pos h

/-- R407: the module enters its error state. -/
def Eng.failsTest (e : Eng) (test : Nat) : Eng :=
  (((e.flag Reg.SEC_STAT_ERROR true).wr Reg.SEC_STAT_FAILED test).setLevel .CRYPTO_ERROR true).losesKeys false

/-- R407: digests that need the module end. -/
def Eng.endsDigests (x : Eng) : Eng :=
  (({ x with keep := { x.keep with hashes := [] } } : Eng).endOpen stCryptoError
    (fun o => match o with | .tensorDigest _ => true | _ => false)).releaseHeld

theorem endsDigests_of {z x : Eng} (h : z = x) : ((z.setKeep (fun k => { k with hashes := [] })).endOpen stCryptoError
    (fun o => match o with | .tensorDigest _ => true | _ => false)).releaseHeld = x.endsDigests := by
  rw [h]
  rfl

theorem errorState_first {e : Eng} (h : e.on Reg.SEC_STAT_ERROR = false) (test : Nat) : e.errorState test =
    if (e.failsTest test).endsDigests.locked then (e.failsTest test).endsDigests.leaveService 4
    else (e.failsTest test).endsDigests := by
  refine (if_neg (ne_of_eq_of_ne h Bool.false_ne_true)).trans ?_
  exact congrArg (fun y : Eng => if y.locked then y.leaveService 4 else y) (endsDigests_of (zeroize_eq _ _))

theorem sec_raise (e : Eng) (src : Src) : (e.raise src).sec = e.sec := (congrArg Eng.sec (OnlyTells.refl e).raise.beyond :)

theorem sec_showsZeroized (k : Eng) (tamper : Bool) : (k.showsZeroized tamper).sec = k.sec :=
  (sec_raise _ _).trans (by simp only [Eng.flag_sec, Eng.wr_sec])

theorem sec_clearsKeys (e : Eng) (tamper : Bool) : (e.clearsKeys tamper).sec = { e.dropOwnTx.sec with
    jlk := none, amk := none, atk := none, challenge := none, drbg := zeros 48, reseed := 0 } := sec_showsZeroized _ _

/-- The event of no source shows in ZEROIZED. -/
theorem rd_raise_zeroized (e : Eng) (src : Src) : (e.raise src).rd Reg.SEC_STAT_ZEROIZED = e.rd Reg.SEC_STAT_ZEROIZED := by
  refine rd_raise (fun g hg => ?_) e
  cases hg with
  | raw =>
    have hlt := srcNum_lt src
    refine (Fld.key_ne_of_off_lt (by decide : (29 : Nat) < 64) ?_).symm
    simp only [Reg.INT_SRC_CFG_RAW, Reg.SEC_STAT_ZEROIZED]
    omega
  | _ => exact Fld.key_ne_of_lo rfl

theorem on_showsZeroized (k : Eng) (tamper : Bool) : (k.showsZeroized tamper).on Reg.SEC_STAT_ZEROIZED = true := by
  rw [Eng.showsZeroized, Eng.on, rd_raise_zeroized, Eng.rd_flag_ne _ _ (by decide), Eng.rd_wr_ne _ _ (by decide),
    Eng.rd_wr_ne _ _ (by decide), Eng.rd_flag_ne _ _ (by decide), Eng.rd_flag_same]
  decide

/-- Settles O21: the equations of the three commands; the keys are gone because no later write of the zeroization reaches them. -/
theorem zeroizationLeavesNoKey : Obligations.ZeroizationLeavesNoKey := by
  unfold Obligations.ZeroizationLeavesNoKey
  intro s cleared ended
  have hended : ended = Eng.losesKeys := rfl
  clear_value ended
  subst hended
  have hcleared : cleared = Eng.clearsKeys := rfl
  clear_value cleared
  subst hcleared
  refine ⟨fun v h hzero hkey => ?_, ?_, fun b => ⟨fun herror => ?_, fun hclear => ?_⟩, fun e b => ?_⟩
  · exact next_leaving ((write_written (takesWrites_alwaysOn h) _ _ _).trans (secWrite_zeroize _ hzero hkey))
  · intro x
    exact next_leaving (tampered_of (zeroize_eq _ _))
  · have h : (quiet s).on Reg.SEC_STAT_ERROR = true := herror
    have hkept := errorState_again h (if b then 11 else 10)
    exact next_leaving (congrArg Eng.settle hkept)
  · have h : (quiet s).on Reg.SEC_STAT_ERROR = false := hclear
    intro x y
    have hx : x = (quiet s).failsTest (if b then 11 else 10) := rfl
    have hy : y = x.endsDigests := rfl
    rw [hy, hx, ← errorState_first h]
    exact next_leaving rfl
  · rw [sec_clearsKeys]
    exact ⟨rfl, rfl, rfl, rfl, rfl, on_showsZeroized _ b⟩

end Sys2Proof.Machine
end

section

/-! PROOF. The messages of the management port (R511 to R515), which answers with power and step 1 done. -/

namespace Sys2Proof.Machine

theorem onPort_alive {s : State} (h : s.eng.alive = true) {f : Eng → Eng} {t : Eng} (ht : f (quiet s) = t) :
    (quiet s).onPort f = t := (if_pos h).trans ht

section
variable {e : Eng} {inst place : Nat}

theorem viewSet_unlisted {v : Nat} (h : 2 < v) : e.viewSet inst place v = e.emit (.mgmt 0x82 inst 1 []) := if_pos h

theorem viewSet_full {v : Nat} (h : v ≤ 2) (hnone : e.viewsWith place v = none) :
    e.viewSet inst place v = e.emit (.mgmt 0x82 inst 2 []) := by
  rw [Eng.viewSet, if_neg (Nat.not_lt.2 h), hnone]
  rfl

/-- VIEW_SET's answer, with the views as they then stand. -/
def Eng.notes (e : Eng) (inst : Nat) (vs : List View) : Eng := (e.setViews vs).emit (.mgmt 0x82 inst 0 [])

/-- What a view of LOST does: R514 for the engine's own place, R513 for a bound one. -/
def Eng.takesLost (x : Eng) (place : Nat) : Eng :=
  if x.on Reg.GEN_PLACE_VALID && place == x.place then x.selfFence
  else match x.boundPos place with
    | some pos => if x.locked then x.declareLost pos 2 else x
    | none => if 1 ≤ x.evacPhase && x.evacPhase ≤ 3 && place == x.evac.spare then x.abortEvac stCancelled else x

section
variable {vs : List View}

theorem viewSet_forgets (h : e.viewsWith place 0 = some vs) : e.viewSet inst place 0 = (e.notes inst vs).settle := by
  rw [Eng.viewSet, h]
  rfl

theorem viewSet_alive (h : e.viewsWith place 1 = some vs) : e.viewSet inst place 1 = (e.notes inst vs).admitHeld.settle := by
  rw [Eng.viewSet, h]
  rfl

theorem viewSet_lost (h : e.viewsWith place 2 = some vs) :
    e.viewSet inst place 2 = ((e.notes inst vs).takesLost place).settle := by
  rw [Eng.viewSet, h]
  rfl

end

theorem takesLost_self {x : Eng} (hvalid : x.on Reg.GEN_PLACE_VALID = true) (hplace : place = x.place) :
    x.takesLost place = x.selfFence := if_pos (Bool.and_eq_true_iff.2 ⟨hvalid, beq_iff_eq.2 hplace⟩)

theorem takesLost_bound {x : Eng} {pos : Nat} (hother : x.on Reg.GEN_PLACE_VALID = false ∨ place ≠ x.place)
    (hbound : x.boundPos place = some pos) (hlocked : x.locked = true) : x.takesLost place = x.declareLost pos 2 := by
  have helse : ¬ (x.on Reg.GEN_PLACE_VALID && place == x.place) = true := by
    rcases hother with h | h <;> simp [h]
  rw [Eng.takesLost, if_neg helse, hbound]
  exact if_pos hlocked

end

/-- A view that is set moves no position. -/
theorem boundPos_notes (e : Eng) (inst : Nat) (vs : List View) (place : Nat) :
    (e.notes inst vs).boundPos place = e.boundPos place := rfl

section
variable {e : Eng} {place : Nat} {v : View}

theorem pathDisagree_recorded (h : e.noteViews.mgmt.views.find? (fun x => x.place == place) = some v)
    (hnew : v.reported = false) (hdiffer : disagree v.data v.mgt = true) :
    e.pathDisagree place =
      (((((({ e.noteViews with mgmt := { e.noteViews.mgmt with
            views := e.noteViews.mgmt.views.map (fun x => if x.place == place then { x with reported := true } else x) } } : Eng).flag
          Reg.MGT_DISAGREE_VALID true).wr Reg.MGT_DISAGREE_PLACE place).wr Reg.MGT_DISAGREE_DATA v.data).wr
          Reg.MGT_DISAGREE_MGT v.mgt).wr Reg.MGT_DISAGREE_TIME (e.noteViews.now / 1000000)).raise .PATH_DISAGREE := by
  rw [Eng.pathDisagree]
  generalize e.noteViews = n at h
  dsimp only
  rw [h]
  have hgo : ¬ (v.reported || !disagree v.data v.mgt) = true := by simp [hnew, hdiffer]
  exact if_neg hgo

end

theorem viewGet_eq (e : Eng) (inst place : Nat) :
    e.viewGet inst place = e.noteViews.emit (.mgmt 0x83 inst 0
      (natLe 1 (e.noteViews.dataView place) ++
        natLe 1 (((e.noteViews.mgmt.views.find? (fun x => x.place == place)).map (·.mgt)).getD 0) ++
        natLe 4 (((e.noteViews.mgmt.views.find? (fun x => x.place == place)).map
          (fun x => min (2 ^ 32 - 1) ((e.noteViews.now - x.since) / 1000000))).getD 0))) := by
  rw [Eng.viewGet]
  generalize e.noteViews = n
  cases n.mgmt.views.find? (fun x => x.place == place) <;> rfl

/-- Settles O27: VIEW_SET by the view, VIEW_GET and the record of a disagreement by the view that is kept. -/
theorem viewsAreKeptAndReported : Obligations.ViewsAreKeptAndReported := by
  unfold Obligations.ViewsAreKeptAndReported
  intro s inst place halive
  refine ⟨fun view h => ?_, fun view h hnone => ?_, fun view vs h hvs => ?_, ?_, fun p v => ?_⟩
  · exact next_leaving (onPort_alive halive (viewSet_unlisted h))
  · exact next_leaving (onPort_alive halive (viewSet_full h hnone))
  · intro noted
    have hnoted : noted = (quiet s).notes inst.toNat vs := rfl
    rw [hnoted]
    refine ⟨fun hview => ?_, fun hview => ?_, fun hview hvalid hplace => ?_, fun x hview hother hbound hlocked => ?_⟩
      <;> rw [hview] at hvs
    · exact next_leaving (onPort_alive halive (by rw [hview]; exact viewSet_forgets hvs))
    · exact next_leaving (onPort_alive halive (by rw [hview]; exact viewSet_alive hvs))
    · refine next_leaving (onPort_alive halive ?_)
      rw [hview, viewSet_lost hvs, takesLost_self (x := (quiet s).notes inst.toNat vs) hvalid hplace]
    · refine next_leaving (onPort_alive halive ?_)
      rw [hview, viewSet_lost hvs, takesLost_bound (x := (quiet s).notes inst.toNat vs) hother ((boundPos_notes _ _ _ _).trans hbound) hlocked]
  · exact next_leaving (onPort_alive halive (viewGet_eq _ _ _))
  · intro e h hnew hdiffer
    exact next_leaving (pathDisagree_recorded h hnew hdiffer)

end Sys2Proof.Machine
end

section

/-! PROOF. Key delivery and the control messages (R395 to R400, R510, R511). -/

namespace Sys2Proof.Machine

/-! ### KEY_LOAD by its checks (R399, R400) -/

/-- The challenge is consumed. -/
def Eng.unchallenged (e : Eng) : Eng := { e with sec := { e.sec with challenge := none } }

/-- The body of a bundle, opened under the transport key and the challenge. -/
def Eng.opensBundle (e : Eng) (b ch : List Byte) : Option (List Byte) :=
  gcmOpen e.transportKey ((b.drop 12).take 12) (b.take 24 ++ ch ++ natLe 8 e.fuses.serial) ((b.drop 24).take 148)
    ((b.drop 0xAC).take 16)

/-- The checks of R400 that follow the tag. -/
def Eng.takesBody (e : Eng) (b body : List Byte) : Eng × Nat :=
  if !absentZero (fieldAt b 2 2) body then (e, 4)
  else if !zeroAt body 96 52 then (e, 2)
  else if e.rd Reg.SEC_STAT_KEYS != 0 && e.rd Reg.SEC_JOB_ID_JOB_ID != fieldAt b 4 8 then (e, 5)
  else if !e.moduleReady then (e, 6)
  else if e.on Reg.SEC_STAT_ROOT_BLOCKED then (e, 7)
  else (e.installKeys (fieldAt b 2 2) (fieldAt b 4 8) body, 0)

section
variable {e : Eng} {b ch : List Byte} (hch : e.sec.challenge = some ch)
include hch

theorem loadKeys_unsound (hb : bundleOk b = false) : e.loadKeys b = (e.unchallenged, 2) := by
  rw [Eng.loadKeys, hch]
  exact if_pos ((Bool.not_eq_true' _).mpr hb)

section
variable (hb : bundleOk b = true)
include hb

theorem loadKeys_locked (hlocked : e.locked = true) : e.loadKeys b = (e.unchallenged, 3) := by
  rw [Eng.loadKeys, hch]
  exact (if_neg (by simp [hb])).trans (if_pos hlocked)

/-- An engine before its start lock opens a sound bundle. -/
theorem loadKeys_opens (hlocked : e.locked = false) : e.loadKeys b = match e.opensBundle b ch with
    | none => (e.unchallenged.authFail Reg.SEC_AUTH_FAIL_BUNDLE, 4)
    | some body => e.unchallenged.takesBody b body := by
  rw [Eng.loadKeys, hch]
  have hopen : ¬ e.unchallenged.locked = true := ne_of_eq_of_ne hlocked Bool.false_ne_true
  exact (if_neg (by simp [hb])).trans (if_neg hopen)

theorem loadKeys_badTag (hlocked : e.locked = false) (h : e.opensBundle b ch = none) :
    e.loadKeys b = (e.unchallenged.authFail Reg.SEC_AUTH_FAIL_BUNDLE, 4) := by
  rw [loadKeys_opens hch hb hlocked, h]

theorem loadKeys_body (hlocked : e.locked = false) {body : List Byte} (h : e.opensBundle b ch = some body) :
    e.loadKeys b = e.unchallenged.takesBody b body := by
  rw [loadKeys_opens hch hb hlocked, h]

end
end

section
variable {e : Eng} {b body : List Byte}

theorem takesBody_present (h : absentZero (fieldAt b 2 2) body = false) : e.takesBody b body = (e, 4) :=
  if_pos ((Bool.not_eq_true' _).mpr h)

variable (habsent : absentZero (fieldAt b 2 2) body = true)
include habsent

theorem takesBody_tail (h : zeroAt body 96 52 = false) : e.takesBody b body = (e, 2) := by
  simp only [Eng.takesBody, habsent, h]
  rfl

variable (htail : zeroAt body 96 52 = true)
include htail

theorem takesBody_otherJob (h : e.rd Reg.SEC_STAT_KEYS ≠ 0 ∧ e.rd Reg.SEC_JOB_ID_JOB_ID ≠ fieldAt b 4 8) :
    e.takesBody b body = (e, 5) := by
  have hcond : (e.rd Reg.SEC_STAT_KEYS != 0 && e.rd Reg.SEC_JOB_ID_JOB_ID != fieldAt b 4 8) = true :=
    Bool.and_eq_true_iff.2 ⟨bne_iff_ne.2 h.1, bne_iff_ne.2 h.2⟩
  simp only [Eng.takesBody, habsent, htail, hcond]
  rfl

variable (hjob : ¬ (e.rd Reg.SEC_STAT_KEYS ≠ 0 ∧ e.rd Reg.SEC_JOB_ID_JOB_ID ≠ fieldAt b 4 8))
include hjob

/-- A body of this job is taken by the module's state. -/
theorem takesBody_job : e.takesBody b body =
    if !e.moduleReady then (e, 6)
    else if e.on Reg.SEC_STAT_ROOT_BLOCKED then (e, 7)
    else (e.installKeys (fieldAt b 2 2) (fieldAt b 4 8) body, 0) := by
  have hcond : (e.rd Reg.SEC_STAT_KEYS != 0 && e.rd Reg.SEC_JOB_ID_JOB_ID != fieldAt b 4 8) = false := by
    simpa [not_and] using hjob
  simp only [Eng.takesBody, habsent, htail, hcond]
  rfl

theorem takesBody_unready (h : e.moduleReady = false) : e.takesBody b body = (e, 6) :=
  (takesBody_job habsent htail hjob).trans (if_pos ((Bool.not_eq_true' _).mpr h))

variable (hready : e.moduleReady = true)
include hready

theorem takesBody_blocked (h : e.on Reg.SEC_STAT_ROOT_BLOCKED = true) : e.takesBody b body = (e, 7) := by
  rw [takesBody_job habsent htail hjob, hready]
  exact if_pos h

theorem takesBody_installs (h : e.on Reg.SEC_STAT_ROOT_BLOCKED = false) :
    e.takesBody b body = (e.installKeys (fieldAt b 2 2) (fieldAt b 4 8) body, 0) := by
  rw [takesBody_job habsent htail hjob, hready]
  exact if_neg (ne_of_eq_of_ne h Bool.false_ne_true)

end

theorem keyLoad_answers {e x : Eng} {b : List Byte} {st : Nat} (h : e.loadKeys b = (x, st)) (inst : Nat) :
    e.keyLoad inst b = x.emit (.mgmt 0x91 inst st []) := by
  rw [Eng.keyLoad, h]
  rfl

theorem loadKeys_none {e : Eng} (h : e.sec.challenge = none) (b : List Byte) : e.loadKeys b = (e, 1) := by
  rw [Eng.loadKeys, h]

/-! ### Challenges and control messages (R395, R398, R510) -/

theorem draw_eq (x : Sec) : x.draw =
    ({ x.seeded with drbg := (drbgGenerate x.seeded.drbg).1, reseed := x.seeded.reseed + 1 }, drbgBlocks x.seeded.drbg 2) := rfl

theorem challenge_unready {e : Eng} (h : e.moduleReady = false) (inst : Nat) :
    e.challenge inst = e.emit (.mgmt 0x90 inst 6 []) := if_pos ((Bool.not_eq_true' _).mpr h)

theorem challenge_ready {e : Eng} (h : e.moduleReady = true) (inst : Nat) : e.challenge inst =
    ({ e with sec := { e.sec.seeded with
        challenge := some (drbgBlocks e.sec.seeded.drbg 2), drbg := (drbgGenerate e.sec.seeded.drbg).1,
        reseed := e.sec.seeded.reseed + 1 } } : Eng).emit
      (.mgmt 0x90 inst 0 (drbgBlocks e.sec.seeded.drbg 2 ++ natLe 8 e.fuses.serial)) := by
  rw [Eng.challenge, h, draw_eq]
  rfl

theorem versionType_iff (t : Byte) :
    [0xFF, 0x00, 0x7F].contains t.toNat = true ↔ t = 0xFF ∨ t = 0x00 ∨ t = 0x7F := by
  simp [← BitVec.toNat_inj]

theorem endpointSet_iff (op : BitVec 2) (eid : Byte) :
    (op.toNat < 2 && eid.toNat != 0 && eid.toNat != 255) = true ↔ op.toNat < 2 ∧ eid ≠ 0 ∧ eid ≠ 255 := by
  simp [← BitVec.toNat_inj, and_assoc]

theorem fieldAt_head (code inst : Byte) (body : List Byte) :
    fieldAt (code :: inst :: body) 0 1 = code.toNat ∧ fieldAt (code :: inst :: body) 1 1 = inst.toNat := by
  simp [fieldAt, leNat]

/-- Settles O26: each message by its equation, KEY_LOAD by the first of its checks that fails. -/
theorem managementAndControlMessagesAreAnswered : Obligations.ManagementAndControlMessagesAreAnswered := by
  unfold Obligations.ManagementAndControlMessagesAreAnswered
  refine ⟨fun s inst halive => ⟨?_, fun hready => ?_, fun hready => ?_, fun b hnone => ?_, fun code => ?_, ?_⟩,
    fun s inst b ch halive hch => ?_,
    fun s inst b ch body halive hch hb hlocked hready hroot hjob hopen habsent htail => ?_,
    fun s halive => ⟨fun op eid hop hzero hones => ?_, fun op eid hbad => ?_, ?_, fun t ht => ?_, fun t ht => ?_, ?_, fun a => ?_,
      fun vendor body hother => ?_, fun code inst body => ?_⟩⟩
  · exact next_leaving (onPort_alive halive rfl)
  · intro seeded c
    exact next_leaving (onPort_alive halive (challenge_ready (e := quiet s) hready _))
  · exact next_leaving (onPort_alive halive (challenge_unready (e := quiet s) hready _))
  · exact next_leaving (onPort_alive halive (keyLoad_answers (loadKeys_none (e := quiet s) hnone b) _))
  · exact next_leaving (onPort_alive halive rfl)
  · exact next_leaving (onPort_alive halive rfl)
  · intro used answers opened
    have hch' : (quiet s).sec.challenge = some ch := hch
    have hanswers : ∀ {x : Eng} {st : Nat}, (quiet s).loadKeys b = (x, st) → answers x st :=
      fun h => next_leaving (onPort_alive halive (keyLoad_answers h _))
    refine ⟨fun hb => hanswers (loadKeys_unsound hch' hb), fun hb hlocked => hanswers (loadKeys_locked hch' hb hlocked),
      fun hb hlocked => ⟨fun hopen => hanswers (loadKeys_badTag hch' hb hlocked hopen), fun body hopen => ?_⟩⟩
    have hbody := loadKeys_body hch' hb hlocked hopen
    refine ⟨fun h => hanswers (hbody.trans (takesBody_present h)),
      fun habsent htail => hanswers (hbody.trans (takesBody_tail habsent htail)), fun habsent htail => ?_⟩
    intro mismatch
    exact ⟨fun h => hanswers (hbody.trans (takesBody_otherJob habsent htail h)),
      fun h hready => hanswers (hbody.trans (takesBody_unready habsent htail h hready)),
      fun h hready hroot => hanswers (hbody.trans (takesBody_blocked habsent htail h hready hroot))⟩
  · intro key sec
    have hmatch : ¬ ((quiet s).unchallenged.rd Reg.SEC_STAT_KEYS ≠ 0 ∧
        (quiet s).unchallenged.rd Reg.SEC_JOB_ID_JOB_ID ≠ fieldAt b 4 8) :=
      fun h => hjob.elim h.1 h.2
    have hloaded := (loadKeys_body (e := quiet s) hch hb hlocked hopen).trans
      (takesBody_installs habsent htail hmatch hready hroot)
    exact next_leaving (onPort_alive halive (keyLoad_answers hloaded _))
  · exact next_leaving (onPort_alive halive (if_pos ((endpointSet_iff op eid).2 ⟨hop, hzero, hones⟩)))
  · refine next_leaving (onPort_alive halive (if_neg (mt (endpointSet_iff op eid).1 ?_)))
    rintro ⟨hop, hzero, hones⟩
    rcases hbad with h | h | h
    · omega
    · exact hzero h
    · exact hones h
  · exact next_leaving (onPort_alive halive rfl)
  · exact next_leaving (onPort_alive halive (if_pos ((versionType_iff t).2 ht)))
  · exact next_leaving (onPort_alive halive (if_neg (mt (versionType_iff t).1 ht)))
  · exact next_leaving (onPort_alive halive rfl)
  · exact next_leaving (onPort_alive halive rfl)
  · exact next_leaving (onPort_alive halive (if_neg (by simp [hother])))
  · obtain ⟨hcode, hinst⟩ := fieldAt_head code inst body
    refine next_leaving (onPort_alive halive ((if_pos ?_).trans ?_))
    · simp
    · rw [hcode, hinst]
      rfl

end Sys2Proof.Machine
end

section

/-! PROOF. The test network (R546, R547). -/

namespace Sys2Proof.Machine

/-- Settles O25: the wrapper by what it permits, each instrument by its own answer. -/
theorem testNetworkAnswers : Obligations.TestNetworkAnswers := by
  unfold Obligations.TestNetworkAnswers
  intro s code v
  refine ⟨?_, fun l => rfl, fun q => rfl, fun w => rfl, fun b r hhigh hheld => ?_, fun hlow i => ?_⟩
  · have hpermits : (code.toNat ≤ 4 && s.eng.pins.teMode) = true ↔ code.toNat ≤ 4 ∧ s.eng.pins.teMode = true := by simp
    rw [← if_congr hpermits rfl rfl]
    rfl
  · have hopen : ¬ (!(quiet s).pins.teMode) = true := by rw [show (quiet s).pins.teMode = true from hhigh]; decide
    have hread : (quiet s).instrumentRead (.sramBist b) = (quiet s).emit (.testAnswer r) := by
      rw [Eng.instrumentRead, if_neg hopen, show look (quiet s).edge.bist b.val = some r from hheld]
    exact next_leaving hread
  · exact next_leaving (if_pos ((Bool.not_eq_true' _).mpr hlow))

end Sys2Proof.Machine
end

section

/-! PROOF. The power-on sequence by its steps (R425, R434, R437). Each step is stated over any engine, so that what the earlier
steps made of it is never looked into: a step keeps what the next one asks. -/

namespace Sys2Proof.Machine

/-! ### Wear as the NVM gives it back (R425) -/

theorem look_foldl_put {α : Type} (f : Nat → α) (ks : List Nat) (m : SMap α) (u : Nat) :
    look (ks.foldl (fun m k => put m k (f k)) m) u = if u ∈ ks then some (f u) else look m u := by
  induction ks generalizing m with
  | nil => simp
  | cons k ks ih =>
    rw [List.foldl_cons, ih, look_put]
    by_cases hk : u = k <;> by_cases hks : u ∈ ks <;> simp [hk, hks]

theorem foldl_max_spec (xs : List Nat) : xs.foldl max 0 ∈ 0 :: xs ∧ ∀ x ∈ 0 :: xs, x ≤ xs.foldl max 0 :=
  List.max?_eq_some_iff.1 List.max?_cons'

/-- The records that pass their check. -/
def soundWear (nvm : SMap Wear) (bad : List Nat) : SMap Wear := nvm.filter (fun x => !bad.contains x.1)

/-- The largest stress of a sound record of a unit's kind. -/
def kindStress (nvm : SMap Wear) (bad : List Nat) (k : Nat) : Nat :=
  (((soundWear nvm bad).filter (fun x => x.1 / 128 == k / 128)).map (·.2.stress)).foldl max 0

theorem look_wearRead (nvm : SMap Wear) (bad : List Nat) (u : Nat) : look (wearRead nvm bad) u =
    if u ∈ bad then some { stress := kindStress nvm bad u, samples := [] } else look (soundWear nvm bad) u :=
  look_foldl_put (fun k => ({ stress := kindStress nvm bad k, samples := [] } : Wear)) bad _ u

section
variable {nvm : SMap Wear} (hsorted : SMap.Sorted nvm) {bad : List Nat} {u : Nat}
include hsorted

theorem look_wearRead_sound (h : u ∉ bad) : look (wearRead nvm bad) u = look nvm u := by
  rw [look_wearRead, if_neg h, soundWear, look_filter hsorted (fun k => !bad.contains k)]
  exact if_pos (by simpa using h)

theorem mem_kind (n : Nat) : n ∈ ((soundWear nvm bad).filter (fun x => x.1 / 128 == u / 128)).map (·.2.stress) ↔
    ∃ v w, v ∉ bad ∧ v / 128 = u / 128 ∧ look nvm v = some w ∧ w.stress = n := by
  simp only [soundWear, List.mem_map, List.mem_filter, Prod.exists, look_eq_some hsorted]
  simp
  tauto

theorem stress_le_kindStress {v : Nat} {w : Wear} (h : v ∉ bad) (hkind : v / 128 = u / 128) (hw : look nvm v = some w) :
    w.stress ≤ kindStress nvm bad u :=
  (foldl_max_spec _).2 _ (List.mem_cons_of_mem _ ((mem_kind hsorted _).2 ⟨v, w, h, hkind, hw, rfl⟩))

theorem kindStress_attained : kindStress nvm bad u = 0 ∨
    ∃ v w, v ∉ bad ∧ v / 128 = u / 128 ∧ look nvm v = some w ∧ w.stress = kindStress nvm bad u :=
  (List.mem_cons.1 (foldl_max_spec _).1).imp_right (mem_kind hsorted _).1

end

/-! ### Step 1 keeps the fuses and the inputs -/

/-- The engine apart from its registers. -/
def Eng.beyondRegs (e : Eng) : Eng := { e with regs := [] }

section
variable (e : Eng)

theorem beyondRegs_wr (f : Fld) (v : Nat) : (e.wr f v).beyondRegs = e.beyondRegs := (rfl)
theorem beyondRegs_flag (f : Fld) (b : Bool) : (e.flag f b).beyondRegs = e.beyondRegs := (rfl)
theorem beyondRegs_setHealth (f : Health → Health) : (e.setHealth f).beyondRegs = e.beyondRegs.setHealth f := (rfl)
theorem beyondRegs_eolMin : e.eolMin.beyondRegs = e.beyondRegs := by
  simp only [Eng.eolMin, beyondRegs_wr]

theorem beyondRegs_each_wr {α : Type} (xs : List α) (f : α → Fld) (v : α → Nat) :
    (e.each xs (fun x e => e.wr (f x) (v x))).beyondRegs = e.beyondRegs := by
  induction xs generalizing e with
  | nil => rfl
  | cons x xs ih => exact ih (e.wr (f x) (v x))

/-- The records of wear as step 1 reads them. -/
def Health.readsWear (bad : List Nat) (h : Health) : Health := { h with wear := wearRead h.nvm bad, wearNo := h.nvmNo }

theorem readFuses_beyond (bad : List Nat) :
    (e.readFuses bad).beyondRegs = e.beyondRegs.setHealth (Health.readsWear bad) := by
  rw [Eng.readFuses]
  simp only [beyondRegs_eolMin, beyondRegs_setHealth, beyondRegs_each_wr, beyondRegs_flag, beyondRegs_wr]
  rfl

section
variable {x y : Eng} (h : x.beyondRegs = y)
include h

theorem pins_of_beyondRegs : x.pins = y.pins := (congrArg Eng.pins h :)
theorem fuses_of_beyondRegs : x.fuses = y.fuses := (congrArg Eng.fuses h :)
theorem health_of_beyondRegs : x.health = y.health := (congrArg Eng.health h :)

end

theorem readFuses_pins (bad : List Nat) : (e.readFuses bad).pins = e.pins := (pins_of_beyondRegs (readFuses_beyond e bad)).trans rfl
theorem readFuses_fuses (bad : List Nat) : (e.readFuses bad).fuses = e.fuses := (fuses_of_beyondRegs (readFuses_beyond e bad)).trans rfl
theorem readFuses_health (bad : List Nat) : (e.readFuses bad).health = e.health.readsWear bad :=
  health_of_beyondRegs (readFuses_beyond e bad)

theorem rd_eolMin {f : Fld} (hlow : f.key ≠ Reg.HLT_EOL_MIN_LOW90.key) (hkind : f.key ≠ Reg.HLT_EOL_MIN_KIND.key)
    (hunit : f.key ≠ Reg.HLT_EOL_MIN_UNIT.key) : e.eolMin.rd f = e.rd f :=
  (Eng.rd_wr_ne _ _ hunit).trans ((Eng.rd_wr_ne _ _ hkind).trans (Eng.rd_wr_ne _ _ hlow))

theorem rd_setHealth (g : Health → Health) (f : Fld) : (e.setHealth g).rd f = e.rd f := rfl

theorem rd_each_wr {α : Type} {f : Fld} {g : α → Fld} (h : ∀ x, f.key ≠ (g x).key) (xs : List α) (v : α → Nat) :
    (e.each xs (fun x e => e.wr (g x) (v x))).rd f = e.rd f := rd_each (fun x e => Eng.rd_wr_ne e _ (h x)) xs e

theorem readFuses_silicon (bad : List Nat) : (e.readFuses bad).rd Reg.GEN_ID_SILICON = e.rd Reg.GEN_ID_SILICON := by
  have hdigest : ∀ n, Reg.GEN_ID_SILICON.key ≠ (Reg.LED_FUSE_DIGEST n).key := fun n =>
    Fld.key_ne_of_off_lt (by decide) (by simp only [Reg.GEN_ID_SILICON, Reg.LED_FUSE_DIGEST]; omega)
  rw [Eng.readFuses, rd_eolMin _ (by decide) (by decide) (by decide), rd_setHealth, rd_each_wr _ hdigest,
    Eng.rd_flag_ne _ _ (by decide)]
  repeat rw [Eng.rd_wr_ne _ _ (by decide)]

end

/-! ### The steps -/

section
variable {e : Eng} {a b : FlashRead} {tests : Nat} {stores : StoreTest}

/-- Step 1 on an engine that takes power. -/
def Eng.firstStep (e : Eng) (te : Bool) (bad : List Nat) : Eng :=
  (({ e with pins := { e.pins with pwrGood := true, teMode := te } } : Eng).wr Reg.GEN_BOOT_STAGE 1).readFuses bad

theorem firstStep_fuses (te : Bool) (bad : List Nat) : (e.firstStep te bad).fuses = e.fuses := readFuses_fuses _ _

theorem firstStep_silicon (te : Bool) (bad : List Nat) : (e.firstStep te bad).rd Reg.GEN_ID_SILICON = e.rd Reg.GEN_ID_SILICON :=
  (readFuses_silicon _ _).trans (Eng.rd_wr_ne _ _ (by decide))

theorem firstStep_wear (te : Bool) (bad : List Nat) : (e.firstStep te bad).health.wear = wearRead e.health.nvm bad :=
  congrArg Health.wear (readFuses_health _ _)

theorem firstStep_pins (te : Bool) (bad : List Nat) :
    (e.firstStep te bad).pins = { e.pins with pwrGood := true, teMode := te } := readFuses_pins _ _

section
variable (hoff : e.pins.pwrGood = false)
include hoff

theorem powerGood_first (te : Bool) : e.powerGood a b tests stores te =
    if !(e.firstStep te stores.nvmBad).fuses.ok then
      ((e.firstStep te stores.nvmBad).flag Reg.GEN_FLOOR_SUM_FUSE_BAD true).bootFails 1
    else if te then e.firstStep te stores.nvmBad
    else (e.firstStep te stores.nvmBad).bootImage a b tests stores := if_neg (ne_of_eq_of_ne hoff Bool.false_ne_true)

theorem powerGood_badFuses (hok : e.fuses.ok = false) (te : Bool) : e.powerGood a b tests stores te =
    ((e.firstStep te stores.nvmBad).flag Reg.GEN_FLOOR_SUM_FUSE_BAD true).bootFails 1 := by
  rw [powerGood_first hoff, firstStep_fuses, hok]
  rfl

variable (hok : e.fuses.ok = true)
include hok

theorem powerGood_testMode : e.powerGood a b tests stores true = e.firstStep true stores.nvmBad := by
  rw [powerGood_first hoff, firstStep_fuses, hok]
  rfl

theorem powerGood_image : e.powerGood a b tests stores false = (e.firstStep false stores.nvmBad).bootImage a b tests stores := by
  rw [powerGood_first hoff, firstStep_fuses, hok]
  rfl

end

/-- Step 2 with self-test 1 passed. -/
def Eng.secondStep (e : Eng) : Eng := (e.wr Reg.GEN_BOOT_STAGE 2).testPassed 1

theorem secondStep_silicon (e : Eng) : e.secondStep.rd Reg.GEN_ID_SILICON = e.rd Reg.GEN_ID_SILICON :=
  (Eng.rd_wr_ne _ _ (by decide)).trans (Eng.rd_wr_ne _ _ (by decide))

theorem bootImage_second : e.bootImage a b 0x1FF stores =
    (let x := e.secondStep
     let ca := checkImage e.fuses (e.rd Reg.GEN_ID_SILICON) a
     let grant := fun (e : Eng) => if e.pins.flShareReq then e.flashShare true else e
     match ca with
     | .accepted head recs => (grant (((x.wr Reg.GEN_BOOT_IMG_A ca.code).takeImage 1 head).testPassed 2)).bootTests head recs 0x1FF stores
     | .rejected _ =>
       let cb := checkImage e.fuses (e.rd Reg.GEN_ID_SILICON) b
       let y := (x.wr Reg.GEN_BOOT_IMG_A ca.code).wr Reg.GEN_BOOT_IMG_B cb.code
       match cb with
       | .accepted head recs => (grant ((y.takeImage 2 head).testPassed 2)).bootTests head recs 0x1FF stores
       | .rejected _ => (grant y).testFailed 2 2) := by
  rw [← secondStep_silicon e]
  rfl

section
variable (hflash : e.pins.flShareReq = false)
include hflash

theorem bootImage_rejected {ca cb : Nat} (ha : checkImage e.fuses (e.rd Reg.GEN_ID_SILICON) a = .rejected ca)
    (hb : checkImage e.fuses (e.rd Reg.GEN_ID_SILICON) b = .rejected cb) : e.bootImage a b 0x1FF stores =
      ((e.secondStep.wr Reg.GEN_BOOT_IMG_A ca).wr Reg.GEN_BOOT_IMG_B cb).testFailed 2 2 := by
  rw [bootImage_second, ha, hb]
  exact congrArg (Eng.testFailed · 2 2) (if_neg (ne_of_eq_of_ne hflash Bool.false_ne_true))

theorem bootImage_accepted {head : List Byte} {recs : List ImgRec}
    (ha : checkImage e.fuses (e.rd Reg.GEN_ID_SILICON) a = .accepted head recs) : e.bootImage a b 0x1FF stores =
      (((e.secondStep.wr Reg.GEN_BOOT_IMG_A 1).takeImage 1 head).testPassed 2).bootTests head recs 0x1FF stores := by
  rw [bootImage_second, ha]
  exact congrArg (Eng.bootTests · head recs 0x1FF stores) (if_neg (ne_of_eq_of_ne hflash Bool.false_ne_true))

end

/-- Step 3 with every self-test passed. -/
def Eng.thirdStep (e : Eng) : Eng :=
  (((List.range 7).map (· + 3)).foldl (fun e n => e.testPassed n) (e.wr Reg.GEN_BOOT_STAGE 3)).flag Reg.SEC_STAT_ST_DONE true

theorem bootTests_passed {head : List Byte} {recs : List ImgRec} (hsvn : bit (fieldAt head 0x0C 4) 0 = false) :
    e.bootTests head recs 0x1FF stores = e.thirdStep.bootSram recs stores := by
  have hgood : ((List.range 7).map (· + 3)).takeWhile (fun n => bit 0x1FF (n - 1)) = (List.range 7).map (· + 3) := by decide
  have hnone : ((List.range 7).map (· + 3)).find? (fun n => !bit 0x1FF (n - 1)) = none := by decide
  rw [Eng.bootTests, hnone, hgood, hsvn]
  rfl

/-- Step 4 with the repairs of the stores counted. -/
def Eng.repairs (e : Eng) (soft : Nat) : Eng := (e.wr Reg.GEN_BOOT_STAGE 4).bumpBy Reg.MEM_SRAM_STAT_SOFT soft

theorem bootSram_faulty {recs : List ImgRec} {bank : Fin 112} (h : stores.faulty = some bank) : e.bootSram recs stores =
    (((e.repairs stores.soft).flag Reg.MEM_SRAM_STAT_FAIL true).wr Reg.MEM_SRAM_STAT_FAIL_BANK bank.val).bootFails 4 := by
  rw [Eng.bootSram, h]
  rfl

theorem bootSram_sound {recs : List ImgRec} (h : stores.faulty = none)
    (hwait : ((e.repairs stores.soft).each recs (fun r e => e.loadRecord r)).boot.stackCaps = []) : e.bootSram recs stores =
    ((e.repairs stores.soft).each recs (fun r e => e.loadRecord r)).wr Reg.GEN_BOOT_STAGE 5 := by
  rw [Eng.bootSram, h]
  refine if_neg (fun hfull => ?_)
  have hnone : List.length ([] : List (Nat × Nat)) = 8 := (congrArg List.length hwait).symm.trans hfull
  exact absurd hnone (by decide)

end

/-- Settles O24: step 1 by its frame, the later steps one after another; the wear records by the fold that reads them. -/
theorem powerOnRunsItsSteps : Obligations.PowerOnRunsItsSteps := by
  unfold Obligations.PowerOnRunsItsSteps
  intro s a b tests stores bad on
  have hon : on = fun te => (quiet s).firstStep te bad := rfl
  clear_value on
  subst hon
  refine ⟨fun hoff => ⟨fun hok => ?_, fun hok te => ?_, fun ca cb hok hflash ha hb => ?_,
    fun head recs hok hflash hcaps ha hsvn => ?_⟩, fun te u hsorted => ?_, rfl⟩
  · exact next_leaving (powerGood_testMode (e := quiet s) hoff hok)
  · exact next_leaving (powerGood_badFuses (e := quiet s) hoff hok te)
  · have hpins : ((quiet s).firstStep false bad).pins.flShareReq = false :=
      (congrArg (·.flShareReq) (firstStep_pins false bad)).trans hflash
    have hsame : ∀ r, checkImage ((quiet s).firstStep false bad).fuses
        (((quiet s).firstStep false bad).rd Reg.GEN_ID_SILICON) r = checkImage s.eng.fuses (s.eng.rd Reg.GEN_ID_SILICON) r :=
      fun r => congrArg₂ (checkImage · · r) (firstStep_fuses _ _) (firstStep_silicon _ _)
    exact next_leaving ((powerGood_image (e := quiet s) hoff hok).trans
      (bootImage_rejected hpins ((hsame a).trans ha) ((hsame b).trans hb)))
  · intro two three repaired four
    have hpins : ((quiet s).firstStep false bad).pins.flShareReq = false :=
      (congrArg (·.flShareReq) (firstStep_pins false bad)).trans hflash
    have hsame : ∀ r, checkImage ((quiet s).firstStep false bad).fuses
        (((quiet s).firstStep false bad).rd Reg.GEN_ID_SILICON) r = checkImage s.eng.fuses (s.eng.rd Reg.GEN_ID_SILICON) r :=
      fun r => congrArg₂ (checkImage · · r) (firstStep_fuses _ _) (firstStep_silicon _ _)
    have hboots : (quiet s).powerGood a b 0x1FF stores false = (two.testPassed 2).thirdStep.bootSram recs stores :=
      (powerGood_image (e := quiet s) hoff hok).trans
        ((bootImage_accepted hpins ((hsame a).trans ha)).trans (bootTests_passed hsvn))
    exact ⟨fun hwait hsound => next_leaving (hboots.trans (bootSram_sound hsound hwait)),
      fun bank hfaulty => next_leaving (hboots.trans (bootSram_faulty hfaulty))⟩
  · have hwear : ((quiet s).firstStep te bad).health.wear = wearRead s.eng.health.nvm bad := firstStep_wear te bad
    refine ⟨fun hu => (congrArg (look · u) hwear).trans (look_wearRead_sound hsorted hu), fun hu => ?_⟩
    refine ⟨kindStress s.eng.health.nvm bad u, (congrArg (look · u) hwear).trans ?_,
      fun v w hv hkind hw => stress_le_kindStress hsorted hv hkind hw, kindStress_attained hsorted⟩
    rw [look_wearRead, if_pos hu]

end Sys2Proof.Machine
end

section

/-! PROOF. Health, risk and wear (R416 to R425, R430). -/

namespace Sys2Proof.Machine

/-! ### BER_CODE (R418) -/

/-- The numbers below `n` that meet a predicate which holds downwards are the first ones. -/
theorem lt_length_filter_range {p : Nat → Bool} (hdown : ∀ {i j}, i ≤ j → p j = true → p i = true) {n c : Nat} (hc : c < n) :
    c < ((List.range n).filter p).length ↔ p c = true := by
  induction n with
  | zero => omega
  | succ n ih =>
    by_cases hn : p n = true
    · have hall : (List.range (n + 1)).filter p = List.range (n + 1) :=
        List.filter_eq_self.2 fun i hi => hdown (Nat.le_of_lt_succ (List.mem_range.1 hi)) hn
      rw [hall, List.length_range]
      exact ⟨fun _ => hdown (Nat.le_of_lt_succ hc) hn, fun _ => hc⟩
    · have hsame : (List.range (n + 1)).filter p = (List.range n).filter p := by simp [List.range_succ, hn]
      rw [hsame]
      rcases Nat.lt_succ_iff_lt_or_eq.1 hc with hlt | rfl
      · exact ih hlt
      · have hle : ((List.range c).filter p).length ≤ c := (List.length_filter_le _ _).trans_eq List.length_range
        exact ⟨fun h => absurd h (by omega), fun h => absurd h hn⟩

theorem berCode_none (received : Nat) : berCode 0 received = 0 := if_pos rfl

theorem le_berCode_iff {corr received c : Nat} (hcorr : 0 < corr) (hpos : 0 < c) (hle : c ≤ 255) :
    c ≤ berCode corr received ↔ received ^ 16 * 10 ^ c ≤ corr ^ 16 * 10 ^ 192 := by
  obtain ⟨i, rfl⟩ : ∃ i, c = i + 1 := ⟨c - 1, by omega⟩
  rw [berCode, if_neg (by omega), Nat.succ_le_iff, lt_length_filter_range (fun hij hj => ?_) (by omega), decide_eq_true_iff]
  rw [decide_eq_true_iff] at hj ⊢
  exact (Nat.mul_le_mul_left _ (Nat.pow_le_pow_right (by decide) (Nat.succ_le_succ hij))).trans hj

/-! ### A lane's report (R418, R461) -/

section
variable {e : Eng} {n corr received eye : Nat}

/-- The report as it is kept. -/
def Eng.laneTold (e : Eng) (n corr received eye : Nat) : LaneHealth :=
  { ber := berCode corr received, eye := min 500 eye, corr := min (2 ^ 32 - 1) ((e.laneHealth n).corr + corr),
    high := if e.rd Reg.GEN_PRUNE_CTL_LANE_BER ≤ berCode corr received then (e.laneHealth n).high + 1 else 0 }

/-- The report is kept and its symbols counted. -/
def Eng.keepsReport (e : Eng) (n corr : Nat) (l : LaneHealth) : Eng :=
  ({ e with health := { e.health with lanes := put e.health.lanes n l, fec := e.health.fec + corr } } : Eng).unitErr (128 + n) corr

theorem laneReport_unused (h : e.laneUsed n = false) : e.laneReport n corr received eye = e := if_pos ((Bool.not_eq_true' _).mpr h)

section
variable (hused : e.laneUsed n = true)
include hused

theorem laneReport_used : e.laneReport n corr received eye =
    (let l := e.laneTold n corr received eye
     let kept := e.keepsReport n corr l
     if e.on Reg.GEN_PRUNE_CTL_AUTO_LANE && 10 ≤ l.high then
       (kept.setHealth (fun h => { h with lanes := put h.lanes n { l with high := 0 } })).pruneLane n
     else kept) := if_neg (by simp [hused])

theorem laneReport_kept (h : e.on Reg.GEN_PRUNE_CTL_AUTO_LANE = false ∨ (e.laneTold n corr received eye).high < 10) :
    e.laneReport n corr received eye = e.keepsReport n corr (e.laneTold n corr received eye) := by
  rw [laneReport_used hused]
  refine if_neg fun hgo => ?_
  obtain ⟨hauto, hten⟩ := Bool.and_eq_true_iff.1 hgo
  rcases h with h | h
  · exact absurd (h.symm.trans hauto) Bool.false_ne_true
  · exact absurd (of_decide_eq_true hten) (Nat.not_le.2 h)

theorem laneReport_prunes (hauto : e.on Reg.GEN_PRUNE_CTL_AUTO_LANE = true) (hten : 10 ≤ (e.laneTold n corr received eye).high) :
    e.laneReport n corr received eye =
      ((e.keepsReport n corr (e.laneTold n corr received eye)).setHealth
        (fun h => { h with lanes := put h.lanes n { e.laneTold n corr received eye with high := 0 } })).pruneLane n := by
  rw [laneReport_used hused]
  exact if_pos (Bool.and_eq_true_iff.2 ⟨hauto, decide_eq_true hten⟩)

end
end

/-! ### Wear samples (R419, R423) -/

/-- The engine apart from its wear records. -/
def Eng.beyondWear (e : Eng) : Eng := { e with health := { e.health with wear := [] } }

theorem beyondWear_each {α : Type} {g : α → Eng → Eng} (h : ∀ x e, (g x e).beyondWear = e.beyondWear) (xs : List α) (e : Eng) :
    (e.each xs g).beyondWear = e.beyondWear := by
  induction xs generalizing e with
  | nil => rfl
  | cons x xs ih => exact (ih (g x e)).trans (h x e)

theorem beyondWear_sampleUnit (e : Eng) (kind unit n stress : Nat) :
    (e.sampleUnit kind unit n stress).beyondWear = e.beyondWear := (rfl)

/-- A quadrant's last reading (R416). -/
def lastTemp (hours : List (List Nat)) (i : Nat) : Nat := min 150 ((hours.getLastD []).getD (8 + i) 0)

/-- The last readings stand. -/
def Eng.showsTemps (e : Eng) (hours : List (List Nat)) : Eng :=
  let e := e.wr Reg.HLT_TEMP_T3_T0
    (lastTemp hours 0 + 256 * lastTemp hours 1 + 65536 * lastTemp hours 2 + 16777216 * lastTemp hours 3)
  e.wr Reg.HLT_TEMP_MAX (max (e.rd Reg.HLT_TEMP_MAX) e.hottest)

/-- Every unit is sampled. -/
def Eng.samplesUnits (e : Eng) (hours : List (List Nat)) : Eng :=
  let err := fun (e : Eng) (k : Nat) => (look e.health.errs k).getD 0
  let e := e.each (List.range 8) (fun s e => e.sampleUnit 0 s (err e s) (stressOver hours s))
  let e := e.each (List.range 64) (fun l e =>
    e.sampleUnit 1 l (err e (128 + l) / 2 ^ 20) ((look e.health.full l).getD 0 * 2 ^ 20 / 60))
  e.each (List.range 112) (fun b e => e.sampleUnit 2 b (err e (256 + b)) (stressOver hours (8 + b / 28)))

def Health.nextSample (h : Health) : Health := { h with errs := [], full := [], wearNo := h.wearNo + 1 }

theorem wearSample_eq (e : Eng) (hours : List (List Nat)) :
    e.wearSample hours = (((e.showsTemps hours).samplesUnits hours).setHealth Health.nextSample).eolMin.saveWear := (rfl)

theorem samplesUnits_beyond (e : Eng) (hours : List (List Nat)) : (e.samplesUnits hours).beyondWear = e.beyondWear := by
  rw [Eng.samplesUnits, beyondWear_each fun _ _ => beyondWear_sampleUnit _ _ _ _ _,
    beyondWear_each fun _ _ => beyondWear_sampleUnit _ _ _ _ _, beyondWear_each fun _ _ => beyondWear_sampleUnit _ _ _ _ _]

/-- The engine apart from NVM and what waits for it. -/
def Eng.beyondNvm (e : Eng) : Eng :=
  { e with out := [], edge := { e.edge with wearQ := [] }, health := { e.health with nvmNo := 0, nvm := [] } }

theorem saveWear_beyond (e : Eng) : e.saveWear.beyondNvm = e.beyondNvm := by
  rw [Eng.saveWear]
  split <;> rfl

section
variable {x y : Eng} (h : x.beyondNvm = y.beyondNvm)
include h

theorem health_of_beyondNvm : x.health.wearNo = y.health.wearNo ∧ x.health.errs = y.health.errs ∧ x.health.full = y.health.full :=
  ⟨(congrArg (·.health.wearNo) h :), (congrArg (·.health.errs) h :), (congrArg (·.health.full) h :)⟩

theorem mem_of_beyondNvm : x.mem = y.mem ∧ x.rings = y.rings ∧ x.regs = y.regs :=
  ⟨(congrArg Eng.mem h :), (congrArg Eng.rings h :), (congrArg Eng.regs h :)⟩

end

section
variable {x y : Eng} (h : x.beyondWear = y.beyondWear)
include h

theorem wearNo_of_beyondWear : x.health.wearNo = y.health.wearNo := (congrArg (·.health.wearNo) h :)

theorem mem_of_beyondWear : x.mem = y.mem ∧ x.rings = y.rings ∧ x.regs = y.regs :=
  ⟨(congrArg Eng.mem h :), (congrArg Eng.rings h :), (congrArg Eng.regs h :)⟩

end

theorem mem_eolMin (x : Eng) (f : Health → Health) : (x.setHealth f).eolMin.mem = x.mem := (rfl)
theorem rings_eolMin (x : Eng) (f : Health → Health) : (x.setHealth f).eolMin.rings = x.rings := (rfl)

section
variable (e : Eng) (hours : List (List Nat))

theorem wearSample_health : (e.wearSample hours).health.wearNo = e.health.wearNo + 1 ∧
    (e.wearSample hours).health.errs = [] ∧ (e.wearSample hours).health.full = [] := by
  rw [wearSample_eq]
  have hnvm := health_of_beyondNvm
    (saveWear_beyond (((e.showsTemps hours).samplesUnits hours).setHealth Health.nextSample).eolMin)
  have hwear := wearNo_of_beyondWear (samplesUnits_beyond (e.showsTemps hours) hours)
  obtain ⟨hno, herrs, hfull⟩ := hnvm
  refine ⟨hno.trans ?_, herrs, hfull⟩
  exact congrArg (· + 1) hwear

theorem wearSample_mem : (e.wearSample hours).mem = e.mem ∧ (e.wearSample hours).rings = e.rings := by
  rw [wearSample_eq]
  obtain ⟨hmem, hrings, -⟩ := mem_of_beyondNvm
    (saveWear_beyond (((e.showsTemps hours).samplesUnits hours).setHealth Health.nextSample).eolMin)
  obtain ⟨hmem', hrings', -⟩ := mem_of_beyondWear (samplesUnits_beyond (e.showsTemps hours) hours)
  exact ⟨(hmem.trans (mem_eolMin _ _)).trans hmem', (hrings.trans (rings_eolMin _ _)).trans hrings'⟩

theorem lastTemp_le (i : Nat) : lastTemp hours i ≤ 150 := Nat.min_le_left _ _

theorem rd_wearSample_temps : (e.wearSample hours).rd Reg.HLT_TEMP_T3_T0 =
    lastTemp hours 0 + 256 * lastTemp hours 1 + 65536 * lastTemp hours 2 + 16777216 * lastTemp hours 3 := by
  rw [wearSample_eq]
  obtain ⟨-, -, hregs⟩ := mem_of_beyondNvm
    (saveWear_beyond (((e.showsTemps hours).samplesUnits hours).setHealth Health.nextSample).eolMin)
  obtain ⟨-, -, hregs'⟩ := mem_of_beyondWear (samplesUnits_beyond (e.showsTemps hours) hours)
  rw [Eng.rd_congr hregs, rd_eolMin _ (by decide) (by decide) (by decide), rd_setHealth, Eng.rd_congr hregs', Eng.showsTemps,
    Eng.rd_wr_ne _ _ (by decide), Eng.rd_wr_same]
  have h0 := lastTemp_le hours 0
  have h1 := lastTemp_le hours 1
  have h2 := lastTemp_le hours 2
  have h3 := lastTemp_le hours 3
  have hlt : lastTemp hours 0 + 256 * lastTemp hours 1 + 65536 * lastTemp hours 2 + 16777216 * lastTemp hours 3 < 4294967296 := by
    omega
  exact Nat.mod_eq_of_lt hlt

theorem bits_packed {a b c d : Nat} (ha : a < 256) (hb : b < 256) (hc : c < 256) (hd : d < 256) :
    bits (a + 256 * b + 65536 * c + 16777216 * d) 7 0 = a ∧ bits (a + 256 * b + 65536 * c + 16777216 * d) 15 8 = b ∧
      bits (a + 256 * b + 65536 * c + 16777216 * d) 23 16 = c ∧ bits (a + 256 * b + 65536 * c + 16777216 * d) 31 24 = d := by
  simp only [bits, Nat.shiftRight_eq_div_pow]
  omega

theorem quadTemp_wearSample {q : Nat} (hq : q < 4) : (e.wearSample hours).quadTemp q = lastTemp hours q := by
  have hlt : ∀ i, lastTemp hours i < 256 := fun i => (lastTemp_le hours i).trans_lt (by decide)
  obtain ⟨h0, h1, h2, h3⟩ := bits_packed (hlt 0) (hlt 1) (hlt 2) (hlt 3)
  rw [Eng.quadTemp, rd_wearSample_temps]
  match q, hq with
  | 0, _ => exact h0
  | 1, _ => exact h1
  | 2, _ => exact h2
  | 3, _ => exact h3

end

/-! ### The risk (R420 to R422) -/

/-- The risk of the second is shown and kept at its peak. -/
def Eng.knowsRisk (e : Eng) : Eng :=
  let risk := riskOf (e.rd Reg.HLT_RISK_W2_BASE) e.weights e.indicators
  (({ e with health := { e.health with x := e.indicators, fec := 0 } } : Eng).wr Reg.HLT_RISK_RISK risk).wr
    Reg.HLT_RISK_PEAK (max (e.rd Reg.HLT_RISK_PEAK) risk)

section
variable (e : Eng)

theorem rd_knowsRisk {f : Fld} (hrisk : f.key ≠ Reg.HLT_RISK_RISK.key) (hpeak : f.key ≠ Reg.HLT_RISK_PEAK.key) :
    e.knowsRisk.rd f = e.rd f := (Eng.rd_wr_ne _ _ hpeak).trans (Eng.rd_wr_ne _ _ hrisk)

theorem on_knowsRisk {f : Fld} (hrisk : f.key ≠ Reg.HLT_RISK_RISK.key) (hpeak : f.key ≠ Reg.HLT_RISK_PEAK.key) :
    e.knowsRisk.on f = e.on f :=
  (Eng.on_wr_ne _ _ hpeak).trans (Eng.on_wr_ne _ _ hrisk)

theorem locked_knowsRisk : e.knowsRisk.locked = e.locked :=
  on_knowsRisk e (f := Reg.GEN_START_LOCKED) (by decide) (by decide)

theorem serving_knowsRisk : e.knowsRisk.serving = e.serving :=
  congrArg₂ (fun oos fenced => !oos && !fenced) (on_knowsRisk e (f := Reg.GEN_RESET_STAT_OOS) (by decide) (by decide))
    (on_knowsRisk e (f := Reg.RBD_LOSS_STAT_FENCED) (by decide) (by decide))

theorem inReset_knowsRisk : e.knowsRisk.boot.inReset = e.boot.inReset := rfl

theorem riskEvaluation_eq : e.riskEvaluation =
    (let risk := riskOf (e.rd Reg.HLT_RISK_W2_BASE) e.weights e.indicators
     if e.knowsRisk.locked && e.knowsRisk.serving && !e.knowsRisk.boot.inReset then
       ((e.knowsRisk.thickRule risk).evacRule risk).dueCheck
     else e.knowsRisk) := (rfl)

theorem riskEvaluation_before {e : Eng} (h : e.locked = false) : e.riskEvaluation = e.knowsRisk := by
  rw [riskEvaluation_eq, locked_knowsRisk, h]
  rfl

theorem riskEvaluation_inJob {e : Eng} (hlocked : e.locked = true) (hserving : e.serving = true) (hin : e.boot.inReset = false) :
    e.riskEvaluation =
      (let risk := riskOf (e.rd Reg.HLT_RISK_W2_BASE) e.weights e.indicators
       ((e.knowsRisk.thickRule risk).evacRule risk).dueCheck) := by
  rw [riskEvaluation_eq, locked_knowsRisk, serving_knowsRisk, inReset_knowsRisk, hlocked, hserving, hin]
  rfl

end

/-! ### The link loop (R430) -/

section
variable {e : Eng} {p : Nat}

/-- Wakes of a port since the loop's last decision. -/
def Eng.newWakes (e : Eng) (p : Nat) : Nat := e.rd (Reg.GP_WAKES_COUNT p) - (look e.health.wakes p).getD 0

/-- What the loop wishes for the idle time. -/
def Eng.idleWish (e : Eng) (p : Nat) : Nat :=
  if e.rd Reg.HLT_LINK_LOOP_WAKE_HI < e.newWakes p then 2 * e.rd (Reg.GP_PWR_IDLE p)
  else if 4 * e.newWakes p < e.rd Reg.HLT_LINK_LOOP_WAKE_HI then max 1 (e.rd (Reg.GP_PWR_IDLE p) / 2)
  else e.rd (Reg.GP_PWR_IDLE p)

/-- The idle time follows the wish within the bounds. -/
def Eng.setsIdle (e : Eng) (p wish : Nat) : Eng :=
  ({ e with health := { e.health with wakes := put e.health.wakes p (e.rd (Reg.GP_WAKES_COUNT p)) } } : Eng).wr (Reg.GP_PWR_IDLE p)
    (clampTo (e.rd Reg.HLT_LINK_LOOP_FLOOR) (e.rd Reg.HLT_LINK_LOOP_CEIL) wish)

section
variable (hen : e.on Reg.HLT_LINK_LOOP_EN = true) {wish : Nat} (hwish : e.idleWish p = wish)
include hen hwish

theorem linkDecision_eq : e.linkDecision p =
    if e.rd Reg.HLT_LINK_LOOP_CEIL < wish then (e.setsIdle p wish).advise 2 p wish Reg.HLT_ADVICE_LINK .LINK_ADVICE
    else e.setsIdle p wish := by
  subst hwish
  have hset : (if e.on Reg.HLT_LINK_LOOP_EN then e.setsIdle p (e.idleWish p)
      else ({ e with health := { e.health with wakes := put e.health.wakes p (e.rd (Reg.GP_WAKES_COUNT p)) } } : Eng)) =
      e.setsIdle p (e.idleWish p) := if_pos hen
  rw [← hset]
  rfl

theorem linkDecision_sets (hle : wish ≤ e.rd Reg.HLT_LINK_LOOP_CEIL) : e.linkDecision p = e.setsIdle p wish :=
  (linkDecision_eq hen hwish).trans (if_neg (Nat.not_lt.2 hle))

theorem linkDecision_advises (hlt : e.rd Reg.HLT_LINK_LOOP_CEIL < wish) :
    e.linkDecision p = (e.setsIdle p wish).advise 2 p wish Reg.HLT_ADVICE_LINK .LINK_ADVICE :=
  (linkDecision_eq hen hwish).trans (if_pos hlt)

end

theorem idleWish_doubles (h : e.rd Reg.HLT_LINK_LOOP_WAKE_HI < e.newWakes p) : e.idleWish p = 2 * e.rd (Reg.GP_PWR_IDLE p) :=
  if_pos h

theorem idleWish_stays (hle : e.newWakes p ≤ e.rd Reg.HLT_LINK_LOOP_WAKE_HI) (hge : e.rd Reg.HLT_LINK_LOOP_WAKE_HI ≤ 4 * e.newWakes p) :
    e.idleWish p = e.rd (Reg.GP_PWR_IDLE p) := (if_neg (Nat.not_lt.2 hle)).trans (if_neg (Nat.not_lt.2 hge))

theorem idleWish_halves (h : 4 * e.newWakes p < e.rd Reg.HLT_LINK_LOOP_WAKE_HI) :
    e.idleWish p = max 1 (e.rd (Reg.GP_PWR_IDLE p) / 2) := (if_neg (by omega)).trans (if_pos h)

end

/-- Settles O48: each measurement by its equation, each decision by its branch. -/
theorem healthCommandsMeasureAndDecide : Obligations.HealthCommandsMeasureAndDecide := by
  unfold Obligations.HealthCommandsMeasureAndDecide
  intro s halive e
  have hon : e.alive = true := halive
  refine ⟨next_leaving (if_pos hon), fun n corr received eye => ?_, fun hhigh => ?_, fun hlow us => ?_, fun hours => ?_, ?_,
    fun p hready hen => ?_⟩
  · intro ber
    refine ⟨fun hnone => by rw [show ber = berCode corr received from rfl, hnone, berCode_none],
      fun hcorr c hpos hle => le_berCode_iff hcorr hpos hle, fun hunused => ?_, fun hused => ?_⟩
    · exact next_leaving ((if_pos hon).trans (laneReport_unused hunused))
    · exact ⟨fun h => next_leaving ((if_pos hon).trans (laneReport_kept hused h)),
        fun hauto hten => next_leaving ((if_pos hon).trans (laneReport_prunes hused hauto hten))⟩
  · exact next_leaving (if_pos (Bool.and_eq_true_iff.2 ⟨hhigh, hon⟩))
  · exact next_leaving (if_pos (Bool.and_eq_true_iff.2 ⟨(Bool.not_eq_true' _).mpr hlow, hon⟩))
  · obtain ⟨hno, herrs, hfull⟩ := wearSample_health e hours
    obtain ⟨hmem, hrings⟩ := wearSample_mem e hours
    exact ⟨e.wearSample hours, next_leaving (if_pos hon), hno, herrs, hfull, hmem, hrings,
      fun q hq => quadTemp_wearSample e hours hq⟩
  · intro x risk known
    exact ⟨fun h => next_leaving ((if_pos hon).trans (congrArg Eng.settle (riskEvaluation_before (e := e) h))),
      fun hlocked hserving hin =>
        next_leaving ((if_pos hon).trans (congrArg Eng.settle (riskEvaluation_inJob (e := e) hlocked hserving hin)))⟩
  · intro total w noted idle hi set
    have hexec : exec (.linkLoopDecision p) s = .next (leaving s (e.linkDecision p)) := next_leaving (if_pos hready)
    rw [hexec]
    exact ⟨fun hmany hle => next_leaving (linkDecision_sets hen (idleWish_doubles hmany) hle),
      fun hmany hlt => next_leaving (linkDecision_advises hen (idleWish_doubles hmany) hlt),
      fun hfew hsome hle => next_leaving (linkDecision_sets hen (idleWish_stays hfew hsome) hle),
      fun hfew hle => next_leaving (linkDecision_sets hen (idleWish_halves hfew) hle)⟩

end Sys2Proof.Machine
end
